-- ==== Sys2Proof/Word.lean ====
section
/-! DEFINITION. The word types of the Bluette Tirov (00_scope.md R3, R4) and the field types of its encodings. -/
namespace Sys2Proof

/-- One byte of scratchpad or DRAM. -/
abbrev Byte := BitVec 8
/-- A `g` register, a scratchpad word, a control register, a bundle (R43, R111). -/
abbrev W64 := BitVec 64
/-- A 256-bit key, template or care mask (R243). -/
abbrev Key := BitVec 256
/-- A tenant virtual address (R41). -/
abbrev VA := BitVec 48
/-- The number of a `g` register (R49). -/
abbrev Reg := BitVec 5
/-- The number of a predicate (R47). -/
abbrev Pred := BitVec 3
/-- The number of a field descriptor (R53, kind F). -/
abbrev Fld := BitVec 5
/-- The number of a tag (R53, kind T). -/
abbrev TagN := BitVec 3
/-- A format code (R61, R64, R77); 25 to 31 are reserved. -/
abbrev Fmt := BitVec 5
/-- The bits of one window row: data columns 0 to 255 and the tags in columns 256 to 263 (R158). -/
abbrev Row := BitVec 264

end Sys2Proof
end

