-- ==== Sys2Proof/Machine/Types.lean ====
section
/-! DEFINITION. The plain-data records that travel between agents: tuples, index and watch entries, requests, replies,
packets of the spire link. They stand before the instruction syntax because some event rows carry them as operands. -/
namespace Sys2Proof

/-- The three formats of the scalar floating-point majors (R125). -/
inductive FFmt where
  | fp32 | fp16 | bf16
  deriving DecidableEq, Repr

/-- Who sends or receives a message: a tile (0 to 767), a home (0 to 31), a launch unit (die 0 to 3), a function of a host
port (port, function), or an agent of another package: the peer context of the spire link that leads there, and the agent by
number (0 to 31 a home, 32 + x tile x, 800 + d a launch unit, 1000 + 257 port + function a host function). -/
inductive Agent where
  | tile (x : Nat)
  | home (h : Nat)
  | launch (d : Nat)
  | host (port fn : Nat)
  | peer (ctx who : Nat)
  deriving DecidableEq, Repr

/-- Payload of a tuple (R250, R290). -/
inductive Payload where
  | inline (bytes : List Byte)
  | pool (bytes : List Byte)
  | frozen (handle : W64) (off len asid : Nat)
  | grant (token : W64)
  deriving DecidableEq, Repr

/-- The V operations (R62). -/
inductive VKind where
  | vnop | vfld | vfldi | vfcpy | vvl | vvli | vfrd | vld | vst | vlds | vsts | vldr | vstr | vget |
    vput | vbc | vbci | vcopy | vtand | vtor | vtxor | vtandn | vtset | vtclr | vtfirst | vtcount |
    vtany | vceq | vclt | vcle | vadd | vsub | vneg | vabs | vmin | vmax | vmul | vand | vor | vxor |
    vnot | vshl | vshr | vsel | vfadd | vfsub | vfmul | vfmin | vfmax | vfceq | vfclt | vfcle | vlut8 |
    vlut16 | vsfn | vcvt | vrmax | vrmin | vrsum | vrfsum | vqbs | vdqbs | voutl | vpass | vseq |
    vucload
  deriving DecidableEq, Repr

/-- A V operation with its operand fields as numbers (R51): a field that the operation lacks is zero, `x` is the extension of a
V-long bundle; a `VPASS` keeps the low 24 bits of its pass word in `m`. -/
structure VOp where
  kind : VKind
  d : Nat
  a : Nat
  b : Nat
  t : Nat
  tn : Bool
  m : Nat
  x : Nat
  deriving DecidableEq, Repr

/-- The V operation that does nothing (R45). -/
abbrev VOp.vnop : VOp := ⟨.vnop, 0, 0, 0, 0, false, 0, 0⟩

/-- A tuple: key, payload, format code and shape (R250). -/
structure Tuple where
  key : Key
  pay : Payload
  fmt : Nat
  shape : BitVec 128
  deriving DecidableEq, Repr

/-- A task packet as its 8-byte words (R366). -/
abbrev Packet := List W64

/-- The forms of a read or take (R293); the last two are reads issued in a speculative window (R311). -/
inductive Form where
  | blocking | polling | cont | specB | specP
  deriving DecidableEq, Repr

/-- What a read or take asks of a home (R293): `nd` and `plen` govern the delivery, `packet` and `target` a continuation; `win` is the number
of the speculative window it was issued in, `fwd` that it reached its home forwarded (R326). -/
structure Get where
  take : Bool
  form : Form
  tmpl : Key
  care : Key
  deadline : Nat
  packet : Packet
  target : BitVec 32
  nd : Bool
  plen : Nat
  cid : Nat
  win : Nat
  fwd : Bool
  deriving DecidableEq, Repr

/-- The askers behind a request: one, with its operation, its ask or count and whether it is an arrival of `EXIT`, or two combined at the
switch of a number, the upper input first (R272). -/
inductive Comb where
  | one (who : Agent) (op : Nat) (n : Nat) (exit : Bool)
  | two (switch : Nat) (upper lower : Comb)
  deriving DecidableEq, Repr

/-- A block of a payload pool (R252): its byte offset in the pool and its size, a power of two; `sram` says that it lies in the cupola's SRAM
pool (R449). A packet record is a block of 256 bytes inside a granule of 4 KiB. -/
structure Blk where
  sram : Bool
  off : Nat
  size : Nat
  deriving DecidableEq, Repr

/-- Kinds of watch entry (R251); `reg` is the watch-table place of a tile registered on a barrier cell (R359). -/
inductive WatchKind where
  | readWaiter | takeWaiter | readCont | takeCont | spec | reg
  deriving DecidableEq, Repr

/-- A watch entry (R251); `due` is the cycle count of the home's die at which its deadline has passed (0: none), `entered`
the count at its entry; `blks` is the packet record of a continuation. -/
structure Watch where
  place : Nat
  gen : Nat
  kind : WatchKind
  tenant : Nat
  get : Get
  who : Agent
  op : Nat
  arr : Nat
  entered : Nat
  due : Nat
  blks : List Blk
  deriving DecidableEq, Repr

/-- What an index entry holds (R250, R260 to R262): a barrier cell's tiles each with the handle they registered by (R325). -/
inductive Cell where
  | tuple (pay : Payload)
  | range (next hi : Nat)
  | join (target count : Nat) (packet : Packet) (tile : BitVec 32)
  | barrier (target count phase : Nat) (tiles : List (Agent × W64))
  | acc (n pk size : Nat) (got : List (Nat × List Byte))
  deriving DecidableEq, Repr

/-- An index entry (R250). -/
structure Entry where
  place : Nat
  gen : Nat
  tenant : Nat
  key : Key
  seq : Nat
  cell : Cell
  fmt : Nat
  shape : BitVec 128
  /-- The offset of the first 64 bytes of the payload that hold an uncorrectable error (R297). -/
  bad : Option Nat
  /-- The pool blocks it holds (R252). -/
  blks : List Blk
  /-- The insertion sequence that it had at the home it has moved here from (R277, R324). -/
  old : Option Nat
  deriving DecidableEq, Repr

/-- What a delivery carries to its tile or host slot (R295): the matched tuple (none for an expiry or a cancellation), the
bytes read for it, its status, and for a continuation the packet that follows it, its target and its handle; `blks` are the tuple's pool blocks,
held until it has streamed out (R252). -/
structure Delivery where
  op : Nat
  status : Nat
  tup : Option Tuple
  bytes : List Byte
  seq : Nat
  take : Bool
  packet : Option (Packet × BitVec 32 × W64)
  fwd : Bool
  blks : List Blk
  deriving DecidableEq, Repr

/-- A `SPLIT` as its source home receives it (R318, R320). -/
structure SplitReq where
  op : Nat
  space : Nat
  lo : Nat
  target : BitVec 32
  ntbase : Nat
  nentm : Nat
  deriving DecidableEq, Repr

/-- What a moving half needs at its target (R320, R321): index places for tuples and for cells, watch places for waiters and continuations and
for the watches installed at cut-over, pool blocks of the tuples and continuations and of the cells by size. -/
structure SplitRoom where
  tuples : Nat
  cells : Nat
  waits : Nat
  watches : Nat
  blks : List Nat
  cblks : List Nat
  deriving DecidableEq, Repr

/-- A region access asked of another package (R307, R335). -/
structure RemoteCopy where
  token : W64
  va : Nat
  len : Nat
  block : Nat
  write : Bool
  bytes : List Byte
  tile : BitVec 32
  deriving DecidableEq, Repr

/-- The bodies of messages on the request, payload and spire networks. -/
inductive Body where
  | put (op : Nat) (t : Tuple)
  | get (op : Nat) (g : Get)
  | rangeTake (key : Key) (n : Nat) (who : Comb)
  | rangeNew (op : Nat) (key : Key) (lo hi : Nat)
  | accNew (op : Nat) (key : Key) (n pk size : Nat) (fmt : Nat) (shape : BitVec 128)
  | accAdd (op : Nat) (key : Key) (i : Nat) (bytes : List Byte)
  | ctrNew (op : Nat) (key : Key) (target : Nat) (barrier : Bool) (packet : Packet) (tile : BitVec 32)
  | ctrAdd (handle : W64) (count : Nat) (who : Comb)
  | cancel (op : Nat) (handle : W64)
  | barReg (op : Nat) (handle : W64) (named : W64)
  | unwatch (cid : Nat)
  | dropWaits (cid : Nat)
  | resetCancel
  | split (r : SplitReq)
  | splitAsk (r : SplitReq) (mid hi rf : Nat) (room : SplitRoom)
  | splitAnswer (ok : Bool)
  | splitMore (room : SplitRoom)
  | splitAck
  | splitMap (maps : List (W64 × W64))
  | splitEntry (e : Entry)
  | splitWatch (w : Watch) (left : Nat)
  | splitInval (index : Bool) (place : Nat)
  | splitFull (st : Nat)
  | splitMark (cells : List Entry) (specs : List Watch)
  | moveEntry (e : Entry)
  | moveWatch (w : Watch) (left : Nat)
  | reply (op status : Nat) (val : W64) (fwd : Bool)
  | rangeReply (base count status : Nat) (who : Comb) (fwd : Bool)
  | ctrReply (status : Nat) (who : Comb) (fwd : Bool)
  | deliver (d : Delivery)
  | permit (op beats : Nat)
  | permitCancel (op : Nat)
  | reenter (t : Tuple) (bad : Option Nat) (seq : Nat)
  | packet (words : Packet) (sender : Option Nat) (handle : Option W64)
  | notify (cid win note : Nat)
  | notified (note : Nat)
  | withdraw (op : Nat)
  | release (handle : W64) (phase : Nat)
  | routeInval (space : Nat)
  | tookAck (op seq : Nat) (undo : Bool)
  | splitDone (op moved mid status : Nat)
  | remoteCopy (op : Nat) (c : RemoteCopy)
  | remoteData (op : Nat) (bytes : List Byte) (block : Nat) (status : Nat) (fault : Nat)
  deriving DecidableEq, Repr

/-- A message in flight (R271). `tenant` is the tenant in whose name it travels, `asid` the ASID captured at issue,
`hops` how often it has been forwarded (R326), `sent` how many payload bytes have already streamed in (R275), `perm` that the permits for the
streams of a put or contribution have been sent (R274, R290), `via` the home that sent it on last (R326). -/
structure Msg where
  id : Nat
  src : Agent
  dst : Agent
  tenant : Nat
  asid : Nat
  hops : Nat
  sent : Nat
  perm : Bool
  body : Body
  via : Option Agent
  deriving DecidableEq, Repr

/-- Transport packet types (R329). -/
inductive SpireType where
  | request | reply | data | ack | other
  deriving DecidableEq, Repr

/-- The frame around a transport packet (R328): MAC addresses, VLAN identifier if tagged, DSCP value, IPv6 addresses, UDP ports and checksum. -/
structure SpireNet where
  dstMac : BitVec 48 := 0
  srcMac : BitVec 48 := 0
  vlan : Option Nat := none
  dscp : Nat := 0
  srcIp : BitVec 128 := 0
  dstIp : BitVec 128 := 0
  srcPort : Nat := 0
  dstPort : Nat := 0
  sum : Nat := 0
  deriving DecidableEq, Repr

/-- A transport packet (R329): the fields of its header, an ack's 256 bits, its payload bytes, the message it is part of, and its frame. `bad` says
that it is a received fragment or carries an extension header (R328); `spare` holds the header's reserved bits as they came, word 0's above word 3's.
-/
structure SpirePacket where
  ver : Nat
  type : SpireType
  psn : Nat
  rctx : Nat
  sctx : Nat
  msn : Nat
  off : Nat
  mlen : Nat
  plen : Nat
  acks : BitVec 256
  bad : Bool
  data : List Byte
  body : Option Msg
  net : SpireNet
  spare : BitVec 72
  deriving DecidableEq, Repr

/-- Readings of the belfry's sensors at one sample, and the counters of the parts below the model: corrected and uncorrected errors of each DRAM
stack, AER counts of each host port, corrected FEC symbols of each spire port (R437): inputs from outside the machine. Temperatures in 0.1 C. -/
structure Sensors where
  power : Nat
  die : List Int
  cupola : List Int
  stack : List Int
  inlet : Int
  outlet : Int
  stackCorrected : List Nat := []
  stackUncorrected : List Nat := []
  aer : List Nat := []
  fec : List Nat := []
  deriving DecidableEq, Repr

end Sys2Proof
end

