-- ==== Sys2Proof/Syntax.lean ====
section
/-! DEFINITION. The syntax of the machine: one constructor per row of spec/opcode_table.json, in the order of the table.

Rows 0 to 210 are the S operations (02_encoding.md R60), row 211 is the issue of an encoding that is no instruction (R63), rows 212
to 277 are the V operations (R62). An instruction row stands for what a bundle that carries it does when it issues. The rows
after them are the events of the other agents; an event names the tile, home, message or record that it is about. -/
namespace Sys2Proof

inductive Instr where
  /-- `NOP` (R60): Does nothing and takes one issue cycle of its slot. -/
  | nop
  /-- `ADD` (R115): Writes (a + b) mod 2^64 to gd, with b taken from gb. -/
  | add (rd : Reg) (ra : Reg) (rb : Reg)
  /-- `ADD_SL` (R115): SL twin of ADD: the sign-extended imm32 takes the place of gb. -/
  | addSl (rd : Reg) (ra : Reg) (imm : BitVec 32)
  /-- `SUB` (R115): Writes (a - b) mod 2^64 to gd. -/
  | sub (rd : Reg) (ra : Reg) (rb : Reg)
  /-- `SUB_SL` (R115): SL twin of SUB, with the operand taken from imm32. -/
  | subSl (rd : Reg) (ra : Reg) (imm : BitVec 32)
  /-- `AND` (R115): Writes the bitwise AND of a and b to gd. -/
  | and (rd : Reg) (ra : Reg) (rb : Reg)
  /-- `AND_SL` (R115): SL twin of AND, with the operand taken from imm32. -/
  | andSl (rd : Reg) (ra : Reg) (imm : BitVec 32)
  /-- `OR` (R115): Writes the bitwise OR of a and b to gd. -/
  | or (rd : Reg) (ra : Reg) (rb : Reg)
  /-- `OR_SL` (R115): SL twin of OR, with the operand taken from imm32. -/
  | orSl (rd : Reg) (ra : Reg) (imm : BitVec 32)
  /-- `XOR` (R115): Writes the bitwise XOR of a and b to gd. -/
  | xor (rd : Reg) (ra : Reg) (rb : Reg)
  /-- `XOR_SL` (R115): SL twin of XOR, with the operand taken from imm32. -/
  | xorSl (rd : Reg) (ra : Reg) (imm : BitVec 32)
  /-- `ANDN` (R115): Writes a AND NOT b to gd. -/
  | andn (rd : Reg) (ra : Reg) (rb : Reg)
  /-- `ANDN_SL` (R115): SL twin of ANDN, with the operand taken from imm32. -/
  | andnSl (rd : Reg) (ra : Reg) (imm : BitVec 32)
  /-- `ORN` (R115): Writes a OR NOT b to gd. -/
  | orn (rd : Reg) (ra : Reg) (rb : Reg)
  /-- `ORN_SL` (R115): SL twin of ORN, with the operand taken from imm32. -/
  | ornSl (rd : Reg) (ra : Reg) (imm : BitVec 32)
  /-- `XNOR` (R115): Writes NOT (a XOR b) to gd. -/
  | xnor (rd : Reg) (ra : Reg) (rb : Reg)
  /-- `XNOR_SL` (R115): SL twin of XNOR, with the operand taken from imm32. -/
  | xnorSl (rd : Reg) (ra : Reg) (imm : BitVec 32)
  /-- `SLL` (R115): Shifts a left by b[5:0], shifting in zeros. -/
  | sll (rd : Reg) (ra : Reg) (rb : Reg)
  /-- `SLL_SL` (R115): SL twin of SLL, with the shift amount taken from imm32. -/
  | sllSl (rd : Reg) (ra : Reg) (imm : BitVec 32)
  /-- `SRL` (R115): Shifts a right logically by b[5:0]. -/
  | srl (rd : Reg) (ra : Reg) (rb : Reg)
  /-- `SRL_SL` (R115): SL twin of SRL, with the shift amount taken from imm32. -/
  | srlSl (rd : Reg) (ra : Reg) (imm : BitVec 32)
  /-- `SRA` (R115): Shifts a right arithmetically by b[5:0]. -/
  | sra (rd : Reg) (ra : Reg) (rb : Reg)
  /-- `SRA_SL` (R115): SL twin of SRA, with the shift amount taken from imm32. -/
  | sraSl (rd : Reg) (ra : Reg) (imm : BitVec 32)
  /-- `ROR` (R115): Rotates a right by b[5:0]. -/
  | ror (rd : Reg) (ra : Reg) (rb : Reg)
  /-- `ROR_SL` (R115): SL twin of ROR, with the rotate amount taken from imm32. -/
  | rorSl (rd : Reg) (ra : Reg) (imm : BitVec 32)
  /-- `MIN` (R115): Writes the signed minimum of a and b. -/
  | min (rd : Reg) (ra : Reg) (rb : Reg)
  /-- `MIN_SL` (R115): SL twin of MIN, with the operand taken from imm32. -/
  | minSl (rd : Reg) (ra : Reg) (imm : BitVec 32)
  /-- `MAX` (R115): Writes the signed maximum of a and b. -/
  | max (rd : Reg) (ra : Reg) (rb : Reg)
  /-- `MAX_SL` (R115): SL twin of MAX, with the operand taken from imm32. -/
  | maxSl (rd : Reg) (ra : Reg) (imm : BitVec 32)
  /-- `MINZ` (R115): Writes the unsigned minimum of a and b. -/
  | minz (rd : Reg) (ra : Reg) (rb : Reg)
  /-- `MINZ_SL` (R115): SL twin of MINZ, with imm32 zero-extended. -/
  | minzSl (rd : Reg) (ra : Reg) (imm : BitVec 32)
  /-- `MAXZ` (R115): Writes the unsigned maximum of a and b. -/
  | maxz (rd : Reg) (ra : Reg) (rb : Reg)
  /-- `MAXZ_SL` (R115): SL twin of MAXZ, with imm32 zero-extended. -/
  | maxzSl (rd : Reg) (ra : Reg) (imm : BitVec 32)
  /-- `ADDI` (R116): Adds the sign-extended imm9 to ga. -/
  | addi (rd : Reg) (ra : Reg) (imm : BitVec 9)
  /-- `MUL` (R117): Writes the low 64 bits of the product. -/
  | mul (rd : Reg) (ra : Reg) (rb : Reg)
  /-- `MUL_SL` (R117): SL twin of MUL, with the operand taken from imm32. -/
  | mulSl (rd : Reg) (ra : Reg) (imm : BitVec 32)
  /-- `MULH` (R117): Writes the high 64 bits of the signed product. -/
  | mulh (rd : Reg) (ra : Reg) (rb : Reg)
  /-- `MULH_SL` (R117): SL twin of MULH, with the operand taken from imm32. -/
  | mulhSl (rd : Reg) (ra : Reg) (imm : BitVec 32)
  /-- `MULHZ` (R117): Writes the high 64 bits of the unsigned product. -/
  | mulhz (rd : Reg) (ra : Reg) (rb : Reg)
  /-- `MULHZ_SL` (R117): SL twin of MULHZ, with imm32 zero-extended. -/
  | mulhzSl (rd : Reg) (ra : Reg) (imm : BitVec 32)
  /-- `MULHSZ` (R117): Writes the high 64 bits of the signed-by-unsigned product. -/
  | mulhsz (rd : Reg) (ra : Reg) (rb : Reg)
  /-- `MULHSZ_SL` (R117): SL twin of MULHSZ, with imm32 zero-extended. -/
  | mulhszSl (rd : Reg) (ra : Reg) (imm : BitVec 32)
  /-- `DIV` (R118): Signed division truncated toward zero, with fixed results for the borderline cases. -/
  | div (rd : Reg) (ra : Reg) (rb : Reg)
  /-- `DIV_SL` (R118): SL twin of DIV, with the divisor taken from imm32. -/
  | divSl (rd : Reg) (ra : Reg) (imm : BitVec 32)
  /-- `DIVZ` (R118): Unsigned division, with a fixed result for a zero divisor. -/
  | divz (rd : Reg) (ra : Reg) (rb : Reg)
  /-- `DIVZ_SL` (R118): SL twin of DIVZ, with imm32 zero-extended. -/
  | divzSl (rd : Reg) (ra : Reg) (imm : BitVec 32)
  /-- `REM` (R118): Signed remainder, with the sign of the dividend. -/
  | rem (rd : Reg) (ra : Reg) (rb : Reg)
  /-- `REM_SL` (R118): SL twin of REM, with the divisor taken from imm32. -/
  | remSl (rd : Reg) (ra : Reg) (imm : BitVec 32)
  /-- `REMZ` (R118): Unsigned remainder. -/
  | remz (rd : Reg) (ra : Reg) (rb : Reg)
  /-- `REMZ_SL` (R118): SL twin of REMZ, with imm32 zero-extended. -/
  | remzSl (rd : Reg) (ra : Reg) (imm : BitVec 32)
  /-- `CLZ` (R117): Counts the leading zero bits of a. -/
  | clz (rd : Reg) (ra : Reg)
  /-- `CTZ` (R117): Counts the trailing zero bits of a. -/
  | ctz (rd : Reg) (ra : Reg)
  /-- `POPC` (R117): Counts the one bits of a. -/
  | popc (rd : Reg) (ra : Reg)
  /-- `SXB` (R119): Sign-extends byte 0 of a. -/
  | sxb (rd : Reg) (ra : Reg)
  /-- `SXH` (R119): Sign-extends the low 16 bits of a. -/
  | sxh (rd : Reg) (ra : Reg)
  /-- `SXW` (R119): Sign-extends the low 32 bits of a. -/
  | sxw (rd : Reg) (ra : Reg)
  /-- `ZXB` (R119): Zero-extends byte 0 of a. -/
  | zxb (rd : Reg) (ra : Reg)
  /-- `ZXH` (R119): Zero-extends the low 16 bits of a. -/
  | zxh (rd : Reg) (ra : Reg)
  /-- `ZXW` (R119): Zero-extends the low 32 bits of a. -/
  | zxw (rd : Reg) (ra : Reg)
  /-- `SEL` (R119): Selects a when predicate pn is true, and b otherwise. -/
  | sel (rd : Reg) (pn : Pred) (ra : Reg) (rb : Reg)
  /-- `SEL_SL` (R119): SL twin of SEL, with b taken from imm32. -/
  | selSl (rd : Reg) (pn : Pred) (ra : Reg) (imm : BitVec 32)
  /-- `ADDX` (R120): Writes a + (b << s) mod 2^64. -/
  | addx (rd : Reg) (ra : Reg) (rb : Reg) (sc : BitVec 2)
  /-- `ADDX_SL` (R120): SL twin of ADDX, with b taken from the sign-extended imm32. -/
  | addxSl (rd : Reg) (ra : Reg) (imm : BitVec 32) (sc : BitVec 2)
  /-- `BFX` (R121): Extracts a bit field and sign-extends it. -/
  | bfx (rd : Reg) (ra : Reg) (pos : BitVec 6) (width : BitVec 7)
  /-- `BFXZ` (R121): Extracts a bit field and zero-extends it. -/
  | bfxz (rd : Reg) (ra : Reg) (pos : BitVec 6) (width : BitVec 7)
  /-- `BFI` (R121): Inserts the low bits of a into a bit field of gd. -/
  | bfi (rd : Reg) (ra : Reg) (pos : BitVec 6) (width : BitVec 7)
  /-- `LI` (R122): Loads the sign-extended imm32. -/
  | li (rd : Reg) (imm : BitVec 32)
  /-- `LIZ` (R122): Loads the zero-extended imm32. -/
  | liz (rd : Reg) (imm : BitVec 32)
  /-- `LIH` (R122): Writes imm32 into bits [63:32] of gd and keeps bits [31:0]. -/
  | lih (rd : Reg) (imm : BitVec 32)
  /-- `PAND` (R124): Writes the AND of two predicates. -/
  | pand (pd : Pred) (pa : Pred) (pb : Pred)
  /-- `POR` (R124): Writes the OR of two predicates. -/
  | por (pd : Pred) (pa : Pred) (pb : Pred)
  /-- `PXOR` (R124): Writes the XOR of two predicates. -/
  | pxor (pd : Pred) (pa : Pred) (pb : Pred)
  /-- `PANDN` (R124): Writes pa AND NOT pb. -/
  | pandn (pd : Pred) (pa : Pred) (pb : Pred)
  /-- `PORN` (R124): Writes pa OR NOT pb. -/
  | porn (pd : Pred) (pa : Pred) (pb : Pred)
  /-- `PNOR` (R124): Writes NOT (pa OR pb). -/
  | pnor (pd : Pred) (pa : Pred) (pb : Pred)
  /-- `PGET` (R124): Copies p0-p7 into the low bits of a g register. -/
  | pget (rd : Reg)
  /-- `PPUT` (R124): Sets p1-p7 from bits [7:1] of a g register. -/
  | pput (ra : Reg)
  /-- `CMP_EQ` (R123): Compares for equality and writes pt and pf. -/
  | cmpEq (pt : Pred) (pf : Pred) (ra : Reg) (rb : Reg)
  /-- `CMP_EQ_SL` (R123): SL twin of CMP.EQ against the sign-extended imm32. -/
  | cmpEqSl (pt : Pred) (pf : Pred) (ra : Reg) (imm : BitVec 32)
  /-- `CMP_LT` (R123): Signed less-than compare into pt and pf. -/
  | cmpLt (pt : Pred) (pf : Pred) (ra : Reg) (rb : Reg)
  /-- `CMP_LT_SL` (R123): SL twin of CMP.LT against the sign-extended imm32. -/
  | cmpLtSl (pt : Pred) (pf : Pred) (ra : Reg) (imm : BitVec 32)
  /-- `CMP_LE` (R123): Signed less-or-equal compare into pt and pf. -/
  | cmpLe (pt : Pred) (pf : Pred) (ra : Reg) (rb : Reg)
  /-- `CMP_LE_SL` (R123): SL twin of CMP.LE against the sign-extended imm32. -/
  | cmpLeSl (pt : Pred) (pf : Pred) (ra : Reg) (imm : BitVec 32)
  /-- `CMP_LTZ` (R123): Unsigned less-than compare into pt and pf. -/
  | cmpLtz (pt : Pred) (pf : Pred) (ra : Reg) (rb : Reg)
  /-- `CMP_LTZ_SL` (R123): SL twin of CMP.LTZ against the zero-extended imm32. -/
  | cmpLtzSl (pt : Pred) (pf : Pred) (ra : Reg) (imm : BitVec 32)
  /-- `CMP_LEZ` (R123): Unsigned less-or-equal compare into pt and pf. -/
  | cmpLez (pt : Pred) (pf : Pred) (ra : Reg) (rb : Reg)
  /-- `CMP_LEZ_SL` (R123): SL twin of CMP.LEZ against the zero-extended imm32. -/
  | cmpLezSl (pt : Pred) (pf : Pred) (ra : Reg) (imm : BitVec 32)
  /-- `LDB` (R145): Loads a sign-extended byte from scratchpad. -/
  | ldb (rd : Reg) (ra : Reg) (imm : BitVec 9)
  /-- `LDBZ` (R145): Loads a zero-extended byte from scratchpad. -/
  | ldbz (rd : Reg) (ra : Reg) (imm : BitVec 9)
  /-- `LDH` (R145): Loads a sign-extended halfword. -/
  | ldh (rd : Reg) (ra : Reg) (imm : BitVec 9)
  /-- `LDHZ` (R145): Loads a zero-extended halfword. -/
  | ldhz (rd : Reg) (ra : Reg) (imm : BitVec 9)
  /-- `LDW` (R145): Loads a sign-extended word. -/
  | ldw (rd : Reg) (ra : Reg) (imm : BitVec 9)
  /-- `LDWZ` (R145): Loads a zero-extended word. -/
  | ldwz (rd : Reg) (ra : Reg) (imm : BitVec 9)
  /-- `LDD` (R145): Loads a doubleword. -/
  | ldd (rd : Reg) (ra : Reg) (imm : BitVec 9)
  /-- `STB` (R145): Stores a byte to scratchpad. -/
  | stb (rd : Reg) (ra : Reg) (imm : BitVec 9)
  /-- `STH` (R145): Stores a halfword. -/
  | sth (rd : Reg) (ra : Reg) (imm : BitVec 9)
  /-- `STW` (R145): Stores a word. -/
  | stw (rd : Reg) (ra : Reg) (imm : BitVec 9)
  /-- `STD` (R145): Stores a doubleword; an 8-byte store over an uncorrectable word rewrites it and sets it empty. -/
  | std (rd : Reg) (ra : Reg) (imm : BitVec 9)
  /-- `LDX` (R146): Indexed load whose size, extension and scaling come from fn. -/
  | ldx (sz : BitVec 2) (zx : Bool) (scaled : Bool) (rd : Reg) (ra : Reg) (rb : Reg)
  /-- `STX` (R146): Indexed store whose size and scaling come from fn. -/
  | stx (sz : BitVec 2) (scaled : Bool) (rd : Reg) (ra : Reg) (rb : Reg)
  /-- `LDF` (R147): Waits for the word to be full, then loads it and leaves it full. -/
  | ldf (rd : Reg) (ra : Reg) (imm : BitVec 9)
  /-- `LDE` (R147): Waits for the word to be full, then loads it and sets it empty. -/
  | lde (rd : Reg) (ra : Reg) (imm : BitVec 9)
  /-- `STF` (R147): Stores the word and sets it full without waiting. -/
  | stf (rd : Reg) (ra : Reg) (imm : BitVec 9)
  /-- `STE` (R147): Waits for the word to be empty, then stores it and sets it full. -/
  | ste (rd : Reg) (ra : Reg) (imm : BitVec 9)
  /-- `WAITF` (R147): Waits until the word is full. -/
  | waitf (ra : Reg) (imm : BitVec 9)
  /-- `AMOADD` (R151): Atomic add on a scratchpad word, the width and return selected by the major. -/
  | amoadd (wide : Bool) (noret : Bool) (rd : Reg) (ra : Reg) (rb : Reg)
  /-- `AMOMAX` (R151): Atomic signed maximum. -/
  | amomax (wide : Bool) (noret : Bool) (rd : Reg) (ra : Reg) (rb : Reg)
  /-- `AMOMIN` (R151): Atomic signed minimum. -/
  | amomin (wide : Bool) (noret : Bool) (rd : Reg) (ra : Reg) (rb : Reg)
  /-- `AMOMAXZ` (R151): Atomic unsigned maximum. -/
  | amomaxz (wide : Bool) (noret : Bool) (rd : Reg) (ra : Reg) (rb : Reg)
  /-- `AMOMINZ` (R151): Atomic unsigned minimum. -/
  | amominz (wide : Bool) (noret : Bool) (rd : Reg) (ra : Reg) (rb : Reg)
  /-- `AMOAND` (R151): Atomic AND. -/
  | amoand (wide : Bool) (noret : Bool) (rd : Reg) (ra : Reg) (rb : Reg)
  /-- `AMOOR` (R151): Atomic OR. -/
  | amoor (wide : Bool) (noret : Bool) (rd : Reg) (ra : Reg) (rb : Reg)
  /-- `AMOXOR` (R151): Atomic XOR. -/
  | amoxor (wide : Bool) (noret : Bool) (rd : Reg) (ra : Reg) (rb : Reg)
  /-- `AMOSWAP` (R151): Atomic swap. -/
  | amoswap (wide : Bool) (noret : Bool) (rd : Reg) (ra : Reg) (rb : Reg)
  /-- `AMOCAS` (R151): Atomic compare-and-swap against the expected value in gd. -/
  | amocas (wide : Bool) (noret : Bool) (rd : Reg) (ra : Reg) (rb : Reg)
  /-- `AMOFADD` (R152): Atomic floating-point add, rounded RNE. -/
  | amofadd (half : Bool) (noret : Bool) (rd : Reg) (ra : Reg) (rb : Reg)
  /-- `AMOFMAX` (R153): Atomic floating-point maximum in which a NaN wins. -/
  | amofmax (half : Bool) (noret : Bool) (rd : Reg) (ra : Reg) (rb : Reg)
  /-- `AMOFMIN` (R153): Atomic floating-point minimum in which a NaN wins. -/
  | amofmin (half : Bool) (noret : Bool) (rd : Reg) (ra : Reg) (rb : Reg)
  /-- `DLOOK` (R156): Looks up a key in the key directory. -/
  | dlook (rd : Reg) (ra : Reg)
  /-- `DINS` (R156): Inserts a key, or updates its slot word. -/
  | dins (rd : Reg) (ra : Reg) (rb : Reg)
  /-- `DDEL` (R156): Deletes a key from the directory. -/
  | ddel (rd : Reg) (ra : Reg)
  /-- `FADD` (R125): Scalar floating-point add in FP32, FP16 or BF16. -/
  | fadd (fmt : FFmt) (rd : Reg) (ra : Reg) (rb : Reg)
  /-- `FSUB` (R125): Scalar floating-point subtract. -/
  | fsub (fmt : FFmt) (rd : Reg) (ra : Reg) (rb : Reg)
  /-- `FMUL` (R125): Scalar floating-point multiply. -/
  | fmul (fmt : FFmt) (rd : Reg) (ra : Reg) (rb : Reg)
  /-- `FMA` (R125): Fused multiply-add with gd as the addend. -/
  | fma (fmt : FFmt) (rd : Reg) (ra : Reg) (rb : Reg)
  /-- `FMIN` (R127): minimumNumber of the two operands. -/
  | fmin (fmt : FFmt) (rd : Reg) (ra : Reg) (rb : Reg)
  /-- `FMAX` (R127): maximumNumber of the two operands. -/
  | fmax (fmt : FFmt) (rd : Reg) (ra : Reg) (rb : Reg)
  /-- `FCLASS` (R128): Classifies the operand as a one-hot word. -/
  | fclass (fmt : FFmt) (rd : Reg) (ra : Reg)
  /-- `FCMP_EQ` (R129): Floating-point equality compare into pt and pf. -/
  | fcmpEq (fmt : FFmt) (pt : Pred) (pf : Pred) (ra : Reg) (rb : Reg)
  /-- `FCMP_LT` (R129): Floating-point less-than compare. -/
  | fcmpLt (fmt : FFmt) (pt : Pred) (pf : Pred) (ra : Reg) (rb : Reg)
  /-- `FCMP_LE` (R129): Floating-point less-or-equal compare. -/
  | fcmpLe (fmt : FFmt) (pt : Pred) (pf : Pred) (ra : Reg) (rb : Reg)
  /-- `FCMP_UN` (R129): Unordered compare: true when either operand is a NaN. -/
  | fcmpUn (fmt : FFmt) (pt : Pred) (pf : Pred) (ra : Reg) (rb : Reg)
  /-- `QBS_E2M1` (R100): Quantises sixteen FP32 values into a BS16.E2M1 block. -/
  | qbsE2m1 (rd : Reg) (ra : Reg) (rb : Reg)
  /-- `QBS_E4M3` (R100): Quantises sixteen FP32 values into a BS16.E4M3 block. -/
  | qbsE4m3 (rd : Reg) (ra : Reg) (rb : Reg)
  /-- `DQBS_E2M1` (R100): Dequantises a BS16.E2M1 block into sixteen FP32 values. -/
  | dqbsE2m1 (rd : Reg) (ra : Reg) (rb : Reg)
  /-- `DQBS_E4M3` (R100): Dequantises a BS16.E4M3 block into sixteen FP32 values. -/
  | dqbsE4m3 (rd : Reg) (ra : Reg) (rb : Reg)
  /-- `NISPLIT` (R102): Transposes eight I8 elements into eight bit-plane bytes. -/
  | nisplit (rd : Reg) (ra : Reg)
  /-- `NIJOIN` (R102): Rebuilds elements from the first k bit planes. -/
  | nijoin (rd : Reg) (ra : Reg) (rb : Reg)
  /-- `CVT` (R98): Converts a scalar value between number formats. -/
  | cvt (dst : Fmt) (src : Fmt) (rd : Reg) (ra : Reg)
  /-- `BR` (R131): PC-relative branch. -/
  | br (disp : BitVec 19)
  /-- `BRL` (R131): PC-relative branch that writes the return address to g31. -/
  | brl (disp : BitVec 19)
  /-- `LOOP` (R132): Decrements gc and branches while the result is nonzero. -/
  | loop (rc : Reg) (disp : BitVec 14)
  /-- `BZ` (R132): Branches if gc is zero. -/
  | bz (rc : Reg) (disp : BitVec 14)
  /-- `BNZ` (R132): Branches if gc is nonzero. -/
  | bnz (rc : Reg) (disp : BitVec 14)
  /-- `JR` (R133): Jumps to the address held in ga. -/
  | jr (ra : Reg)
  /-- `JRL` (R133): Jumps to the address held in ga and writes the link to gd. -/
  | jrl (rd : Reg) (ra : Reg)
  /-- `MSTAT` (R235): Claims a stationary region and makes its banks stationary. -/
  | mstat (rd : Reg) (ra : Reg) (rb : Reg)
  /-- `MUNSTAT` (R236): Releases a stationary region. -/
  | munstat (rd : Reg) (ra : Reg)
  /-- `MMA` (R237): Streams activation rows against the region into an accumulator set. -/
  | mma (ra : Reg)
  /-- `MACC` (R238): Clears and/or activates an accumulator set. -/
  | macc (rd : Reg) (ra : Reg)
  /-- `MRD` (R239): Converts the accumulators and writes them to scratchpad. -/
  | mrd (ra : Reg)
  /-- `MRDV` (R239): Converts the accumulators and writes them into the issuing thread's window. -/
  | mrdv (ra : Reg)
  /-- `MSTATUS` (R240): Returns the status word of a region. -/
  | mstatus (rd : Reg) (ra : Reg)
  /-- `PUT` (R290): Puts a tuple with a pool payload. -/
  | put (rd : Reg) (ra : Reg)
  /-- `PUT_I` (R290): Puts a tuple with an inline payload. -/
  | putI (rd : Reg) (ra : Reg)
  /-- `PUT_R` (R291): Puts a frozen-region reference tuple. -/
  | putR (rd : Reg) (ra : Reg)
  /-- `PUT_G` (R292): Puts a grant tuple, removing the grant from the table (or, in sys mode, minting a region's first grant). -/
  | putG (rd : Reg) (ra : Reg)
  /-- `READ_B` (R293): Blocking read of a matching tuple. -/
  | readB (rd : Reg) (ra : Reg)
  /-- `READ_P` (R293): Polling read of a matching tuple. -/
  | readP (rd : Reg) (ra : Reg)
  /-- `READ_C` (R293): Read that registers a continuation when nothing matches. -/
  | readC (rd : Reg) (ra : Reg)
  /-- `TAKE_B` (R293): Blocking take of a matching tuple. -/
  | takeB (rd : Reg) (ra : Reg)
  /-- `TAKE_P` (R293): Polling take of a matching tuple. -/
  | takeP (rd : Reg) (ra : Reg)
  /-- `TAKE_C` (R293): Take that registers a continuation when nothing matches. -/
  | takeC (rd : Reg) (ra : Reg)
  /-- `TAKE_N` (R298): Takes n values from a range cell. -/
  | takeN (rd : Reg) (ra : Reg) (rb : Reg)
  /-- `RANGE` (R299): Creates a range cell. -/
  | range (rd : Reg) (ra : Reg)
  /-- `ACC_O` (R300): Creates an accumulator cell. -/
  | accO (rd : Reg) (ra : Reg)
  /-- `ACC_A` (R300): Contributes to an accumulator cell. -/
  | accA (rd : Reg) (ra : Reg) (rb : Reg)
  /-- `CTR_O` (R301): Creates a join or barrier counter cell. -/
  | ctrO (rd : Reg) (ra : Reg)
  /-- `CTR_A` (R302): Sends an arrival of count c to a counter cell. -/
  | ctrA (rd : Reg) (ra : Reg) (rb : Reg)
  /-- `TCANCEL` (R303): Removes the continuation or join cell that a handle names. -/
  | tcancel (rd : Reg) (ra : Reg)
  /-- `TFENCE` (R304): Waits until the thread's earlier tuple operations and outgoing copies are performed. -/
  | tfence
  /-- `COPYIN` (R305): Copies from a region into scratchpad. -/
  | copyin (rd : Reg) (ra : Reg)
  /-- `COPYOUT` (R305): Copies from scratchpad into a region. -/
  | copyout (rd : Reg) (ra : Reg)
  /-- `COPYR` (R307): Copies to or from a region on another package. -/
  | copyr (rd : Reg) (ra : Reg)
  /-- `FREEZE` (R309): Freezes the region of a grant and returns its frozen handle. -/
  | freeze (rd : Reg) (ra : Reg)
  /-- `SPLIT` (R317): Privileged: splits a home's routing range and moves the upper half to a target home. -/
  | split (rd : Reg) (ra : Reg)
  /-- `TSTAT` (R310): Reports the state of the thread's oldest outstanding operation with a given completion word. -/
  | tstat (rd : Reg) (ra : Reg)
  /-- `BARS` (R359): Registers the thread on a barrier cell. -/
  | bars (rd : Reg) (ra : Reg)
  /-- `BARR` (R360): Arrives at a barrier and continues speculatively. -/
  | barr (ra : Reg)
  /-- `BARW` (R360): Arrives at a barrier and waits for its release. -/
  | barw (ra : Reg)
  /-- `SPEND` (R361): Ends speculation; outside a window it has no effect. -/
  | spend
  /-- `SPST` (R362): Reads the thread's speculation word. -/
  | spst (rd : Reg)
  /-- `FENCE` (R363): Waits for the scratchpad accesses of the selected operation classes. -/
  | fence (ra : Reg)
  /-- `YIELD` (R364): Restarts the watchdog, and parks when a waiting packet needs the slot. -/
  | yield
  /-- `SLEEP` (R365): Sleeps until the wake bit is set or the limit passes. -/
  | sleep (rd : Reg) (ra : Reg)
  /-- `WAKE` (R365): Sets the wake bit of the thread in a slot. -/
  | wake (ra : Reg)
  /-- `SPAWN` (R382): Binds a packet directly to a named slot. -/
  | spawn (rd : Reg) (ra : Reg) (rb : Reg)
  /-- `SEND` (R383): Sends a packet to a tile's ready queue. -/
  | send (rd : Reg) (ra : Reg) (rb : Reg)
  /-- `EXIT` (R384): Ends the thread and sends its successor arrivals. -/
  | exit
  /-- `PRIO` (R385): Sets the thread's priority. -/
  | prio (ra : Reg)
  /-- `SUSP` (R386): Suspends, and optionally pins, the thread in a slot. -/
  | susp (rd : Reg) (ra : Reg) (rb : Reg)
  /-- `RESUME` (R387): Resumes a suspended context. -/
  | resume (rd : Reg) (ra : Reg)
  /-- `FREE` (R388): Discards a suspended context. -/
  | free (rd : Reg) (ra : Reg)
  /-- `RDCTX` (R389): Reads one item of a suspended or own thread's context. -/
  | rdctx (rd : Reg) (ra : Reg) (rb : Reg)
  /-- `WRCTX` (R389): Writes one item of a suspended or own thread's context. -/
  | wrctx (rd : Reg) (ra : Reg) (rb : Reg)
  /-- `LEND` (R391): Sets the issuing slot's cr.lend. -/
  | lend (ra : Reg)
  /-- `TIMER` (R392): Arms the tile timer with a compare value and a target slot. -/
  | timer (ra : Reg) (rb : Reg)
  /-- `CRGET` (R420): Reads the control register whose number is in gb. -/
  | crget (rd : Reg) (rb : Reg)
  /-- `CRGET_SL` (R420): Reads the control register whose number is in imm32. -/
  | crgetSl (rd : Reg) (num : BitVec 12)
  /-- `CRSET` (R397): Writes the control register whose number is in gb. -/
  | crset (ra : Reg) (rb : Reg)
  /-- `CRSET_SL` (R397): Writes the control register whose number is in imm32. -/
  | crsetSl (ra : Reg) (num : BitVec 12)
  /-- `TRAP` (R421): Raises a chosen trap cause. -/
  | trap (ra : Reg) (rb : Reg)
  /-- `RFT` (R422): Returns from a trap. -/
  | rft
  /-- `SVC` (R421): Raises the SVC trap. -/
  | svc (ra : Reg)
  /-- `BREAK` (R421): Raises the BREAK trap. -/
  | brk (ra : Reg)
  /-- `TLBINV` (R423): Drops translations of the tenant on every agent of the package. -/
  | tlbinv (rd : Reg) (ra : Reg) (rb : Reg)
  /-- `ASID` (R424): Sets the tile's current ASID. -/
  | asid (ra : Reg)
  /-- `NOTIFY` (R425): Raises a tenant MSI-X vector once earlier tuple operations are performed. -/
  | notify (ra : Reg)
  /-- `PERF` (R426): Reads a performance counter. -/
  | perf (rd : Reg) (ra : Reg)
  /-- `WDOG` (R427): Sets the slot watchdog limit and clears its count. -/
  | wdog (ra : Reg)
  /-- `HALT` (R428): Stops the thread with a code and raises the error vector. -/
  | halt (ra : Reg)
  /-- `ILLEGAL_ENCODING` (R63): Issuing a reserved or unassigned encoding raises ILLOP. -/
  | illegalEncoding (w : W64)
  /-- `VNOP` (R180): Does nothing in the window. -/
  | vnop
  /-- `VFLD` (R180): Loads a field descriptor from a g register. -/
  | vfld (d : Fld) (a : Reg)
  /-- `VFLDI` (R180): Loads a field descriptor from an immediate. -/
  | vfldi (d : Fld) (start : BitVec 8) (width : BitVec 9)
  /-- `VFCPY` (R180): Copies one descriptor into another. -/
  | vfcpy (d : Fld) (a : Fld)
  /-- `VVL` (R180): Sets cr.vl from a register. -/
  | vvl (a : Reg)
  /-- `VVLI` (R180): Sets cr.vl from an immediate. -/
  | vvli (rows : BitVec 13)
  /-- `VFRD` (R180): Reads a descriptor into a g register. -/
  | vfrd (d : Reg) (a : Fld)
  /-- `VLD` (R182): Loads contiguous elements into a field through the corner turner. -/
  | vld (d : Fld) (a : Reg) (t : TagN) (tn : Bool) (m : Fmt)
  /-- `VST` (R182): Stores a field to contiguous elements. -/
  | vst (d : Fld) (a : Reg) (t : TagN) (tn : Bool) (m : Fmt)
  /-- `VLDS` (R182): Strided load. -/
  | vlds (d : Fld) (a : Reg) (b : Reg) (t : TagN) (tn : Bool) (m : Fmt)
  /-- `VSTS` (R182): Strided store. -/
  | vsts (d : Fld) (a : Reg) (b : Reg) (t : TagN) (tn : Bool) (m : Fmt)
  /-- `VLDR` (R183): Load shaped by a shape record. -/
  | vldr (d : Fld) (a : Reg) (b : Reg) (t : TagN) (tn : Bool) (m : Fmt)
  /-- `VSTR` (R183): Store shaped by a shape record. -/
  | vstr (d : Fld) (a : Reg) (b : Reg) (t : TagN) (tn : Bool) (m : Fmt)
  /-- `VGET` (R187): Reads one row of a field into a g register. -/
  | vget (d : Reg) (a : Fld) (b : Reg) (t : TagN) (tn : Bool) (m : Fmt)
  /-- `VPUT` (R187): Writes a g register into one row of a field. -/
  | vput (d : Fld) (a : Reg) (b : Reg) (t : TagN) (tn : Bool) (m : Fmt)
  /-- `VBC` (R188): Broadcasts a register value into the selected rows. -/
  | vbc (d : Fld) (a : Reg) (t : TagN) (tn : Bool) (m : Fmt)
  /-- `VBCI` (R188): Broadcasts an immediate into the selected rows. -/
  | vbci (d : Fld) (t : TagN) (tn : Bool) (m : Fmt) (imm : BitVec 29)
  /-- `VCOPY` (R188): Copies one field into another in the selected rows. -/
  | vcopy (d : Fld) (a : Fld) (t : TagN) (tn : Bool)
  /-- `VTAND` (R189): Tag AND. -/
  | vtand (d : TagN) (a : TagN) (b : TagN) (t : TagN) (tn : Bool)
  /-- `VTOR` (R189): Tag OR. -/
  | vtor (d : TagN) (a : TagN) (b : TagN) (t : TagN) (tn : Bool)
  /-- `VTXOR` (R189): Tag XOR. -/
  | vtxor (d : TagN) (a : TagN) (b : TagN) (t : TagN) (tn : Bool)
  /-- `VTANDN` (R189): Tag AND NOT. -/
  | vtandn (d : TagN) (a : TagN) (b : TagN) (t : TagN) (tn : Bool)
  /-- `VTSET` (R189): Sets a tag in the selected rows. -/
  | vtset (d : TagN) (t : TagN) (tn : Bool)
  /-- `VTCLR` (R189): Clears a tag in the selected rows. -/
  | vtclr (d : TagN) (t : TagN) (tn : Bool)
  /-- `VTFIRST` (R189): Tags the lowest selected row only. -/
  | vtfirst (d : TagN) (t : TagN) (tn : Bool)
  /-- `VTCOUNT` (R189): Counts the selected rows into a g register. -/
  | vtcount (d : Reg) (t : TagN) (tn : Bool)
  /-- `VTANY` (R189): Writes 1 if any row is selected. -/
  | vtany (d : Reg) (t : TagN) (tn : Bool)
  /-- `VCEQ` (R190): Integer equality compare into a tag. -/
  | vceq (d : TagN) (a : Fld) (b : Fld) (t : TagN) (tn : Bool) (m : Fmt)
  /-- `VCLT` (R190): Integer less-than compare into a tag. -/
  | vclt (d : TagN) (a : Fld) (b : Fld) (t : TagN) (tn : Bool) (m : Fmt)
  /-- `VCLE` (R190): Integer less-or-equal compare into a tag. -/
  | vcle (d : TagN) (a : Fld) (b : Fld) (t : TagN) (tn : Bool) (m : Fmt)
  /-- `VADD` (R190): Integer add. -/
  | vadd (d : Fld) (a : Fld) (b : Fld) (t : TagN) (tn : Bool) (m : Fmt)
  /-- `VSUB` (R190): Integer subtract. -/
  | vsub (d : Fld) (a : Fld) (b : Fld) (t : TagN) (tn : Bool) (m : Fmt)
  /-- `VNEG` (R190): Integer negate. -/
  | vneg (d : Fld) (a : Fld) (t : TagN) (tn : Bool) (m : Fmt)
  /-- `VABS` (R190): Integer absolute value. -/
  | vabs (d : Fld) (a : Fld) (t : TagN) (tn : Bool) (m : Fmt)
  /-- `VMIN` (R190): Integer minimum. -/
  | vmin (d : Fld) (a : Fld) (b : Fld) (t : TagN) (tn : Bool) (m : Fmt)
  /-- `VMAX` (R190): Integer maximum. -/
  | vmax (d : Fld) (a : Fld) (b : Fld) (t : TagN) (tn : Bool) (m : Fmt)
  /-- `VMUL` (R191): Exact integer product of double width. -/
  | vmul (d : Fld) (a : Fld) (b : Fld) (t : TagN) (tn : Bool) (m : Fmt)
  /-- `VAND` (R190): Bitwise AND of fields. -/
  | vand (d : Fld) (a : Fld) (b : Fld) (t : TagN) (tn : Bool) (m : Fmt)
  /-- `VOR` (R190): Bitwise OR of fields. -/
  | vor (d : Fld) (a : Fld) (b : Fld) (t : TagN) (tn : Bool) (m : Fmt)
  /-- `VXOR` (R190): Bitwise XOR of fields. -/
  | vxor (d : Fld) (a : Fld) (b : Fld) (t : TagN) (tn : Bool) (m : Fmt)
  /-- `VNOT` (R190): Bitwise NOT of a field. -/
  | vnot (d : Fld) (a : Fld) (t : TagN) (tn : Bool) (m : Fmt)
  /-- `VSHL` (R190): Shifts a field left by a count. -/
  | vshl (d : Fld) (a : Fld) (b : BitVec 5) (t : TagN) (tn : Bool) (m : Fmt)
  /-- `VSHR` (R190): Shifts a field right by a count. -/
  | vshr (d : Fld) (a : Fld) (b : BitVec 5) (t : TagN) (tn : Bool) (m : Fmt)
  /-- `VSEL` (R192): Selects fa in tagged rows and fb elsewhere, in every row. -/
  | vsel (d : Fld) (a : Fld) (b : Fld) (t : TagN) (tn : Bool) (m : Fmt)
  /-- `VFADD` (R193): Floating-point add in each selected row. -/
  | vfadd (d : Fld) (a : Fld) (b : Fld) (t : TagN) (tn : Bool) (m : Fmt)
  /-- `VFSUB` (R193): Floating-point subtract. -/
  | vfsub (d : Fld) (a : Fld) (b : Fld) (t : TagN) (tn : Bool) (m : Fmt)
  /-- `VFMUL` (R193): Floating-point multiply. -/
  | vfmul (d : Fld) (a : Fld) (b : Fld) (t : TagN) (tn : Bool) (m : Fmt)
  /-- `VFMIN` (R193): Floating-point minimumNumber. -/
  | vfmin (d : Fld) (a : Fld) (b : Fld) (t : TagN) (tn : Bool) (m : Fmt)
  /-- `VFMAX` (R193): Floating-point maximumNumber. -/
  | vfmax (d : Fld) (a : Fld) (b : Fld) (t : TagN) (tn : Bool) (m : Fmt)
  /-- `VFCEQ` (R193): Floating-point equality compare into a tag. -/
  | vfceq (d : TagN) (a : Fld) (b : Fld) (t : TagN) (tn : Bool) (m : Fmt)
  /-- `VFCLT` (R193): Floating-point less-than compare into a tag. -/
  | vfclt (d : TagN) (a : Fld) (b : Fld) (t : TagN) (tn : Bool) (m : Fmt)
  /-- `VFCLE` (R193): Floating-point less-or-equal compare into a tag. -/
  | vfcle (d : TagN) (a : Fld) (b : Fld) (t : TagN) (tn : Bool) (m : Fmt)
  /-- `VLUT8` (R194): 8-bit table lookup from microcode RAM. -/
  | vlut8 (d : Fld) (a : Fld) (t : TagN) (tn : Bool) (m : Fmt)
  /-- `VLUT16` (R194): Piecewise-linear 16-bit lookup. -/
  | vlut16 (d : Fld) (a : Fld) (t : TagN) (tn : Bool) (m : Fmt)
  /-- `VSFN` (R195): Special function rounded once. -/
  | vsfn (d : Fld) (a : Fld) (b : BitVec 3) (t : TagN) (tn : Bool) (m : Fmt)
  /-- `VCVT` (R196): Rowwise format conversion. -/
  | vcvt (d : Fld) (a : Fld) (b : Fmt) (t : TagN) (tn : Bool) (m : Fmt)
  /-- `VRMAX` (R197): Tags the rows holding the maximum. -/
  | vrmax (d : TagN) (a : Fld) (t : TagN) (tn : Bool) (m : Fmt)
  /-- `VRMIN` (R197): Tags the rows holding the minimum. -/
  | vrmin (d : TagN) (a : Fld) (t : TagN) (tn : Bool) (m : Fmt)
  /-- `VRSUM` (R198): Integer sum over the selected rows into gd. -/
  | vrsum (d : Reg) (a : Fld) (t : TagN) (tn : Bool) (m : Fmt)
  /-- `VRFSUM` (R199): Order-independent floating-point sum into gd. -/
  | vrfsum (d : Reg) (a : Fld) (t : TagN) (tn : Bool) (m : Fmt)
  /-- `VQBS` (R200): Block-quantises groups of 16 rows. -/
  | vqbs (d : Fld) (a : Fld) (b : Fld) (t : TagN) (tn : Bool) (m : Fmt)
  /-- `VDQBS` (R201): Dequantises block elements to FP32. -/
  | vdqbs (d : Fld) (a : Fld) (b : Fld) (t : TagN) (tn : Bool) (m : Fmt)
  /-- `VOUTL` (R202): Tags rows whose magnitude exceeds the threshold. -/
  | voutl (d : TagN) (a : Fld) (b : Fld) (t : TagN) (tn : Bool) (m : Fmt)
  /-- `VPASS` (R175): Performs one user pass. -/
  | vpass (lo : BitVec 24) (x : BitVec 29)
  /-- `VSEQ` (R176): Runs a sequence of microcode words. -/
  | vseq (first : BitVec 7) (cnt : BitVec 7)
  /-- `VUCLOAD` (R177): Loads pass words from scratchpad into microcode RAM. -/
  | vucload (a : Reg) (t : TagN) (tn : Bool)
  /-- `PENDING_TRAP_TAKEN` (R59): A pending WATCHDOG or TIMER cause is taken before the thread's next bundle issues. -/
  | pendingTrapTaken (tile : Nat) (slot : Nat)
  /-- `WATCHDOG_EXPIRY` (R402): The slot watchdog count reaches its limit and a WATCHDOG cause becomes pending. -/
  | watchdogExpiry (tile : Nat) (slot : Nat)
  /-- `TIMER_FIRE` (R392): cr.cycle reaches the timer compare value: disarm, pending TIMER cause, set the wake bit. -/
  | timerFire (tile : Nat)
  /-- `SLEEP_TIMEOUT` (R365): The SLEEP limit passes and the thread returns with gd = 0. -/
  | sleepTimeout (tile : Nat) (cid : Nat)
  /-- `BUNDLE_FILL` (R18): A bundle-cache line fill arrives and the waiting thread becomes ready, or the fetch faults by R19. -/
  | bundleFill (tile : Nat) (va : Nat)
  /-- `PACKET_BIND` (R376): At the end of a cycle the tile binds the oldest eligible packet or refill candidate to a free slot. -/
  | packetBind (tile : Nat)
  /-- `REFILL_IMAGE_ARRIVED` (R405): A refilled context's image has been read back and the thread becomes ready. -/
  | refillImageArrived (tile : Nat) (cid : Nat)
  /-- `SPILL_START` (R403): With a packet waiting and no slot free, the spill engine picks a victim and begins a spill. -/
  | spillStart (tile : Nat)
  /-- `SPILL_DONE` (R404): The context image is written, the slot frees, and the spill table records the entry. -/
  | spillDone (tile : Nat)
  /-- `ENERGY_REFILL` (R416): Every microsecond the die's energy reserve receives its share, up to its capacity. -/
  | energyRefill (die : Nat)
  /-- `VOP_START` (R169): A queued V operation starts once its window is idle and its energy is covered, and runs its passes. -/
  | vopStart (tile : Nat) (win : Nat)
  /-- `TRANSFER_START` (R171): A ready transfer is served by the corner turner. -/
  | transferStart (tile : Nat) (win : Nat)
  /-- `VOP_COMPLETE` (R167): A V operation finishes: its g result is written and the outstanding count drops. -/
  | vopComplete (tile : Nat) (win : Nat)
  /-- `MX_START` (R225): A matrix instruction starts once its region queue, energy, output stage and bank places allow. -/
  | mxStart (tile : Nat) (op : Nat)
  /-- `MX_COMPLETE` (R234): A matrix instruction finishes and writes its gd or its result and completion words. -/
  | mxComplete (tile : Nat) (op : Nat)
  /-- `REQUEST_ROUTE` (R278): A queued tuple or copy request is routed and sent, or completes with MISROUTE. -/
  | requestRoute (tile : Nat) (op : Nat)
  /-- `ROUTE_FETCH_DONE` (R248): A missing space descriptor or range table has been fetched into the route cache. -/
  | routeFetchDone (who : Agent) (tenant : Nat) (space : Nat)
  /-- `SWITCH_COMBINE` (R272): Two range takes or counter arrivals combine at a request-network switch. -/
  | switchCombine (m1 : Nat) (m2 : Nat)
  /-- `REPLY_SPLIT` (R273): A switch splits the reply to a combined request between its inputs. -/
  | replySplit (m : Nat)
  /-- `HOME_PUT` (R256): A home inserts a tuple, serving matching read waiters and the oldest take waiter. -/
  | homePut (m : Nat)
  /-- `HOME_READ` (R293): A home serves a read or registers a waiter, continuation or speculation watch. -/
  | homeRead (m : Nat)
  /-- `HOME_TAKE` (R293): A home removes the oldest match, or registers a waiter or continuation. -/
  | homeTake (m : Nat)
  /-- `HOME_RANGE_TAKE` (R260): A home hands out a chunk of a range cell. -/
  | homeRangeTake (m : Nat)
  /-- `HOME_RANGE_CREATE` (R299): A home creates a range cell. -/
  | homeRangeCreate (m : Nat)
  /-- `HOME_ACC_CREATE` (R300): A home creates an accumulator cell. -/
  | homeAccCreate (m : Nat)
  /-- `HOME_ACC_CONTRIB` (R262): A home adds a contribution to an accumulator cell, forming the tree nodes now ready. -/
  | homeAccContrib (m : Nat)
  /-- `HOME_CTR_CREATE` (R301): A home creates a join or barrier counter cell. -/
  | homeCtrCreate (m : Nat)
  /-- `HOME_CTR_ARRIVAL` (R261): A home adds an arrival to a counter cell. -/
  | homeCtrArrival (m : Nat)
  /-- `HOME_CANCEL` (R303): A home removes the continuation or join cell that a handle names. -/
  | homeCancel (m : Nat)
  /-- `HOME_BARRIER_REGISTER` (R359): A home adds a tile to a barrier cell's registered set. -/
  | homeBarrierRegister (m : Nat)
  /-- `HOME_RESET_CANCEL` (R276): A cancel from a reset tile completes the tile's operations at the home with CANCELLED. -/
  | homeResetCancel (m : Nat)
  /-- `DEADLINE_EXPIRY` (R294): A waiter or continuation's deadline passes and it completes with DEADLINE. -/
  | deadlineExpiry (home : Nat) (place : Nat)
  /-- `PATH_PERMIT` (R274): A path permit reaches a tile and reserves a payload stream. -/
  | pathPermit (m : Nat)
  /-- `PAYLOAD_STREAM` (R275): A payload stream arrives and its beats are written to scratchpad. -/
  | payloadStream (m : Nat)
  /-- `TILE_DELIVERY` (R295): A delivery writes its payload, write-backs, result word, completion word and gd. -/
  | tileDelivery (m : Nat)
  /-- `TUPLE_REPLY` (R282): A reply reaches the tile and writes the operation's register result. -/
  | tupleReply (m : Nat)
  /-- `READY_QUEUE_ARRIVAL` (R374): A packet joins a tile's ready queue at the tail of its priority. -/
  | readyQueueArrival (m : Nat)
  /-- `HELD_PACKET_SEND` (R374): A packet held for a full ready queue is sent once room frees. -/
  | heldPacketSend (m : Nat)
  /-- `WATCH_NOTIFY` (R351): A speculation-watch notification or a conflicting write makes a speculative thread roll back. -/
  | watchNotify (m : Nat)
  /-- `SPEC_ROLLBACK` (R354): Once its outstanding count is zero, a speculative thread discards its window and restores its checkpoint. -/
  | specRollback (tile : Nat) (slot : Nat)
  /-- `RELEASE_NOTICE` (R346): A barrier release notice reaches a tile: commit, wake waiters, reset the entry. -/
  | releaseNotice (m : Nat)
  /-- `COMMIT_DRAIN_END` (R355): The drain ends: shadows exchange, watches clear, deferred puts issue. -/
  | commitDrainEnd (tile : Nat) (slot : Nat)
  /-- `BARRIER_ARRIVAL` (R345): A waiting BARR or BARW arrives once its counter is zero and its fence condition holds. -/
  | barrierArrival (tile : Nat) (cid : Nat)
  /-- `TFENCE_COMPLETE` (R304): The TFENCE wait ends and cr.touched is cleared. -/
  | tfenceComplete (tile : Nat) (cid : Nat)
  /-- `FENCE_COMPLETE` (R363): The FENCE wait ends. -/
  | fenceComplete (tile : Nat) (cid : Nat)
  /-- `EXIT_COMPLETE` (R384): After the EXIT fence, registrations clear, successor arrivals go out and the slot frees. -/
  | exitComplete (tile : Nat) (cid : Nat)
  /-- `NOTIFY_SEND` (R425): After its fence, NOTIFY sends the MSI-X message. -/
  | notifySend (tile : Nat) (cid : Nat)
  /-- `LAUNCH_TAKE` (R371): A launch unit's waiter takes a launch tuple, which is checked. -/
  | launchTake (m : Nat)
  /-- `LAUNCH_ADMIT` (R371): Once the energy reserve covers the estimate, the launch's range cell is made and packets are delivered. -/
  | launchAdmit (die : Nat)
  /-- `LAUNCH_WAITER_RETRY` (R368): Every 10 us the launch unit retries entering a failed waiter. -/
  | launchWaiterRetry (die : Nat) (tenant : Nat)
  /-- `COPY_START` (R306): The copy engine takes a copy from the request queue, judges it and moves blocks. -/
  | copyStart (tile : Nat) (op : Nat)
  /-- `PAGE_FAULT_RESOLVED` (R270): The resolution arrives: a value of 0 retries the translation, any other ends the operation with BOUNDS. -/
  | pageFaultResolved (m : Nat)
  /-- `COPY_COMPLETE` (R305): A copy ends and writes its result and completion words. -/
  | copyComplete (tile : Nat) (op : Nat)
  /-- `FREEZE_EFFECT` (R309): After earlier copies complete, the region becomes frozen and gd receives the handle. -/
  | freezeEffect (tile : Nat) (op : Nat)
  /-- `TLBINV_COMPLETE` (R423): All dropped translations are out of use and gd receives OK. -/
  | tlbinvComplete (tile : Nat) (op : Nat)
  /-- `HOME_SPLIT_REQUEST` (R320): The source home accepts or refuses a split and enters Prepare. -/
  | homeSplitRequest (m : Nat)
  /-- `SPLIT_TARGET_REPLY` (R321): The target accepts, which starts Copying, or refuses, which abandons the split. -/
  | splitTargetReply (m : Nat)
  /-- `SPLIT_COPY_RX` (R322): The target stores an inert copy of a moving entry under its own next sequence. -/
  | splitCopyRx (m : Nat)
  /-- `SPLIT_INVALIDATE_RX` (R323): The target discards an invalidated copy. -/
  | splitInvalidateRx (m : Nat)
  /-- `CUT_OVER` (R324): The source stops serving the moving half, sends cells and the mark, writes the route area and completes. -/
  | cutOver (home : Nat)
  /-- `SPLIT_CUTOVER_MARK` (R324): The target makes its copies live and serves the held requests. -/
  | splitCutoverMark (m : Nat)
  /-- `ROUTE_INVALIDATE` (R327): An interface drops its cached route of a space on an invalidation or a forwarded reply. -/
  | routeInvalidate (m : Nat)
  /-- `SPIRE_PACKET_RX` (R332): A transport packet is placed in its message, and a complete message is handed on. -/
  | spirePacketRx (port : Nat) (pkt : SpirePacket)
  /-- `SPIRE_CONTEXT_FETCHED` (R331): An evicted peer context is fetched and its waiting packets are processed. -/
  | spireContextFetched (ctx : Nat)
  /-- `SPIRE_ACK_TIMER` (R333): The receiver sends an ack after 16 packets or 2 us. -/
  | spireAckTimer (ctx : Nat)
  /-- `SPIRE_ACK_RX` (R333): An ack frees window slots and may trigger retransmission. -/
  | spireAckRx (port : Nat) (pkt : SpirePacket)
  /-- `SPIRE_RETX_TIMEOUT` (R333): A packet's retransmit timer expires and the packet is sent again. -/
  | spireRetxTimeout (ctx : Nat) (psn : Nat)
  /-- `REMOTE_COPY_AGENT` (R335): The target package's copy agent checks a remote copy and moves its blocks. -/
  | remoteCopyAgent (m : Nat)
  /-- `HOST_PUT_GO` (R433): A go write to a put slot submits a host put record. -/
  | hostPutGo (port : Nat) (fn : Nat) (slot : Nat) (word : W64)
  /-- `HOST_TAKE_GO` (R433): A go write to a take slot submits a host read or take record. -/
  | hostTakeGo (port : Nat) (fn : Nat) (slot : Nat) (word : W64)
  /-- `HOST_TAKE_COMPLETE` (R433): The port DMAs the payload, result block and vector to the host and releases the slot. -/
  | hostTakeComplete (m : Nat)
  /-- `TILE_RESET_TO_TENANT` (R39): Resource command op 0: resets a tile and assigns it to a tenant. -/
  | tileResetToTenant (port : Nat) (tile : BitVec 32) (tenant : Nat)
  /-- `TILE_RESET_NO_TENANT` (R39): Resource command op 1: resets a tile to no tenant. -/
  | tileResetNoTenant (port : Nat) (tile : BitVec 32)
  /-- `SLOT_RESET` (R447): Resource command op 2: discards a slot's context as FREE does. -/
  | slotReset (port : Nat) (tile : BitVec 32) (idx : Nat)
  /-- `WINDOW_RESET` (R447): Resource command op 3: clears a free window's data, microcode and parity. -/
  | windowReset (port : Nat) (tile : BitVec 32) (idx : Nat)
  /-- `REGION_RESET` (R447): Resource command op 4: forces MUNSTAT on a stationary region. -/
  | regionReset (port : Nat) (tile : BitVec 32) (idx : Nat)
  /-- `COPY_ENGINE_RESET` (R447): Resource command op 5: copies in flight complete CANCELLED. -/
  | copyEngineReset (port : Nat) (tile : BitVec 32)
  /-- `TENANT_RECORD_WRITE` (R409): A write to a tenant record, checked against the port and the reserved DRAM ranges. -/
  | tenantRecordWrite (port : Nat) (tenant : Nat) (off : Nat) (val : W64)
  /-- `PEER_RECORD_WRITE` (R411): A write to a peer-table record starts or fails a peer context. -/
  | peerRecordWrite (port : Nat) (ctx : Nat) (word : Nat) (val : W64)
  /-- `PKG_CONFIG_WRITE` (R440): A write to the package configuration record, with the pkg lock applied. -/
  | pkgConfigWrite (port : Nat) (off : Nat) (val : W64)
  /-- `REGISTER_WRITE` (R4): A write to a register that has no row of its own, by its access codes. -/
  | registerWrite (port : Nat) (fn : Nat) (bar : Nat) (off : Nat) (val : W64)
  /-- `MCTP_CONTROL` (R436): An MCTP control message, including endpoint ID assignment. -/
  | mctpControl (cmd : Nat) (arg : Nat)
  /-- `PLDM_BASE` (R436): A PLDM for Base (type 0) request. -/
  | pldmBase (cmd : Nat)
  /-- `PLDM_PLATFORM` (R437): A PLDM type 2 request for sensors, the PDR repository and the records. -/
  | pldmPlatform (cmd : Nat) (arg : Nat)
  /-- `GET_PACKAGE_CONFIG` (R440): Vendor PLDM command that reads the package configuration record. -/
  | getPackageConfig (off : Nat) (len : Nat)
  /-- `SET_PACKAGE_CONFIG` (R440): Vendor PLDM command that writes the package configuration record. -/
  | setPackageConfig (off : Nat) (bytes : List Byte)
  /-- `FIRMWARE_TRANSFER` (R442): A PLDM type 5 transfer of an image into the inactive bank, followed by its verification. -/
  | firmwareTransfer (secver : Nat) (code : W64) (patch : W64) (tables : W64)
  /-- `FIRMWARE_ACTIVATE` (R443): The belfry switches to the new code and starts the roll-out. -/
  | firmwareActivate (raise : Bool)
  /-- `SELF_TEST_FAIL` (R443): New code failing its self-test within 10 s returns the belfry to the previous bank. -/
  | selfTestFail
  /-- `CANCEL_UPDATE` (R445): PLDM CancelUpdate ends a roll-out at once. -/
  | cancelUpdate
  /-- `ROLLOUT_LIMIT` (R445): The roll-out limit passes and the roll-out ends. -/
  | rolloutLimit
  /-- `TILE_PATCH` (R444): A tile with no compute thread takes the microcode ROM patch. -/
  | tilePatch (tile : Nat)
  /-- `LAUNCH_TABLE_SWAP` (R444): A launch unit takes the new tables between two launches. -/
  | launchTableSwap (die : Nat)
  /-- `GET_VERSION` (R439): SPDM GET_VERSION request. -/
  | getVersion
  /-- `GET_CAPABILITIES` (R439): SPDM GET_CAPABILITIES request. -/
  | getCapabilities
  /-- `NEGOTIATE_ALGORITHMS` (R439): SPDM NEGOTIATE_ALGORITHMS request. -/
  | negotiateAlgorithms (asym : Nat) (hash : Nat)
  /-- `GET_DIGESTS` (R439): SPDM GET_DIGESTS request. -/
  | getDigests
  /-- `GET_CERTIFICATE` (R439): SPDM GET_CERTIFICATE request. -/
  | getCertificate (slot : Nat) (off : Nat) (len : Nat)
  /-- `CHALLENGE` (R439): SPDM CHALLENGE request, signed with the device key. -/
  | challenge (slot : Nat) (nonce : Key)
  /-- `GET_MEASUREMENTS` (R439): SPDM GET_MEASUREMENTS request, with signed measurements. -/
  | getMeasurements (index : Nat) (nonce : Key)
  /-- `TELEMETRY_SAMPLE` (R437): Every 1 ms the belfry samples every sensor and counter and replaces the mirror. -/
  | telemetrySample (r : Sensors)
  /-- `ENERGY_PLANNER_STEP` (R454): Every 100 us the planner lowers or raises the die energy shares. -/
  | energyPlannerStep
  /-- `PACKAGE_RESET` (R447): Power-on or an MCTP reset command resets everything and starts bring-up. -/
  | packageReset (badWins : List (Nat × Nat))
  /-- `FULL_RATE_SWITCH` (R450): At full rate, homes move bring-up entries to their routed homes and full service begins. -/
  | fullRateSwitch (failed : List Nat)
  /-- `DIE_RESET` (R447): An MCTP command resets one die and its two cupolas' homes. -/
  | dieReset (die : Nat)
  /-- `HOME_RESET` (R447): An MCTP command or an uncorrectable index error resets one home. -/
  | homeReset (home : Nat)
  /-- `TILE_RESET_MCTP` (R447): An MCTP command resets a tile. -/
  | tileResetMctp (tile : Nat)
  /-- `SPIRE_PORT_RESET` (R447): Link loss or an MCTP command resets a spire port and fails its contexts. -/
  | spirePortReset (port : Nat)
  /-- `HOST_PORT_RESET` (R447): PERST#, hot reset or link loss resets every function of a host port. -/
  | hostPortReset (port : Nat)
  /-- `FUNCTION_RESET` (R447): An FLR of a VF withdraws its takes and drops its unprocessed records. -/
  | functionReset (port : Nat) (fn : Nat)
  /-- `MGMT_RESET` (R456): MGMT_RST# resets the belfry alone. -/
  | mgmtReset
  /-- `FATAL_ENTRY` (R451): An uncorrectable network, gateway, stack-controller or belfry error stops the package. -/
  | fatalEntry (cause : Nat)
  /-- `EN_ASSERT` (R455): The host asserts EN: the rails come up, PWRGD asserts and package reset ends. -/
  | enAssert
  /-- `EN_DEASSERT` (R455): Deasserting EN removes power from the package within 10 ms. -/
  | enDeassert
  /-- `INPUT_FAULT` (R455): An input below 46 V for more than 1 ms removes power and asserts PWRFAIL#. -/
  | inputFault
  /-- `THERMTRIP` (R457): A die at 110 C asserts THERMTRIP# and removes power within 1 ms. -/
  | thermtrip
  /-- `HOST_PAYLOAD_PULLED` (R433): The DMA read of a host put's payload (plen > 64) completes; the record is then sent to its home and the put slot
  is released. -/
  | hostPayloadPulled (port : Nat) (fn : Nat) (slot : Nat) (bytes : List Byte)
  /-- `HOST_PUT_REPLY` (R434): A home's reply to a host put reaches the port; a status other than OK or NOTHOME sets perr, pslot and pstat and raises
  the error vector. -/
  | hostPutReply (m : Nat)
  /-- `DELIVERY_ACKNOWLEDGE` (R277): The tile network interface's acknowledgement of a take's last delivery event reaches the home, which drops its
  removal record. -/
  | deliveryAcknowledge (m : Nat)
  /-- `TARGET_ROOM_EXHAUSTED` (R321): During Copying the target reports that its room is exhausted, and the source abandons the split with NOSPACE. -/
  | targetRoomExhausted (m : Nat)
  /-- `SPIRE_LINK_UP` (R440): A spire port whose en is 1 and whose udp is nonzero brings up its 1.6 Tb/s Ethernet link and can carry transport packets. -/
  | spireLinkUp (port : Nat)
  /-- `HOST_PORT_LINK_UP` (R429): After PERST# is deasserted, a host port trains to its width and rate and its functions become reachable. -/
  | hostPortLinkUp (port : Nat) (width : Nat) (rate : Nat)
  /-- `INPUT_IN_RANGE` (R455): The 54 V input comes within its operating range, which is the first step of power sequencing before EN. -/
  | inputInRange
  /-- `ATS_INVALIDATE` (R429): The host sends an ATS invalidation request to a function of a host port that supports ATS. -/
  | atsInvalidate (port : Nat) (fn : Nat) (addr : Nat)
  deriving DecidableEq, Repr

end Sys2Proof
end

