-- ==== Sys2Proof/WellFormed.lean ====
section
/-! DEFINITION. Which operand values an instruction admits: the checks of R54, R63, R151, R152, R174 and R420 on the operands of an
instruction row, and the index ranges of the agents that an event row names (01_machine.md R9 to R16). -/
namespace Sys2Proof

/-- A format code that is not reserved (R63). -/
def fmtOk (f : Fmt) : Bool := f.toNat < 25

/-- The assigned control-register numbers (R395). -/
def crNumbers : List Nat :=
  [0x0, 0x1, 0x2, 0x3, 0x4, 0x5, 0x10, 0x20, 0x21, 0x22, 0x23, 0x24, 0x30, 0x31, 0x40, 0x41, 0x50, 0x51, 0x52, 0x53, 0x60, 0x61, 0x70, 0x71, 0x72, 0x80, 0x81, 0x90, 0x91]

/-- The reserved bits of X in a `VBCI` of this format are zero (R54); X has 29 bits. For the block formats, which have no row
width (R64), R54 gives no layout and no bit counts as reserved. -/
def vbciOk (m : Fmt) (x : BitVec 29) : Bool :=
  match m.toNat with
  | 0 | 4 | 11 | 12 | 24 => x.toNat < 2 ^ 8
  | 1 | 5 | 9 | 10 => x.toNat < 2 ^ 16
  | 13 => x.toNat < 2 ^ 4
  | 16 => x.toNat < 2 ^ 1
  | 17 => x.toNat < 2 ^ 2
  | 18 => x.toNat < 2 ^ 3
  | 19 => x.toNat < 2 ^ 4
  | 20 => x.toNat < 2 ^ 5
  | 21 => x.toNat < 2 ^ 6
  | 22 => x.toNat < 2 ^ 7
  | 23 => x.toNat < 2 ^ 8
  | _ => true

/-- The 53-bit pass word of a `VPASS` names no reserved column (R173 to R175): `lo` is bits [23:0], `x` bits [52:24]. -/
def passOk (lo : BitVec 24) (x : BitVec 29) : Bool :=
  let p := x.toNat * 2 ^ 24 + lo.toNat
  p / 2 ^ 40 % 512 < 264 && p / 2 ^ 29 % 512 < 264 && p / 2 ^ 18 % 512 < 264 && p / 2 ^ 7 % 512 < 264

def tileOk (x : Nat) : Bool := x < 768
def homeOk (h : Nat) : Bool := h < 32
/-- The fields of a transport packet fit the header of R329, and its payload is as long as it says. -/
def packetOk (k : SpirePacket) : Bool :=
  k.ver < 2 ^ 4 && k.psn < 2 ^ 32 && k.rctx < 2 ^ 16 && k.sctx < 2 ^ 16 && k.msn < 2 ^ 32 && k.off < 2 ^ 32 && k.mlen < 2 ^ 32 && k.plen < 2 ^ 16 &&
    k.data.length == (if k.type = .ack then 0 else k.plen)

/-- The operand checks of one instruction or event. -/
def Instr.wf : Instr → Bool
  | .nop => true
  | .add _ _ _ => true
  | .addSl _ _ _ => true
  | .sub _ _ _ => true
  | .subSl _ _ _ => true
  | .and _ _ _ => true
  | .andSl _ _ _ => true
  | .or _ _ _ => true
  | .orSl _ _ _ => true
  | .xor _ _ _ => true
  | .xorSl _ _ _ => true
  | .andn _ _ _ => true
  | .andnSl _ _ _ => true
  | .orn _ _ _ => true
  | .ornSl _ _ _ => true
  | .xnor _ _ _ => true
  | .xnorSl _ _ _ => true
  | .sll _ _ _ => true
  | .sllSl _ _ _ => true
  | .srl _ _ _ => true
  | .srlSl _ _ _ => true
  | .sra _ _ _ => true
  | .sraSl _ _ _ => true
  | .ror _ _ _ => true
  | .rorSl _ _ _ => true
  | .min _ _ _ => true
  | .minSl _ _ _ => true
  | .max _ _ _ => true
  | .maxSl _ _ _ => true
  | .minz _ _ _ => true
  | .minzSl _ _ _ => true
  | .maxz _ _ _ => true
  | .maxzSl _ _ _ => true
  | .addi _ _ _ => true
  | .mul _ _ _ => true
  | .mulSl _ _ _ => true
  | .mulh _ _ _ => true
  | .mulhSl _ _ _ => true
  | .mulhz _ _ _ => true
  | .mulhzSl _ _ _ => true
  | .mulhsz _ _ _ => true
  | .mulhszSl _ _ _ => true
  | .div _ _ _ => true
  | .divSl _ _ _ => true
  | .divz _ _ _ => true
  | .divzSl _ _ _ => true
  | .rem _ _ _ => true
  | .remSl _ _ _ => true
  | .remz _ _ _ => true
  | .remzSl _ _ _ => true
  | .clz _ _ => true
  | .ctz _ _ => true
  | .popc _ _ => true
  | .sxb _ _ => true
  | .sxh _ _ => true
  | .sxw _ _ => true
  | .zxb _ _ => true
  | .zxh _ _ => true
  | .zxw _ _ => true
  | .sel _ _ _ _ => true
  | .selSl _ _ _ _ => true
  | .addx _ _ _ _ => true
  | .addxSl _ _ _ _ => true
  | .bfx _ _ _ width => 1 ≤ width.toNat && width.toNat ≤ 64
  | .bfxz _ _ _ width => 1 ≤ width.toNat && width.toNat ≤ 64
  | .bfi _ _ _ width => 1 ≤ width.toNat && width.toNat ≤ 64
  | .li _ _ => true
  | .liz _ _ => true
  | .lih _ _ => true
  | .pand _ _ _ => true
  | .por _ _ _ => true
  | .pxor _ _ _ => true
  | .pandn _ _ _ => true
  | .porn _ _ _ => true
  | .pnor _ _ _ => true
  | .pget _ => true
  | .pput _ => true
  | .cmpEq _ _ _ _ => true
  | .cmpEqSl _ _ _ _ => true
  | .cmpLt _ _ _ _ => true
  | .cmpLtSl _ _ _ _ => true
  | .cmpLe _ _ _ _ => true
  | .cmpLeSl _ _ _ _ => true
  | .cmpLtz _ _ _ _ => true
  | .cmpLtzSl _ _ _ _ => true
  | .cmpLez _ _ _ _ => true
  | .cmpLezSl _ _ _ _ => true
  | .ldb _ _ _ => true
  | .ldbz _ _ _ => true
  | .ldh _ _ _ => true
  | .ldhz _ _ _ => true
  | .ldw _ _ _ => true
  | .ldwz _ _ _ => true
  | .ldd _ _ _ => true
  | .stb _ _ _ => true
  | .sth _ _ _ => true
  | .stw _ _ _ => true
  | .std _ _ _ => true
  | .ldx _ _ _ _ _ _ => true
  | .stx _ _ _ _ _ => true
  | .ldf _ _ _ => true
  | .lde _ _ _ => true
  | .stf _ _ _ => true
  | .ste _ _ _ => true
  | .waitf _ _ => true
  | .amoadd _ noret rd _ _ => (!noret || rd == 0)
  | .amomax _ noret rd _ _ => (!noret || rd == 0)
  | .amomin _ noret rd _ _ => (!noret || rd == 0)
  | .amomaxz _ noret rd _ _ => (!noret || rd == 0)
  | .amominz _ noret rd _ _ => (!noret || rd == 0)
  | .amoand _ noret rd _ _ => (!noret || rd == 0)
  | .amoor _ noret rd _ _ => (!noret || rd == 0)
  | .amoxor _ noret rd _ _ => (!noret || rd == 0)
  | .amoswap _ noret rd _ _ => (!noret || rd == 0)
  | .amocas _ _ _ _ _ => true
  | .amofadd _ noret rd _ _ => (!noret || rd == 0)
  | .amofmax _ noret rd _ _ => (!noret || rd == 0)
  | .amofmin _ noret rd _ _ => (!noret || rd == 0)
  | .dlook _ _ => true
  | .dins _ _ _ => true
  | .ddel _ _ => true
  | .fadd _ _ _ _ => true
  | .fsub _ _ _ _ => true
  | .fmul _ _ _ _ => true
  | .fma _ _ _ _ => true
  | .fmin _ _ _ _ => true
  | .fmax _ _ _ _ => true
  | .fclass _ _ _ => true
  | .fcmpEq _ _ _ _ _ => true
  | .fcmpLt _ _ _ _ _ => true
  | .fcmpLe _ _ _ _ _ => true
  | .fcmpUn _ _ _ _ _ => true
  | .qbsE2m1 _ _ _ => true
  | .qbsE4m3 _ _ _ => true
  | .dqbsE2m1 _ _ _ => true
  | .dqbsE4m3 _ _ _ => true
  | .nisplit _ _ => true
  | .nijoin _ _ _ => true
  | .cvt dst src _ _ => fmtOk dst && fmtOk src
  | .br _ => true
  | .brl _ => true
  | .loop _ _ => true
  | .bz _ _ => true
  | .bnz _ _ => true
  | .jr _ => true
  | .jrl _ _ => true
  | .mstat _ _ _ => true
  | .munstat _ _ => true
  | .mma _ => true
  | .macc _ _ => true
  | .mrd _ => true
  | .mrdv _ => true
  | .mstatus _ _ => true
  | .put _ _ => true
  | .putI _ _ => true
  | .putR _ _ => true
  | .putG _ _ => true
  | .readB _ _ => true
  | .readP _ _ => true
  | .readC _ _ => true
  | .takeB _ _ => true
  | .takeP _ _ => true
  | .takeC _ _ => true
  | .takeN _ _ _ => true
  | .range _ _ => true
  | .accO _ _ => true
  | .accA _ _ _ => true
  | .ctrO _ _ => true
  | .ctrA _ _ _ => true
  | .tcancel _ _ => true
  | .tfence => true
  | .copyin _ _ => true
  | .copyout _ _ => true
  | .copyr _ _ => true
  | .freeze _ _ => true
  | .split _ _ => true
  | .tstat _ _ => true
  | .bars _ _ => true
  | .barr _ => true
  | .barw _ => true
  | .spend => true
  | .spst _ => true
  | .fence _ => true
  | .yield => true
  | .sleep _ _ => true
  | .wake _ => true
  | .spawn _ _ _ => true
  | .send _ _ _ => true
  | .exit => true
  | .prio _ => true
  | .susp _ _ _ => true
  | .resume _ _ => true
  | .free _ _ => true
  | .rdctx _ _ _ => true
  | .wrctx _ _ _ => true
  | .lend _ => true
  | .timer _ _ => true
  | .crget _ _ => true
  | .crgetSl _ num => crNumbers.contains num.toNat
  | .crset _ _ => true
  | .crsetSl _ num => crNumbers.contains num.toNat
  | .trap _ _ => true
  | .rft => true
  | .svc _ => true
  | .brk _ => true
  | .tlbinv _ _ _ => true
  | .asid _ => true
  | .notify _ => true
  | .perf _ _ => true
  | .wdog _ => true
  | .halt _ => true
  | .illegalEncoding _ => true
  | .vnop => true
  | .vfld _ _ => true
  | .vfldi _ _ width => 1 ≤ width.toNat && width.toNat ≤ 256
  | .vfcpy _ _ => true
  | .vvl _ => true
  | .vvli _ => true
  | .vfrd _ _ => true
  | .vld _ _ _ _ m => fmtOk m
  | .vst _ _ _ _ m => fmtOk m
  | .vlds _ _ _ _ _ m => fmtOk m
  | .vsts _ _ _ _ _ m => fmtOk m
  | .vldr _ _ _ _ _ m => fmtOk m
  | .vstr _ _ _ _ _ m => fmtOk m
  | .vget _ _ _ _ _ m => fmtOk m
  | .vput _ _ _ _ _ m => fmtOk m
  | .vbc _ _ _ _ m => fmtOk m
  | .vbci _ _ _ m imm => fmtOk m && vbciOk m imm
  | .vcopy _ _ _ _ => true
  | .vtand _ _ _ _ _ => true
  | .vtor _ _ _ _ _ => true
  | .vtxor _ _ _ _ _ => true
  | .vtandn _ _ _ _ _ => true
  | .vtset _ _ _ => true
  | .vtclr _ _ _ => true
  | .vtfirst _ _ _ => true
  | .vtcount _ _ _ => true
  | .vtany _ _ _ => true
  | .vceq _ _ _ _ _ m => fmtOk m
  | .vclt _ _ _ _ _ m => fmtOk m
  | .vcle _ _ _ _ _ m => fmtOk m
  | .vadd _ _ _ _ _ m => fmtOk m
  | .vsub _ _ _ _ _ m => fmtOk m
  | .vneg _ _ _ _ m => fmtOk m
  | .vabs _ _ _ _ m => fmtOk m
  | .vmin _ _ _ _ _ m => fmtOk m
  | .vmax _ _ _ _ _ m => fmtOk m
  | .vmul _ _ _ _ _ m => fmtOk m
  | .vand _ _ _ _ _ m => fmtOk m
  | .vor _ _ _ _ _ m => fmtOk m
  | .vxor _ _ _ _ _ m => fmtOk m
  | .vnot _ _ _ _ m => fmtOk m
  | .vshl _ _ _ _ _ m => fmtOk m
  | .vshr _ _ _ _ _ m => fmtOk m
  | .vsel _ _ _ _ _ m => fmtOk m
  | .vfadd _ _ _ _ _ m => fmtOk m
  | .vfsub _ _ _ _ _ m => fmtOk m
  | .vfmul _ _ _ _ _ m => fmtOk m
  | .vfmin _ _ _ _ _ m => fmtOk m
  | .vfmax _ _ _ _ _ m => fmtOk m
  | .vfceq _ _ _ _ _ m => fmtOk m
  | .vfclt _ _ _ _ _ m => fmtOk m
  | .vfcle _ _ _ _ _ m => fmtOk m
  | .vlut8 _ _ _ _ m => fmtOk m
  | .vlut16 _ _ _ _ m => fmtOk m
  | .vsfn _ _ _ _ _ m => fmtOk m
  | .vcvt _ _ b _ _ m => fmtOk b && fmtOk m
  | .vrmax _ _ _ _ m => fmtOk m
  | .vrmin _ _ _ _ m => fmtOk m
  | .vrsum _ _ _ _ m => fmtOk m
  | .vrfsum _ _ _ _ m => fmtOk m
  | .vqbs _ _ _ _ _ m => fmtOk m
  | .vdqbs _ _ _ _ _ m => fmtOk m
  | .voutl _ _ _ _ _ m => fmtOk m
  | .vpass lo x => passOk lo x
  | .vseq _ _ => true
  | .vucload _ _ _ => true
  | .pendingTrapTaken tile slot => tile < 768 && slot < 8
  | .watchdogExpiry tile slot => tile < 768 && slot < 8
  | .timerFire tile => tile < 768
  | .sleepTimeout tile cid => tile < 768 && cid < 65536
  | .bundleFill tile _ => tile < 768
  | .packetBind tile => tile < 768
  | .refillImageArrived tile cid => tile < 768 && cid < 65536
  | .spillStart tile => tile < 768
  | .spillDone tile => tile < 768
  | .energyRefill die => die < 4
  | .vopStart tile win => tile < 768 && win < 4
  | .transferStart tile win => tile < 768 && win < 4
  | .vopComplete tile win => tile < 768 && win < 4
  | .mxStart tile _ => tile < 768
  | .mxComplete tile _ => tile < 768
  | .requestRoute tile _ => tile < 768
  | .routeFetchDone _ tenant space => tenant < 256 && space < 65536
  | .switchCombine _ _ => true
  | .replySplit _ => true
  | .homePut _ => true
  | .homeRead _ => true
  | .homeTake _ => true
  | .homeRangeTake _ => true
  | .homeRangeCreate _ => true
  | .homeAccCreate _ => true
  | .homeAccContrib _ => true
  | .homeCtrCreate _ => true
  | .homeCtrArrival _ => true
  | .homeCancel _ => true
  | .homeBarrierRegister _ => true
  | .homeResetCancel _ => true
  | .deadlineExpiry home _ => home < 32
  | .pathPermit _ => true
  | .payloadStream _ => true
  | .tileDelivery _ => true
  | .tupleReply _ => true
  | .readyQueueArrival _ => true
  | .heldPacketSend _ => true
  | .watchNotify _ => true
  | .specRollback tile slot => tile < 768 && slot < 8
  | .releaseNotice _ => true
  | .commitDrainEnd tile slot => tile < 768 && slot < 8
  | .barrierArrival tile cid => tile < 768 && cid < 65536
  | .tfenceComplete tile cid => tile < 768 && cid < 65536
  | .fenceComplete tile cid => tile < 768 && cid < 65536
  | .exitComplete tile cid => tile < 768 && cid < 65536
  | .notifySend tile cid => tile < 768 && cid < 65536
  | .launchTake _ => true
  | .launchAdmit die => die < 4
  | .launchWaiterRetry die tenant => die < 4 && tenant < 256
  | .copyStart tile _ => tile < 768
  | .pageFaultResolved _ => true
  | .copyComplete tile _ => tile < 768
  | .freezeEffect tile _ => tile < 768
  | .tlbinvComplete tile _ => tile < 768
  | .homeSplitRequest _ => true
  | .splitTargetReply _ => true
  | .splitCopyRx _ => true
  | .splitInvalidateRx _ => true
  | .cutOver home => home < 32
  | .splitCutoverMark _ => true
  | .routeInvalidate _ => true
  | .spirePacketRx port pkt => port < 8 && packetOk pkt
  | .spireContextFetched ctx => ctx < 65536
  | .spireAckTimer ctx => ctx < 65536
  | .spireAckRx port pkt => port < 8 && packetOk pkt
  | .spireRetxTimeout ctx _ => ctx < 65536
  | .remoteCopyAgent _ => true
  | .hostPutGo port fn slot _ => port < 2 && fn < 256 && slot < 64
  | .hostTakeGo port fn slot _ => port < 2 && fn < 256 && slot < 64
  | .hostTakeComplete _ => true
  | .tileResetToTenant port tile tenant => port < 2 && tileOk ((tile.toNat / 256) % 4 * 192 + tile.toNat % 256) && tile.toNat % 256 < 192 && tenant < 256
  | .tileResetNoTenant port tile => port < 2 && tileOk ((tile.toNat / 256) % 4 * 192 + tile.toNat % 256) && tile.toNat % 256 < 192
  | .slotReset port tile idx => port < 2 && tileOk ((tile.toNat / 256) % 4 * 192 + tile.toNat % 256) && tile.toNat % 256 < 192 && idx < 8
  | .windowReset port tile idx => port < 2 && tileOk ((tile.toNat / 256) % 4 * 192 + tile.toNat % 256) && tile.toNat % 256 < 192 && idx < 4
  | .regionReset port tile idx => port < 2 && tileOk ((tile.toNat / 256) % 4 * 192 + tile.toNat % 256) && tile.toNat % 256 < 192 && idx < 8
  | .copyEngineReset port tile => port < 2 && tileOk ((tile.toNat / 256) % 4 * 192 + tile.toNat % 256) && tile.toNat % 256 < 192
  | .tenantRecordWrite port tenant _ _ => port < 2 && tenant < 256
  | .peerRecordWrite port ctx _ _ => port < 2 && ctx < 65536
  | .pkgConfigWrite port _ _ => port < 2
  | .registerWrite port fn _ _ _ => port < 2 && fn < 257
  | .mctpControl _ _ => true
  | .pldmBase _ => true
  | .pldmPlatform _ _ => true
  | .getPackageConfig _ _ => true
  | .setPackageConfig _ _ => true
  | .firmwareTransfer _ _ _ _ => true
  | .firmwareActivate _ => true
  | .selfTestFail => true
  | .cancelUpdate => true
  | .rolloutLimit => true
  | .tilePatch tile => tile < 768
  | .launchTableSwap die => die < 4
  | .getVersion => true
  | .getCapabilities => true
  | .negotiateAlgorithms _ _ => true
  | .getDigests => true
  | .getCertificate slot _ _ => slot < 8
  | .challenge slot _ => slot < 8
  | .getMeasurements _ _ => true
  | .telemetrySample r => r.die.length == 4 && r.cupola.length == 8 && r.stack.length == 8
  | .energyPlannerStep => true
  | .packageReset _ => true
  | .fullRateSwitch _ => true
  | .dieReset die => die < 4
  | .homeReset home => home < 32
  | .tileResetMctp tile => tile < 768
  | .spirePortReset port => port < 8
  | .hostPortReset port => port < 2
  | .functionReset port fn => port < 2 && fn < 256
  | .mgmtReset => true
  | .fatalEntry _ => true
  | .enAssert => true
  | .enDeassert => true
  | .inputFault => true
  | .thermtrip => true
  | .hostPayloadPulled port fn slot _ => port < 2 && fn < 256 && slot < 64
  | .hostPutReply _ => true
  | .deliveryAcknowledge _ => true
  | .targetRoomExhausted _ => true
  | .spireLinkUp port => port < 8
  | .hostPortLinkUp port _ _ => port < 2
  | .inputInRange => true
  | .atsInvalidate port fn _ => port < 2 && fn < 256

end Sys2Proof
end

