-- ==== Sys2Proof/Decode.lean ====
section
/-! DEFINITION. The decoder of bundles and, after it, the encoder (02_encoding.md R43 to R63, R98, R233, R279, R357, R379, R418). -/
namespace Sys2Proof

/-- The two operations of a bundle with its wait marker and guard (R43, R45, R47). A bundle that carries no S operation
has `nop`, one that carries no V operation has `vnop`. -/
structure Bundle where
  wait : Bool
  guard : Pred
  neg : Bool
  s : Instr
  v : VOp
  deriving DecidableEq, Repr

/-- Why a word is no bundle; every reason raises ILLOP (R63). -/
inductive Illegal where
  /-- K = 11 (R45). -/
  | kind
  /-- An unassigned or reserved encoding of the S half. -/
  | sHalf
  /-- An unassigned or reserved encoding of the V half or of the extension X. -/
  | vHalf
  /-- A reserved format code, a bit-field or field width out of range, a reserved column, control-register number or
  nonzero bit of X (R54, R63, R174, R420). -/
  | operand
  deriving DecidableEq, Repr

/-- Bits [lo + n - 1 : lo] of a word. -/
def fld (w lo n : Nat) : Nat := w / 2 ^ lo % 2 ^ n

/-- The scalar floating format of a two-bit code (R125). -/
def FFmt.ofCode : Nat → FFmt
  | 0 => .fp32
  | 1 => .fp16
  | _ => .bf16

/-- The two-bit code of a scalar floating format (R125). -/
def FFmt.code : FFmt → Nat
  | .fp32 => 0
  | .fp16 => 1
  | .bf16 => 2

/-- The operations of major 0x00 under K = 00. -/
def decSR00 (s : Nat) : Option Instr :=
  if fld s 0 19 = 0 then some (.nop)
  else none

/-- The operations of major 0x01 under K = 00. -/
def decSR01 (s : Nat) : Option Instr :=
  if fld s 0 4 = 0 then some (.add (BitVec.ofNat 5 (fld s 14 5)) (BitVec.ofNat 5 (fld s 9 5)) (BitVec.ofNat 5 (fld s 4 5)))
  else if fld s 0 4 = 1 then some (.sub (BitVec.ofNat 5 (fld s 14 5)) (BitVec.ofNat 5 (fld s 9 5)) (BitVec.ofNat 5 (fld s 4 5)))
  else if fld s 0 4 = 2 then some (.and (BitVec.ofNat 5 (fld s 14 5)) (BitVec.ofNat 5 (fld s 9 5)) (BitVec.ofNat 5 (fld s 4 5)))
  else if fld s 0 4 = 3 then some (.or (BitVec.ofNat 5 (fld s 14 5)) (BitVec.ofNat 5 (fld s 9 5)) (BitVec.ofNat 5 (fld s 4 5)))
  else if fld s 0 4 = 4 then some (.xor (BitVec.ofNat 5 (fld s 14 5)) (BitVec.ofNat 5 (fld s 9 5)) (BitVec.ofNat 5 (fld s 4 5)))
  else if fld s 0 4 = 5 then some (.andn (BitVec.ofNat 5 (fld s 14 5)) (BitVec.ofNat 5 (fld s 9 5)) (BitVec.ofNat 5 (fld s 4 5)))
  else if fld s 0 4 = 6 then some (.orn (BitVec.ofNat 5 (fld s 14 5)) (BitVec.ofNat 5 (fld s 9 5)) (BitVec.ofNat 5 (fld s 4 5)))
  else if fld s 0 4 = 7 then some (.xnor (BitVec.ofNat 5 (fld s 14 5)) (BitVec.ofNat 5 (fld s 9 5)) (BitVec.ofNat 5 (fld s 4 5)))
  else if fld s 0 4 = 8 then some (.sll (BitVec.ofNat 5 (fld s 14 5)) (BitVec.ofNat 5 (fld s 9 5)) (BitVec.ofNat 5 (fld s 4 5)))
  else if fld s 0 4 = 9 then some (.srl (BitVec.ofNat 5 (fld s 14 5)) (BitVec.ofNat 5 (fld s 9 5)) (BitVec.ofNat 5 (fld s 4 5)))
  else if fld s 0 4 = 10 then some (.sra (BitVec.ofNat 5 (fld s 14 5)) (BitVec.ofNat 5 (fld s 9 5)) (BitVec.ofNat 5 (fld s 4 5)))
  else if fld s 0 4 = 11 then some (.ror (BitVec.ofNat 5 (fld s 14 5)) (BitVec.ofNat 5 (fld s 9 5)) (BitVec.ofNat 5 (fld s 4 5)))
  else if fld s 0 4 = 12 then some (.min (BitVec.ofNat 5 (fld s 14 5)) (BitVec.ofNat 5 (fld s 9 5)) (BitVec.ofNat 5 (fld s 4 5)))
  else if fld s 0 4 = 13 then some (.max (BitVec.ofNat 5 (fld s 14 5)) (BitVec.ofNat 5 (fld s 9 5)) (BitVec.ofNat 5 (fld s 4 5)))
  else if fld s 0 4 = 14 then some (.minz (BitVec.ofNat 5 (fld s 14 5)) (BitVec.ofNat 5 (fld s 9 5)) (BitVec.ofNat 5 (fld s 4 5)))
  else if fld s 0 4 = 15 then some (.maxz (BitVec.ofNat 5 (fld s 14 5)) (BitVec.ofNat 5 (fld s 9 5)) (BitVec.ofNat 5 (fld s 4 5)))
  else none

/-- The operations of major 0x01 under K = 01. -/
def decSL01 (s imm : Nat) : Option Instr :=
  if fld s 0 9 = 0 then some (.addSl (BitVec.ofNat 5 (fld s 14 5)) (BitVec.ofNat 5 (fld s 9 5)) (BitVec.ofNat 32 imm))
  else if fld s 0 9 = 1 then some (.subSl (BitVec.ofNat 5 (fld s 14 5)) (BitVec.ofNat 5 (fld s 9 5)) (BitVec.ofNat 32 imm))
  else if fld s 0 9 = 2 then some (.andSl (BitVec.ofNat 5 (fld s 14 5)) (BitVec.ofNat 5 (fld s 9 5)) (BitVec.ofNat 32 imm))
  else if fld s 0 9 = 3 then some (.orSl (BitVec.ofNat 5 (fld s 14 5)) (BitVec.ofNat 5 (fld s 9 5)) (BitVec.ofNat 32 imm))
  else if fld s 0 9 = 4 then some (.xorSl (BitVec.ofNat 5 (fld s 14 5)) (BitVec.ofNat 5 (fld s 9 5)) (BitVec.ofNat 32 imm))
  else if fld s 0 9 = 5 then some (.andnSl (BitVec.ofNat 5 (fld s 14 5)) (BitVec.ofNat 5 (fld s 9 5)) (BitVec.ofNat 32 imm))
  else if fld s 0 9 = 6 then some (.ornSl (BitVec.ofNat 5 (fld s 14 5)) (BitVec.ofNat 5 (fld s 9 5)) (BitVec.ofNat 32 imm))
  else if fld s 0 9 = 7 then some (.xnorSl (BitVec.ofNat 5 (fld s 14 5)) (BitVec.ofNat 5 (fld s 9 5)) (BitVec.ofNat 32 imm))
  else if fld s 0 9 = 8 then some (.sllSl (BitVec.ofNat 5 (fld s 14 5)) (BitVec.ofNat 5 (fld s 9 5)) (BitVec.ofNat 32 imm))
  else if fld s 0 9 = 9 then some (.srlSl (BitVec.ofNat 5 (fld s 14 5)) (BitVec.ofNat 5 (fld s 9 5)) (BitVec.ofNat 32 imm))
  else if fld s 0 9 = 10 then some (.sraSl (BitVec.ofNat 5 (fld s 14 5)) (BitVec.ofNat 5 (fld s 9 5)) (BitVec.ofNat 32 imm))
  else if fld s 0 9 = 11 then some (.rorSl (BitVec.ofNat 5 (fld s 14 5)) (BitVec.ofNat 5 (fld s 9 5)) (BitVec.ofNat 32 imm))
  else if fld s 0 9 = 12 then some (.minSl (BitVec.ofNat 5 (fld s 14 5)) (BitVec.ofNat 5 (fld s 9 5)) (BitVec.ofNat 32 imm))
  else if fld s 0 9 = 13 then some (.maxSl (BitVec.ofNat 5 (fld s 14 5)) (BitVec.ofNat 5 (fld s 9 5)) (BitVec.ofNat 32 imm))
  else if fld s 0 9 = 14 then some (.minzSl (BitVec.ofNat 5 (fld s 14 5)) (BitVec.ofNat 5 (fld s 9 5)) (BitVec.ofNat 32 imm))
  else if fld s 0 9 = 15 then some (.maxzSl (BitVec.ofNat 5 (fld s 14 5)) (BitVec.ofNat 5 (fld s 9 5)) (BitVec.ofNat 32 imm))
  else none

/-- The operations of major 0x10 under K = 00. -/
def decSR10 (s : Nat) : Option Instr :=
  if True then some (.addi (BitVec.ofNat 5 (fld s 14 5)) (BitVec.ofNat 5 (fld s 9 5)) (BitVec.ofNat 9 (fld s 0 9)))
  else none

/-- The operations of major 0x02 under K = 00. -/
def decSR02 (s : Nat) : Option Instr :=
  if fld s 0 4 = 0 then some (.mul (BitVec.ofNat 5 (fld s 14 5)) (BitVec.ofNat 5 (fld s 9 5)) (BitVec.ofNat 5 (fld s 4 5)))
  else if fld s 0 4 = 1 then some (.mulh (BitVec.ofNat 5 (fld s 14 5)) (BitVec.ofNat 5 (fld s 9 5)) (BitVec.ofNat 5 (fld s 4 5)))
  else if fld s 0 4 = 2 then some (.mulhz (BitVec.ofNat 5 (fld s 14 5)) (BitVec.ofNat 5 (fld s 9 5)) (BitVec.ofNat 5 (fld s 4 5)))
  else if fld s 0 4 = 3 then some (.mulhsz (BitVec.ofNat 5 (fld s 14 5)) (BitVec.ofNat 5 (fld s 9 5)) (BitVec.ofNat 5 (fld s 4 5)))
  else if fld s 0 4 = 4 then some (.div (BitVec.ofNat 5 (fld s 14 5)) (BitVec.ofNat 5 (fld s 9 5)) (BitVec.ofNat 5 (fld s 4 5)))
  else if fld s 0 4 = 5 then some (.divz (BitVec.ofNat 5 (fld s 14 5)) (BitVec.ofNat 5 (fld s 9 5)) (BitVec.ofNat 5 (fld s 4 5)))
  else if fld s 0 4 = 6 then some (.rem (BitVec.ofNat 5 (fld s 14 5)) (BitVec.ofNat 5 (fld s 9 5)) (BitVec.ofNat 5 (fld s 4 5)))
  else if fld s 0 4 = 7 then some (.remz (BitVec.ofNat 5 (fld s 14 5)) (BitVec.ofNat 5 (fld s 9 5)) (BitVec.ofNat 5 (fld s 4 5)))
  else if fld s 0 9 = 8 then some (.clz (BitVec.ofNat 5 (fld s 14 5)) (BitVec.ofNat 5 (fld s 9 5)))
  else if fld s 0 9 = 9 then some (.ctz (BitVec.ofNat 5 (fld s 14 5)) (BitVec.ofNat 5 (fld s 9 5)))
  else if fld s 0 9 = 10 then some (.popc (BitVec.ofNat 5 (fld s 14 5)) (BitVec.ofNat 5 (fld s 9 5)))
  else none

/-- The operations of major 0x02 under K = 01. -/
def decSL02 (s imm : Nat) : Option Instr :=
  if fld s 0 9 = 0 then some (.mulSl (BitVec.ofNat 5 (fld s 14 5)) (BitVec.ofNat 5 (fld s 9 5)) (BitVec.ofNat 32 imm))
  else if fld s 0 9 = 1 then some (.mulhSl (BitVec.ofNat 5 (fld s 14 5)) (BitVec.ofNat 5 (fld s 9 5)) (BitVec.ofNat 32 imm))
  else if fld s 0 9 = 2 then some (.mulhzSl (BitVec.ofNat 5 (fld s 14 5)) (BitVec.ofNat 5 (fld s 9 5)) (BitVec.ofNat 32 imm))
  else if fld s 0 9 = 3 then some (.mulhszSl (BitVec.ofNat 5 (fld s 14 5)) (BitVec.ofNat 5 (fld s 9 5)) (BitVec.ofNat 32 imm))
  else if fld s 0 9 = 4 then some (.divSl (BitVec.ofNat 5 (fld s 14 5)) (BitVec.ofNat 5 (fld s 9 5)) (BitVec.ofNat 32 imm))
  else if fld s 0 9 = 5 then some (.divzSl (BitVec.ofNat 5 (fld s 14 5)) (BitVec.ofNat 5 (fld s 9 5)) (BitVec.ofNat 32 imm))
  else if fld s 0 9 = 6 then some (.remSl (BitVec.ofNat 5 (fld s 14 5)) (BitVec.ofNat 5 (fld s 9 5)) (BitVec.ofNat 32 imm))
  else if fld s 0 9 = 7 then some (.remzSl (BitVec.ofNat 5 (fld s 14 5)) (BitVec.ofNat 5 (fld s 9 5)) (BitVec.ofNat 32 imm))
  else none

/-- The operations of major 0x03 under K = 00. -/
def decSR03 (s : Nat) : Option Instr :=
  if fld s 0 9 = 0 then some (.sxb (BitVec.ofNat 5 (fld s 14 5)) (BitVec.ofNat 5 (fld s 9 5)))
  else if fld s 0 9 = 1 then some (.sxh (BitVec.ofNat 5 (fld s 14 5)) (BitVec.ofNat 5 (fld s 9 5)))
  else if fld s 0 9 = 2 then some (.sxw (BitVec.ofNat 5 (fld s 14 5)) (BitVec.ofNat 5 (fld s 9 5)))
  else if fld s 0 9 = 3 then some (.zxb (BitVec.ofNat 5 (fld s 14 5)) (BitVec.ofNat 5 (fld s 9 5)))
  else if fld s 0 9 = 4 then some (.zxh (BitVec.ofNat 5 (fld s 14 5)) (BitVec.ofNat 5 (fld s 9 5)))
  else if fld s 0 9 = 5 then some (.zxw (BitVec.ofNat 5 (fld s 14 5)) (BitVec.ofNat 5 (fld s 9 5)))
  else if fld s 3 1 = 1 then some (.sel (BitVec.ofNat 5 (fld s 14 5)) (BitVec.ofNat 3 (fld s 0 3)) (BitVec.ofNat 5 (fld s 9 5)) (BitVec.ofNat 5 (fld s 4 5)))
  else none

/-- The operations of major 0x03 under K = 01. -/
def decSL03 (s imm : Nat) : Option Instr :=
  if fld s 3 6 = 1 then some (.selSl (BitVec.ofNat 5 (fld s 14 5)) (BitVec.ofNat 3 (fld s 0 3)) (BitVec.ofNat 5 (fld s 9 5)) (BitVec.ofNat 32 imm))
  else none

/-- The operations of major 0x04 under K = 00. -/
def decSR04 (s : Nat) : Option Instr :=
  if fld s 2 2 = 0 then some (.addx (BitVec.ofNat 5 (fld s 14 5)) (BitVec.ofNat 5 (fld s 9 5)) (BitVec.ofNat 5 (fld s 4 5)) (BitVec.ofNat 2 (fld s 0 2)))
  else none

/-- The operations of major 0x04 under K = 01. -/
def decSL04 (s imm : Nat) : Option Instr :=
  if fld s 2 7 = 0 then some (.addxSl (BitVec.ofNat 5 (fld s 14 5)) (BitVec.ofNat 5 (fld s 9 5)) (BitVec.ofNat 32 imm) (BitVec.ofNat 2 (fld s 0 2)))
  else none

/-- The operations of major 0x05 under K = 01. -/
def decSL05 (s imm : Nat) : Option Instr :=
  if fld s 0 9 = 0 ∧ fld imm 13 19 = 0 then some (.bfx (BitVec.ofNat 5 (fld s 14 5)) (BitVec.ofNat 5 (fld s 9 5)) (BitVec.ofNat 6 (fld imm 0 6)) (BitVec.ofNat 7 (fld imm 6 7)))
  else if fld s 0 9 = 1 ∧ fld imm 13 19 = 0 then some (.bfxz (BitVec.ofNat 5 (fld s 14 5)) (BitVec.ofNat 5 (fld s 9 5)) (BitVec.ofNat 6 (fld imm 0 6)) (BitVec.ofNat 7 (fld imm 6 7)))
  else if fld s 0 9 = 2 ∧ fld imm 13 19 = 0 then some (.bfi (BitVec.ofNat 5 (fld s 14 5)) (BitVec.ofNat 5 (fld s 9 5)) (BitVec.ofNat 6 (fld imm 0 6)) (BitVec.ofNat 7 (fld imm 6 7)))
  else none

/-- The operations of major 0x06 under K = 01. -/
def decSL06 (s imm : Nat) : Option Instr :=
  if fld s 0 14 = 0 then some (.li (BitVec.ofNat 5 (fld s 14 5)) (BitVec.ofNat 32 imm))
  else if fld s 0 14 = 1 then some (.liz (BitVec.ofNat 5 (fld s 14 5)) (BitVec.ofNat 32 imm))
  else if fld s 0 14 = 2 then some (.lih (BitVec.ofNat 5 (fld s 14 5)) (BitVec.ofNat 32 imm))
  else none

/-- The operations of major 0x07 under K = 00. -/
def decSR07 (s : Nat) : Option Instr :=
  if fld s 0 4 = 0 ∧ fld s 7 2 = 0 ∧ fld s 12 2 = 0 ∧ fld s 17 2 = 0 then some (.pand (BitVec.ofNat 3 (fld s 14 3)) (BitVec.ofNat 3 (fld s 9 3)) (BitVec.ofNat 3 (fld s 4 3)))
  else if fld s 0 4 = 1 ∧ fld s 7 2 = 0 ∧ fld s 12 2 = 0 ∧ fld s 17 2 = 0 then some (.por (BitVec.ofNat 3 (fld s 14 3)) (BitVec.ofNat 3 (fld s 9 3)) (BitVec.ofNat 3 (fld s 4 3)))
  else if fld s 0 4 = 2 ∧ fld s 7 2 = 0 ∧ fld s 12 2 = 0 ∧ fld s 17 2 = 0 then some (.pxor (BitVec.ofNat 3 (fld s 14 3)) (BitVec.ofNat 3 (fld s 9 3)) (BitVec.ofNat 3 (fld s 4 3)))
  else if fld s 0 4 = 3 ∧ fld s 7 2 = 0 ∧ fld s 12 2 = 0 ∧ fld s 17 2 = 0 then some (.pandn (BitVec.ofNat 3 (fld s 14 3)) (BitVec.ofNat 3 (fld s 9 3)) (BitVec.ofNat 3 (fld s 4 3)))
  else if fld s 0 4 = 4 ∧ fld s 7 2 = 0 ∧ fld s 12 2 = 0 ∧ fld s 17 2 = 0 then some (.porn (BitVec.ofNat 3 (fld s 14 3)) (BitVec.ofNat 3 (fld s 9 3)) (BitVec.ofNat 3 (fld s 4 3)))
  else if fld s 0 4 = 5 ∧ fld s 7 2 = 0 ∧ fld s 12 2 = 0 ∧ fld s 17 2 = 0 then some (.pnor (BitVec.ofNat 3 (fld s 14 3)) (BitVec.ofNat 3 (fld s 9 3)) (BitVec.ofNat 3 (fld s 4 3)))
  else if fld s 0 14 = 6 then some (.pget (BitVec.ofNat 5 (fld s 14 5)))
  else if fld s 0 9 = 7 ∧ fld s 14 5 = 0 then some (.pput (BitVec.ofNat 5 (fld s 9 5)))
  else none

/-- The operations of major 0x08 under K = 00. -/
def decSR08 (s : Nat) : Option Instr :=
  if fld s 3 1 = 0 ∧ fld s 14 2 = 0 then some (.cmpEq (BitVec.ofNat 3 (fld s 16 3)) (BitVec.ofNat 3 (fld s 0 3)) (BitVec.ofNat 5 (fld s 9 5)) (BitVec.ofNat 5 (fld s 4 5)))
  else none

/-- The operations of major 0x08 under K = 01. -/
def decSL08 (s imm : Nat) : Option Instr :=
  if fld s 3 6 = 0 ∧ fld s 14 2 = 0 then some (.cmpEqSl (BitVec.ofNat 3 (fld s 16 3)) (BitVec.ofNat 3 (fld s 0 3)) (BitVec.ofNat 5 (fld s 9 5)) (BitVec.ofNat 32 imm))
  else none

/-- The operations of major 0x09 under K = 00. -/
def decSR09 (s : Nat) : Option Instr :=
  if fld s 3 1 = 0 ∧ fld s 14 2 = 0 then some (.cmpLt (BitVec.ofNat 3 (fld s 16 3)) (BitVec.ofNat 3 (fld s 0 3)) (BitVec.ofNat 5 (fld s 9 5)) (BitVec.ofNat 5 (fld s 4 5)))
  else none

/-- The operations of major 0x09 under K = 01. -/
def decSL09 (s imm : Nat) : Option Instr :=
  if fld s 3 6 = 0 ∧ fld s 14 2 = 0 then some (.cmpLtSl (BitVec.ofNat 3 (fld s 16 3)) (BitVec.ofNat 3 (fld s 0 3)) (BitVec.ofNat 5 (fld s 9 5)) (BitVec.ofNat 32 imm))
  else none

/-- The operations of major 0x0A under K = 00. -/
def decSR0A (s : Nat) : Option Instr :=
  if fld s 3 1 = 0 ∧ fld s 14 2 = 0 then some (.cmpLe (BitVec.ofNat 3 (fld s 16 3)) (BitVec.ofNat 3 (fld s 0 3)) (BitVec.ofNat 5 (fld s 9 5)) (BitVec.ofNat 5 (fld s 4 5)))
  else none

/-- The operations of major 0x0A under K = 01. -/
def decSL0A (s imm : Nat) : Option Instr :=
  if fld s 3 6 = 0 ∧ fld s 14 2 = 0 then some (.cmpLeSl (BitVec.ofNat 3 (fld s 16 3)) (BitVec.ofNat 3 (fld s 0 3)) (BitVec.ofNat 5 (fld s 9 5)) (BitVec.ofNat 32 imm))
  else none

/-- The operations of major 0x0B under K = 00. -/
def decSR0B (s : Nat) : Option Instr :=
  if fld s 3 1 = 0 ∧ fld s 14 2 = 0 then some (.cmpLtz (BitVec.ofNat 3 (fld s 16 3)) (BitVec.ofNat 3 (fld s 0 3)) (BitVec.ofNat 5 (fld s 9 5)) (BitVec.ofNat 5 (fld s 4 5)))
  else none

/-- The operations of major 0x0B under K = 01. -/
def decSL0B (s imm : Nat) : Option Instr :=
  if fld s 3 6 = 0 ∧ fld s 14 2 = 0 then some (.cmpLtzSl (BitVec.ofNat 3 (fld s 16 3)) (BitVec.ofNat 3 (fld s 0 3)) (BitVec.ofNat 5 (fld s 9 5)) (BitVec.ofNat 32 imm))
  else none

/-- The operations of major 0x0C under K = 00. -/
def decSR0C (s : Nat) : Option Instr :=
  if fld s 3 1 = 0 ∧ fld s 14 2 = 0 then some (.cmpLez (BitVec.ofNat 3 (fld s 16 3)) (BitVec.ofNat 3 (fld s 0 3)) (BitVec.ofNat 5 (fld s 9 5)) (BitVec.ofNat 5 (fld s 4 5)))
  else none

/-- The operations of major 0x0C under K = 01. -/
def decSL0C (s imm : Nat) : Option Instr :=
  if fld s 3 6 = 0 ∧ fld s 14 2 = 0 then some (.cmpLezSl (BitVec.ofNat 3 (fld s 16 3)) (BitVec.ofNat 3 (fld s 0 3)) (BitVec.ofNat 5 (fld s 9 5)) (BitVec.ofNat 32 imm))
  else none

/-- The operations of major 0x11 under K = 00. -/
def decSR11 (s : Nat) : Option Instr :=
  if True then some (.ldb (BitVec.ofNat 5 (fld s 14 5)) (BitVec.ofNat 5 (fld s 9 5)) (BitVec.ofNat 9 (fld s 0 9)))
  else none

/-- The operations of major 0x12 under K = 00. -/
def decSR12 (s : Nat) : Option Instr :=
  if True then some (.ldbz (BitVec.ofNat 5 (fld s 14 5)) (BitVec.ofNat 5 (fld s 9 5)) (BitVec.ofNat 9 (fld s 0 9)))
  else none

/-- The operations of major 0x13 under K = 00. -/
def decSR13 (s : Nat) : Option Instr :=
  if True then some (.ldh (BitVec.ofNat 5 (fld s 14 5)) (BitVec.ofNat 5 (fld s 9 5)) (BitVec.ofNat 9 (fld s 0 9)))
  else none

/-- The operations of major 0x14 under K = 00. -/
def decSR14 (s : Nat) : Option Instr :=
  if True then some (.ldhz (BitVec.ofNat 5 (fld s 14 5)) (BitVec.ofNat 5 (fld s 9 5)) (BitVec.ofNat 9 (fld s 0 9)))
  else none

/-- The operations of major 0x15 under K = 00. -/
def decSR15 (s : Nat) : Option Instr :=
  if True then some (.ldw (BitVec.ofNat 5 (fld s 14 5)) (BitVec.ofNat 5 (fld s 9 5)) (BitVec.ofNat 9 (fld s 0 9)))
  else none

/-- The operations of major 0x16 under K = 00. -/
def decSR16 (s : Nat) : Option Instr :=
  if True then some (.ldwz (BitVec.ofNat 5 (fld s 14 5)) (BitVec.ofNat 5 (fld s 9 5)) (BitVec.ofNat 9 (fld s 0 9)))
  else none

/-- The operations of major 0x17 under K = 00. -/
def decSR17 (s : Nat) : Option Instr :=
  if True then some (.ldd (BitVec.ofNat 5 (fld s 14 5)) (BitVec.ofNat 5 (fld s 9 5)) (BitVec.ofNat 9 (fld s 0 9)))
  else none

/-- The operations of major 0x18 under K = 00. -/
def decSR18 (s : Nat) : Option Instr :=
  if True then some (.stb (BitVec.ofNat 5 (fld s 14 5)) (BitVec.ofNat 5 (fld s 9 5)) (BitVec.ofNat 9 (fld s 0 9)))
  else none

/-- The operations of major 0x19 under K = 00. -/
def decSR19 (s : Nat) : Option Instr :=
  if True then some (.sth (BitVec.ofNat 5 (fld s 14 5)) (BitVec.ofNat 5 (fld s 9 5)) (BitVec.ofNat 9 (fld s 0 9)))
  else none

/-- The operations of major 0x1A under K = 00. -/
def decSR1A (s : Nat) : Option Instr :=
  if True then some (.stw (BitVec.ofNat 5 (fld s 14 5)) (BitVec.ofNat 5 (fld s 9 5)) (BitVec.ofNat 9 (fld s 0 9)))
  else none

/-- The operations of major 0x1B under K = 00. -/
def decSR1B (s : Nat) : Option Instr :=
  if True then some (.std (BitVec.ofNat 5 (fld s 14 5)) (BitVec.ofNat 5 (fld s 9 5)) (BitVec.ofNat 9 (fld s 0 9)))
  else none

/-- The operations of major 0x1C under K = 00. -/
def decSR1C (s : Nat) : Option Instr :=
  if True then some (.ldx (BitVec.ofNat 2 (fld s 0 2)) (fld s 2 1 == 1) (fld s 3 1 == 1) (BitVec.ofNat 5 (fld s 14 5)) (BitVec.ofNat 5 (fld s 9 5)) (BitVec.ofNat 5 (fld s 4 5)))
  else none

/-- The operations of major 0x1D under K = 00. -/
def decSR1D (s : Nat) : Option Instr :=
  if fld s 2 1 = 0 then some (.stx (BitVec.ofNat 2 (fld s 0 2)) (fld s 3 1 == 1) (BitVec.ofNat 5 (fld s 14 5)) (BitVec.ofNat 5 (fld s 9 5)) (BitVec.ofNat 5 (fld s 4 5)))
  else none

/-- The operations of major 0x1E under K = 00. -/
def decSR1E (s : Nat) : Option Instr :=
  if True then some (.ldf (BitVec.ofNat 5 (fld s 14 5)) (BitVec.ofNat 5 (fld s 9 5)) (BitVec.ofNat 9 (fld s 0 9)))
  else none

/-- The operations of major 0x1F under K = 00. -/
def decSR1F (s : Nat) : Option Instr :=
  if True then some (.lde (BitVec.ofNat 5 (fld s 14 5)) (BitVec.ofNat 5 (fld s 9 5)) (BitVec.ofNat 9 (fld s 0 9)))
  else none

/-- The operations of major 0x20 under K = 00. -/
def decSR20 (s : Nat) : Option Instr :=
  if True then some (.stf (BitVec.ofNat 5 (fld s 14 5)) (BitVec.ofNat 5 (fld s 9 5)) (BitVec.ofNat 9 (fld s 0 9)))
  else none

/-- The operations of major 0x21 under K = 00. -/
def decSR21 (s : Nat) : Option Instr :=
  if True then some (.ste (BitVec.ofNat 5 (fld s 14 5)) (BitVec.ofNat 5 (fld s 9 5)) (BitVec.ofNat 9 (fld s 0 9)))
  else none

/-- The operations of major 0x22 under K = 00. -/
def decSR22 (s : Nat) : Option Instr :=
  if fld s 14 5 = 0 then some (.waitf (BitVec.ofNat 5 (fld s 9 5)) (BitVec.ofNat 9 (fld s 0 9)))
  else none

/-- The operations of majors 0x23 to 0x26 under K = 00. -/
def decSRamo (s : Nat) : Option Instr :=
  if fld s 0 4 = 0 then some (.amoadd (fld s 19 6 == 0x24 || fld s 19 6 == 0x26) (fld s 19 6 == 0x25 || fld s 19 6 == 0x26) (BitVec.ofNat 5 (fld s 14 5)) (BitVec.ofNat 5 (fld s 9 5)) (BitVec.ofNat 5 (fld s 4 5)))
  else if fld s 0 4 = 1 then some (.amomax (fld s 19 6 == 0x24 || fld s 19 6 == 0x26) (fld s 19 6 == 0x25 || fld s 19 6 == 0x26) (BitVec.ofNat 5 (fld s 14 5)) (BitVec.ofNat 5 (fld s 9 5)) (BitVec.ofNat 5 (fld s 4 5)))
  else if fld s 0 4 = 2 then some (.amomin (fld s 19 6 == 0x24 || fld s 19 6 == 0x26) (fld s 19 6 == 0x25 || fld s 19 6 == 0x26) (BitVec.ofNat 5 (fld s 14 5)) (BitVec.ofNat 5 (fld s 9 5)) (BitVec.ofNat 5 (fld s 4 5)))
  else if fld s 0 4 = 3 then some (.amomaxz (fld s 19 6 == 0x24 || fld s 19 6 == 0x26) (fld s 19 6 == 0x25 || fld s 19 6 == 0x26) (BitVec.ofNat 5 (fld s 14 5)) (BitVec.ofNat 5 (fld s 9 5)) (BitVec.ofNat 5 (fld s 4 5)))
  else if fld s 0 4 = 4 then some (.amominz (fld s 19 6 == 0x24 || fld s 19 6 == 0x26) (fld s 19 6 == 0x25 || fld s 19 6 == 0x26) (BitVec.ofNat 5 (fld s 14 5)) (BitVec.ofNat 5 (fld s 9 5)) (BitVec.ofNat 5 (fld s 4 5)))
  else if fld s 0 4 = 5 then some (.amoand (fld s 19 6 == 0x24 || fld s 19 6 == 0x26) (fld s 19 6 == 0x25 || fld s 19 6 == 0x26) (BitVec.ofNat 5 (fld s 14 5)) (BitVec.ofNat 5 (fld s 9 5)) (BitVec.ofNat 5 (fld s 4 5)))
  else if fld s 0 4 = 6 then some (.amoor (fld s 19 6 == 0x24 || fld s 19 6 == 0x26) (fld s 19 6 == 0x25 || fld s 19 6 == 0x26) (BitVec.ofNat 5 (fld s 14 5)) (BitVec.ofNat 5 (fld s 9 5)) (BitVec.ofNat 5 (fld s 4 5)))
  else if fld s 0 4 = 7 then some (.amoxor (fld s 19 6 == 0x24 || fld s 19 6 == 0x26) (fld s 19 6 == 0x25 || fld s 19 6 == 0x26) (BitVec.ofNat 5 (fld s 14 5)) (BitVec.ofNat 5 (fld s 9 5)) (BitVec.ofNat 5 (fld s 4 5)))
  else if fld s 0 4 = 8 then some (.amoswap (fld s 19 6 == 0x24 || fld s 19 6 == 0x26) (fld s 19 6 == 0x25 || fld s 19 6 == 0x26) (BitVec.ofNat 5 (fld s 14 5)) (BitVec.ofNat 5 (fld s 9 5)) (BitVec.ofNat 5 (fld s 4 5)))
  else if fld s 0 4 = 9 then some (.amocas (fld s 19 6 == 0x24 || fld s 19 6 == 0x26) (fld s 19 6 == 0x25 || fld s 19 6 == 0x26) (BitVec.ofNat 5 (fld s 14 5)) (BitVec.ofNat 5 (fld s 9 5)) (BitVec.ofNat 5 (fld s 4 5)))
  else none

/-- The operations of major 0x27 under K = 00. -/
def decSR27 (s : Nat) : Option Instr :=
  if fld s 0 2 = 0 then some (.amofadd (fld s 2 1 == 1) (fld s 3 1 == 1) (BitVec.ofNat 5 (fld s 14 5)) (BitVec.ofNat 5 (fld s 9 5)) (BitVec.ofNat 5 (fld s 4 5)))
  else if fld s 0 2 = 1 then some (.amofmax (fld s 2 1 == 1) (fld s 3 1 == 1) (BitVec.ofNat 5 (fld s 14 5)) (BitVec.ofNat 5 (fld s 9 5)) (BitVec.ofNat 5 (fld s 4 5)))
  else if fld s 0 2 = 2 then some (.amofmin (fld s 2 1 == 1) (fld s 3 1 == 1) (BitVec.ofNat 5 (fld s 14 5)) (BitVec.ofNat 5 (fld s 9 5)) (BitVec.ofNat 5 (fld s 4 5)))
  else none

/-- The operations of major 0x28 under K = 00. -/
def decSR28 (s : Nat) : Option Instr :=
  if fld s 0 9 = 0 then some (.dlook (BitVec.ofNat 5 (fld s 14 5)) (BitVec.ofNat 5 (fld s 9 5)))
  else if fld s 0 4 = 1 then some (.dins (BitVec.ofNat 5 (fld s 14 5)) (BitVec.ofNat 5 (fld s 9 5)) (BitVec.ofNat 5 (fld s 4 5)))
  else if fld s 0 9 = 2 then some (.ddel (BitVec.ofNat 5 (fld s 14 5)) (BitVec.ofNat 5 (fld s 9 5)))
  else none

/-- The operations of major 0x29 under K = 00. -/
def decSR29 (s : Nat) : Option Instr :=
  if fld s 0 2 = 0 ∧ fld s 2 2 < 3 then some (.fadd (FFmt.ofCode (fld s 2 2)) (BitVec.ofNat 5 (fld s 14 5)) (BitVec.ofNat 5 (fld s 9 5)) (BitVec.ofNat 5 (fld s 4 5)))
  else if fld s 0 2 = 1 ∧ fld s 2 2 < 3 then some (.fsub (FFmt.ofCode (fld s 2 2)) (BitVec.ofNat 5 (fld s 14 5)) (BitVec.ofNat 5 (fld s 9 5)) (BitVec.ofNat 5 (fld s 4 5)))
  else if fld s 0 2 = 2 ∧ fld s 2 2 < 3 then some (.fmul (FFmt.ofCode (fld s 2 2)) (BitVec.ofNat 5 (fld s 14 5)) (BitVec.ofNat 5 (fld s 9 5)) (BitVec.ofNat 5 (fld s 4 5)))
  else if fld s 0 2 = 3 ∧ fld s 2 2 < 3 then some (.fma (FFmt.ofCode (fld s 2 2)) (BitVec.ofNat 5 (fld s 14 5)) (BitVec.ofNat 5 (fld s 9 5)) (BitVec.ofNat 5 (fld s 4 5)))
  else none

/-- The operations of major 0x2A under K = 00. -/
def decSR2A (s : Nat) : Option Instr :=
  if fld s 0 2 = 0 ∧ fld s 2 2 < 3 then some (.fmin (FFmt.ofCode (fld s 2 2)) (BitVec.ofNat 5 (fld s 14 5)) (BitVec.ofNat 5 (fld s 9 5)) (BitVec.ofNat 5 (fld s 4 5)))
  else if fld s 0 2 = 1 ∧ fld s 2 2 < 3 then some (.fmax (FFmt.ofCode (fld s 2 2)) (BitVec.ofNat 5 (fld s 14 5)) (BitVec.ofNat 5 (fld s 9 5)) (BitVec.ofNat 5 (fld s 4 5)))
  else if fld s 0 2 = 2 ∧ fld s 4 5 = 0 ∧ fld s 2 2 < 3 then some (.fclass (FFmt.ofCode (fld s 2 2)) (BitVec.ofNat 5 (fld s 14 5)) (BitVec.ofNat 5 (fld s 9 5)))
  else none

/-- The operations of major 0x2B under K = 00. -/
def decSR2B (s : Nat) : Option Instr :=
  if fld s 3 1 = 0 ∧ fld s 14 2 < 3 then some (.fcmpEq (FFmt.ofCode (fld s 14 2)) (BitVec.ofNat 3 (fld s 16 3)) (BitVec.ofNat 3 (fld s 0 3)) (BitVec.ofNat 5 (fld s 9 5)) (BitVec.ofNat 5 (fld s 4 5)))
  else none

/-- The operations of major 0x2C under K = 00. -/
def decSR2C (s : Nat) : Option Instr :=
  if fld s 3 1 = 0 ∧ fld s 14 2 < 3 then some (.fcmpLt (FFmt.ofCode (fld s 14 2)) (BitVec.ofNat 3 (fld s 16 3)) (BitVec.ofNat 3 (fld s 0 3)) (BitVec.ofNat 5 (fld s 9 5)) (BitVec.ofNat 5 (fld s 4 5)))
  else none

/-- The operations of major 0x2D under K = 00. -/
def decSR2D (s : Nat) : Option Instr :=
  if fld s 3 1 = 0 ∧ fld s 14 2 < 3 then some (.fcmpLe (FFmt.ofCode (fld s 14 2)) (BitVec.ofNat 3 (fld s 16 3)) (BitVec.ofNat 3 (fld s 0 3)) (BitVec.ofNat 5 (fld s 9 5)) (BitVec.ofNat 5 (fld s 4 5)))
  else none

/-- The operations of major 0x2E under K = 00. -/
def decSR2E (s : Nat) : Option Instr :=
  if fld s 3 1 = 0 ∧ fld s 14 2 < 3 then some (.fcmpUn (FFmt.ofCode (fld s 14 2)) (BitVec.ofNat 3 (fld s 16 3)) (BitVec.ofNat 3 (fld s 0 3)) (BitVec.ofNat 5 (fld s 9 5)) (BitVec.ofNat 5 (fld s 4 5)))
  else none

/-- The operations of major 0x2F under K = 00. -/
def decSR2F (s : Nat) : Option Instr :=
  if fld s 0 4 = 0 then some (.qbsE2m1 (BitVec.ofNat 5 (fld s 14 5)) (BitVec.ofNat 5 (fld s 9 5)) (BitVec.ofNat 5 (fld s 4 5)))
  else if fld s 0 4 = 1 then some (.qbsE4m3 (BitVec.ofNat 5 (fld s 14 5)) (BitVec.ofNat 5 (fld s 9 5)) (BitVec.ofNat 5 (fld s 4 5)))
  else if fld s 0 4 = 2 then some (.dqbsE2m1 (BitVec.ofNat 5 (fld s 14 5)) (BitVec.ofNat 5 (fld s 9 5)) (BitVec.ofNat 5 (fld s 4 5)))
  else if fld s 0 4 = 3 then some (.dqbsE4m3 (BitVec.ofNat 5 (fld s 14 5)) (BitVec.ofNat 5 (fld s 9 5)) (BitVec.ofNat 5 (fld s 4 5)))
  else if fld s 0 9 = 4 then some (.nisplit (BitVec.ofNat 5 (fld s 14 5)) (BitVec.ofNat 5 (fld s 9 5)))
  else if fld s 0 4 = 5 then some (.nijoin (BitVec.ofNat 5 (fld s 14 5)) (BitVec.ofNat 5 (fld s 9 5)) (BitVec.ofNat 5 (fld s 4 5)))
  else none

/-- The operations of majors 0x30 and 0x31 under K = 00. -/
def decSRcvt (s : Nat) : Option Instr :=
  if True then some (.cvt (BitVec.ofNat 5 (fld s 4 5)) (BitVec.ofNat 5 (fld s 19 1 * 16 + fld s 0 4)) (BitVec.ofNat 5 (fld s 14 5)) (BitVec.ofNat 5 (fld s 9 5)))
  else none

/-- The operations of major 0x32 under K = 00. -/
def decSR32 (s : Nat) : Option Instr :=
  if True then some (.br (BitVec.ofNat 19 (fld s 0 19)))
  else none

/-- The operations of major 0x33 under K = 00. -/
def decSR33 (s : Nat) : Option Instr :=
  if True then some (.brl (BitVec.ofNat 19 (fld s 0 19)))
  else none

/-- The operations of major 0x34 under K = 00. -/
def decSR34 (s : Nat) : Option Instr :=
  if True then some (.loop (BitVec.ofNat 5 (fld s 14 5)) (BitVec.ofNat 14 (fld s 0 14)))
  else none

/-- The operations of major 0x35 under K = 00. -/
def decSR35 (s : Nat) : Option Instr :=
  if True then some (.bz (BitVec.ofNat 5 (fld s 14 5)) (BitVec.ofNat 14 (fld s 0 14)))
  else none

/-- The operations of major 0x36 under K = 00. -/
def decSR36 (s : Nat) : Option Instr :=
  if True then some (.bnz (BitVec.ofNat 5 (fld s 14 5)) (BitVec.ofNat 14 (fld s 0 14)))
  else none

/-- The operations of major 0x37 under K = 00. -/
def decSR37 (s : Nat) : Option Instr :=
  if fld s 0 9 = 0 ∧ fld s 14 5 = 0 then some (.jr (BitVec.ofNat 5 (fld s 9 5)))
  else if fld s 0 9 = 1 then some (.jrl (BitVec.ofNat 5 (fld s 14 5)) (BitVec.ofNat 5 (fld s 9 5)))
  else none

/-- The operations of major 0x38 under K = 00. -/
def decSR38 (s : Nat) : Option Instr :=
  if fld s 0 4 = 0 then some (.mstat (BitVec.ofNat 5 (fld s 14 5)) (BitVec.ofNat 5 (fld s 9 5)) (BitVec.ofNat 5 (fld s 4 5)))
  else if fld s 0 9 = 1 then some (.munstat (BitVec.ofNat 5 (fld s 14 5)) (BitVec.ofNat 5 (fld s 9 5)))
  else if fld s 0 9 = 2 ∧ fld s 14 5 = 0 then some (.mma (BitVec.ofNat 5 (fld s 9 5)))
  else if fld s 0 9 = 3 then some (.macc (BitVec.ofNat 5 (fld s 14 5)) (BitVec.ofNat 5 (fld s 9 5)))
  else if fld s 0 9 = 4 ∧ fld s 14 5 = 0 then some (.mrd (BitVec.ofNat 5 (fld s 9 5)))
  else if fld s 0 9 = 5 ∧ fld s 14 5 = 0 then some (.mrdv (BitVec.ofNat 5 (fld s 9 5)))
  else if fld s 0 9 = 6 then some (.mstatus (BitVec.ofNat 5 (fld s 14 5)) (BitVec.ofNat 5 (fld s 9 5)))
  else none

/-- The operations of major 0x39 under K = 00. -/
def decSR39 (s : Nat) : Option Instr :=
  if fld s 0 9 = 0 then some (.put (BitVec.ofNat 5 (fld s 14 5)) (BitVec.ofNat 5 (fld s 9 5)))
  else if fld s 0 9 = 1 then some (.putI (BitVec.ofNat 5 (fld s 14 5)) (BitVec.ofNat 5 (fld s 9 5)))
  else if fld s 0 9 = 2 then some (.putR (BitVec.ofNat 5 (fld s 14 5)) (BitVec.ofNat 5 (fld s 9 5)))
  else if fld s 0 9 = 3 then some (.putG (BitVec.ofNat 5 (fld s 14 5)) (BitVec.ofNat 5 (fld s 9 5)))
  else if fld s 0 9 = 4 then some (.readB (BitVec.ofNat 5 (fld s 14 5)) (BitVec.ofNat 5 (fld s 9 5)))
  else if fld s 0 9 = 5 then some (.readP (BitVec.ofNat 5 (fld s 14 5)) (BitVec.ofNat 5 (fld s 9 5)))
  else if fld s 0 9 = 6 then some (.readC (BitVec.ofNat 5 (fld s 14 5)) (BitVec.ofNat 5 (fld s 9 5)))
  else if fld s 0 9 = 7 then some (.takeB (BitVec.ofNat 5 (fld s 14 5)) (BitVec.ofNat 5 (fld s 9 5)))
  else if fld s 0 9 = 8 then some (.takeP (BitVec.ofNat 5 (fld s 14 5)) (BitVec.ofNat 5 (fld s 9 5)))
  else if fld s 0 9 = 9 then some (.takeC (BitVec.ofNat 5 (fld s 14 5)) (BitVec.ofNat 5 (fld s 9 5)))
  else if fld s 0 4 = 10 then some (.takeN (BitVec.ofNat 5 (fld s 14 5)) (BitVec.ofNat 5 (fld s 9 5)) (BitVec.ofNat 5 (fld s 4 5)))
  else if fld s 0 9 = 11 then some (.range (BitVec.ofNat 5 (fld s 14 5)) (BitVec.ofNat 5 (fld s 9 5)))
  else if fld s 0 9 = 12 then some (.accO (BitVec.ofNat 5 (fld s 14 5)) (BitVec.ofNat 5 (fld s 9 5)))
  else if fld s 0 4 = 13 then some (.accA (BitVec.ofNat 5 (fld s 14 5)) (BitVec.ofNat 5 (fld s 9 5)) (BitVec.ofNat 5 (fld s 4 5)))
  else if fld s 0 9 = 14 then some (.ctrO (BitVec.ofNat 5 (fld s 14 5)) (BitVec.ofNat 5 (fld s 9 5)))
  else if fld s 0 4 = 15 then some (.ctrA (BitVec.ofNat 5 (fld s 14 5)) (BitVec.ofNat 5 (fld s 9 5)) (BitVec.ofNat 5 (fld s 4 5)))
  else none

/-- The operations of major 0x3A under K = 00. -/
def decSR3A (s : Nat) : Option Instr :=
  if fld s 0 9 = 0 then some (.tcancel (BitVec.ofNat 5 (fld s 14 5)) (BitVec.ofNat 5 (fld s 9 5)))
  else if fld s 0 19 = 1 then some (.tfence)
  else if fld s 0 9 = 2 then some (.copyin (BitVec.ofNat 5 (fld s 14 5)) (BitVec.ofNat 5 (fld s 9 5)))
  else if fld s 0 9 = 3 then some (.copyout (BitVec.ofNat 5 (fld s 14 5)) (BitVec.ofNat 5 (fld s 9 5)))
  else if fld s 0 9 = 4 then some (.copyr (BitVec.ofNat 5 (fld s 14 5)) (BitVec.ofNat 5 (fld s 9 5)))
  else if fld s 0 9 = 5 then some (.freeze (BitVec.ofNat 5 (fld s 14 5)) (BitVec.ofNat 5 (fld s 9 5)))
  else if fld s 0 9 = 6 then some (.split (BitVec.ofNat 5 (fld s 14 5)) (BitVec.ofNat 5 (fld s 9 5)))
  else if fld s 0 9 = 7 then some (.tstat (BitVec.ofNat 5 (fld s 14 5)) (BitVec.ofNat 5 (fld s 9 5)))
  else none

/-- The operations of major 0x3B under K = 00. -/
def decSR3B (s : Nat) : Option Instr :=
  if fld s 0 9 = 0 then some (.bars (BitVec.ofNat 5 (fld s 14 5)) (BitVec.ofNat 5 (fld s 9 5)))
  else if fld s 0 9 = 1 ∧ fld s 14 5 = 0 then some (.barr (BitVec.ofNat 5 (fld s 9 5)))
  else if fld s 0 9 = 2 ∧ fld s 14 5 = 0 then some (.barw (BitVec.ofNat 5 (fld s 9 5)))
  else if fld s 0 19 = 3 then some (.spend)
  else if fld s 0 14 = 4 then some (.spst (BitVec.ofNat 5 (fld s 14 5)))
  else if fld s 0 9 = 5 ∧ fld s 14 5 = 0 then some (.fence (BitVec.ofNat 5 (fld s 9 5)))
  else if fld s 0 19 = 6 then some (.yield)
  else if fld s 0 9 = 7 then some (.sleep (BitVec.ofNat 5 (fld s 14 5)) (BitVec.ofNat 5 (fld s 9 5)))
  else if fld s 0 9 = 8 ∧ fld s 14 5 = 0 then some (.wake (BitVec.ofNat 5 (fld s 9 5)))
  else none

/-- The operations of major 0x3C under K = 00. -/
def decSR3C (s : Nat) : Option Instr :=
  if fld s 0 4 = 0 then some (.spawn (BitVec.ofNat 5 (fld s 14 5)) (BitVec.ofNat 5 (fld s 9 5)) (BitVec.ofNat 5 (fld s 4 5)))
  else if fld s 0 4 = 1 then some (.send (BitVec.ofNat 5 (fld s 14 5)) (BitVec.ofNat 5 (fld s 9 5)) (BitVec.ofNat 5 (fld s 4 5)))
  else if fld s 0 19 = 2 then some (.exit)
  else if fld s 0 9 = 3 ∧ fld s 14 5 = 0 then some (.prio (BitVec.ofNat 5 (fld s 9 5)))
  else if fld s 0 4 = 4 then some (.susp (BitVec.ofNat 5 (fld s 14 5)) (BitVec.ofNat 5 (fld s 9 5)) (BitVec.ofNat 5 (fld s 4 5)))
  else if fld s 0 9 = 5 then some (.resume (BitVec.ofNat 5 (fld s 14 5)) (BitVec.ofNat 5 (fld s 9 5)))
  else if fld s 0 9 = 6 then some (.free (BitVec.ofNat 5 (fld s 14 5)) (BitVec.ofNat 5 (fld s 9 5)))
  else if fld s 0 4 = 7 then some (.rdctx (BitVec.ofNat 5 (fld s 14 5)) (BitVec.ofNat 5 (fld s 9 5)) (BitVec.ofNat 5 (fld s 4 5)))
  else if fld s 0 4 = 8 then some (.wrctx (BitVec.ofNat 5 (fld s 14 5)) (BitVec.ofNat 5 (fld s 9 5)) (BitVec.ofNat 5 (fld s 4 5)))
  else if fld s 0 9 = 9 ∧ fld s 14 5 = 0 then some (.lend (BitVec.ofNat 5 (fld s 9 5)))
  else if fld s 0 4 = 10 ∧ fld s 14 5 = 0 then some (.timer (BitVec.ofNat 5 (fld s 9 5)) (BitVec.ofNat 5 (fld s 4 5)))
  else none

/-- The operations of major 0x3D under K = 00. -/
def decSR3D (s : Nat) : Option Instr :=
  if fld s 0 4 = 0 ∧ fld s 9 5 = 0 then some (.crget (BitVec.ofNat 5 (fld s 14 5)) (BitVec.ofNat 5 (fld s 4 5)))
  else if fld s 0 4 = 1 ∧ fld s 14 5 = 0 then some (.crset (BitVec.ofNat 5 (fld s 9 5)) (BitVec.ofNat 5 (fld s 4 5)))
  else if fld s 0 4 = 2 ∧ fld s 14 5 = 0 then some (.trap (BitVec.ofNat 5 (fld s 9 5)) (BitVec.ofNat 5 (fld s 4 5)))
  else if fld s 0 19 = 3 then some (.rft)
  else if fld s 0 9 = 4 ∧ fld s 14 5 = 0 then some (.svc (BitVec.ofNat 5 (fld s 9 5)))
  else if fld s 0 9 = 5 ∧ fld s 14 5 = 0 then some (.brk (BitVec.ofNat 5 (fld s 9 5)))
  else if fld s 0 4 = 6 then some (.tlbinv (BitVec.ofNat 5 (fld s 14 5)) (BitVec.ofNat 5 (fld s 9 5)) (BitVec.ofNat 5 (fld s 4 5)))
  else if fld s 0 9 = 7 ∧ fld s 14 5 = 0 then some (.asid (BitVec.ofNat 5 (fld s 9 5)))
  else if fld s 0 9 = 8 ∧ fld s 14 5 = 0 then some (.notify (BitVec.ofNat 5 (fld s 9 5)))
  else if fld s 0 9 = 9 then some (.perf (BitVec.ofNat 5 (fld s 14 5)) (BitVec.ofNat 5 (fld s 9 5)))
  else if fld s 0 9 = 10 ∧ fld s 14 5 = 0 then some (.wdog (BitVec.ofNat 5 (fld s 9 5)))
  else if fld s 0 9 = 11 ∧ fld s 14 5 = 0 then some (.halt (BitVec.ofNat 5 (fld s 9 5)))
  else none

/-- The operations of major 0x3D under K = 01. -/
def decSL3D (s imm : Nat) : Option Instr :=
  if fld s 0 14 = 0 ∧ fld imm 12 20 = 0 then some (.crgetSl (BitVec.ofNat 5 (fld s 14 5)) (BitVec.ofNat 12 (fld imm 0 12)))
  else if fld s 0 9 = 1 ∧ fld s 14 5 = 0 ∧ fld imm 12 20 = 0 then some (.crsetSl (BitVec.ofNat 5 (fld s 9 5)) (BitVec.ofNat 12 (fld imm 0 12)))
  else none

/-- The S syllable `s` under K = 00 (R60). -/
def decSR (s : Nat) : Option Instr :=
  match fld s 19 6 with
  | 0x00 => decSR00 s
  | 0x01 => decSR01 s
  | 0x10 => decSR10 s
  | 0x02 => decSR02 s
  | 0x03 => decSR03 s
  | 0x04 => decSR04 s
  | 0x07 => decSR07 s
  | 0x08 => decSR08 s
  | 0x09 => decSR09 s
  | 0x0A => decSR0A s
  | 0x0B => decSR0B s
  | 0x0C => decSR0C s
  | 0x11 => decSR11 s
  | 0x12 => decSR12 s
  | 0x13 => decSR13 s
  | 0x14 => decSR14 s
  | 0x15 => decSR15 s
  | 0x16 => decSR16 s
  | 0x17 => decSR17 s
  | 0x18 => decSR18 s
  | 0x19 => decSR19 s
  | 0x1A => decSR1A s
  | 0x1B => decSR1B s
  | 0x1C => decSR1C s
  | 0x1D => decSR1D s
  | 0x1E => decSR1E s
  | 0x1F => decSR1F s
  | 0x20 => decSR20 s
  | 0x21 => decSR21 s
  | 0x22 => decSR22 s
  | 0x23 => decSRamo s
  | 0x24 => decSRamo s
  | 0x25 => decSRamo s
  | 0x26 => decSRamo s
  | 0x27 => decSR27 s
  | 0x28 => decSR28 s
  | 0x29 => decSR29 s
  | 0x2A => decSR2A s
  | 0x2B => decSR2B s
  | 0x2C => decSR2C s
  | 0x2D => decSR2D s
  | 0x2E => decSR2E s
  | 0x2F => decSR2F s
  | 0x30 => decSRcvt s
  | 0x31 => decSRcvt s
  | 0x32 => decSR32 s
  | 0x33 => decSR33 s
  | 0x34 => decSR34 s
  | 0x35 => decSR35 s
  | 0x36 => decSR36 s
  | 0x37 => decSR37 s
  | 0x38 => decSR38 s
  | 0x39 => decSR39 s
  | 0x3A => decSR3A s
  | 0x3B => decSR3B s
  | 0x3C => decSR3C s
  | 0x3D => decSR3D s
  | _ => none

/-- The S syllable `s` under K = 01 (R60). -/
def decSL (s imm : Nat) : Option Instr :=
  match fld s 19 6 with
  | 0x01 => decSL01 s imm
  | 0x02 => decSL02 s imm
  | 0x03 => decSL03 s imm
  | 0x04 => decSL04 s imm
  | 0x05 => decSL05 s imm
  | 0x06 => decSL06 s imm
  | 0x08 => decSL08 s imm
  | 0x09 => decSL09 s imm
  | 0x0A => decSL0A s imm
  | 0x0B => decSL0B s imm
  | 0x0C => decSL0C s imm
  | 0x3D => decSL3D s imm
  | _ => none

/-- The V operation that a V opcode names, whether it stands only in V-long bundles, and the limits below which R62 leaves the fields D, A, B,
T, TN and mod of the V syllable and the extension X: every bit at or above a limit is reserved (R62, R63). -/
def vopRow : Nat → Option (VKind × Bool × List Nat × Nat)
  | 0x00 => some (.vnop, false, [1, 1, 1, 1, 1, 1], 1)
  | 0x01 => some (.vfld, false, [32, 32, 1, 1, 1, 1], 1)
  | 0x02 => some (.vfldi, true, [32, 1, 1, 1, 1, 1], 131072)
  | 0x03 => some (.vfcpy, false, [32, 32, 1, 1, 1, 1], 1)
  | 0x04 => some (.vvl, false, [1, 32, 1, 1, 1, 1], 1)
  | 0x05 => some (.vvli, true, [1, 1, 1, 1, 1, 1], 8192)
  | 0x06 => some (.vfrd, false, [32, 32, 1, 1, 1, 1], 1)
  | 0x08 => some (.vld, false, [32, 32, 1, 8, 2, 32], 1)
  | 0x09 => some (.vst, false, [32, 32, 1, 8, 2, 32], 1)
  | 0x0A => some (.vlds, false, [32, 32, 32, 8, 2, 32], 1)
  | 0x0B => some (.vsts, false, [32, 32, 32, 8, 2, 32], 1)
  | 0x0C => some (.vldr, false, [32, 32, 32, 8, 2, 32], 1)
  | 0x0D => some (.vstr, false, [32, 32, 32, 8, 2, 32], 1)
  | 0x0E => some (.vget, false, [32, 32, 32, 8, 2, 32], 1)
  | 0x0F => some (.vput, false, [32, 32, 32, 8, 2, 32], 1)
  | 0x10 => some (.vbc, false, [32, 32, 1, 8, 2, 32], 1)
  | 0x11 => some (.vbci, true, [32, 1, 1, 8, 2, 32], 536870912)
  | 0x12 => some (.vcopy, false, [32, 32, 1, 8, 2, 1], 1)
  | 0x18 => some (.vtand, false, [8, 8, 8, 8, 2, 1], 1)
  | 0x19 => some (.vtor, false, [8, 8, 8, 8, 2, 1], 1)
  | 0x1A => some (.vtxor, false, [8, 8, 8, 8, 2, 1], 1)
  | 0x1B => some (.vtandn, false, [8, 8, 8, 8, 2, 1], 1)
  | 0x1C => some (.vtset, false, [8, 1, 1, 8, 2, 1], 1)
  | 0x1D => some (.vtclr, false, [8, 1, 1, 8, 2, 1], 1)
  | 0x1E => some (.vtfirst, false, [8, 1, 1, 8, 2, 1], 1)
  | 0x1F => some (.vtcount, false, [32, 1, 1, 8, 2, 1], 1)
  | 0x20 => some (.vtany, false, [32, 1, 1, 8, 2, 1], 1)
  | 0x28 => some (.vceq, false, [8, 32, 32, 8, 2, 32], 1)
  | 0x29 => some (.vclt, false, [8, 32, 32, 8, 2, 32], 1)
  | 0x2A => some (.vcle, false, [8, 32, 32, 8, 2, 32], 1)
  | 0x30 => some (.vadd, false, [32, 32, 32, 8, 2, 32], 1)
  | 0x31 => some (.vsub, false, [32, 32, 32, 8, 2, 32], 1)
  | 0x32 => some (.vneg, false, [32, 32, 1, 8, 2, 32], 1)
  | 0x33 => some (.vabs, false, [32, 32, 1, 8, 2, 32], 1)
  | 0x34 => some (.vmin, false, [32, 32, 32, 8, 2, 32], 1)
  | 0x35 => some (.vmax, false, [32, 32, 32, 8, 2, 32], 1)
  | 0x36 => some (.vmul, false, [32, 32, 32, 8, 2, 32], 1)
  | 0x37 => some (.vand, false, [32, 32, 32, 8, 2, 32], 1)
  | 0x38 => some (.vor, false, [32, 32, 32, 8, 2, 32], 1)
  | 0x39 => some (.vxor, false, [32, 32, 32, 8, 2, 32], 1)
  | 0x3A => some (.vnot, false, [32, 32, 1, 8, 2, 32], 1)
  | 0x3B => some (.vshl, false, [32, 32, 32, 8, 2, 32], 1)
  | 0x3C => some (.vshr, false, [32, 32, 32, 8, 2, 32], 1)
  | 0x3D => some (.vsel, false, [32, 32, 32, 8, 2, 32], 1)
  | 0x40 => some (.vfadd, false, [32, 32, 32, 8, 2, 32], 1)
  | 0x41 => some (.vfsub, false, [32, 32, 32, 8, 2, 32], 1)
  | 0x42 => some (.vfmul, false, [32, 32, 32, 8, 2, 32], 1)
  | 0x43 => some (.vfmin, false, [32, 32, 32, 8, 2, 32], 1)
  | 0x44 => some (.vfmax, false, [32, 32, 32, 8, 2, 32], 1)
  | 0x45 => some (.vfceq, false, [8, 32, 32, 8, 2, 32], 1)
  | 0x46 => some (.vfclt, false, [8, 32, 32, 8, 2, 32], 1)
  | 0x47 => some (.vfcle, false, [8, 32, 32, 8, 2, 32], 1)
  | 0x48 => some (.vlut8, false, [32, 32, 1, 8, 2, 32], 1)
  | 0x49 => some (.vlut16, false, [32, 32, 1, 8, 2, 32], 1)
  | 0x4A => some (.vsfn, false, [32, 32, 8, 8, 2, 32], 1)
  | 0x4B => some (.vcvt, false, [32, 32, 32, 8, 2, 32], 1)
  | 0x50 => some (.vrmax, false, [8, 32, 1, 8, 2, 32], 1)
  | 0x51 => some (.vrmin, false, [8, 32, 1, 8, 2, 32], 1)
  | 0x52 => some (.vrsum, false, [32, 32, 1, 8, 2, 32], 1)
  | 0x53 => some (.vrfsum, false, [32, 32, 1, 8, 2, 32], 1)
  | 0x58 => some (.vqbs, false, [32, 32, 32, 8, 2, 32], 1)
  | 0x59 => some (.vdqbs, false, [32, 32, 32, 8, 2, 32], 1)
  | 0x5A => some (.voutl, false, [8, 32, 32, 8, 2, 32], 1)
  | 0x60 => some (.vpass, true, [32, 32, 32, 8, 2, 32], 536870912)
  | 0x61 => some (.vseq, true, [1, 1, 1, 1, 1, 1], 16384)
  | 0x62 => some (.vucload, false, [1, 32, 1, 8, 2, 1], 1)
  | _ => none

/-- The V opcode of a V operation (R62). -/
def VKind.code : VKind → Nat
  | .vnop => 0x00
  | .vfld => 0x01
  | .vfldi => 0x02
  | .vfcpy => 0x03
  | .vvl => 0x04
  | .vvli => 0x05
  | .vfrd => 0x06
  | .vld => 0x08
  | .vst => 0x09
  | .vlds => 0x0A
  | .vsts => 0x0B
  | .vldr => 0x0C
  | .vstr => 0x0D
  | .vget => 0x0E
  | .vput => 0x0F
  | .vbc => 0x10
  | .vbci => 0x11
  | .vcopy => 0x12
  | .vtand => 0x18
  | .vtor => 0x19
  | .vtxor => 0x1A
  | .vtandn => 0x1B
  | .vtset => 0x1C
  | .vtclr => 0x1D
  | .vtfirst => 0x1E
  | .vtcount => 0x1F
  | .vtany => 0x20
  | .vceq => 0x28
  | .vclt => 0x29
  | .vcle => 0x2A
  | .vadd => 0x30
  | .vsub => 0x31
  | .vneg => 0x32
  | .vabs => 0x33
  | .vmin => 0x34
  | .vmax => 0x35
  | .vmul => 0x36
  | .vand => 0x37
  | .vor => 0x38
  | .vxor => 0x39
  | .vnot => 0x3A
  | .vshl => 0x3B
  | .vshr => 0x3C
  | .vsel => 0x3D
  | .vfadd => 0x40
  | .vfsub => 0x41
  | .vfmul => 0x42
  | .vfmin => 0x43
  | .vfmax => 0x44
  | .vfceq => 0x45
  | .vfclt => 0x46
  | .vfcle => 0x47
  | .vlut8 => 0x48
  | .vlut16 => 0x49
  | .vsfn => 0x4A
  | .vcvt => 0x4B
  | .vrmax => 0x50
  | .vrmin => 0x51
  | .vrsum => 0x52
  | .vrfsum => 0x53
  | .vqbs => 0x58
  | .vdqbs => 0x59
  | .voutl => 0x5A
  | .vpass => 0x60
  | .vseq => 0x61
  | .vucload => 0x62

/-- The V operation of a V syllable and, under K = 10, its extension (R51, R53, R54, R62). A field of kind T or C that is narrower
than five bits is read from the low bits of its place; R62's reserved bits must be zero. A `VPASS` keeps its 24 low bits
in `m`. -/
def decV (long : Bool) (v x : Nat) : Option VOp :=
  match vopRow (fld v 24 8) with
  | none => none
  | some (k, l, [d, a, b, t, tn, m], lx) =>
    if l = long ∧ fld v 19 5 < d ∧ fld v 14 5 < a ∧ fld v 9 5 < b ∧ fld v 6 3 < t ∧ fld v 5 1 < tn ∧ fld v 0 5 < m ∧ x < lx then
      if k = .vpass then some ⟨k, 0, 0, 0, 0, false, fld v 0 24, x⟩
      else some ⟨k, fld v 19 5, fld v 14 5, fld v 9 5, fld v 6 3, fld v 5 1 == 1, fld v 0 5, x⟩
    else none
  | some _ => none

/-- The operand record of a V operation; none for a row that is no V operation. -/
def Instr.vop : Instr → Option VOp
  | .vnop => some ⟨.vnop, 0, 0, 0, 0, false, 0, 0⟩
  | .vfld d a => some ⟨.vfld, d.toNat, a.toNat, 0, 0, false, 0, 0⟩
  | .vfldi d start width => some ⟨.vfldi, d.toNat, 0, 0, 0, false, 0, start.toNat + width.toNat * 256⟩
  | .vfcpy d a => some ⟨.vfcpy, d.toNat, a.toNat, 0, 0, false, 0, 0⟩
  | .vvl a => some ⟨.vvl, 0, a.toNat, 0, 0, false, 0, 0⟩
  | .vvli rows => some ⟨.vvli, 0, 0, 0, 0, false, 0, rows.toNat⟩
  | .vfrd d a => some ⟨.vfrd, d.toNat, a.toNat, 0, 0, false, 0, 0⟩
  | .vld d a t tn m => some ⟨.vld, d.toNat, a.toNat, 0, t.toNat, tn, m.toNat, 0⟩
  | .vst d a t tn m => some ⟨.vst, d.toNat, a.toNat, 0, t.toNat, tn, m.toNat, 0⟩
  | .vlds d a b t tn m => some ⟨.vlds, d.toNat, a.toNat, b.toNat, t.toNat, tn, m.toNat, 0⟩
  | .vsts d a b t tn m => some ⟨.vsts, d.toNat, a.toNat, b.toNat, t.toNat, tn, m.toNat, 0⟩
  | .vldr d a b t tn m => some ⟨.vldr, d.toNat, a.toNat, b.toNat, t.toNat, tn, m.toNat, 0⟩
  | .vstr d a b t tn m => some ⟨.vstr, d.toNat, a.toNat, b.toNat, t.toNat, tn, m.toNat, 0⟩
  | .vget d a b t tn m => some ⟨.vget, d.toNat, a.toNat, b.toNat, t.toNat, tn, m.toNat, 0⟩
  | .vput d a b t tn m => some ⟨.vput, d.toNat, a.toNat, b.toNat, t.toNat, tn, m.toNat, 0⟩
  | .vbc d a t tn m => some ⟨.vbc, d.toNat, a.toNat, 0, t.toNat, tn, m.toNat, 0⟩
  | .vbci d t tn m imm => some ⟨.vbci, d.toNat, 0, 0, t.toNat, tn, m.toNat, imm.toNat⟩
  | .vcopy d a t tn => some ⟨.vcopy, d.toNat, a.toNat, 0, t.toNat, tn, 0, 0⟩
  | .vtand d a b t tn => some ⟨.vtand, d.toNat, a.toNat, b.toNat, t.toNat, tn, 0, 0⟩
  | .vtor d a b t tn => some ⟨.vtor, d.toNat, a.toNat, b.toNat, t.toNat, tn, 0, 0⟩
  | .vtxor d a b t tn => some ⟨.vtxor, d.toNat, a.toNat, b.toNat, t.toNat, tn, 0, 0⟩
  | .vtandn d a b t tn => some ⟨.vtandn, d.toNat, a.toNat, b.toNat, t.toNat, tn, 0, 0⟩
  | .vtset d t tn => some ⟨.vtset, d.toNat, 0, 0, t.toNat, tn, 0, 0⟩
  | .vtclr d t tn => some ⟨.vtclr, d.toNat, 0, 0, t.toNat, tn, 0, 0⟩
  | .vtfirst d t tn => some ⟨.vtfirst, d.toNat, 0, 0, t.toNat, tn, 0, 0⟩
  | .vtcount d t tn => some ⟨.vtcount, d.toNat, 0, 0, t.toNat, tn, 0, 0⟩
  | .vtany d t tn => some ⟨.vtany, d.toNat, 0, 0, t.toNat, tn, 0, 0⟩
  | .vceq d a b t tn m => some ⟨.vceq, d.toNat, a.toNat, b.toNat, t.toNat, tn, m.toNat, 0⟩
  | .vclt d a b t tn m => some ⟨.vclt, d.toNat, a.toNat, b.toNat, t.toNat, tn, m.toNat, 0⟩
  | .vcle d a b t tn m => some ⟨.vcle, d.toNat, a.toNat, b.toNat, t.toNat, tn, m.toNat, 0⟩
  | .vadd d a b t tn m => some ⟨.vadd, d.toNat, a.toNat, b.toNat, t.toNat, tn, m.toNat, 0⟩
  | .vsub d a b t tn m => some ⟨.vsub, d.toNat, a.toNat, b.toNat, t.toNat, tn, m.toNat, 0⟩
  | .vneg d a t tn m => some ⟨.vneg, d.toNat, a.toNat, 0, t.toNat, tn, m.toNat, 0⟩
  | .vabs d a t tn m => some ⟨.vabs, d.toNat, a.toNat, 0, t.toNat, tn, m.toNat, 0⟩
  | .vmin d a b t tn m => some ⟨.vmin, d.toNat, a.toNat, b.toNat, t.toNat, tn, m.toNat, 0⟩
  | .vmax d a b t tn m => some ⟨.vmax, d.toNat, a.toNat, b.toNat, t.toNat, tn, m.toNat, 0⟩
  | .vmul d a b t tn m => some ⟨.vmul, d.toNat, a.toNat, b.toNat, t.toNat, tn, m.toNat, 0⟩
  | .vand d a b t tn m => some ⟨.vand, d.toNat, a.toNat, b.toNat, t.toNat, tn, m.toNat, 0⟩
  | .vor d a b t tn m => some ⟨.vor, d.toNat, a.toNat, b.toNat, t.toNat, tn, m.toNat, 0⟩
  | .vxor d a b t tn m => some ⟨.vxor, d.toNat, a.toNat, b.toNat, t.toNat, tn, m.toNat, 0⟩
  | .vnot d a t tn m => some ⟨.vnot, d.toNat, a.toNat, 0, t.toNat, tn, m.toNat, 0⟩
  | .vshl d a b t tn m => some ⟨.vshl, d.toNat, a.toNat, b.toNat, t.toNat, tn, m.toNat, 0⟩
  | .vshr d a b t tn m => some ⟨.vshr, d.toNat, a.toNat, b.toNat, t.toNat, tn, m.toNat, 0⟩
  | .vsel d a b t tn m => some ⟨.vsel, d.toNat, a.toNat, b.toNat, t.toNat, tn, m.toNat, 0⟩
  | .vfadd d a b t tn m => some ⟨.vfadd, d.toNat, a.toNat, b.toNat, t.toNat, tn, m.toNat, 0⟩
  | .vfsub d a b t tn m => some ⟨.vfsub, d.toNat, a.toNat, b.toNat, t.toNat, tn, m.toNat, 0⟩
  | .vfmul d a b t tn m => some ⟨.vfmul, d.toNat, a.toNat, b.toNat, t.toNat, tn, m.toNat, 0⟩
  | .vfmin d a b t tn m => some ⟨.vfmin, d.toNat, a.toNat, b.toNat, t.toNat, tn, m.toNat, 0⟩
  | .vfmax d a b t tn m => some ⟨.vfmax, d.toNat, a.toNat, b.toNat, t.toNat, tn, m.toNat, 0⟩
  | .vfceq d a b t tn m => some ⟨.vfceq, d.toNat, a.toNat, b.toNat, t.toNat, tn, m.toNat, 0⟩
  | .vfclt d a b t tn m => some ⟨.vfclt, d.toNat, a.toNat, b.toNat, t.toNat, tn, m.toNat, 0⟩
  | .vfcle d a b t tn m => some ⟨.vfcle, d.toNat, a.toNat, b.toNat, t.toNat, tn, m.toNat, 0⟩
  | .vlut8 d a t tn m => some ⟨.vlut8, d.toNat, a.toNat, 0, t.toNat, tn, m.toNat, 0⟩
  | .vlut16 d a t tn m => some ⟨.vlut16, d.toNat, a.toNat, 0, t.toNat, tn, m.toNat, 0⟩
  | .vsfn d a b t tn m => some ⟨.vsfn, d.toNat, a.toNat, b.toNat, t.toNat, tn, m.toNat, 0⟩
  | .vcvt d a b t tn m => some ⟨.vcvt, d.toNat, a.toNat, b.toNat, t.toNat, tn, m.toNat, 0⟩
  | .vrmax d a t tn m => some ⟨.vrmax, d.toNat, a.toNat, 0, t.toNat, tn, m.toNat, 0⟩
  | .vrmin d a t tn m => some ⟨.vrmin, d.toNat, a.toNat, 0, t.toNat, tn, m.toNat, 0⟩
  | .vrsum d a t tn m => some ⟨.vrsum, d.toNat, a.toNat, 0, t.toNat, tn, m.toNat, 0⟩
  | .vrfsum d a t tn m => some ⟨.vrfsum, d.toNat, a.toNat, 0, t.toNat, tn, m.toNat, 0⟩
  | .vqbs d a b t tn m => some ⟨.vqbs, d.toNat, a.toNat, b.toNat, t.toNat, tn, m.toNat, 0⟩
  | .vdqbs d a b t tn m => some ⟨.vdqbs, d.toNat, a.toNat, b.toNat, t.toNat, tn, m.toNat, 0⟩
  | .voutl d a b t tn m => some ⟨.voutl, d.toNat, a.toNat, b.toNat, t.toNat, tn, m.toNat, 0⟩
  | .vpass lo x => some ⟨.vpass, 0, 0, 0, 0, false, lo.toNat, x.toNat⟩
  | .vseq first cnt => some ⟨.vseq, 0, 0, 0, 0, false, 0, first.toNat + cnt.toNat * 128⟩
  | .vucload a t tn => some ⟨.vucload, 0, a.toNat, 0, t.toNat, tn, 0, 0⟩
  | _ => none

/-- The instruction of an operand record. -/
noncomputable def VOp.instr (o : VOp) : Instr :=
  match o.kind with
  | .vnop => .vnop
  | .vfld => .vfld (BitVec.ofNat 5 o.d) (BitVec.ofNat 5 o.a)
  | .vfldi => .vfldi (BitVec.ofNat 5 o.d) (BitVec.ofNat 8 (fld o.x 0 8)) (BitVec.ofNat 9 (fld o.x 8 9))
  | .vfcpy => .vfcpy (BitVec.ofNat 5 o.d) (BitVec.ofNat 5 o.a)
  | .vvl => .vvl (BitVec.ofNat 5 o.a)
  | .vvli => .vvli (BitVec.ofNat 13 (fld o.x 0 13))
  | .vfrd => .vfrd (BitVec.ofNat 5 o.d) (BitVec.ofNat 5 o.a)
  | .vld => .vld (BitVec.ofNat 5 o.d) (BitVec.ofNat 5 o.a) (BitVec.ofNat 3 o.t) (o.tn) (BitVec.ofNat 5 o.m)
  | .vst => .vst (BitVec.ofNat 5 o.d) (BitVec.ofNat 5 o.a) (BitVec.ofNat 3 o.t) (o.tn) (BitVec.ofNat 5 o.m)
  | .vlds => .vlds (BitVec.ofNat 5 o.d) (BitVec.ofNat 5 o.a) (BitVec.ofNat 5 o.b) (BitVec.ofNat 3 o.t) (o.tn) (BitVec.ofNat 5 o.m)
  | .vsts => .vsts (BitVec.ofNat 5 o.d) (BitVec.ofNat 5 o.a) (BitVec.ofNat 5 o.b) (BitVec.ofNat 3 o.t) (o.tn) (BitVec.ofNat 5 o.m)
  | .vldr => .vldr (BitVec.ofNat 5 o.d) (BitVec.ofNat 5 o.a) (BitVec.ofNat 5 o.b) (BitVec.ofNat 3 o.t) (o.tn) (BitVec.ofNat 5 o.m)
  | .vstr => .vstr (BitVec.ofNat 5 o.d) (BitVec.ofNat 5 o.a) (BitVec.ofNat 5 o.b) (BitVec.ofNat 3 o.t) (o.tn) (BitVec.ofNat 5 o.m)
  | .vget => .vget (BitVec.ofNat 5 o.d) (BitVec.ofNat 5 o.a) (BitVec.ofNat 5 o.b) (BitVec.ofNat 3 o.t) (o.tn) (BitVec.ofNat 5 o.m)
  | .vput => .vput (BitVec.ofNat 5 o.d) (BitVec.ofNat 5 o.a) (BitVec.ofNat 5 o.b) (BitVec.ofNat 3 o.t) (o.tn) (BitVec.ofNat 5 o.m)
  | .vbc => .vbc (BitVec.ofNat 5 o.d) (BitVec.ofNat 5 o.a) (BitVec.ofNat 3 o.t) (o.tn) (BitVec.ofNat 5 o.m)
  | .vbci => .vbci (BitVec.ofNat 5 o.d) (BitVec.ofNat 3 o.t) (o.tn) (BitVec.ofNat 5 o.m) (BitVec.ofNat 29 (fld o.x 0 29))
  | .vcopy => .vcopy (BitVec.ofNat 5 o.d) (BitVec.ofNat 5 o.a) (BitVec.ofNat 3 o.t) (o.tn)
  | .vtand => .vtand (BitVec.ofNat 3 o.d) (BitVec.ofNat 3 o.a) (BitVec.ofNat 3 o.b) (BitVec.ofNat 3 o.t) (o.tn)
  | .vtor => .vtor (BitVec.ofNat 3 o.d) (BitVec.ofNat 3 o.a) (BitVec.ofNat 3 o.b) (BitVec.ofNat 3 o.t) (o.tn)
  | .vtxor => .vtxor (BitVec.ofNat 3 o.d) (BitVec.ofNat 3 o.a) (BitVec.ofNat 3 o.b) (BitVec.ofNat 3 o.t) (o.tn)
  | .vtandn => .vtandn (BitVec.ofNat 3 o.d) (BitVec.ofNat 3 o.a) (BitVec.ofNat 3 o.b) (BitVec.ofNat 3 o.t) (o.tn)
  | .vtset => .vtset (BitVec.ofNat 3 o.d) (BitVec.ofNat 3 o.t) (o.tn)
  | .vtclr => .vtclr (BitVec.ofNat 3 o.d) (BitVec.ofNat 3 o.t) (o.tn)
  | .vtfirst => .vtfirst (BitVec.ofNat 3 o.d) (BitVec.ofNat 3 o.t) (o.tn)
  | .vtcount => .vtcount (BitVec.ofNat 5 o.d) (BitVec.ofNat 3 o.t) (o.tn)
  | .vtany => .vtany (BitVec.ofNat 5 o.d) (BitVec.ofNat 3 o.t) (o.tn)
  | .vceq => .vceq (BitVec.ofNat 3 o.d) (BitVec.ofNat 5 o.a) (BitVec.ofNat 5 o.b) (BitVec.ofNat 3 o.t) (o.tn) (BitVec.ofNat 5 o.m)
  | .vclt => .vclt (BitVec.ofNat 3 o.d) (BitVec.ofNat 5 o.a) (BitVec.ofNat 5 o.b) (BitVec.ofNat 3 o.t) (o.tn) (BitVec.ofNat 5 o.m)
  | .vcle => .vcle (BitVec.ofNat 3 o.d) (BitVec.ofNat 5 o.a) (BitVec.ofNat 5 o.b) (BitVec.ofNat 3 o.t) (o.tn) (BitVec.ofNat 5 o.m)
  | .vadd => .vadd (BitVec.ofNat 5 o.d) (BitVec.ofNat 5 o.a) (BitVec.ofNat 5 o.b) (BitVec.ofNat 3 o.t) (o.tn) (BitVec.ofNat 5 o.m)
  | .vsub => .vsub (BitVec.ofNat 5 o.d) (BitVec.ofNat 5 o.a) (BitVec.ofNat 5 o.b) (BitVec.ofNat 3 o.t) (o.tn) (BitVec.ofNat 5 o.m)
  | .vneg => .vneg (BitVec.ofNat 5 o.d) (BitVec.ofNat 5 o.a) (BitVec.ofNat 3 o.t) (o.tn) (BitVec.ofNat 5 o.m)
  | .vabs => .vabs (BitVec.ofNat 5 o.d) (BitVec.ofNat 5 o.a) (BitVec.ofNat 3 o.t) (o.tn) (BitVec.ofNat 5 o.m)
  | .vmin => .vmin (BitVec.ofNat 5 o.d) (BitVec.ofNat 5 o.a) (BitVec.ofNat 5 o.b) (BitVec.ofNat 3 o.t) (o.tn) (BitVec.ofNat 5 o.m)
  | .vmax => .vmax (BitVec.ofNat 5 o.d) (BitVec.ofNat 5 o.a) (BitVec.ofNat 5 o.b) (BitVec.ofNat 3 o.t) (o.tn) (BitVec.ofNat 5 o.m)
  | .vmul => .vmul (BitVec.ofNat 5 o.d) (BitVec.ofNat 5 o.a) (BitVec.ofNat 5 o.b) (BitVec.ofNat 3 o.t) (o.tn) (BitVec.ofNat 5 o.m)
  | .vand => .vand (BitVec.ofNat 5 o.d) (BitVec.ofNat 5 o.a) (BitVec.ofNat 5 o.b) (BitVec.ofNat 3 o.t) (o.tn) (BitVec.ofNat 5 o.m)
  | .vor => .vor (BitVec.ofNat 5 o.d) (BitVec.ofNat 5 o.a) (BitVec.ofNat 5 o.b) (BitVec.ofNat 3 o.t) (o.tn) (BitVec.ofNat 5 o.m)
  | .vxor => .vxor (BitVec.ofNat 5 o.d) (BitVec.ofNat 5 o.a) (BitVec.ofNat 5 o.b) (BitVec.ofNat 3 o.t) (o.tn) (BitVec.ofNat 5 o.m)
  | .vnot => .vnot (BitVec.ofNat 5 o.d) (BitVec.ofNat 5 o.a) (BitVec.ofNat 3 o.t) (o.tn) (BitVec.ofNat 5 o.m)
  | .vshl => .vshl (BitVec.ofNat 5 o.d) (BitVec.ofNat 5 o.a) (BitVec.ofNat 5 o.b) (BitVec.ofNat 3 o.t) (o.tn) (BitVec.ofNat 5 o.m)
  | .vshr => .vshr (BitVec.ofNat 5 o.d) (BitVec.ofNat 5 o.a) (BitVec.ofNat 5 o.b) (BitVec.ofNat 3 o.t) (o.tn) (BitVec.ofNat 5 o.m)
  | .vsel => .vsel (BitVec.ofNat 5 o.d) (BitVec.ofNat 5 o.a) (BitVec.ofNat 5 o.b) (BitVec.ofNat 3 o.t) (o.tn) (BitVec.ofNat 5 o.m)
  | .vfadd => .vfadd (BitVec.ofNat 5 o.d) (BitVec.ofNat 5 o.a) (BitVec.ofNat 5 o.b) (BitVec.ofNat 3 o.t) (o.tn) (BitVec.ofNat 5 o.m)
  | .vfsub => .vfsub (BitVec.ofNat 5 o.d) (BitVec.ofNat 5 o.a) (BitVec.ofNat 5 o.b) (BitVec.ofNat 3 o.t) (o.tn) (BitVec.ofNat 5 o.m)
  | .vfmul => .vfmul (BitVec.ofNat 5 o.d) (BitVec.ofNat 5 o.a) (BitVec.ofNat 5 o.b) (BitVec.ofNat 3 o.t) (o.tn) (BitVec.ofNat 5 o.m)
  | .vfmin => .vfmin (BitVec.ofNat 5 o.d) (BitVec.ofNat 5 o.a) (BitVec.ofNat 5 o.b) (BitVec.ofNat 3 o.t) (o.tn) (BitVec.ofNat 5 o.m)
  | .vfmax => .vfmax (BitVec.ofNat 5 o.d) (BitVec.ofNat 5 o.a) (BitVec.ofNat 5 o.b) (BitVec.ofNat 3 o.t) (o.tn) (BitVec.ofNat 5 o.m)
  | .vfceq => .vfceq (BitVec.ofNat 3 o.d) (BitVec.ofNat 5 o.a) (BitVec.ofNat 5 o.b) (BitVec.ofNat 3 o.t) (o.tn) (BitVec.ofNat 5 o.m)
  | .vfclt => .vfclt (BitVec.ofNat 3 o.d) (BitVec.ofNat 5 o.a) (BitVec.ofNat 5 o.b) (BitVec.ofNat 3 o.t) (o.tn) (BitVec.ofNat 5 o.m)
  | .vfcle => .vfcle (BitVec.ofNat 3 o.d) (BitVec.ofNat 5 o.a) (BitVec.ofNat 5 o.b) (BitVec.ofNat 3 o.t) (o.tn) (BitVec.ofNat 5 o.m)
  | .vlut8 => .vlut8 (BitVec.ofNat 5 o.d) (BitVec.ofNat 5 o.a) (BitVec.ofNat 3 o.t) (o.tn) (BitVec.ofNat 5 o.m)
  | .vlut16 => .vlut16 (BitVec.ofNat 5 o.d) (BitVec.ofNat 5 o.a) (BitVec.ofNat 3 o.t) (o.tn) (BitVec.ofNat 5 o.m)
  | .vsfn => .vsfn (BitVec.ofNat 5 o.d) (BitVec.ofNat 5 o.a) (BitVec.ofNat 3 o.b) (BitVec.ofNat 3 o.t) (o.tn) (BitVec.ofNat 5 o.m)
  | .vcvt => .vcvt (BitVec.ofNat 5 o.d) (BitVec.ofNat 5 o.a) (BitVec.ofNat 5 o.b) (BitVec.ofNat 3 o.t) (o.tn) (BitVec.ofNat 5 o.m)
  | .vrmax => .vrmax (BitVec.ofNat 3 o.d) (BitVec.ofNat 5 o.a) (BitVec.ofNat 3 o.t) (o.tn) (BitVec.ofNat 5 o.m)
  | .vrmin => .vrmin (BitVec.ofNat 3 o.d) (BitVec.ofNat 5 o.a) (BitVec.ofNat 3 o.t) (o.tn) (BitVec.ofNat 5 o.m)
  | .vrsum => .vrsum (BitVec.ofNat 5 o.d) (BitVec.ofNat 5 o.a) (BitVec.ofNat 3 o.t) (o.tn) (BitVec.ofNat 5 o.m)
  | .vrfsum => .vrfsum (BitVec.ofNat 5 o.d) (BitVec.ofNat 5 o.a) (BitVec.ofNat 3 o.t) (o.tn) (BitVec.ofNat 5 o.m)
  | .vqbs => .vqbs (BitVec.ofNat 5 o.d) (BitVec.ofNat 5 o.a) (BitVec.ofNat 5 o.b) (BitVec.ofNat 3 o.t) (o.tn) (BitVec.ofNat 5 o.m)
  | .vdqbs => .vdqbs (BitVec.ofNat 5 o.d) (BitVec.ofNat 5 o.a) (BitVec.ofNat 5 o.b) (BitVec.ofNat 3 o.t) (o.tn) (BitVec.ofNat 5 o.m)
  | .voutl => .voutl (BitVec.ofNat 3 o.d) (BitVec.ofNat 5 o.a) (BitVec.ofNat 5 o.b) (BitVec.ofNat 3 o.t) (o.tn) (BitVec.ofNat 5 o.m)
  | .vpass => .vpass (BitVec.ofNat 24 o.m) (BitVec.ofNat 29 o.x)
  | .vseq => .vseq (BitVec.ofNat 7 (fld o.x 0 7)) (BitVec.ofNat 7 (fld o.x 7 7))
  | .vucload => .vucload (BitVec.ofNat 5 o.a) (BitVec.ofNat 3 o.t) (o.tn)

/-- The operand checks of a V operation (R54, R63, R174): format codes, the field width of `VFLDI`, the reserved bits of X in
`VBCI`, the columns of `VPASS`. -/
def VOp.wf (o : VOp) : Bool :=
  match o.kind with
  | .vfldi => 1 ≤ fld o.x 8 9 && fld o.x 8 9 ≤ 256
  | .vbci => o.m < 25 && vbciOk (BitVec.ofNat 5 o.m) (BitVec.ofNat 29 o.x)
  | .vpass => passOk (BitVec.ofNat 24 o.m) (BitVec.ofNat 29 o.x)
  | .vcvt => o.m < 25 && o.b < 25
  | .vsfn => o.m < 25
  | _ => o.m < 25

/-- Keeps an S operation whose operands are legal (R63). -/
def checkedS (o : Option Instr) : Except Illegal Instr :=
  match o with
  | none => .error .sHalf
  | some i => if i.wf then .ok i else .error .operand

/-- Keeps a V operation whose operands are legal (R63). -/
def checkedV (o : Option VOp) : Except Illegal VOp :=
  match o with
  | none => .error .vHalf
  | some i => if i.wf then .ok i else .error .operand

/-- The bundle that a 64-bit word holds, the word taken as a number (R43, R45). -/
def decodeNat (w : Nat) : Except Illegal Bundle :=
  let s := fld w 32 29
  let v := fld w 0 32
  let wait := fld w 63 1 == 1
  match fld w 61 2 with
  | 0 =>
    match checkedS (decSR s), checkedV (decV false v 0) with
    | .ok i, .ok j => .ok ⟨wait, BitVec.ofNat 3 (fld s 26 3), fld s 25 1 == 1, i, j⟩
    | .error e, _ => .error e
    | _, .error e => .error e
  | 1 =>
    match checkedS (decSL s v) with
    | .ok i => .ok ⟨wait, BitVec.ofNat 3 (fld s 26 3), fld s 25 1 == 1, i, .vnop⟩
    | .error e => .error e
  | 2 =>
    match checkedV (decV true v s) with
    | .ok j => .ok ⟨wait, 0, false, .nop, j⟩
    | .error e => .error e
  | _ => .error .kind

/-- The bundle that a 64-bit word holds. -/
def decode (w : W64) : Except Illegal Bundle := decodeNat w.toNat

/-- The S syllable and `imm32` of an S operation, without guard, and whether its form is the S-long one. -/
def encS : Instr → Option (Bool × Nat × Nat)
  | .nop => some (false, 0, 0)
  | .add rd ra rb => some (false, 524288 + rd.toNat * 16384 + ra.toNat * 512 + rb.toNat * 16, 0)
  | .addSl rd ra imm => some (true, 524288 + rd.toNat * 16384 + ra.toNat * 512, imm.toNat)
  | .sub rd ra rb => some (false, 524289 + rd.toNat * 16384 + ra.toNat * 512 + rb.toNat * 16, 0)
  | .subSl rd ra imm => some (true, 524289 + rd.toNat * 16384 + ra.toNat * 512, imm.toNat)
  | .and rd ra rb => some (false, 524290 + rd.toNat * 16384 + ra.toNat * 512 + rb.toNat * 16, 0)
  | .andSl rd ra imm => some (true, 524290 + rd.toNat * 16384 + ra.toNat * 512, imm.toNat)
  | .or rd ra rb => some (false, 524291 + rd.toNat * 16384 + ra.toNat * 512 + rb.toNat * 16, 0)
  | .orSl rd ra imm => some (true, 524291 + rd.toNat * 16384 + ra.toNat * 512, imm.toNat)
  | .xor rd ra rb => some (false, 524292 + rd.toNat * 16384 + ra.toNat * 512 + rb.toNat * 16, 0)
  | .xorSl rd ra imm => some (true, 524292 + rd.toNat * 16384 + ra.toNat * 512, imm.toNat)
  | .andn rd ra rb => some (false, 524293 + rd.toNat * 16384 + ra.toNat * 512 + rb.toNat * 16, 0)
  | .andnSl rd ra imm => some (true, 524293 + rd.toNat * 16384 + ra.toNat * 512, imm.toNat)
  | .orn rd ra rb => some (false, 524294 + rd.toNat * 16384 + ra.toNat * 512 + rb.toNat * 16, 0)
  | .ornSl rd ra imm => some (true, 524294 + rd.toNat * 16384 + ra.toNat * 512, imm.toNat)
  | .xnor rd ra rb => some (false, 524295 + rd.toNat * 16384 + ra.toNat * 512 + rb.toNat * 16, 0)
  | .xnorSl rd ra imm => some (true, 524295 + rd.toNat * 16384 + ra.toNat * 512, imm.toNat)
  | .sll rd ra rb => some (false, 524296 + rd.toNat * 16384 + ra.toNat * 512 + rb.toNat * 16, 0)
  | .sllSl rd ra imm => some (true, 524296 + rd.toNat * 16384 + ra.toNat * 512, imm.toNat)
  | .srl rd ra rb => some (false, 524297 + rd.toNat * 16384 + ra.toNat * 512 + rb.toNat * 16, 0)
  | .srlSl rd ra imm => some (true, 524297 + rd.toNat * 16384 + ra.toNat * 512, imm.toNat)
  | .sra rd ra rb => some (false, 524298 + rd.toNat * 16384 + ra.toNat * 512 + rb.toNat * 16, 0)
  | .sraSl rd ra imm => some (true, 524298 + rd.toNat * 16384 + ra.toNat * 512, imm.toNat)
  | .ror rd ra rb => some (false, 524299 + rd.toNat * 16384 + ra.toNat * 512 + rb.toNat * 16, 0)
  | .rorSl rd ra imm => some (true, 524299 + rd.toNat * 16384 + ra.toNat * 512, imm.toNat)
  | .min rd ra rb => some (false, 524300 + rd.toNat * 16384 + ra.toNat * 512 + rb.toNat * 16, 0)
  | .minSl rd ra imm => some (true, 524300 + rd.toNat * 16384 + ra.toNat * 512, imm.toNat)
  | .max rd ra rb => some (false, 524301 + rd.toNat * 16384 + ra.toNat * 512 + rb.toNat * 16, 0)
  | .maxSl rd ra imm => some (true, 524301 + rd.toNat * 16384 + ra.toNat * 512, imm.toNat)
  | .minz rd ra rb => some (false, 524302 + rd.toNat * 16384 + ra.toNat * 512 + rb.toNat * 16, 0)
  | .minzSl rd ra imm => some (true, 524302 + rd.toNat * 16384 + ra.toNat * 512, imm.toNat)
  | .maxz rd ra rb => some (false, 524303 + rd.toNat * 16384 + ra.toNat * 512 + rb.toNat * 16, 0)
  | .maxzSl rd ra imm => some (true, 524303 + rd.toNat * 16384 + ra.toNat * 512, imm.toNat)
  | .addi rd ra imm => some (false, 8388608 + rd.toNat * 16384 + ra.toNat * 512 + imm.toNat, 0)
  | .mul rd ra rb => some (false, 1048576 + rd.toNat * 16384 + ra.toNat * 512 + rb.toNat * 16, 0)
  | .mulSl rd ra imm => some (true, 1048576 + rd.toNat * 16384 + ra.toNat * 512, imm.toNat)
  | .mulh rd ra rb => some (false, 1048577 + rd.toNat * 16384 + ra.toNat * 512 + rb.toNat * 16, 0)
  | .mulhSl rd ra imm => some (true, 1048577 + rd.toNat * 16384 + ra.toNat * 512, imm.toNat)
  | .mulhz rd ra rb => some (false, 1048578 + rd.toNat * 16384 + ra.toNat * 512 + rb.toNat * 16, 0)
  | .mulhzSl rd ra imm => some (true, 1048578 + rd.toNat * 16384 + ra.toNat * 512, imm.toNat)
  | .mulhsz rd ra rb => some (false, 1048579 + rd.toNat * 16384 + ra.toNat * 512 + rb.toNat * 16, 0)
  | .mulhszSl rd ra imm => some (true, 1048579 + rd.toNat * 16384 + ra.toNat * 512, imm.toNat)
  | .div rd ra rb => some (false, 1048580 + rd.toNat * 16384 + ra.toNat * 512 + rb.toNat * 16, 0)
  | .divSl rd ra imm => some (true, 1048580 + rd.toNat * 16384 + ra.toNat * 512, imm.toNat)
  | .divz rd ra rb => some (false, 1048581 + rd.toNat * 16384 + ra.toNat * 512 + rb.toNat * 16, 0)
  | .divzSl rd ra imm => some (true, 1048581 + rd.toNat * 16384 + ra.toNat * 512, imm.toNat)
  | .rem rd ra rb => some (false, 1048582 + rd.toNat * 16384 + ra.toNat * 512 + rb.toNat * 16, 0)
  | .remSl rd ra imm => some (true, 1048582 + rd.toNat * 16384 + ra.toNat * 512, imm.toNat)
  | .remz rd ra rb => some (false, 1048583 + rd.toNat * 16384 + ra.toNat * 512 + rb.toNat * 16, 0)
  | .remzSl rd ra imm => some (true, 1048583 + rd.toNat * 16384 + ra.toNat * 512, imm.toNat)
  | .clz rd ra => some (false, 1048584 + rd.toNat * 16384 + ra.toNat * 512, 0)
  | .ctz rd ra => some (false, 1048585 + rd.toNat * 16384 + ra.toNat * 512, 0)
  | .popc rd ra => some (false, 1048586 + rd.toNat * 16384 + ra.toNat * 512, 0)
  | .sxb rd ra => some (false, 1572864 + rd.toNat * 16384 + ra.toNat * 512, 0)
  | .sxh rd ra => some (false, 1572865 + rd.toNat * 16384 + ra.toNat * 512, 0)
  | .sxw rd ra => some (false, 1572866 + rd.toNat * 16384 + ra.toNat * 512, 0)
  | .zxb rd ra => some (false, 1572867 + rd.toNat * 16384 + ra.toNat * 512, 0)
  | .zxh rd ra => some (false, 1572868 + rd.toNat * 16384 + ra.toNat * 512, 0)
  | .zxw rd ra => some (false, 1572869 + rd.toNat * 16384 + ra.toNat * 512, 0)
  | .sel rd pn ra rb => some (false, 1572872 + rd.toNat * 16384 + pn.toNat + ra.toNat * 512 + rb.toNat * 16, 0)
  | .selSl rd pn ra imm => some (true, 1572872 + rd.toNat * 16384 + pn.toNat + ra.toNat * 512, imm.toNat)
  | .addx rd ra rb sc => some (false, 2097152 + rd.toNat * 16384 + ra.toNat * 512 + rb.toNat * 16 + sc.toNat, 0)
  | .addxSl rd ra imm sc => some (true, 2097152 + rd.toNat * 16384 + ra.toNat * 512 + sc.toNat, imm.toNat)
  | .bfx rd ra pos width => some (true, 2621440 + rd.toNat * 16384 + ra.toNat * 512, pos.toNat + width.toNat * 64)
  | .bfxz rd ra pos width => some (true, 2621441 + rd.toNat * 16384 + ra.toNat * 512, pos.toNat + width.toNat * 64)
  | .bfi rd ra pos width => some (true, 2621442 + rd.toNat * 16384 + ra.toNat * 512, pos.toNat + width.toNat * 64)
  | .li rd imm => some (true, 3145728 + rd.toNat * 16384, imm.toNat)
  | .liz rd imm => some (true, 3145729 + rd.toNat * 16384, imm.toNat)
  | .lih rd imm => some (true, 3145730 + rd.toNat * 16384, imm.toNat)
  | .pand pd pa pb => some (false, 3670016 + pd.toNat * 16384 + pa.toNat * 512 + pb.toNat * 16, 0)
  | .por pd pa pb => some (false, 3670017 + pd.toNat * 16384 + pa.toNat * 512 + pb.toNat * 16, 0)
  | .pxor pd pa pb => some (false, 3670018 + pd.toNat * 16384 + pa.toNat * 512 + pb.toNat * 16, 0)
  | .pandn pd pa pb => some (false, 3670019 + pd.toNat * 16384 + pa.toNat * 512 + pb.toNat * 16, 0)
  | .porn pd pa pb => some (false, 3670020 + pd.toNat * 16384 + pa.toNat * 512 + pb.toNat * 16, 0)
  | .pnor pd pa pb => some (false, 3670021 + pd.toNat * 16384 + pa.toNat * 512 + pb.toNat * 16, 0)
  | .pget rd => some (false, 3670022 + rd.toNat * 16384, 0)
  | .pput ra => some (false, 3670023 + ra.toNat * 512, 0)
  | .cmpEq pt pf ra rb => some (false, 4194304 + pt.toNat * 65536 + pf.toNat + ra.toNat * 512 + rb.toNat * 16, 0)
  | .cmpEqSl pt pf ra imm => some (true, 4194304 + pt.toNat * 65536 + pf.toNat + ra.toNat * 512, imm.toNat)
  | .cmpLt pt pf ra rb => some (false, 4718592 + pt.toNat * 65536 + pf.toNat + ra.toNat * 512 + rb.toNat * 16, 0)
  | .cmpLtSl pt pf ra imm => some (true, 4718592 + pt.toNat * 65536 + pf.toNat + ra.toNat * 512, imm.toNat)
  | .cmpLe pt pf ra rb => some (false, 5242880 + pt.toNat * 65536 + pf.toNat + ra.toNat * 512 + rb.toNat * 16, 0)
  | .cmpLeSl pt pf ra imm => some (true, 5242880 + pt.toNat * 65536 + pf.toNat + ra.toNat * 512, imm.toNat)
  | .cmpLtz pt pf ra rb => some (false, 5767168 + pt.toNat * 65536 + pf.toNat + ra.toNat * 512 + rb.toNat * 16, 0)
  | .cmpLtzSl pt pf ra imm => some (true, 5767168 + pt.toNat * 65536 + pf.toNat + ra.toNat * 512, imm.toNat)
  | .cmpLez pt pf ra rb => some (false, 6291456 + pt.toNat * 65536 + pf.toNat + ra.toNat * 512 + rb.toNat * 16, 0)
  | .cmpLezSl pt pf ra imm => some (true, 6291456 + pt.toNat * 65536 + pf.toNat + ra.toNat * 512, imm.toNat)
  | .ldb rd ra imm => some (false, 8912896 + rd.toNat * 16384 + ra.toNat * 512 + imm.toNat, 0)
  | .ldbz rd ra imm => some (false, 9437184 + rd.toNat * 16384 + ra.toNat * 512 + imm.toNat, 0)
  | .ldh rd ra imm => some (false, 9961472 + rd.toNat * 16384 + ra.toNat * 512 + imm.toNat, 0)
  | .ldhz rd ra imm => some (false, 10485760 + rd.toNat * 16384 + ra.toNat * 512 + imm.toNat, 0)
  | .ldw rd ra imm => some (false, 11010048 + rd.toNat * 16384 + ra.toNat * 512 + imm.toNat, 0)
  | .ldwz rd ra imm => some (false, 11534336 + rd.toNat * 16384 + ra.toNat * 512 + imm.toNat, 0)
  | .ldd rd ra imm => some (false, 12058624 + rd.toNat * 16384 + ra.toNat * 512 + imm.toNat, 0)
  | .stb rd ra imm => some (false, 12582912 + rd.toNat * 16384 + ra.toNat * 512 + imm.toNat, 0)
  | .sth rd ra imm => some (false, 13107200 + rd.toNat * 16384 + ra.toNat * 512 + imm.toNat, 0)
  | .stw rd ra imm => some (false, 13631488 + rd.toNat * 16384 + ra.toNat * 512 + imm.toNat, 0)
  | .std rd ra imm => some (false, 14155776 + rd.toNat * 16384 + ra.toNat * 512 + imm.toNat, 0)
  | .ldx sz zx scaled rd ra rb => some (false, 14680064 + sz.toNat + zx.toNat * 4 + scaled.toNat * 8 + rd.toNat * 16384 + ra.toNat * 512 + rb.toNat * 16, 0)
  | .stx sz scaled rd ra rb => some (false, 15204352 + sz.toNat + scaled.toNat * 8 + rd.toNat * 16384 + ra.toNat * 512 + rb.toNat * 16, 0)
  | .ldf rd ra imm => some (false, 15728640 + rd.toNat * 16384 + ra.toNat * 512 + imm.toNat, 0)
  | .lde rd ra imm => some (false, 16252928 + rd.toNat * 16384 + ra.toNat * 512 + imm.toNat, 0)
  | .stf rd ra imm => some (false, 16777216 + rd.toNat * 16384 + ra.toNat * 512 + imm.toNat, 0)
  | .ste rd ra imm => some (false, 17301504 + rd.toNat * 16384 + ra.toNat * 512 + imm.toNat, 0)
  | .waitf ra imm => some (false, 17825792 + ra.toNat * 512 + imm.toNat, 0)
  | .amoadd wide noret rd ra rb => some (false, (0x23 + wide.toNat + 2 * noret.toNat) * 524288 + rd.toNat * 16384 + ra.toNat * 512 + rb.toNat * 16, 0)
  | .amomax wide noret rd ra rb => some (false, (0x23 + wide.toNat + 2 * noret.toNat) * 524288 + 1 + rd.toNat * 16384 + ra.toNat * 512 + rb.toNat * 16, 0)
  | .amomin wide noret rd ra rb => some (false, (0x23 + wide.toNat + 2 * noret.toNat) * 524288 + 2 + rd.toNat * 16384 + ra.toNat * 512 + rb.toNat * 16, 0)
  | .amomaxz wide noret rd ra rb => some (false, (0x23 + wide.toNat + 2 * noret.toNat) * 524288 + 3 + rd.toNat * 16384 + ra.toNat * 512 + rb.toNat * 16, 0)
  | .amominz wide noret rd ra rb => some (false, (0x23 + wide.toNat + 2 * noret.toNat) * 524288 + 4 + rd.toNat * 16384 + ra.toNat * 512 + rb.toNat * 16, 0)
  | .amoand wide noret rd ra rb => some (false, (0x23 + wide.toNat + 2 * noret.toNat) * 524288 + 5 + rd.toNat * 16384 + ra.toNat * 512 + rb.toNat * 16, 0)
  | .amoor wide noret rd ra rb => some (false, (0x23 + wide.toNat + 2 * noret.toNat) * 524288 + 6 + rd.toNat * 16384 + ra.toNat * 512 + rb.toNat * 16, 0)
  | .amoxor wide noret rd ra rb => some (false, (0x23 + wide.toNat + 2 * noret.toNat) * 524288 + 7 + rd.toNat * 16384 + ra.toNat * 512 + rb.toNat * 16, 0)
  | .amoswap wide noret rd ra rb => some (false, (0x23 + wide.toNat + 2 * noret.toNat) * 524288 + 8 + rd.toNat * 16384 + ra.toNat * 512 + rb.toNat * 16, 0)
  | .amocas wide noret rd ra rb => some (false, (0x23 + wide.toNat + 2 * noret.toNat) * 524288 + 9 + rd.toNat * 16384 + ra.toNat * 512 + rb.toNat * 16, 0)
  | .amofadd half noret rd ra rb => some (false, 20447232 + half.toNat * 4 + noret.toNat * 8 + rd.toNat * 16384 + ra.toNat * 512 + rb.toNat * 16, 0)
  | .amofmax half noret rd ra rb => some (false, 20447233 + half.toNat * 4 + noret.toNat * 8 + rd.toNat * 16384 + ra.toNat * 512 + rb.toNat * 16, 0)
  | .amofmin half noret rd ra rb => some (false, 20447234 + half.toNat * 4 + noret.toNat * 8 + rd.toNat * 16384 + ra.toNat * 512 + rb.toNat * 16, 0)
  | .dlook rd ra => some (false, 20971520 + rd.toNat * 16384 + ra.toNat * 512, 0)
  | .dins rd ra rb => some (false, 20971521 + rd.toNat * 16384 + ra.toNat * 512 + rb.toNat * 16, 0)
  | .ddel rd ra => some (false, 20971522 + rd.toNat * 16384 + ra.toNat * 512, 0)
  | .fadd fmt rd ra rb => some (false, 21495808 + fmt.code * 4 + rd.toNat * 16384 + ra.toNat * 512 + rb.toNat * 16, 0)
  | .fsub fmt rd ra rb => some (false, 21495809 + fmt.code * 4 + rd.toNat * 16384 + ra.toNat * 512 + rb.toNat * 16, 0)
  | .fmul fmt rd ra rb => some (false, 21495810 + fmt.code * 4 + rd.toNat * 16384 + ra.toNat * 512 + rb.toNat * 16, 0)
  | .fma fmt rd ra rb => some (false, 21495811 + fmt.code * 4 + rd.toNat * 16384 + ra.toNat * 512 + rb.toNat * 16, 0)
  | .fmin fmt rd ra rb => some (false, 22020096 + fmt.code * 4 + rd.toNat * 16384 + ra.toNat * 512 + rb.toNat * 16, 0)
  | .fmax fmt rd ra rb => some (false, 22020097 + fmt.code * 4 + rd.toNat * 16384 + ra.toNat * 512 + rb.toNat * 16, 0)
  | .fclass fmt rd ra => some (false, 22020098 + fmt.code * 4 + rd.toNat * 16384 + ra.toNat * 512, 0)
  | .fcmpEq fmt pt pf ra rb => some (false, 22544384 + fmt.code * 16384 + pt.toNat * 65536 + pf.toNat + ra.toNat * 512 + rb.toNat * 16, 0)
  | .fcmpLt fmt pt pf ra rb => some (false, 23068672 + fmt.code * 16384 + pt.toNat * 65536 + pf.toNat + ra.toNat * 512 + rb.toNat * 16, 0)
  | .fcmpLe fmt pt pf ra rb => some (false, 23592960 + fmt.code * 16384 + pt.toNat * 65536 + pf.toNat + ra.toNat * 512 + rb.toNat * 16, 0)
  | .fcmpUn fmt pt pf ra rb => some (false, 24117248 + fmt.code * 16384 + pt.toNat * 65536 + pf.toNat + ra.toNat * 512 + rb.toNat * 16, 0)
  | .qbsE2m1 rd ra rb => some (false, 24641536 + rd.toNat * 16384 + ra.toNat * 512 + rb.toNat * 16, 0)
  | .qbsE4m3 rd ra rb => some (false, 24641537 + rd.toNat * 16384 + ra.toNat * 512 + rb.toNat * 16, 0)
  | .dqbsE2m1 rd ra rb => some (false, 24641538 + rd.toNat * 16384 + ra.toNat * 512 + rb.toNat * 16, 0)
  | .dqbsE4m3 rd ra rb => some (false, 24641539 + rd.toNat * 16384 + ra.toNat * 512 + rb.toNat * 16, 0)
  | .nisplit rd ra => some (false, 24641540 + rd.toNat * 16384 + ra.toNat * 512, 0)
  | .nijoin rd ra rb => some (false, 24641541 + rd.toNat * 16384 + ra.toNat * 512 + rb.toNat * 16, 0)
  | .cvt dst src rd ra => some (false, (0x30 + src.toNat / 16) * 524288 + src.toNat % 16 + dst.toNat * 16 + rd.toNat * 16384 + ra.toNat * 512, 0)
  | .br disp => some (false, 26214400 + disp.toNat, 0)
  | .brl disp => some (false, 26738688 + disp.toNat, 0)
  | .loop rc disp => some (false, 27262976 + rc.toNat * 16384 + disp.toNat, 0)
  | .bz rc disp => some (false, 27787264 + rc.toNat * 16384 + disp.toNat, 0)
  | .bnz rc disp => some (false, 28311552 + rc.toNat * 16384 + disp.toNat, 0)
  | .jr ra => some (false, 28835840 + ra.toNat * 512, 0)
  | .jrl rd ra => some (false, 28835841 + rd.toNat * 16384 + ra.toNat * 512, 0)
  | .mstat rd ra rb => some (false, 29360128 + rd.toNat * 16384 + ra.toNat * 512 + rb.toNat * 16, 0)
  | .munstat rd ra => some (false, 29360129 + rd.toNat * 16384 + ra.toNat * 512, 0)
  | .mma ra => some (false, 29360130 + ra.toNat * 512, 0)
  | .macc rd ra => some (false, 29360131 + rd.toNat * 16384 + ra.toNat * 512, 0)
  | .mrd ra => some (false, 29360132 + ra.toNat * 512, 0)
  | .mrdv ra => some (false, 29360133 + ra.toNat * 512, 0)
  | .mstatus rd ra => some (false, 29360134 + rd.toNat * 16384 + ra.toNat * 512, 0)
  | .put rd ra => some (false, 29884416 + rd.toNat * 16384 + ra.toNat * 512, 0)
  | .putI rd ra => some (false, 29884417 + rd.toNat * 16384 + ra.toNat * 512, 0)
  | .putR rd ra => some (false, 29884418 + rd.toNat * 16384 + ra.toNat * 512, 0)
  | .putG rd ra => some (false, 29884419 + rd.toNat * 16384 + ra.toNat * 512, 0)
  | .readB rd ra => some (false, 29884420 + rd.toNat * 16384 + ra.toNat * 512, 0)
  | .readP rd ra => some (false, 29884421 + rd.toNat * 16384 + ra.toNat * 512, 0)
  | .readC rd ra => some (false, 29884422 + rd.toNat * 16384 + ra.toNat * 512, 0)
  | .takeB rd ra => some (false, 29884423 + rd.toNat * 16384 + ra.toNat * 512, 0)
  | .takeP rd ra => some (false, 29884424 + rd.toNat * 16384 + ra.toNat * 512, 0)
  | .takeC rd ra => some (false, 29884425 + rd.toNat * 16384 + ra.toNat * 512, 0)
  | .takeN rd ra rb => some (false, 29884426 + rd.toNat * 16384 + ra.toNat * 512 + rb.toNat * 16, 0)
  | .range rd ra => some (false, 29884427 + rd.toNat * 16384 + ra.toNat * 512, 0)
  | .accO rd ra => some (false, 29884428 + rd.toNat * 16384 + ra.toNat * 512, 0)
  | .accA rd ra rb => some (false, 29884429 + rd.toNat * 16384 + ra.toNat * 512 + rb.toNat * 16, 0)
  | .ctrO rd ra => some (false, 29884430 + rd.toNat * 16384 + ra.toNat * 512, 0)
  | .ctrA rd ra rb => some (false, 29884431 + rd.toNat * 16384 + ra.toNat * 512 + rb.toNat * 16, 0)
  | .tcancel rd ra => some (false, 30408704 + rd.toNat * 16384 + ra.toNat * 512, 0)
  | .tfence => some (false, 30408705, 0)
  | .copyin rd ra => some (false, 30408706 + rd.toNat * 16384 + ra.toNat * 512, 0)
  | .copyout rd ra => some (false, 30408707 + rd.toNat * 16384 + ra.toNat * 512, 0)
  | .copyr rd ra => some (false, 30408708 + rd.toNat * 16384 + ra.toNat * 512, 0)
  | .freeze rd ra => some (false, 30408709 + rd.toNat * 16384 + ra.toNat * 512, 0)
  | .split rd ra => some (false, 30408710 + rd.toNat * 16384 + ra.toNat * 512, 0)
  | .tstat rd ra => some (false, 30408711 + rd.toNat * 16384 + ra.toNat * 512, 0)
  | .bars rd ra => some (false, 30932992 + rd.toNat * 16384 + ra.toNat * 512, 0)
  | .barr ra => some (false, 30932993 + ra.toNat * 512, 0)
  | .barw ra => some (false, 30932994 + ra.toNat * 512, 0)
  | .spend => some (false, 30932995, 0)
  | .spst rd => some (false, 30932996 + rd.toNat * 16384, 0)
  | .fence ra => some (false, 30932997 + ra.toNat * 512, 0)
  | .yield => some (false, 30932998, 0)
  | .sleep rd ra => some (false, 30932999 + rd.toNat * 16384 + ra.toNat * 512, 0)
  | .wake ra => some (false, 30933000 + ra.toNat * 512, 0)
  | .spawn rd ra rb => some (false, 31457280 + rd.toNat * 16384 + ra.toNat * 512 + rb.toNat * 16, 0)
  | .send rd ra rb => some (false, 31457281 + rd.toNat * 16384 + ra.toNat * 512 + rb.toNat * 16, 0)
  | .exit => some (false, 31457282, 0)
  | .prio ra => some (false, 31457283 + ra.toNat * 512, 0)
  | .susp rd ra rb => some (false, 31457284 + rd.toNat * 16384 + ra.toNat * 512 + rb.toNat * 16, 0)
  | .resume rd ra => some (false, 31457285 + rd.toNat * 16384 + ra.toNat * 512, 0)
  | .free rd ra => some (false, 31457286 + rd.toNat * 16384 + ra.toNat * 512, 0)
  | .rdctx rd ra rb => some (false, 31457287 + rd.toNat * 16384 + ra.toNat * 512 + rb.toNat * 16, 0)
  | .wrctx rd ra rb => some (false, 31457288 + rd.toNat * 16384 + ra.toNat * 512 + rb.toNat * 16, 0)
  | .lend ra => some (false, 31457289 + ra.toNat * 512, 0)
  | .timer ra rb => some (false, 31457290 + ra.toNat * 512 + rb.toNat * 16, 0)
  | .crget rd rb => some (false, 31981568 + rd.toNat * 16384 + rb.toNat * 16, 0)
  | .crgetSl rd num => some (true, 31981568 + rd.toNat * 16384, num.toNat)
  | .crset ra rb => some (false, 31981569 + ra.toNat * 512 + rb.toNat * 16, 0)
  | .crsetSl ra num => some (true, 31981569 + ra.toNat * 512, num.toNat)
  | .trap ra rb => some (false, 31981570 + ra.toNat * 512 + rb.toNat * 16, 0)
  | .rft => some (false, 31981571, 0)
  | .svc ra => some (false, 31981572 + ra.toNat * 512, 0)
  | .brk ra => some (false, 31981573 + ra.toNat * 512, 0)
  | .tlbinv rd ra rb => some (false, 31981574 + rd.toNat * 16384 + ra.toNat * 512 + rb.toNat * 16, 0)
  | .asid ra => some (false, 31981575 + ra.toNat * 512, 0)
  | .notify ra => some (false, 31981576 + ra.toNat * 512, 0)
  | .perf rd ra => some (false, 31981577 + rd.toNat * 16384 + ra.toNat * 512, 0)
  | .wdog ra => some (false, 31981578 + ra.toNat * 512, 0)
  | .halt ra => some (false, 31981579 + ra.toNat * 512, 0)
  | _ => none

/-- The V syllable of a V operation (R51). -/
def VOp.syllable (o : VOp) : Nat :=
  o.kind.code * 16777216 + o.d * 524288 + o.a * 16384 + o.b * 512 + o.t * 64 + o.tn.toNat * 32 + o.m

/-- Whether a V operation stands only in V-long bundles (R62). -/
def VKind.long : VKind → Bool
  | .vfldi | .vvli | .vbci | .vpass | .vseq => true
  | _ => false

/-- The number of the 64-bit word of a bundle; none where its halves do not fit together (R45). -/
def encodeNat (b : Bundle) : Option Nat :=
  let hi := b.wait.toNat * 9223372036854775808
  let g := b.guard.toNat * 67108864 + b.neg.toNat * 33554432
  match encS b.s with
  | none => none
  | some (false, s, _) =>
    if b.v.kind.long then
      if g + s = 0 then some (hi + 4611686018427387904 + b.v.x * 4294967296 + b.v.syllable) else none
    else some (hi + (g + s) * 4294967296 + b.v.syllable)
  | some (true, s, imm) =>
    if b.v = .vnop then some (hi + 2305843009213693952 + (g + s) * 4294967296 + imm) else none

/-- The bundle that carries one operation alone, always executed and without a wait marker (R45). -/
def Instr.alone (i : Instr) : Bundle :=
  match i.vop with
  | some o => ⟨false, 0, false, .nop, o⟩
  | none => ⟨false, 0, false, i, .vnop⟩

/-- The word of the bundle that carries operation `i` alone; zero for a row that has no encoding. -/
def encodeWord (i : Instr) : W64 := BitVec.ofNat 64 ((encodeNat i.alone).getD 0)

/-- The words of an instruction: one bundle; none for an event row and for the row of illegal encodings. -/
def encode (i : Instr) : Option (List W64) := (encodeNat i.alone).map fun w => [BitVec.ofNat 64 w]

/-- The one operation of a bundle that carries nothing else: no wait marker, the guard `(p0)`, the other half empty. -/
noncomputable def Bundle.only (b : Bundle) : Option Instr :=
  if b.wait ∨ b.guard ≠ 0 ∨ b.neg then none
  else if b.v = .vnop then some b.s
  else if b.s = .nop then some b.v.instr
  else none

/-- The instruction that a word holds alone; none for a word that is no bundle or that carries more. -/
noncomputable def decodeInstr (w : W64) : Option Instr :=
  match decode w with
  | .error _ => none
  | .ok b => b.only

/-- The instruction that the decoder reads from a table word. With 32 bits or fewer the word is the V syllable of the row
(the bundle's low half, everything above it zero), with more it is a whole bundle. An S operation is answered where the bundle has
one, otherwise its V operation; a word that is no bundle answers none. -/
noncomputable def decodeTableWord (nbits w : Nat) : Option Instr :=
  match decodeNat (w % 18446744073709551616) with
  | .error _ => none
  | .ok b => if nbits ≤ 32 then some b.v.instr else if b.s = .nop then some b.v.instr else some b.s

end Sys2Proof
end

