-- ==== Sys2Proof/Machine/Flags.lean ====
section
/-! DEFINITION. Number formats, rounding and every flag computation (03_numbers.md R64, R75 to R92; 04_scalar.md R125 to R129;
05_scratchpad.md R152, R153; 06_associative.md R195, R199). An exact value is a rational; a rounding narrows it once. -/
namespace Sys2Proof.Machine

/-- The floating-point flags as `cr.fflags` lays them out (R84). -/
abbrev FFlags := BitVec 5
def NV : FFlags := 16
def DZ : FFlags := 8
def OF : FFlags := 4
def UF : FFlags := 2
def NX : FFlags := 1

/-- An exact value (R94): a NaN, signalling or not; an infinity; or (-1)^neg × n ÷ d × 2^e. -/
inductive Val where
  | nan (signalling : Bool)
  | inf (neg : Bool)
  | fin (neg : Bool) (n d : Nat) (e : Int)
  deriving DecidableEq, Repr

/-- The width of a format code (R64); 0 for the block formats and the reserved codes. -/
def fmtWidth : Nat → Nat
  | 0 | 4 | 11 | 12 | 24 => 8
  | 1 | 5 | 9 | 10 => 16
  | 2 | 6 | 8 => 32
  | 3 | 7 => 64
  | 13 => 4
  | c => if 16 ≤ c ∧ c ≤ 23 then c - 15 else 0

def isI (c : Nat) : Bool := c < 4
def isZ (c : Nat) : Bool := 4 ≤ c && c < 8
def isInt (c : Nat) : Bool := c < 8
def isNI (c : Nat) : Bool := 16 ≤ c && c ≤ 23
/-- The sets of R61. -/
def isFPA (c : Nat) : Bool := c == 8 || c == 9 || c == 10
def isELEM (c : Nat) : Bool := c ≤ 13 || c == 24
def isBLK (c : Nat) : Bool := c == 14 || c == 15

/-- A floating format (R77): trailing significand bits, bias, sign bit or none, code of the largest finite magnitude, code of +∞ if
there is one, canonical NaN (R78) if there is one. -/
structure FSpec where
  w : Nat
  M : Nat
  bias : Nat
  signed : Bool
  maxFin : Nat
  inf : Option Nat
  nan : Option Nat

def fspec : Nat → FSpec
  | 8 => ⟨32, 23, 127, true, 0x7F7FFFFF, some 0x7F800000, some 0x7FC00000⟩
  | 9 => ⟨16, 10, 15, true, 0x7BFF, some 0x7C00, some 0x7E00⟩
  | 10 => ⟨16, 7, 127, true, 0x7F7F, some 0x7F80, some 0x7FC0⟩
  | 11 => ⟨8, 3, 7, true, 0x7E, none, some 0x7F⟩
  | 12 => ⟨8, 2, 15, true, 0x7B, some 0x7C, some 0x7E⟩
  | 13 => ⟨4, 1, 1, true, 0x7, none, none⟩
  | _ => ⟨8, 3, 15, false, 0xFE, none, some 0xFF⟩

/-- The magnitude bits of a floating encoding. -/
def FSpec.mag (f : FSpec) (b : Nat) : Nat := if f.signed then b % 2 ^ (f.w - 1) else b % 2 ^ f.w
def FSpec.neg (f : FSpec) (b : Nat) : Bool := f.signed && b / 2 ^ (f.w - 1) % 2 == 1
/-- The encoding of a magnitude with a sign. -/
def FSpec.pack (f : FSpec) (neg : Bool) (m : Nat) : Nat := if neg && f.signed then m + 2 ^ (f.w - 1) else m

/-- The exact value of the low w bits of `b` in format `c`, without flags (R76, R77, R92, R94). -/
def val (c : Nat) (b : Nat) : Val :=
  if isInt c || isNI c then
    let w := fmtWidth c
    let x := b % 2 ^ w
    if isZ c then .fin false x 1 0
    else if x < 2 ^ (w - 1) then .fin false x 1 0 else .fin true (2 ^ w - x) 1 0
  else
    let f := fspec c
    let m := f.mag b
    if m ≤ f.maxFin then
      let ex := m / 2 ^ f.M
      let t := m % 2 ^ f.M
      if ex = 0 then .fin (f.neg b) t 1 (1 - (f.bias : Int) - f.M)
      else .fin (f.neg b) (t + 2 ^ f.M) 1 ((ex : Int) - f.bias - f.M)
    else if some m = f.inf then .inf (f.neg b)
    else .nan (f.inf.isSome && m / 2 ^ (f.M - 1) % 2 == 0)

/-- NV for a signalling NaN (R78). -/
def Val.nv : Val → FFlags
  | .nan true => NV
  | _ => 0
def Val.isNan : Val → Bool
  | .nan _ => true
  | _ => false
def Val.isZero : Val → Bool
  | .fin _ 0 _ _ => true
  | _ => false
def Val.sign : Val → Bool
  | .nan _ => false
  | .inf s => s
  | .fin s _ _ _ => s
def Val.negate : Val → Val
  | .nan s => .nan s
  | .inf s => .inf (!s)
  | .fin s n d e => .fin (!s) n d e
def Val.abs : Val → Val
  | .nan s => .nan s
  | .inf _ => .inf false
  | .fin _ n d e => .fin false n d e
def Val.ofInt (i : Int) : Val := .fin (i < 0) i.natAbs 1 0

/-- x × 2^k with the power split into numerator and denominator. -/
def scale2 (n d : Nat) (k : Int) : Nat × Nat :=
  if 0 ≤ k then (n * 2 ^ k.toNat, d) else (n, d * 2 ^ (-k).toNat)

/-- ⌊log₂ (n ÷ d)⌋ for nonzero n and d. -/
def floorLog2 (n d : Nat) : Int :=
  let k : Int := (Nat.log2 n : Int) - Nat.log2 d
  let (a, b) := scale2 n d (-k)
  if a < b then k - 1 else k

/-- Rounds n ÷ d to an integer by a mode of R81: the result and whether it is inexact. -/
def roundInt (n d : Nat) (neg : Bool) (mode : Nat) : Nat × Bool :=
  let i := n / d
  let r := n % d
  let up := match mode with
    | 0 => decide (2 * r > d) || (decide (2 * r = d) && i % 2 == 1)
    | 1 => false
    | 2 => neg && r != 0
    | _ => !neg && r != 0
  (if up then i + 1 else i, r != 0)

/-- The result of a finite overflow in a floating format (R86). -/
def overflowBits (c : Nat) (neg : Bool) (mode : Nat) : Nat :=
  let f := fspec c
  match f.inf with
  | none => f.pack neg f.maxFin
  | some i =>
    let toInf := match mode with
      | 0 => true
      | 1 => false
      | 2 => neg
      | _ => !neg
    f.pack neg (if toInf then i else f.maxFin)

/-- Rounds a nonzero finite value into a floating format (R81, R84, R86). -/
def roundFin (c : Nat) (neg : Bool) (n d : Nat) (e : Int) (mode : Nat) : Nat × FFlags :=
  let f := fspec c
  if neg && !f.signed then (0, NV)
  else
    let emin : Int := 1 - f.bias
    let (a, b) := scale2 n d e
    let k := floorLog2 a b
    let k' := if k < emin then emin else k
    let (a1, b1) := scale2 a b (f.M - k')
    let (i, inexact) := roundInt a1 b1 neg mode
    let code := i + ((k' - emin) * 2 ^ f.M).toNat
    if code > f.maxFin then (overflowBits c neg mode, OF ||| NX)
    else
      let tiny := if k ≥ emin then false
        else if k < emin - 1 then true
        else
          let (a2, b2) := scale2 a b (f.M - k)
          (roundInt a2 b2 neg mode).1 < 2 ^ (f.M + 1)
      (f.pack neg code, if inexact then (if tiny then NX ||| UF else NX) else 0)

/-- Rounds a finite value to an integer format (R81, R86). -/
def roundToInt (c : Nat) (neg : Bool) (n d : Nat) (e : Int) (mode : Nat) : Nat × FFlags :=
  let w := fmtWidth c
  let (a, b) := scale2 n d e
  let (i, inexact) := roundInt a b neg mode
  let fl := if inexact then NX else 0
  if isZ c then
    if neg then if i = 0 then (0, fl) else (0, NV)
    else if i < 2 ^ w then (i, fl) else (2 ^ w - 1, NV)
  else if neg then
    if i ≤ 2 ^ (w - 1) then ((2 ^ w - i) % 2 ^ w, fl) else (2 ^ (w - 1), NV)
  else if i < 2 ^ (w - 1) then (i, fl) else (2 ^ (w - 1) - 1, NV)

/-- `round(fmt, x, mode)` of R94, with the results and flags of R84 and R86; the flags of decoding an operand are not included. -/
def roundVal (c : Nat) (x : Val) (mode : Nat) : Nat × FFlags :=
  if isInt c then
    match x with
    | .nan _ => (0, NV)
    | .inf s =>
      let w := fmtWidth c
      if isZ c then (if s then 0 else 2 ^ w - 1, NV) else (if s then 2 ^ (w - 1) else 2 ^ (w - 1) - 1, NV)
    | .fin s n d e => roundToInt c s n d e mode
  else
    let f := fspec c
    match x with
    | .nan _ => match f.nan with
      | some q => (q, 0)
      | none => (0, NV)
    | .inf s => match f.inf with
      | some i => (f.pack s i, 0)
      | none => if s && !f.signed then (0, NV) else (f.pack s f.maxFin, OF)
    | .fin s 0 _ _ => (f.pack s 0, 0)
    | .fin s n d e => roundFin c s n d e mode

/-- The exact sum of two finite values, with the zero signs of R126: (numerator, denominator, exponent). -/
def addFin (s1 : Bool) (n1 d1 : Nat) (e1 : Int) (s2 : Bool) (n2 d2 : Nat) (e2 : Int) (mode : Nat) : Val :=
  let e := if e1 ≤ e2 then e1 else e2
  let a : Int := (if s1 then -1 else 1) * (n1 * 2 ^ (e1 - e).toNat * d2 : Nat)
  let b : Int := (if s2 then -1 else 1) * (n2 * 2 ^ (e2 - e).toNat * d1 : Nat)
  let t := a + b
  if t = 0 then
    if n1 = 0 ∧ n2 = 0 ∧ s1 = s2 then .fin s1 0 1 0 else .fin (mode == 2) 0 1 0
  else .fin (t < 0) t.natAbs (d1 * d2) e

/-- x + y with the special cases of R126 and its invalid flag. -/
def vAdd (x y : Val) (mode : Nat) : Val × FFlags :=
  match x, y with
  | .nan _, _ | _, .nan _ => (.nan false, x.nv ||| y.nv)
  | .inf s, .inf t => if s = t then (.inf s, 0) else (.nan false, NV)
  | .inf s, _ => (.inf s, 0)
  | _, .inf t => (.inf t, 0)
  | .fin s1 n1 d1 e1, .fin s2 n2 d2 e2 => (addFin s1 n1 d1 e1 s2 n2 d2 e2 mode, 0)

/-- x × y with the special cases of R126. -/
def vMul (x y : Val) : Val × FFlags :=
  match x, y with
  | .nan _, _ | _, .nan _ => (.nan false, x.nv ||| y.nv)
  | .inf s, .inf t => (.inf (s != t), 0)
  | .inf s, .fin t n _ _ => if n = 0 then (.nan false, NV) else (.inf (s != t), 0)
  | .fin s n _ _, .inf t => if n = 0 then (.nan false, NV) else (.inf (s != t), 0)
  | .fin s1 n1 d1 e1, .fin s2 n2 d2 e2 => (.fin (s1 != s2) (n1 * n2) (d1 * d2) (e1 + e2), 0)

/-- x × y + z, rounded once later (R125, R126). -/
def vFma (x y z : Val) (mode : Nat) : Val × FFlags :=
  let (p, f) := vMul x y
  if x.isNan || y.isNan || z.isNan then (.nan false, f ||| x.nv ||| y.nv ||| z.nv)
  else
    let (r, g) := vAdd p z mode
    (r, f ||| g)

/-- Order of two values that are no NaN, zeros equal: -1, 0 or 1. -/
def vCmp (x y : Val) : Int :=
  let key : Val → Int × Nat × Nat × Int
    | .nan _ => (0, 0, 1, 0)
    | .inf s => (if s then -2 else 2, 0, 1, 0)
    | .fin s n d e => if n = 0 then (0, 0, 1, 0) else (if s then -1 else 1, n, d, e)
  let (sx, nx, dx, ex) := key x
  let (sy, ny, dy, ey) := key y
  if sx < sy then -1 else if sy < sx then 1
  else if sx = 0 ∨ sx = 2 ∨ sx = -2 then 0
  else
    let e := if ex ≤ ey then ex else ey
    let a := nx * 2 ^ (ex - e).toNat * dy
    let b := ny * 2 ^ (ey - e).toNat * dx
    let c : Int := if a < b then -1 else if b < a then 1 else 0
    sx * c

/-- The order of R127 and R153, in which -0 is below +0. -/
def vCmpZ (x y : Val) : Int :=
  let c := vCmp x y
  if c = 0 ∧ x.isZero ∧ y.isZero then (if x.sign = y.sign then 0 else if x.sign then -1 else 1) else c

/-- The four operations of R125 on encodings, flags included. `op`: 0 add, 1 subtract, 2 multiply, 3 multiply-add with addend `d`. -/
def fArith (c op a b d mode : Nat) : Nat × FFlags :=
  let x := val c a
  let y := val c b
  let (z, f) := match op with
    | 0 => vAdd x y mode
    | 1 => vAdd x y.negate mode
    | 2 => vMul x y
    | _ => vFma x y (val c d) mode
  let (r, g) := roundVal c z mode
  (r, f ||| g)

/-- `FMIN` and `FMAX` (R127): minimumNumber and maximumNumber. -/
def fMinMax (c : Nat) (isMax : Bool) (a b : Nat) : Nat × FFlags :=
  let x := val c a
  let y := val c b
  let fl := x.nv ||| y.nv
  let m := 2 ^ (fspec c).w
  if x.isNan && y.isNan then ((fspec c).nan.getD 0, fl)
  else if x.isNan then (b % m, fl)
  else if y.isNan then (a % m, fl)
  else if (decide (vCmpZ x y < 0)) != isMax then (a % m, fl) else (b % m, fl)

/-- `AMOFMAX` and `AMOFMIN` (R153): maximum and minimum, in which a NaN wins. -/
def fMinMaxNan (c : Nat) (isMax : Bool) (a b : Nat) : Nat × FFlags :=
  let x := val c a
  let y := val c b
  if x.isNan || y.isNan then ((fspec c).nan.getD 0, x.nv ||| y.nv) else fMinMax c isMax a b

/-- The compares of R129 on encodings. `op`: 0 equal, 1 less, 2 less or equal, 3 unordered. -/
def fCompare (c op a b : Nat) : Bool × FFlags :=
  let x := val c a
  let y := val c b
  let nan := x.isNan || y.isNan
  match op with
  | 0 => (!nan && vCmp x y == 0, x.nv ||| y.nv)
  | 1 => (!nan && vCmp x y < 0, if nan then NV else 0)
  | 2 => (!nan && vCmp x y ≤ 0, if nan then NV else 0)
  | _ => (nan, x.nv ||| y.nv)

/-- `FCLASS` (R128): the number of the one bit set. -/
def fClass (c a : Nat) : Nat :=
  let f := fspec c
  match val c a with
  | .nan s => if s then 8 else 9
  | .inf s => if s then 0 else 7
  | .fin s n _ _ =>
    if n = 0 then (if s then 3 else 4)
    else if f.mag a < 2 ^ f.M then (if s then 2 else 5)
    else if s then 1 else 6

/-- Sign extension of the low `n` bits (R94). -/
def sextN (n b : Nat) : W64 :=
  let x := b % 2 ^ n
  if n = 0 then 0 else if x < 2 ^ (n - 1) then BitVec.ofNat 64 x else BitVec.ofNat 64 (2 ^ 64 + x - 2 ^ n)
/-- Zero extension of the low `n` bits (R94). -/
def zextN (n b : Nat) : W64 := BitVec.ofNat 64 (b % 2 ^ n)
/-- A result of format `c` widened into a register (R75, R167): copies of the top bit for I and, from a window, NI formats. -/
def widen (c b : Nat) : W64 := if isI c || isNI c then sextN (fmtWidth c) b else zextN (fmtWidth c) b

/-- `CVT.dst.src` on the low bits of a register (R98): the bits of the result and the flags. Codes 14 to 23 are the caller's. -/
def convert (dst src : Nat) (b mode : Nat) : Nat × FFlags :=
  if src = dst then (b % 2 ^ fmtWidth src, 0)
  else
    let x := val src b
    if isInt src && isInt dst then
      let (y, f) := roundVal dst x 1
      (y, if f = NV then OF else 0)
    else
      let (y, f) := roundVal dst x mode
      (y, f ||| x.nv)

/-- A conversion code pair that has a defined conversion (R98, R66 row 7). -/
def cvtDefined (dst src : Nat) : Bool := isELEM dst && isELEM src

/-- x ÷ y for a nonzero finite y. -/
def vDiv (x y : Val) : Val :=
  match x, y with
  | .fin s n d e, .fin t m g h => .fin (s != t) (n * g) (d * m) (e - h)
  | .inf s, .fin t _ _ _ => .inf (s != t)
  | _, _ => .nan false

/-- The least scale code c in [1, 0xFE] with a ÷ val(c) ≤ emax, from `c` on (R89). -/
def findScale (a : Val) (emax : Val) (c : Nat) : Nat → Nat
  | 0 => 0xFE
  | fuel + 1 => if vCmp a (vMul emax (val 24 c)).1 ≤ 0 then c else findScale a emax (c + 1) fuel

/-- Quantises values into a block of element format `ef` (13 or 11), always RNE (R89): scale code, element codes, flags. -/
def quantise (ef : Nat) (xs : List Val) : Nat × List Nat × FFlags :=
  if xs.any Val.isNan then (0xFF, xs.map fun _ => 0, NV)
  else if xs.all Val.isZero then (0, xs.map fun x => (fspec ef).pack x.sign 0, 0)
  else
    let a := xs.foldl (fun m x => if vCmp m x.abs < 0 then x.abs else m) (.fin false 0 1 0)
    let emax : Val := if ef = 13 then .fin false 6 1 0 else .fin false 448 1 0
    let sc := match a with
      | .inf _ => 0xFE
      | _ => findScale a emax 1 0xFE
    let rs := xs.map fun x => roundVal ef (vDiv x (val 24 sc)) 0
    (sc, rs.map Prod.fst, (rs.foldl (fun f r => f ||| r.2) 0) &&& (NV ||| OF ||| NX))

/-- The FP32 encoding of a block element (R88, R90). -/
def dequantise (ef sc el : Nat) : Nat :=
  match val 24 sc, val ef el with
  | .nan _, _ => 0x7FC00000
  | _, .nan _ => 0x7FC00000
  | s, x => (roundVal 8 (vMul x s).1 0).1

/-- The exact sum of values in any order, rounded once by the caller (R199): value and flags of its special cases. Where a quiet NaN stands
beside both infinities, two cases of R199 apply; the model takes the first, so `NV` comes from a signalling NaN only (DESIGN CHOICE, log 53). -/
def exactSum (xs : List Val) (mode : Nat) : Val × FFlags :=
  let fl := xs.foldl (fun f x => f ||| x.nv) 0
  if xs.any Val.isNan then (.nan false, fl)
  else
    let pos := xs.any (· == .inf false)
    let neg := xs.any (· == .inf true)
    if pos && neg then (.nan false, NV)
    else if pos then (.inf false, 0)
    else if neg then (.inf true, 0)
    else
      let t := xs.foldl (fun a x => (vAdd a x 0).1) (.fin false 0 1 0)
      match t with
      | .fin _ 0 _ _ =>
        if xs.isEmpty then (.fin false 0 1 0, 0)
        else (.fin (mode == 2 || xs.all fun x => x.isZero && x.sign) 0 1 0, 0)
      | t => (t, 0)

/-! The special functions (R195). A function's exact value is enclosed between two rationals, finer until both round alike. -/

/-- ln 2 in units of 2^-P, below the exact value by at most P + 2 units: 2 Σ 1 ÷ ((2i+1) 3^(2i+1)). -/
def ln2Fix (P : Nat) : Nat :=
  let rec go : Nat → Nat → Nat → Nat → Nat
    | 0, _, _, acc => acc
    | f + 1, i, t, acc => go f (i + 1) (t / 9) (acc + t / (2 * i + 1))
  go P 0 (2 ^ (P + 1) / 3) 0

/-- e^t in units of 2^-P for t in [0, 1) given in the same units, below the exact value by at most 2P units. -/
def expFix (P t : Nat) : Nat :=
  let rec go : Nat → Nat → Nat → Nat → Nat
    | 0, _, _, acc => acc
    | f + 1, i, term, acc => go f (i + 1) (term * t / 2 ^ P / i) (acc + term)
  go P 1 (2 ^ P) 0

/-- atanh z in units of 2^-P for z in [0, 1/2) given in the same units. -/
def atanhFix (P z : Nat) : Nat :=
  let z2 := z * z / 2 ^ P
  let rec go : Nat → Nat → Nat → Nat → Nat
    | 0, _, _, acc => acc
    | f + 1, i, t, acc => go f (i + 1) (t * z2 / 2 ^ P) (acc + t / (2 * i + 1))
  go P 0 z 0

/-- An enclosure of e^x for x = ±n ÷ d, |x| below 2^10: lower and upper values. -/
def expBounds (P : Nat) (neg : Bool) (n d : Nat) : Val × Val :=
  let y : Int := (if neg then -1 else 1) * (n * 2 ^ P / d : Nat)
  let l : Int := ln2Fix P
  let k := y / l
  let t := y - k * l
  let v := expFix P t.toNat
  let err := 2 ^ 16 * P
  (.fin false (v - err) 1 (k - P), .fin false (v + err) 1 (k - P))

/-- An enclosure of log₂ x for x = n ÷ d > 0. -/
def log2Bounds (P n d : Nat) : Val × Val :=
  let k := floorLog2 n d
  let (a, b) := scale2 n d (-k)
  let z := (a - b) * 2 ^ P / (a + b)
  let v := 2 * atanhFix P z * 2 ^ P / ln2Fix P
  let t : Int := k * 2 ^ P + v
  let err : Int := 64 * P
  let mk : Int → Val := fun i => .fin (i < 0) i.natAbs 1 (-(P : Int))
  (mk (t - err), mk (t + err))

/-- f(x) for x between two positive values, for f(x) = (x - 1) ÷ (x + 1) and x ÷ (x + 1). -/
def ratioOf (sub : Bool) (x : Val) : Val :=
  match x with
  | .fin _ n d e =>
    let (a, b) := scale2 n d e
    if sub then .fin (a < b) (if a < b then b - a else a - b) (a + b) 0 else .fin false a (a + b) 0
  | v => v

/-- Enclosure of functions 3 to 7 of R195 at ±n ÷ d, where it is neither exact nor extreme. -/
def sfnBounds (fn P : Nat) (neg : Bool) (n d : Nat) : Val × Val :=
  match fn with
  | 3 =>
    let (i, r) := (n / d, n % d)
    let (lo, hi) := expBounds P neg (r * ln2Fix (2 * P)) (d * 2 ^ (2 * P))
    let sh : Val → Val
      | .fin s a b e => .fin s a b (if neg then e - i else e + i)
      | v => v
    (sh lo, sh hi)
  | 4 => log2Bounds P n d
  | 5 => expBounds P neg n d
  | 6 =>
    let (lo, hi) := expBounds P neg (2 * n) d
    (ratioOf true lo, ratioOf true hi)
  | _ =>
    let (lo, hi) := expBounds P neg n d
    (ratioOf false lo, ratioOf false hi)

/-- Rounds a function that has no exact result at this operand: the first precision at which both bounds round alike. -/
def sfnRound (c fn mode : Nat) (neg : Bool) (n d : Nat) : List Nat → Nat × FFlags
  | [] => (0, 0)
  | P :: Ps =>
    let (lo, hi) := sfnBounds fn P neg n d
    let a := roundVal c lo mode
    let b := roundVal c hi mode
    if a = b ∨ Ps = [] then a else sfnRound c fn mode neg n d Ps

/-- The precisions tried. -/
def sfnPrecisions : List Nat := [128, 320, 1024, 4096]

/-- ⌊√n⌋. -/
def isqrt (n : Nat) : Nat :=
  let rec go : Nat → Nat → Nat
    | 0, r => r
    | b + 1, r => if (r + 2 ^ b) * (r + 2 ^ b) ≤ n then go b (r + 2 ^ b) else go b r
  go (Nat.log2 n / 2 + 1) 0

/-- √(n ÷ d × 2^e) as a value that rounds like the exact one: 80 bits and a sticky bit. -/
def sqrtVal (n d : Nat) (e : Int) : Val :=
  let (a, b) := scale2 n d e
  let k := floorLog2 a b
  let sh : Int := 160 - 2 * (k / 2)
  let (a1, b1) := scale2 a b sh
  let q := a1 / b1
  let r := isqrt q
  if r * r = q ∧ a1 % b1 = 0 then .fin false r 1 (-(sh / 2)) else .fin false (2 * r + 1) 1 (-(sh / 2) - 1)

/-- `VSFN` (R195): function `fn` of the value of `a`, rounded once, with its flags. -/
def specialFn (c fn a mode : Nat) : Nat × FFlags :=
  let x := val c a
  let out (v : Val) (f : FFlags) : Nat × FFlags := ((roundVal c v mode).1, f)
  let one : Val := .fin false 1 1 0
  match x with
  | .nan s => out (.nan s) x.nv
  | .inf s =>
    match fn with
    | 0 => out (.fin s 0 1 0) 0
    | 1 => if s then out (.nan false) NV else out (.fin false 0 1 0) 0
    | 2 | 4 => if s then out (.nan false) NV else out (.inf false) 0
    | 3 | 5 => if s then out (.fin false 0 1 0) 0 else out (.inf false) 0
    | 6 => out (.fin s 1 1 0) 0
    | _ => if s then out (.fin false 0 1 0) 0 else out one 0
  | .fin s 0 _ _ =>
    match fn with
    | 0 => out (.inf s) DZ
    | 1 => out (.inf s) DZ
    | 2 | 6 => out (.fin s 0 1 0) 0
    | 4 => out (.inf true) DZ
    | 3 | 5 => out one 0
    | _ => out (.fin false 1 2 0) 0
  | .fin s n d e =>
    let (p, q) := scale2 n d e
    let k := floorLog2 p q
    match fn with
    | 0 => roundVal c (.fin s q p 0) mode
    | 1 => if s then out (.nan false) NV else roundVal c (sqrtVal q p 0) mode
    | 2 => if s then out (.nan false) NV else roundVal c (sqrtVal p q 0) mode
    | 3 =>
      if p % q = 0 ∧ p / q < 1024 then roundVal c (.fin false 1 1 (if s then -(p / q : Nat) else (p / q : Nat))) mode
      else if k ≥ 9 then roundVal c (.fin false 3 1 (if s then -1024 else 1024)) mode
      else if k < -40 then roundVal c (addFin false 1 1 0 s n (2 * d) e 0) mode
      else sfnRound c fn mode s p q sfnPrecisions
    | 4 =>
      if s then out (.nan false) NV
      else
        let (a1, b1) := scale2 p q (-k)
        if a1 = b1 then roundVal c (.fin (k < 0) k.natAbs 1 0) mode else sfnRound c fn mode s p q sfnPrecisions
    | 5 =>
      if k ≥ 9 then roundVal c (.fin false 3 1 (if s then -1024 else 1024)) mode
      else if k < -40 then roundVal c (addFin false 1 1 0 s n d e 0) mode
      else sfnRound c fn mode s p q sfnPrecisions
    | 6 =>
      if k ≥ 7 then roundVal c (.fin s (2 ^ 80 - 1) 1 (-80)) mode
      else if k < -40 then roundVal c (.fin s (n * (2 ^ 60 - 1)) d (e - 60)) mode
      else sfnRound c fn mode s p q sfnPrecisions
    | _ =>
      if k ≥ 9 then roundVal c (if s then .fin false 3 1 (-1024) else .fin false (2 ^ 80 - 1) 1 (-80)) mode
      else if k < -40 then roundVal c (addFin false 1 2 0 s n (4 * d) e 0) mode
      else sfnRound c fn mode s p q sfnPrecisions

end Sys2Proof.Machine
end

