-- ==== Sys2Proof/Config.lean ====
section
/-! DEFINITION. What the device fixes, with the rule that fixes it, and the free values: what the manual leaves open and the model
therefore gives no value. A free value has no body, so no proof can rest on one. -/
namespace Sys2Proof.Config

/-- Tiles of a package, dies, tiles of a die (R9). -/
def tiles : Nat := 768
def dieTiles : Nat := 192
/-- Bytes of a scratchpad (R134). -/
def spSize : Nat := 0x100000
/-- Bytes of a DRAM stack: 48 GiB (R22). -/
def stackBytes : Nat := 51539607552
/-- Rows of a window (R158). -/
def rows : Nat := 4096
/-- Capacities of a home (R22, R326) and of a tile (R16, R278, R342, R374, R403). -/
def indexPlaces : Nat := 262144
def watchPlaces : Nat := 65536
def forwardPlaces : Nat := 64
def requestQueue : Nat := 64
def copyContexts : Nat := 256
def grantPlaces : Nat := 64
def readyPlaces : Nat := 64
def spillPlaces : Nat := 256
def computePlaces : Nat := 16
def barrierPlaces : Nat := 16
def splitPlaces : Nat := 4
/-- Lines of a bundle cache, 64 bytes each (R16). -/
def cacheLines : Nat := 512
/-- Cached spaces per tenant of one interface (R248). -/
def routeSpaces : Nat := 16
/-- The energy reserve's capacity and the die's full share per microsecond, in half picojoules and half
microjoules, the planner's step of 5 % and its floor (R416, R454). -/
def reserveCap : Int := 4500000000
def fullShare : Nat := 900
def shareStep : Nat := 45
def shareFloor : Nat := 400
/-- Arithmetic cycles of one microsecond: 3,600 at full rate (R15). -/
def cyclesPerUs : Nat := 3600

/-! The free values. -/

/-- Which free place an entry takes at a home, among its free places in ascending order, from the model's counter: R254 does not
say which entry number a new entry gets (log 5). -/
opaque placePick : Nat → Nat
/-- The generation that a place of a home's table holds before its first use (R254, log 5), from the table (0 watch, 1 index), the
home and the place. -/
opaque firstGen : Nat → Nat → Nat → Nat
/-- Bytes of a spire message's own header (R329 gives the transport header alone, log 11), from the model's counter. -/
opaque spireHeader : Nat → Nat
/-- The bytes of a request or reply message on the spire link (R329 gives the transport header alone, log 11), from the model's counter and the
offset. -/
opaque spireByte : Nat → Nat → Byte
/-- The UDP source port of a transport packet, from the port's number (R328 names the destination port alone, log 46). -/
opaque udpSource : Nat → Nat
/-- The number that the peer package gave its end of a peer context (R329 names it; R411's record does not hold it; log 11). -/
opaque theirCtx : Nat → Nat
/-- Whether the RSA-3072 signature of an image verifies against the fused key (R442, log 10), from its three components and its
security version. -/
opaque signatureOk : W64 → W64 → W64 → Nat → Bool
/-- RSASSA-3072 signature and SHA-256 hash of a message by the fused device key (R439, log 10), as numbers. -/
opaque sign : List Nat → Nat
opaque hash : List Nat → Nat
/-- The bytes of the certificate chain in slot 0, and its length (R439, log 10). -/
opaque certByte : Nat → Byte
opaque certLength : Nat
/-- Part number and serial number of the package (R437, log 9). -/
opaque partNumber : Nat
opaque serialNumber : Nat
/-- The version of each telemetry record, and the layout version of a fatal dump (R437, R452, log 61). -/
opaque recordVersion : Nat → Nat
opaque dumpVersion : Nat
/-- The windows that fail their self-test at a bring-up, as tile and window (R449, log 63), from the model's counter. -/
opaque failedWindows : Nat → List (Nat × Nat)
/-- A number the manual leaves open, from the model's counter: the nonces and version numbers of protocol replies (log 10). -/
opaque freeNumber : Nat → Nat

end Sys2Proof.Config
end

