-- ==== Sys2Proof/Machine/Mem.lean ====
section
/-! DEFINITION. Sparse tables by number, and byte memory in one canonical form: addresses strictly rising, no byte listed that
equals what an unlisted address reads as, which is zero (R39 for scratchpads; log 1 for DRAM). -/
namespace Sys2Proof.Machine

/-- A table by number: at most one entry for a number, numbers rising. -/
abbrev Map (α : Type) := List (Nat × α)

/-- The entry under `k`. -/
def Map.find {α : Type} : Map α → Nat → Option α
  | [], _ => none
  | (j, v) :: m, k => if j = k then some v else Map.find m k

/-- The entry under `k`, or `d` where there is none. -/
def Map.at {α : Type} (m : Map α) (d : α) (k : Nat) : α := (Map.find m k).getD d

/-- Puts `v` under `k`. -/
def Map.put {α : Type} : Map α → Nat → α → Map α
  | [], k, v => [(k, v)]
  | (j, w) :: m, k, v => if j = k then (k, v) :: m else if k < j then (k, v) :: (j, w) :: m else (j, w) :: Map.put m k v

/-- Removes the entry under `k`. -/
def Map.del {α : Type} (m : Map α) (k : Nat) : Map α := m.filter fun e => e.1 != k

/-- Byte memory (Host.Cell pairs in the canonical form of `Memory.wf`). -/
abbrev Memory := List Host.Cell

/-- The canonical form: addresses strictly rising from `lo`, no listed byte zero. -/
def Memory.wfFrom : Nat → Memory → Bool
  | _, [] => true
  | lo, (a, b) :: m => decide (lo ≤ a) && b != 0 && wfFrom (a + 1) m

/-- The canonical form. -/
def Memory.wf (m : Memory) : Bool := wfFrom 0 m

/-- The byte at `a`; an unlisted address reads as zero. -/
def Memory.read : Memory → Nat → Byte
  | [], _ => 0
  | (j, b) :: m, a => if j = a then b else if a < j then 0 else read m a

/-- Writes byte `b` at `a`. -/
def Memory.write : Memory → Nat → Byte → Memory
  | [], a, b => if b = 0 then [] else [(a, b)]
  | (j, c) :: m, a, b =>
    if j = a then (if b = 0 then m else (a, b) :: m)
    else if a < j then (if b = 0 then (j, c) :: m else (a, b) :: (j, c) :: m)
    else (j, c) :: write m a b

/-- The `n` bytes from `a` as a little-endian number (R3). -/
def Memory.readN (m : Memory) (a : Nat) : Nat → Nat
  | 0 => 0
  | n + 1 => (read m a).toNat + 256 * readN m (a + 1) n

/-- Writes the low `n` bytes of `v` from `a` on, little-endian (R3). -/
def Memory.writeN (m : Memory) (a : Nat) : Nat → Nat → Memory
  | 0, _ => m
  | n + 1, v => writeN (write m a (BitVec.ofNat 8 v)) (a + 1) n (v / 256)

/-- The bytes from `a`. -/
def Memory.bytes (m : Memory) (a n : Nat) : List Byte := (List.range n).map fun i => read m (a + i)

/-- Writes a list of bytes from `a` on. -/
def Memory.putBytes (m : Memory) (a : Nat) : List Byte → Memory
  | [] => m
  | b :: bs => putBytes (write m a b) (a + 1) bs

/-- Zeroes the bytes of [lo, hi). -/
def Memory.clear (m : Memory) (lo hi : Nat) : Memory := m.filter fun c => c.1 < lo || hi ≤ c.1

end Sys2Proof.Machine
end

