-- ==== Sys2Proof/Machine/State.lean ====
section
/-! DEFINITION. The state of a package, as plain data: every piece of state that the manual gives the machine, with the model's own
fields at the end of `State`. INVENTORY.md lists each with the rule that names it and its reset value. -/
namespace Sys2Proof.Machine

/-- Reasons a step of the whole machine can end in a fault. -/
inductive Fault where
  /-- Raised by `step` alone: the package has no power (R455, R457) and the script holds no event. Safe: nothing runs then. -/
  | noPower
  /-- Raised by `step` alone: the package is in the fatal state (R451) and the script holds no event. Safe: every tile has
  stopped issuing, and only a package reset, which is an event, leaves the state (R452). -/
  | fatalState
  deriving DecidableEq, Repr

/-- Reasons a step has no meaning. -/
inductive Refusal where
  /-- Raised by an arm of `exec` whose instruction has no meaning yet. Safe. -/
  | notModelled (mnemonic : String)
  deriving DecidableEq, Repr

/-- A field descriptor (R159). -/
structure FieldDesc where
  start : Nat := 0
  width : Nat := 256
  deriving DecidableEq, Repr

/-- A 64-byte line in a speculative store buffer, with the bytes stored to it (R349). -/
structure BufLine where
  line : Nat
  bytes : Map Byte
  deriving DecidableEq, Repr

/-- The sampled descriptor of a tuple or copy operation (R283). -/
structure Desc where
  key : Key := 0
  care : Key := 0
  addr : Nat := 0
  flags : BitVec 5 := 0
  fmt : Nat := 0
  plen : Nat := 0
  p2 : W64 := 0
  p3 : W64 := 0
  ctag : Nat := 0
  deadline : Nat := 0
  cpkt : Nat := 0
  cw : Nat := 0
  token : W64 := 0
  deriving DecidableEq, Repr

/-- The tuple, copy and other interface operations (R280, R281, R359, R383, R423, CRGET of a die register R420). -/
inductive TKind where
  | put | putI | putR | putG | readB | readP | readC | takeB | takeP | takeC | takeN | range | accO | accA | ctrO | ctrA
  | tcancel | copyin | copyout | copyr | freeze | split | tstat | bars | send | tlbinv | crget | sleep
  deriving DecidableEq, Repr

/-- Where an operation stands (R278, R310). -/
inductive Stage where
  /-- In the request queue or routing. -/
  | queued
  /-- At the home or in transit, or running in the copy engine. -/
  | sent
  /-- Registered as a waiter or continuation. -/
  | registered
  /-- Waiting on the pager (R270). -/
  | pager
  /-- Ended with this status and value; the completion event has not come yet. -/
  | ended (status : Nat) (result : W64)
  deriving DecidableEq, Repr

/-- An operation in the records of the tile network interface (R278, R310). `arg` is the second register operand or the handle,
`packet` the sampled task packet, `performed` the condition of R304, `gdDone` that the register result has been written. A `COPYR` that writes
keeps in `arg` what it has sent and why it stopped there (R335). -/
structure TOp where
  id : Nat
  kind : TKind
  cid : Nat
  asid : Nat
  desc : Desc
  dAddr : Nat
  rd : Reg
  arg : W64
  packet : Packet
  stage : Stage
  dest : Nat
  performed : Bool
  gdDone : Bool
  spec : Bool
  prog : Nat
  deriving DecidableEq, Repr

/-- What a parked thread awaits (R34). -/
inductive Wait where
  /-- Nothing: the thread is Running, unless it is suspended. -/
  | none
  /-- The register result of a blocking tuple operation (R282). -/
  | tuple (op : Nat)
  /-- The word at `addr` becoming full or empty (R148). -/
  | fe (addr : Nat) (full : Bool)
  /-- A wake or the expiry at a cycle count, if one is set (R365). -/
  | sleep (op : Nat) (due : Option Nat)
  /-- The conditions of arrival at a barrier entry; `opens` for `BARR` (R345). -/
  | arrive (entry : Nat) (opens : Bool)
  /-- The release of a barrier entry (R346). -/
  | release (entry : Nat)
  /-- The condition of `TFENCE` (R304). -/
  | tfence
  /-- The end of these operations' scratchpad accesses (R363). -/
  | fence (ops : List Nat)
  /-- The condition of `TFENCE` before the exit (R384). -/
  | exit
  /-- The condition of `TFENCE` before the MSI-X message (R425). -/
  | notify (vec : Nat)
  /-- This packet of the ready queue finding a slot elsewhere (R364). -/
  | yielded (seq : Nat)
  /-- A bundle fill waiting on the pager (R19). -/
  | pager (line : Nat)
  /-- Commit or rollback, after an instruction that ends speculation or pauses it (R349, R352). -/
  | spec
  deriving DecidableEq, Repr

/-- The states of R362 of a speculative thread, and the wait of R354 before the rollback's work. -/
inductive SpecState where
  | active | paused | ended | rolling | rolledBack | committing
  deriving DecidableEq, Repr

/-- The speculation of one thread (R348 to R355, R206, R242, R312): the entry, the checkpoint, the captured areas, the store buffer, the
read set, the held regions, the deferred puts, the primaries written. `resume` is the bundle after `BARR`, `no` the number of the window, `drainEnd`
the cycle in which the drain of its commit has ended (R355). -/
structure Spec where
  st : SpecState
  no : Nat
  drainEnd : Nat
  entry : Nat
  cause : Nat
  resume : Nat
  g : Vector W64 32
  p : BitVec 8
  round : BitVec 2
  fmtA : BitVec 5
  fmtW : BitVec 5
  scaleA : BitVec 21
  scaleW : BitVec 21
  sparse : BitVec 2
  vl : Nat
  fds : Vector FieldDesc 32
  area : W64
  fld : W64
  buf : List BufLine
  puts : List TOp
  reads : List Nat
  watches : List Agent
  holds : List Nat
  written : List Nat
  susp : Bool
  pin : Bool
  deriving DecidableEq, Repr

/-- A V operation in a window's queue, with what it captured at issue (R164): descriptors after redirection, `cr.vl`, `cr.round`, the
registers, the shape record. `quiet` says that the fallback of R66 row 1 or 7 holds. `mx` is the matrix instruction of an `MRDV`. -/
structure VEntry where
  id : Nat
  cid : Nat
  op : VOp
  fd : FieldDesc
  fa : FieldDesc
  fb : FieldDesc
  vl : Nat
  round : BitVec 2
  ga : W64
  gb : W64
  shape : List (Nat × Int)
  quiet : Bool
  spec : Bool
  mx : Option Nat
  deriving DecidableEq, Repr

/-- What a V operation does at its issue, sampled from the state before its bundle (R55, R164): the warning bits, a field descriptor or
length that it sets, the shape record that it loads, the bytes that its load maps, the primaries that it writes, its entry in the window's queue and
its `g` destination. -/
structure VIssue where
  warn : BitVec 9
  fd : Option (Nat × FieldDesc)
  vl : Option Nat
  load : Option Nat
  reads : List Nat
  written : List Nat
  entry : VEntry
  gdst : Option Reg
  deriving DecidableEq, Repr

/-- A thread (R34, R111, R395, R406). -/
structure Thread where
  g : Vector W64 32 := Vector.replicate 32 0
  /-- `p1` to `p7` in bits 1 to 7; bit 0 is not used. -/
  p : BitVec 8 := 0
  /-- The registers with a pending bit, each with the operation that owns it (R56). -/
  pend : List (Reg × Nat) := []
  /-- The outstanding operations; the counter of R109 is their number. -/
  outs : List Nat := []
  pc : Nat := 0
  sys : Bool := false
  tact : Bool := false
  pmode : Bool := false
  compute : Bool := false
  /-- The window that a compute thread holds. -/
  win : Nat := 0
  cid : Nat := 0
  word0 : W64 := 0
  prio : BitVec 2 := 0
  succ : List W64 := []
  wait : Wait := .none
  susp : Bool := false
  pin : Bool := false
  evt : Bool := false
  /-- The wait marker is in force (R46). -/
  mark : Bool := false
  /-- The first cycle in which the thread may issue (R101, R376, R405). -/
  readyAt : Nat := 0
  round : BitVec 2 := 0
  fflags : BitVec 5 := 0
  warn : BitVec 9 := 0
  feCount : Nat := 0
  feLimit : Nat := 0
  /-- The bundle at the pc has failed its full/empty condition before (R149). -/
  feTried : Bool := false
  werr : BitVec 32 := 0
  vl : Nat := 0
  fmtA : BitVec 5 := 0
  fmtW : BitVec 5 := 23
  scaleA : BitVec 21 := 0
  scaleW : BitVec 21 := 0
  sparse : BitVec 2 := 0
  specarea : BitVec 41 := 0
  specfld : W64 := 0
  touched : BitVec 33 := 0
  workid : W64 := 0
  tcause : BitVec 4 := 0
  tpc : BitVec 48 := 0
  tval : W64 := 0
  ecost : BitVec 32 := 0
  /-- A pending TIMER cause with its compare value (R392), a pending WATCHDOG cause with its limit (R402). -/
  ptim : Option W64 := .none
  pwdg : Option W64 := .none
  wake : Bool := false
  /-- The V half beside a speculative `READ.B`, which waits for that operation to match (R311). -/
  vheld : Option (Nat × VIssue) := .none
  /-- The bundle address whose fetch was refused and raises BOUNDS at the next issue (R19). -/
  fetchFault : Option Nat := .none
  /-- Performance counters 0, 1, 2, 4, 6 and 7 of R426. -/
  issOwn : W64 := 0
  issLent : W64 := 0
  parked : W64 := 0
  passes : W64 := 0
  requests : W64 := 0
  stalls : W64 := 0
  /-- Speculation: the open window or the rollback in force, and the counts of R362. -/
  spec : Option Spec := .none
  specEntry : BitVec 4 := 0
  specCause : BitVec 4 := 0
  rbk : Nat := 0
  cmt : Nat := 0
  /-- When the thread left the rotation (R403), and whether its last spill was abandoned (R408). -/
  outSince : Nat := 0
  spillBan : Bool := false
  deriving DecidableEq, Repr

/-- A slot of the barrel (R34, R105, R402). -/
structure Slot where
  lend : BitVec 3 := 0
  wdogLimit : BitVec 32 := 0
  wdogCount : BitVec 32 := 0
  thr : Option Thread := none
  deriving DecidableEq, Repr

/-- The operation that a window has started: its result for a `g` destination, its flags, whether its transfer has been served. -/
structure VBusy where
  e : VEntry
  result : Option W64
  flags : BitVec 5
  served : Bool
  /-- The cycle in which its passes or its transfer cycles have ended (R169, R184). -/
  due : Nat := 0
  deriving DecidableEq, Repr

/-- An associative window (R158). -/
structure Window where
  rows : Map Row := []
  fds : Vector FieldDesc 32 := Vector.replicate 32 {}
  ucode : Vector W64 128 := Vector.replicate 128 0
  queue : List VEntry := []
  busy : Option VBusy := none
  owner : Option Nat := none
  dead : Bool := false
  badPar : List (Nat × Nat) := []
  ckpt : Option (Map (BitVec 8)) := none
  resetDue : Bool := false
  deriving DecidableEq, Repr

/-- An accumulator set (R221): accumulators by 16,384 × row + column, exponent records, NaN rows, format record. -/
structure AccSet where
  acc : Map Int := []
  exps : Map Int := []
  nans : List Nat := []
  fmt : Option Nat := none
  bad : List Nat := []
  deriving DecidableEq, Repr

/-- The states of a stationary region (R235, R240); `claimed` until its `MSTAT` has started. -/
inductive RegionSt where
  | free | claimed | ready | failed
  deriving DecidableEq, Repr

/-- A stationary region (R209 to R214, R221, R240). `index` lists the logical position of each kept row, bank by bank. -/
structure Region where
  st : RegionSt := .free
  b0 : Nat := 0
  kb : Nat := 0
  nb : Nat := 0
  wfmt : Nat := 0
  sparse : Nat := 0
  index : List (List Nat) := []
  act : Bool := false
  acc0 : AccSet := {}
  acc1 : AccSet := {}
  badLines : List (Nat × Nat) := []
  pe : Bool := false
  ebank : Nat := 0
  erow : Nat := 0
  lstat : Nat := 0
  deriving DecidableEq, Repr

/-- The matrix instructions (R233). -/
inductive MxKind where
  | mstat | munstat | mma | macc | mrd | mrdv | mstatus
  deriving DecidableEq, Repr

/-- A matrix instruction accepted and not finished (R225), with what it captured at issue (R215, R234). Once started, `gd`, `cw`, `flags` and `status`
hold what its completion writes. `fld` is the destination field that an `MRDV`'s descriptor names at issue (R208, R241), `due` the cycle in which a
started one has run its cycles, `turn` the corner-turner cycles that an `MRDV` then takes (R226). -/
structure MxOp where
  id : Nat
  kind : MxKind
  cid : Nat
  rd : Reg
  ra : W64
  rb : W64
  fmtA : Nat
  fmtW : Nat
  scaleA : BitVec 21
  scaleW : BitVec 21
  sparse : Nat
  win : Nat
  spec : Bool
  area : BitVec 41
  sfld : W64
  started : Bool
  gd : W64
  cw : Option (Nat × W64)
  flags : BitVec 5
  status : Nat
  region : Nat
  banks : Nat
  writes : List (Nat × Nat × Nat)
  fld : Nat := 0
  due : Nat := 0
  turn : Nat := 0
  deriving DecidableEq, Repr

/-- A cached route: the space's two descriptor words and its range table (R245, R246, R248), or a failed fetch. -/
structure Route where
  tenant : Nat
  space : Nat
  ok : Bool
  rfmask : Nat
  table : List (Nat × BitVec 32)
  deriving DecidableEq, Repr

/-- A barrier-table entry (R342); `pending` holds the `BARS` operations that await the home's reply (R359). -/
structure BarEntry where
  used : Bool := false
  handle : W64 := 0
  reg : BitVec 8 := 0
  arr : BitVec 8 := 0
  sreg : List Nat := []
  sarr : List Nat := []
  phase : Nat := 0
  sent : Bool := false
  pending : List (Nat × Nat × Nat) := []
  deriving DecidableEq, Repr

/-- A spilled context (R404): the thread, its window part, its barrier bits, and the cycle in which it became a refill candidate. -/
structure Spilled where
  thr : Thread
  rows : Map Row
  fds : Vector FieldDesc 32
  ucode : Vector W64 128
  badPar : List Nat
  breg : List Nat
  barr : List Nat
  place : Nat
  cplace : Nat
  ready : Option Nat
  deriving DecidableEq, Repr

/-- What an agent's own pager wait is for (R269, R270). -/
inductive PagerFor where
  | fetch (line asid : Nat)
  | copy (op : Nat)
  | delivery (m : Msg) (want : Nat)
  | split
  | remote (m : Msg) (prog : Nat)
  | spill
  deriving DecidableEq, Repr

/-- An operation that an agent makes on its own account: a notice (R467), a fault put, the take of its resolution at `dst` (R269, R270), a
returned grant (R264). -/
inductive Aux where
  | notice
  | faultPut (fno : Nat) (va asid : Nat) (why : PagerFor)
  | resolve (va : Nat) (why : PagerFor) (dst : Agent)
  | putBack (t : Tuple)
  deriving DecidableEq, Repr

/-- A packet in a tile's ready queue, with the cycle and the number of its arrival. -/
structure Ready where
  words : Packet
  at_ : Nat
  seq : Nat
  deriving DecidableEq, Repr

/-- A tile (R16). `icache` holds the bundle-cache lines in the order of their fills, each under its ASID and line number. `age` counts the cycles that
order the ready queue (R375); `acted`, `bound` and `swapped` are the model's own: the tile has had its issue, its binding, its microcode patch, in the
present cycle. -/
structure Tile where
  tenant : Option Nat := none
  asid : Nat := 0
  tvec : Nat := 0
  sp : Memory := []
  full : List Nat := []
  bad : List Nat := []
  soft : List Nat := []
  dir : List (W64 × BitVec 32) := []
  badDir : List W64 := []
  wins : Vector Window 4 := Vector.replicate 4 {}
  regions : Vector Region 8 := Vector.replicate 8 {}
  mxq : List MxOp := []
  ops : List TOp := []
  aux : Map Aux := []
  routes : List Route := []
  waitRoutes : List (Nat × List Nat) := []
  grants : List (W64 × Bool) := []
  /-- The path permits not yet used: operation, beats, the home that sent it (R274). -/
  permits : List (Nat × Nat × Agent) := []
  ready : List Ready := []
  readySeq : Nat := 0
  age : Nat := 0
  spills : List Spilled := []
  spilling : Option Nat := none
  refilling : List Nat := []
  bars : Vector BarEntry 16 := Vector.replicate 16 {}
  timecmp : W64 := 0
  timSlot : BitVec 3 := 0
  cidNext : Nat := 0
  faults : Nat := 0
  icache : List (Nat × Nat × List W64) := []
  perfIdle : W64 := 0
  perfMx : W64 := 0
  mxUntil : Nat := 0
  slots : Vector Slot 8 := Vector.replicate 8 {}
  turner : List (Nat × Nat) := []
  patch : Nat := 0
  splits : List (Nat × Nat) := []
  acted : Bool := false
  bound : Bool := false
  swapped : Bool := false
  deriving DecidableEq, Repr

/-- A removal not yet acknowledged (R277); a tuple that never entered the index has no sequence. It keeps its error place and its blocks. -/
structure Removal where
  op : Nat
  who : Agent
  tenant : Nat
  seq : Option Nat
  tup : Tuple
  bad : Option Nat
  blks : List Blk
  deriving DecidableEq, Repr

/-- A forwarding record (R326); `handles` maps the old handles that moved to their new ones, each to itself until the target has named it. -/
structure Fwd where
  tenant : Nat
  space : Nat
  rf : Nat
  lo : Nat
  hi : Nat
  target : BitVec 32
  handles : List (W64 × W64)
  deriving DecidableEq, Repr

/-- A split at its source home (R321): before the target's answer it is in Prepare, afterwards in Copying. `phys` is the held translation of
the space's route-area words, absent while the pager resolves it (R320); `unacked` counts the copies that the target has not acknowledged. -/
structure SplitSrc where
  req : SplitReq
  tile : Agent
  tenant : Nat
  mid : Nat
  hi : Nat
  rf : Nat
  copying : Bool
  sentE : List Nat
  sentW : List Nat
  phys : Option Nat
  unacked : Nat
  deriving DecidableEq, Repr

/-- The moving half at its target home: inert copies, an entry with its old place, a waiter or continuation with its old handle, and what is
reserved beyond them (R321, R324). -/
structure Inert where
  tenant : Nat
  req : SplitReq
  mid : Nat
  hi : Nat
  rf : Nat
  src : Agent
  entries : List (Nat × Entry)
  watches : List (W64 × Watch)
  room : Nat
  croom : Nat
  wroom : Nat
  rroom : Nat
  blks : List Blk
  cblks : List Blk
  deriving DecidableEq, Repr

/-- A put whose payload is still to stream in (R290): its operation, its sender, and the blocks set aside for it. -/
structure Staged where
  op : Nat
  who : Agent
  tenant : Nat
  blks : List Blk
  deriving DecidableEq, Repr

/-- A home (R22, R249 to R252). `links` are the permits given whose links are reserved: tile, operation, beats (R274);
`notes` are the notifications sent to other packages that their tiles have not received, each with its peer context (R339). -/
structure Home where
  entries : List Entry := []
  watches : List Watch := []
  insSeq : Nat := 0
  arrSeq : Nat := 0
  gens : Map Nat := []
  removals : List Removal := []
  forwards : List Fwd := []
  splitSrc : Option SplitSrc := none
  inert : Option Inert := none
  faults : Nat := 0
  aux : Map Aux := []
  dropped : Nat := 0
  retired : List (Nat × Blk) := []
  staged : List Staged := []
  links : List (Agent × Nat × Nat) := []
  notes : List (Nat × Nat) := []
  moved : List (W64 × W64) := []
  deriving DecidableEq, Repr

/-- The launch being performed (R371): its header and template, and the copies not yet sent (R373). -/
structure Launching where
  tenant : Nat
  key : Key
  payload : List Byte
  cell : Option Nat
  started : Bool
  copies : List (Nat × Packet)
  deriving DecidableEq, Repr

/-- A die's launch unit (R368, R371). -/
structure LaunchUnit where
  waiters : Map Nat := []
  failed : List Nat := []
  queue : List (Nat × Tuple) := []
  cur : Option Launching := none
  notices : List Nat := []
  tables : Nat := 0
  retryAt : Nat := 0
  deriving DecidableEq, Repr

/-- A die (R15, R416). -/
structure Die where
  cycle : W64 := 0
  reserve : Int := Config.reserveCap
  share : Nat := Config.fullShare
  refillAt : Nat := 0
  launch : LaunchUnit := {}
  deriving DecidableEq, Repr

/-- A tenant record (R409), as the 32 words written to it. -/
abbrev TenantRec := Vector W64 32

/-- A packet sent on a peer context and not yet acknowledged (R330, R333); `again` says that it is to be sent again once the reserve covers it. -/
structure Unacked where
  pkt : SpirePacket
  expiries : Nat
  due : Nat
  again : Bool
  deriving DecidableEq, Repr

/-- A peer context (R330, R411): its record, and the transport state; `waiting` holds staged packets with the cycle of their arrival, `asked` the
requests sent on it that await an answer, with their askers and the home that sent them on (R326, R334). -/
structure Peer where
  words : Vector W64 8 := Vector.replicate 8 0
  cached : Bool := true
  used : Nat := 0
  psn : Nat := 0
  msn : Nat := 0
  window : List Unacked := []
  txq : List SpirePacket := []
  waiting : List (Nat × SpirePacket) := []
  asked : List (Agent × Body × Option Agent) := []
  rxNext : Nat := 0
  rxSeen : List Nat := []
  rxMsn : Nat := 0
  parts : List (Nat × SpirePacket) := []
  ackDue : Option Nat := none
  ackCount : Nat := 0
  failed : Bool := false
  deriving DecidableEq, Repr

/-- A host operation outstanding at a function (R431 to R433): put or take slot, its record, whether its payload still comes. -/
structure HostOp where
  id : Nat
  slot : Nat
  put : Bool
  bytes : BitVec 1024
  pulling : Bool
  sent : Bool
  payload : List Byte
  deriving DecidableEq, Repr

/-- One function of a host port: the bytes of its slots by word, the ring positions of its windows, its outstanding records in the order of their go
writes, its window
registers (R430 to R434), its MSI-X masks and pending bits, its AER unsupported-request
status, the grants it returns (R264). -/
structure HostFn where
  putWords : Map W64 := []
  takeWords : Map W64 := []
  busyPut : List Nat := []
  busyTake : List Nat := []
  putPos : Nat := 0
  takePos : Nat := 0
  putBacks : Map Tuple := []
  ops : List HostOp := []
  pdone : BitVec 32 := 0
  tdone : BitVec 32 := 0
  ovf : Bool := false
  perr : Bool := false
  pslot : BitVec 6 := 0
  pstat : BitVec 16 := 0
  msixTable : Map W64 := []
  pba : List Nat := []
  aerUR : Bool := false
  deriving DecidableEq, Repr

/-- A host port (R429, R435): link state, PF0's resource command register, the functions by tenant number, the route cache, and what it
has sent to its host: DMA writes, messages, and the DMA reads not yet answered (function, slot, address, bytes). -/
structure HostPort where
  up : Bool := false
  width : Nat := 0
  rate : Nat := 0
  command : W64 := 0
  pf : HostFn := {}
  fns : Map HostFn := []
  routes : List Route := []
  waitRoutes : List (Nat × List Nat) := []
  dma : List (W64 × List Byte) := []
  pulls : List (Nat × Nat × W64 × Nat) := []
  msix : List (Nat × Nat) := []
  atsDone : List (Nat × Nat) := []
  deriving DecidableEq, Repr

/-- A firmware bank (R442): security version and the three components. -/
structure Bank where
  secver : Nat := 0
  code : W64 := 0
  patch : W64 := 0
  tables : W64 := 0
  verified : Bool := false
  deriving DecidableEq, Repr

/-- The states of a firmware update (R442 to R445). -/
inductive UpdateSt where
  | idle | verified | failed | rolling | selfTestFailed | done
  deriving DecidableEq, Repr

/-- A reply of the belfry, as its protocol, command and numbers (R436 to R440). -/
structure Reply where
  proto : Nat
  cmd : Nat
  data : List Nat
  deriving DecidableEq, Repr

/-- The telemetry mirror (R437): the records of the last sample. -/
structure Telemetry where
  stamp : Nat := 0
  records : Map (List Int) := []
  deriving DecidableEq, Repr

/-- The belfry (R31, R436 to R445); `fallback` says that the inactive bank still holds the code that the active one replaced (R443),
`fetched` how many of the replies the bus owner has fetched (R456). -/
structure Belfry where
  eid : Nat := 0
  bank0 : Bank := {}
  bank1 : Bank := {}
  active1 : Bool := false
  fuseVersion : Nat := 0
  update : UpdateSt := .idle
  patchNo : Nat := 0
  activatedAt : Nat := 0
  raise : Bool := false
  fallback : Bool := false
  us : Nat := 0
  tele : Telemetry := {}
  sent : List Reply := []
  fetched : Nat := 0
  sensors : Option Sensors := none
  negotiated : Bool := false
  /-- Error counters of record 0x0004 and 0x0005: scratchpad corrected and window and stationary parity per die, notices dropped, staging
  drops, fragment drops, tuples dropped at the change to full rate. -/
  spCorrected : Map Nat := []
  winParity : Map Nat := []
  statParity : Map Nat := []
  notices : Nat := 0
  stagingDrops : Nat := 0
  fragmentDrops : Nat := 0
  rateDrops : Nat := 0
  selfTestFailures : Nat := 0
  deriving DecidableEq, Repr

/-- The power and management signals (R455 to R457). -/
structure Power where
  inRange : Bool := true
  en : Bool := true
  pwrgd : Bool := true
  pwrfail : Bool := false
  thermtrip : Bool := false
  deriving DecidableEq, Repr

/-- The service of the package (R449, R451). -/
inductive Service where
  | off | reduced | full | fatal
  deriving DecidableEq, Repr

/-- A spire port (R328, R440): its link, and the configuration in force since its last reset. -/
structure SpirePort where
  up : Bool := false
  en : Bool := false
  mac : BitVec 48 := 0
  udp : BitVec 16 := 0
  opts : BitVec 48 := 0
  ipv6 : BitVec 128 := 0
  out : List SpirePacket := []
  deriving DecidableEq, Repr

/-- The package configuration record's fields of one spire port, as written (R440). -/
structure PortCfg where
  word0 : W64 := 0
  word1 : W64 := 0
  ip0 : W64 := 0
  ip1 : W64 := 0
  deriving DecidableEq, Repr

/-- One turn of the script: an event to perform, a tile's issue of the present cycle, the end of the present cycle on a die. -/
inductive Turn where
  | act (i : Instr)
  | cycle (tile : Nat)
  | tick (die : Nat)
  deriving DecidableEq, Repr

/-- The package. The fields from `cur` on are the model's own (log 3, log 4): the issuing tile and slot, whose turn the barrel round is,
the script of the outside world and of the engines' choices, the supply of operation and message numbers, the counter of the free
values. -/
structure State where
  tiles : Map Tile := []
  dies : Vector Die 4 := Vector.replicate 4 {}
  homes : Map Home := []
  dram : Memory := []
  dramBad : List Nat := []
  pkg : BitVec 16 := 0
  lock : Bool := false
  rollout : BitVec 32 := 60000
  portCfg : Vector PortCfg 8 := Vector.replicate 8 {}
  tenants : Map TenantRec := []
  peers : Map Peer := []
  staging : Nat := 0
  spire : Vector SpirePort 8 := Vector.replicate 8 {}
  net : List Msg := []
  /-- Cached leaf entries: ASID, first address and size of the page, physical base, permissions; and cached table entries: ASID, level, the
  address bits that index it, the table it names (R414). -/
  tlb : List (Nat × Nat × Nat × Nat × Nat) := []
  tables : List (Nat × Nat × Nat × Nat) := []
  ports : Vector HostPort 2 := Vector.replicate 2 {}
  belfry : Belfry := {}
  power : Power := {}
  service : Service := .reduced
  fatalCause : Nat := 0
  trained : List Nat := []
  failedStacks : List Nat := []
  dump : Option Nat := none
  cur : Nat × Nat := (0, 0)
  turn : Nat := 0
  script : List Turn := []
  nextId : Nat := 0
  freeCtr : Nat := 0
  deriving DecidableEq, Repr

/-- The machine right after package reset (R446, R447, R449): reduced service, no tenant, nothing in memory. -/
def State.reset : State := {}

end Sys2Proof.Machine
end

