-- ==== Sys2Proof/Machine/Ops.lean ====
section
/-! DEFINITION. The named operations over the state that the meanings share: tiles, slots and threads, registers and pending bits,
scratchpad and full/empty bits, energy, messages and notices, taking a trap and returning from one. -/
namespace Sys2Proof.Machine

/-- Bits [lo + n - 1 : lo] of a 64-bit word as a number. -/
def bitsOf (w : W64) (lo n : Nat) : Nat := w.toNat / 2 ^ lo % 2 ^ n
/-- The bytes of a number, little-endian. -/
def bytesOfNat : Nat → Nat → List Byte
  | 0, _ => []
  | n + 1, v => BitVec.ofNat 8 v :: bytesOfNat n (v / 256)
/-- The number of little-endian bytes. -/
def natOfBytes : List Byte → Nat
  | [] => 0
  | b :: bs => b.toNat + 256 * natOfBytes bs
/-- Field `k`j of a key (R243). -/
def keyField (k : Key) (j : Nat) : Nat := k.toNat / 2 ^ (32 * j) % 2 ^ 32
/-- A key from its fields, `k0` first; omitted fields are zero. -/
def keyOf (fs : List Nat) : Key := BitVec.ofNat 256 (fs.foldr (fun f acc => f % 2 ^ 32 + acc * 2 ^ 32) 0)
def keySpace (k : Key) : Nat := k.toNat % 2 ^ 16
/-- `match` of R94. -/
def keyMatch (t m k : Key) : Bool := (t ^^^ k) &&& m == 0
/-- ⌈a ÷ b⌉. -/
def ceilDiv (a b : Nat) : Nat := (a + b - 1) / b

/-! Statuses (R288) and trap causes (R398). -/
def stOK : Nat := 0
def stMISS : Nat := 1
def stCANCELLED : Nat := 2
def stPAGEWAIT : Nat := 3
def stGRANT : Nat := 4
def stPARITY : Nat := 5
def stDEADLINE : Nat := 6
def stNOSPACE : Nat := 7
def stMISROUTE : Nat := 8
def stSTAT : Nat := 9
def stBOUNDS : Nat := 10
def stNOTHOME : Nat := 11
def stREMOTE : Nat := 12
def stSATURATED : Nat := 13
def stABORTED : Nat := 14
def cILLOP : Nat := 1
def cHAZARD : Nat := 2
def cALIGN : Nat := 3
def cBOUNDS : Nat := 4
def cSTAT : Nat := 5
def cPRIV : Nat := 6
def cFERETRY : Nat := 7
def cWATCHDOG : Nat := 8
def cTIMER : Nat := 9
def cPARITY : Nat := 10
def cBREAK : Nat := 11
def cSVC : Nat := 12
def cSPLITSTATE : Nat := 13
def cGRANTSYNC : Nat := 14
def cUSER : Nat := 15

/-- The status as a forwarded reply reports it: OK becomes NOTHOME (R326). -/
def fwdStatus (fwd : Bool) (st : Nat) : Nat := if fwd && st == stOK then stNOTHOME else st

/-! Tiles, slots, threads, dies, homes. -/
def State.tile (s : State) (x : Nat) : Tile := s.tiles.at {} x
def State.setTile (s : State) (x : Nat) (t : Tile) : State := { s with tiles := s.tiles.put x t }
def State.modTile (s : State) (x : Nat) (f : Tile → Tile) : State := s.setTile x (f (s.tile x))
def Tile.slot (t : Tile) (q : Nat) : Slot := t.slots[q]?.getD {}
def Tile.setSlot (t : Tile) (q : Nat) (v : Slot) : Tile := { t with slots := t.slots.setIfInBounds q v }
def Tile.win (t : Tile) (w : Nat) : Window := t.wins[w]?.getD {}
def Tile.setWin (t : Tile) (w : Nat) (v : Window) : Tile := { t with wins := t.wins.setIfInBounds w v }
def Tile.region (t : Tile) (r : Nat) : Region := t.regions[r]?.getD {}
def Tile.setRegion (t : Tile) (r : Nat) (v : Region) : Tile := { t with regions := t.regions.setIfInBounds r v }
def Tile.bar (t : Tile) (e : Nat) : BarEntry := t.bars[e]?.getD {}
def Tile.setBar (t : Tile) (e : Nat) (v : BarEntry) : Tile := { t with bars := t.bars.setIfInBounds e v }
def State.slot (s : State) (x q : Nat) : Slot := (s.tile x).slot q
def State.setSlot (s : State) (x q : Nat) (v : Slot) : State := s.modTile x fun t => t.setSlot q v
def State.thr (s : State) (x q : Nat) : Option Thread := (s.slot x q).thr
/-- Applies `f` to the thread in a slot; a free slot stays as it is. -/
def State.modThr (s : State) (x q : Nat) (f : Thread → Thread) : State :=
  match s.thr x q with
  | some t => s.setSlot x q { s.slot x q with thr := some (f t) }
  | none => s
/-- The tile and slot whose bundle issues, and its thread. -/
def State.tx (s : State) : Nat := s.cur.1
def State.sx (s : State) : Nat := s.cur.2
def State.ctile (s : State) : Tile := s.tile s.tx
def State.cthr (s : State) : Thread := (s.thr s.tx s.sx).getD {}
def State.modCur (s : State) (f : Thread → Thread) : State := s.modThr s.tx s.sx f
def State.modCtile (s : State) (f : Tile → Tile) : State := s.modTile s.tx f
def dieOf (x : Nat) : Nat := x / Config.dieTiles % 4
def State.die (s : State) (d : Nat) : Die := s.dies[d]?.getD {}
def State.setDie (s : State) (d : Nat) (v : Die) : State := { s with dies := s.dies.setIfInBounds d v }
def State.modDie (s : State) (d : Nat) (f : Die → Die) : State := s.setDie d (f (s.die d))
/-- The reserve covers a cost in half picojoules; one above the capacity waits for a full reserve (R416). -/
def State.covers (s : State) (d : Nat) (cost : Nat) : Bool :=
  decide ((s.die d).reserve ≥ (cost : Int)) || (decide ((cost : Int) > Config.reserveCap) && decide ((s.die d).reserve ≥ Config.reserveCap))
def State.debit (s : State) (d : Nat) (cost : Nat) : State := s.modDie d fun v => { v with reserve := v.reserve - cost }
def State.cycleOf (s : State) (x : Nat) : Nat := (s.die (dieOf x)).cycle.toNat
def State.home (s : State) (h : Nat) : Home := s.homes.at {} h
def State.setHome (s : State) (h : Nat) (v : Home) : State := { s with homes := s.homes.put h v }
def State.modHome (s : State) (h : Nat) (f : Home → Home) : State := s.setHome h (f (s.home h))
def State.port (s : State) (p : Nat) : HostPort := s.ports[p]?.getD {}
def State.setPort (s : State) (p : Nat) (v : HostPort) : State := { s with ports := s.ports.setIfInBounds p v }
def State.modPort (s : State) (p : Nat) (f : HostPort → HostPort) : State := s.setPort p (f (s.port p))
def HostPort.fn (p : HostPort) (n : Nat) : HostFn := if n = 256 then p.pf else p.fns.at {} n
def HostPort.setFn (p : HostPort) (n : Nat) (v : HostFn) : HostPort := if n = 256 then { p with pf := v } else { p with fns := p.fns.put n v }
def State.modFn (s : State) (p n : Nat) (f : HostFn → HostFn) : State := s.modPort p fun h => h.setFn n (f (h.fn n))
def State.peer (s : State) (c : Nat) : Peer := s.peers.at {} c
def State.setPeer (s : State) (c : Nat) (v : Peer) : State := { s with peers := s.peers.put c v }
def State.modBelfry (s : State) (f : Belfry → Belfry) : State := { s with belfry := f s.belfry }

/-- A supply of numbers for operations and messages. -/
def State.bump (s : State) : State := { s with nextId := s.nextId + 1 }
/-- Advances the counter that the free values are applied to (log 4). -/
def State.draw (s : State) : State := { s with freeCtr := s.freeCtr + 1 }

/-! Names (R12 to R14). -/
def State.tileName (s : State) (x : Nat) : BitVec 32 := BitVec.ofNat 32 (s.pkg.toNat * 65536 + x / 192 * 256 + x % 192)
def State.homeName (s : State) (h : Nat) : BitVec 32 := BitVec.ofNat 32 (s.pkg.toNat * 65536 + h)
/-- The tile of this package that a name names. -/
def State.tileOf (s : State) (n : Nat) : Option Nat :=
  if n / 65536 % 65536 = s.pkg.toNat ∧ n / 1024 % 64 = 0 ∧ n % 256 < 192 then some (n / 256 % 4 * 192 + n % 256) else none
/-- A name that names some home of some package (R12, R14). -/
def homeNameOk (n : Nat) : Bool := n / 65536 % 65536 != 0xFFFF && n / 32 % 2048 == 0
def State.isLocal (s : State) (n : Nat) : Bool := n / 65536 % 65536 == s.pkg.toNat

/-! Messages (R271) and the sending side of the spire link (R313, R329, R330, R332, R333). -/
/-- Arithmetic cycles of one microsecond: half as many in reduced service, when the clocks run at half rate (R15, R449). -/
def State.usCycles (s : State) : Nat := if s.service = .full then Config.cyclesPerUs else Config.cyclesPerUs / 2
/-- The number of an agent as another package names it, and the agent of a number; an agent that this package itself knows through a peer context
is numbered above all others, so that its answer comes back the way its request went (log 47). -/
def agentNo : Agent → Nat
  | .home h => h
  | .tile x => 32 + x
  | .launch d => 800 + d
  | .host p f => 1000 + 257 * p + f
  | .peer c w => 100000 + c % 65536 + 65536 * w
def agentOfNo (n : Nat) : Agent :=
  if n < 32 then .home n
  else if n < 800 then .tile (n - 32)
  else if n < 1000 then .launch (n - 800)
  else if n < 100000 then .host ((n - 1000) / 257) ((n - 1000) % 257)
  else .peer ((n - 100000) % 65536) ((n - 100000) / 65536)
def agentDie : Agent → Nat
  | .tile x => dieOf x
  | .home h => h / 8 % 4
  | .launch d => d
  | .host p _ => if p = 0 then 0 else 3
  | .peer _ _ => 0
/-- Bytes of payload that a message carries. -/
def tupleBytes (t : Tuple) : List Byte :=
  match t.pay with
  | .inline bs | .pool bs => bs
  | _ => []
def bodyBytes : Body → List Byte
  | .put _ t | .reenter t _ _ => tupleBytes t
  | .accAdd _ _ _ bs => bs
  | .deliver d => d.bytes
  | .remoteCopy _ c => c.bytes
  | .remoteData _ bs _ _ _ => bs
  | .splitEntry e | .moveEntry e => match e.cell with
    | .tuple (.inline bs) | .tuple (.pool bs) => bs
    | _ => []
  | _ => []
/-- The transport type of a message (R329). -/
def bodyType : Body → SpireType
  | .remoteData _ bs _ _ _ => if bs.isEmpty then .reply else .data
  | .remoteCopy _ c => if c.bytes.isEmpty then .request else .data
  | .reply _ _ _ _ | .rangeReply _ _ _ _ _ | .ctrReply _ _ _ | .deliver _ | .splitAnswer _ | .splitAck | .splitMap _ | .splitDone _ _ _ _ => .reply
  | _ => .request
/-- Whole blocks of a data message's packet (R332): its format's block, else one byte. -/
def bodyBlock : Body → Nat
  | .remoteCopy _ c => c.block
  | .remoteData _ _ b _ _ => b
  | _ => 1
def peerWord (p : Peer) (i : Nat) : W64 := p.words[i]?.getD 0
def peerValid (p : Peer) : Bool := (peerWord p 0).getLsbD 0
def peerField (p : Peer) (lo n : Nat) : Nat := (peerWord p 0).toNat / 2 ^ lo % 2 ^ n
/-- The spire port of a context, its tenant here, the peer's tenant number, the peer's package (R411). -/
def peerPort (p : Peer) : Nat := peerField p 16 3
def peerTenant (p : Peer) : Nat := peerField p 32 8
def peerTheirs (p : Peer) : Nat := peerField p 40 8
def peerPkg (p : Peer) : Nat := peerField p 48 16
def State.spirePort (s : State) (p : Nat) : SpirePort := s.spire[p]?.getD {}
def State.setSpirePort (s : State) (p : Nat) (v : SpirePort) : State := { s with spire := s.spire.setIfInBounds p v }
/-! The wire format (R328, R329). -/
/-- A number's bytes, big-endian. -/
def beBytes (n v : Nat) : List Byte := (bytesOfNat n v).reverse
def natOfBe (bs : List Byte) : Nat := natOfBytes bs.reverse
def spireTypeNo : SpireType → Nat
  | .request => 0
  | .reply => 1
  | .data => 2
  | .ack => 3
  | .other => 15
def spireTypeOf (n : Nat) : SpireType := if n = 0 then .request else if n = 1 then .reply else if n = 2 then .data else if n = 3 then .ack else .other
/-- The 32 bytes of a transport header, its reserved bits as the packet has them: zero in a packet that this package sends. -/
def spireHeader (k : SpirePacket) : List Byte :=
  beBytes 8 (k.ver % 16 * 2 ^ 60 + spireTypeNo k.type * 2 ^ 56 + k.spare.toNat / 2 ^ 48 * 2 ^ 32 + k.psn % 2 ^ 32) ++ beBytes 8 (k.rctx % 2 ^ 16 * 2 ^ 48 + k.sctx % 2 ^ 16 * 2 ^ 32 + k.msn % 2 ^ 32) ++
  beBytes 8 (k.off % 2 ^ 32 * 2 ^ 32 + k.mlen % 2 ^ 32) ++ beBytes 8 (k.plen % 2 ^ 16 * 2 ^ 48 + k.spare.toNat % 2 ^ 48)
/-- The UDP payload: the header, then an ack's 256 bits as one big-endian number, or the packet's bytes. -/
def spireWire (k : SpirePacket) : List Byte := spireHeader k ++ (if k.type = .ack then beBytes 32 k.acks.toNat else k.data)
/-- The packet whose UDP payload is `bs`, in a frame, as part of a message. -/
def spireOfBytes (bs : List Byte) (bad : Bool) (body : Option Msg) (net : SpireNet) : SpirePacket :=
  let w := fun (i : Nat) => natOfBe ((bs.drop (8 * i)).take 8)
  let ty := spireTypeOf (w 0 / 2 ^ 56 % 16)
  ⟨w 0 / 2 ^ 60 % 16, ty, w 0 % 2 ^ 32, w 1 / 2 ^ 48 % 2 ^ 16, w 1 / 2 ^ 32 % 2 ^ 16, w 1 % 2 ^ 32, w 2 / 2 ^ 32 % 2 ^ 32, w 2 % 2 ^ 32, w 3 / 2 ^ 48 % 2 ^ 16,
    if ty = .ack then BitVec.ofNat 256 (natOfBe ((bs.drop 32).take 32)) else 0, bad, if ty = .ack then [] else bs.drop 32, body, net,
    BitVec.ofNat 72 (w 0 / 2 ^ 32 % 2 ^ 24 * 2 ^ 48 + w 3 % 2 ^ 48)⟩
/-- The UDP checksum of a payload in a frame: the ones' complement of the ones' complement sum over the IPv6 pseudo-header, the UDP header and the
payload (R328; the sum itself is that of the UDP and IPv6 standards, log 46). -/
def udpChecksum (n : SpireNet) (pay : List Byte) : Nat :=
  let len := pay.length + 8
  let bs := beBytes 16 n.srcIp.toNat ++ beBytes 16 n.dstIp.toNat ++ beBytes 4 len ++ beBytes 4 17 ++ beBytes 2 n.srcPort ++ beBytes 2 n.dstPort ++ beBytes 2 len ++ pay
  let sum := ((List.range ((bs.length + 1) / 2)).map fun i => (bs.getD (2 * i) 0).toNat * 256 + (bs.getD (2 * i + 1) 0).toNat).sum
  let r := 0xFFFF - (if sum = 0 then 0 else (sum - 1) % 0xFFFF + 1)
  if r = 0 then 0xFFFF else r
/-- An IPv6 address from two words of a record that holds its bytes in network order (R411, R440). -/
def ipv6Of (a b : W64) : BitVec 128 := BitVec.ofNat 128 (natOfBe (bytesOfNat 8 a.toNat ++ bytesOfNat 8 b.toNat))
/-- Puts a packet of a context into the frame that its port's configuration and the peer's record give (R328, R411, R440). -/
def State.frame (s : State) (p : Peer) (k : SpirePacket) : SpirePacket :=
  let v := s.spirePort (peerPort p)
  let n : SpireNet := { dstMac := (peerWord p 1).truncate 48, srcMac := v.mac, vlan := if v.opts.getLsbD 12 then some (v.opts.toNat % 4096) else none
                        dscp := v.opts.toNat / 2 ^ 32 % 64, srcIp := v.ipv6, dstIp := ipv6Of (peerWord p 2) (peerWord p 3), srcPort := Config.udpSource (peerPort p), dstPort := v.udp.toNat }
  { k with net := { n with sum := udpChecksum n (spireWire k) } }
/-- Puts a packet on the wire; nothing leaves a port whose link is down, and in the fatal state the ports stop sending (R451). -/
def State.wire (s : State) (port : Nat) (p : SpirePacket) : State :=
  let v := s.spirePort port
  if v.up ∧ s.service ≠ .fatal then s.setSpirePort port { v with out := v.out ++ [p] } else s
/-- Timer of a packet that has expired `n` times: 10 µs, doubling up to 1.28 ms (R333). -/
def retxCycles (n us : Nat) : Nat := min (10 * 2 ^ n) 1280 * us
/-- The die that pays for a packet's bytes: that of the agent whose message it carries, else its port's (R416). -/
def packetDie (p : Peer) (k : SpirePacket) : Nat := match k.body with
  | some m => agentDie m.src
  | none => peerPort p / 2
/-- Half picojoules of a packet: 50 pJ for each byte sent (R417). -/
def packetCost (k : SpirePacket) : Nat := 100 * (spireWire k).length
/-- A use of a context: it is now the one used last (R330). -/
def State.usePeer (s : State) (c : Nat) : State := s.bump.setPeer c { s.peer c with used := s.nextId }
/-- Sends again the packets of the window that are due again and that the reserve covers, under a new timer (R333, R416, R417). -/
def State.spireAgain (s : State) (c : Nat) : State :=
  ((s.peer c).window.filter Unacked.again).foldl (fun s u =>
    let p := s.peer c
    if !s.covers (packetDie p u.pkt) (packetCost u.pkt) then s
    else
      let due := (s.die (peerPort p / 2)).cycle.toNat + retxCycles u.expiries s.usCycles
      let sent := p.window.map fun (v : Unacked) => if v.pkt.psn = u.pkt.psn then { v with due := due, again := false } else v
      ((s.debit (packetDie p u.pkt) (packetCost u.pkt)).setPeer c { p with window := sent }).wire (peerPort p) u.pkt) s
/-- Sends the packets that the window of 256 admits and the reserve covers, in order (R333, R416). -/
def State.spireGo (s : State) (c : Nat) : Nat → State
  | 0 => s
  | f + 1 =>
    let p := s.peer c
    match p.txq with
    | [] => s
    | k :: rest =>
      if p.window.length ≥ 256 || !s.covers (packetDie p k) (packetCost k) then s
      else
        let due := (s.die (peerPort p / 2)).cycle.toNat + retxCycles 0 s.usCycles
        let s := (s.debit (packetDie p k) (packetCost k)).setPeer c { p with txq := rest, window := p.window ++ [⟨k, 0, due, false⟩] }
        ((s.usePeer c).wire (peerPort p) k).spireGo c f
/-- Sends what may leave on a context that is on chip. -/
def State.spireFlush (s : State) (c : Nat) : State := if (s.peer c).cached then (s.spireAgain c).spireGo c (s.peer c).txq.length else s
/-- A message that asks for an answer. -/
def bodyAsks : Body → Bool
  | .put _ _ | .get _ _ | .rangeTake _ _ _ | .rangeNew _ _ _ _ | .accNew _ _ _ _ _ _ _ | .accAdd _ _ _ _ | .ctrNew _ _ _ _ _ _ | .ctrAdd _ _ _ | .cancel _ _ | .barReg _ _ _ |
    .remoteCopy _ _ | .split _ => true
  | _ => false
/-- Sends a message on a peer context, split into packets of at most 4,096 payload bytes, each with the message it is part of (R332). The manual
leaves the content of a request or reply message open (log 11). -/
def State.spireSend (s : State) (c : Nat) (m : Msg) : State :=
  let p := s.peer c
  if !peerValid p then s
  else
    let ty := bodyType m.body
    let bytes := bodyBytes m.body
    let ctr := s.freeCtr
    let s := s.draw
    let own := if ty = .data then 0 else Config.spireHeader ctr
    let len := own + bytes.length
    let bytes := if ty = .data then bytes else (List.range own).map (Config.spireByte ctr) ++ bytes
    let step := 4096 / bodyBlock m.body * bodyBlock m.body
    let n := max 1 ((len + step - 1) / step)
    let pkts : List SpirePacket := (List.range n).map fun i =>
      s.frame p ⟨1, ty, (p.psn + i) % 2 ^ 32, Config.theirCtx c, c, p.msn, step * i, len, min step (len - step * i), 0, false,
        (bytes.drop (step * i)).take step, some m, {}, 0⟩
    let asked := if bodyAsks m.body then p.asked ++ [(m.src, m.body, m.via)] else p.asked
    (s.setPeer c { p with psn := (p.psn + n) % 2 ^ 32, msn := (p.msn + 1) % 2 ^ 32, txq := p.txq ++ pkts, asked := asked, failed := false }).spireFlush c
/-- Whether a message notifies a speculation watch. -/
def isNotify : Body → Bool
  | .notify _ _ _ => true
  | _ => false
/-- The notifications by an agent that their tiles have not received: on the networks, or sent to another package whose tile has not acknowledged
them (log 68). -/
def State.notices (s : State) (who : Agent) : List Nat :=
  ((s.net.filter fun m => m.src == who && isNotify m.body).map Msg.id) ++ match who with
    | .home h => (s.home h).notes.map Prod.fst
    | _ => []
/-- A put or take counts as performed only once the notifications that it made have been received: replies and deliveries of a home wait for the
notifications that it sent before them (R339). -/
def State.awaitsNotice (s : State) (m : Msg) : Bool :=
  (match m.body with
    | .reply _ _ _ _ | .deliver _ => true
    | _ => false) && (s.notices m.src).any (· < m.id)
/-- The agents of a combined request, the upper input's first. -/
def combAgents : Comb → List Agent
  | .one a _ _ _ => [a]
  | .two _ u l => combAgents u ++ combAgents l
/-- Each asker of a combined request with its operation. -/
def combOps : Comb → List (Agent × Nat)
  | .one a op _ _ => [(a, op)]
  | .two _ u l => combOps u ++ combOps l
/-- A combined reply whose askers are not all reached by one peer context: a switch of this package splits it first (R273). -/
def mixedReply (c : Nat) : Body → Bool
  | .rangeReply _ _ _ w _ | .ctrReply _ w _ => (combAgents w).any fun a => match a with
    | .peer k _ => k != c
    | _ => true
  | _ => false
/-- The sources and the destinations of a message, the components of a combined request or reply each for itself (R272, R273). A request that a
home has sent on comes from that home too: it keeps the order in which it reached it, whoever asked (R326). -/
def askersOf (m : Msg) : List Agent :=
  match m.body with
  | .rangeTake _ _ w | .ctrAdd _ _ w => combAgents w
  | _ => [m.src]
def srcsOf (m : Msg) : List Agent := m.via.toList ++ askersOf m
def dstsOf (m : Msg) : List Agent :=
  match m.body with
  | .rangeReply _ _ _ w _ | .ctrReply _ w _ => combAgents w
  | _ => [m.dst]
/-- Two messages with a common source and a common destination. -/
def sameWay (a b : Msg) : Bool := (srcsOf a).any (srcsOf b).contains && (dstsOf a).any (dstsOf b).contains
/-- Sends a message for another package on its context; it stays on the networks while it awaits a notification, is still to be split, or follows
one that stays. -/
def State.sendFar (s : State) (m : Msg) : State :=
  match m.dst with
  | .peer c w =>
    if s.awaitsNotice m || mixedReply c m.body || s.net.any fun x => x.id != m.id && sameWay x m then { s with net := s.net ++ [m] }
    else s.spireSend c { m with dst := agentOfNo w, tenant := peerTheirs (s.peer c) }
  | _ => { s with net := s.net ++ [m] }
/-- Messages for other packages that stayed on the networks are tried again, in their order. -/
def State.releaseFar (s : State) : State :=
  let isFar := fun (m : Msg) => match m.dst with
    | .peer _ _ => true
    | _ => false
  let held := s.net.filter isFar
  held.foldl (fun s m => s.sendFar m) { s with net := s.net.filter fun m => !isFar m }
/-- Posts a message under a fresh number: on the package's networks, or on the spire link. -/
def State.post (s : State) (m : Msg) : State :=
  let m := { m with id := s.nextId }
  s.bump.sendFar m
def State.send (s : State) (src dst : Agent) (tenant asid : Nat) (b : Body) : State := s.post ⟨0, src, dst, tenant, asid, 0, 0, false, b, none⟩
/-- A tile's acknowledgement of a notification from another package: that it has received it, or was reset before (R339; log 68). -/
def State.noteBack (s : State) (a : Msg) : State :=
  match a.src, a.body with
  | .peer _ _, .notify _ _ n => s.send a.dst a.src a.tenant a.asid (.notified n)
  | _, _ => s
def State.msg (s : State) (m : Nat) : Option Msg := s.net.find? fun x => x.id == m
def State.dropMsg (s : State) (m : Nat) : State := { s with net := s.net.filter fun x => x.id != m }
def State.modMsg (s : State) (m : Nat) (f : Msg → Msg) : State := { s with net := s.net.map fun x => if x.id == m then f x else x }
/-- Whether a message carries a task packet. -/
def bodyIsPacket : Body → Bool
  | .packet _ _ _ => true
  | _ => false
/-- A message that nothing sent earlier from its source to its destination still precedes (R271). A packet held for a full ready queue
holds back only later packets of its sender (R258, R374). A reply or delivery waits for its operation's notifications (R339). -/
def State.deliverable (s : State) (m : Msg) : Bool :=
  ((s.net.takeWhile fun x => x.id != m.id).all fun x => !(sameWay x m && (bodyIsPacket m.body || !(bodyIsPacket x.body && x.sent == 1)))) && !s.awaitsNotice m

/-! Tenant records (R409). -/
def State.tenantRec (s : State) (t : Nat) : TenantRec := s.tenants.at (Vector.replicate 32 0) t
def recWord (r : TenantRec) (i : Nat) : W64 := r[i]?.getD 0
def recValid (r : TenantRec) : Bool := bitsOf (recWord r 0) 63 1 == 1
def recPort (r : TenantRec) : Nat := bitsOf (recWord r 0) 39 1
def recVcount (r : TenantRec) : Nat := bitsOf (recWord r 0) 27 12
def recErrvec (r : TenantRec) : Nat := bitsOf (recWord r 0) 16 11
def recLspace (r : TenantRec) : Nat := bitsOf (recWord r 0) 0 16
def recRoute (r : TenantRec) : Nat := bitsOf (recWord r 1) 4 44 * 16
def recRtab (r : TenantRec) : Nat := bitsOf (recWord r 2) 4 44 * 16
def recSpill (r : TenantRec) : Nat := bitsOf (recWord r 3) 16 32 * 65536
def recAcount (r : TenantRec) : Nat := bitsOf (recWord r 4) 16 14
def recAfirst (r : TenantRec) : Nat := bitsOf (recWord r 4) 0 13
def recAtab (r : TenantRec) : Nat := bitsOf (recWord r 5) 3 45 * 8
def recTvec (r : TenantRec) : Nat := bitsOf (recWord r 6) 3 45 * 8
def recWdog (r : TenantRec) : BitVec 32 := BitVec.ofNat 32 (recWord r 7).toNat
def recHasAsid (r : TenantRec) (a : Nat) : Bool := recAfirst r ≤ a && a < recAfirst r + recAcount r
def State.tenantOf (s : State) (x : Nat) : Nat := (s.tile x).tenant.getD 0
def State.afirst (s : State) (t : Nat) : Nat := recAfirst (s.tenantRec t)

/-- Raises MSI-X vector `v` of tenant `t` on its host port; a masked vector sets its pending bit (R425). The table's vector-control
word masks by its bit 32; a word never written masks (PRESUMED from the PCI Express standard, log 15). A function that its tenant has left is
disabled and raises nothing (R429). -/
def State.raiseVector (s : State) (t v : Nat) : State :=
  let p := recPort (s.tenantRec t)
  let f := (s.port p).fn t
  if !recValid (s.tenantRec t) then s
  else if bitsOf (f.msixTable.at 0x100000000 (2 * v + 1)) 32 1 = 1 then
    s.modFn p t fun f => { f with pba := if f.pba.contains v then f.pba else f.pba ++ [v] }
  else s.modPort p fun h => { h with msix := h.msix ++ [(t, v)] }
def State.raiseError (s : State) (t : Nat) : State := s.raiseVector t (recErrvec (s.tenantRec t))

/-! Registers (R55, R56, R94, R111). -/
def Thread.rd (t : Thread) (r : Reg) : W64 := if r = 0 then 0 else t.g[r.toNat]
def Thread.wr (t : Thread) (r : Reg) (v : W64) : Thread := if r = 0 then t else { t with g := t.g.set r.toNat v }
def Thread.pr (t : Thread) (n : Pred) : Bool := n == 0 || t.p.getLsbD n.toNat
def Thread.wp (t : Thread) (n : Pred) (b : Bool) : Thread :=
  if n = 0 then t
  else { t with p := if b then t.p ||| (1#8 <<< n.toNat) else t.p &&& ~~~(1#8 <<< n.toNat) }
def Thread.pending (t : Thread) (r : Reg) : Bool := t.pend.any fun e => e.1 == r
def Thread.setWarn (t : Thread) (b : BitVec 9) : Thread := { t with warn := t.warn ||| b }
def Thread.orFlags (t : Thread) (f : FFlags) : Thread := { t with fflags := t.fflags ||| f }
/-- Counts a long-latency operation and sets the pending bit of its destination (R56). -/
def Thread.launch (t : Thread) (op : Nat) (rd : Option Reg) : Thread :=
  let t := { t with outs := t.outs ++ [op] }
  match rd with
  | some r => if r = 0 then t else { t with pend := t.pend ++ [(r, op)] }
  | none => t
/-- The end of a long-latency operation: the result is written if its pending bit still stands, the bit clears and the counter drops
(R56, R389). -/
def Thread.land (t : Thread) (op : Nat) (rd : Reg) (v : W64) : Thread :=
  let t := if t.pend.contains (rd, op) then { t.wr rd v with pend := t.pend.filter (· != (rd, op)) } else t
  { t with outs := t.outs.filter (· != op) }
/-- The awaited event has arrived: the thread is Running again, or the event is recorded while it is Suspended (R34, R386). -/
def Thread.wakeUp (t : Thread) : Thread := { t with wait := .none, evt := t.evt || t.susp, spillBan := t.susp && t.spillBan }
/-- Running in the sense of R34. -/
def Thread.running (t : Thread) : Bool := t.wait == .none && !t.susp
/-- The state number of R390. -/
def Thread.stateNo (t : Thread) : Nat := if t.susp then 3 else if t.wait = .none then 1 else 2
/-- The speculation state of R362. -/
def Thread.specNo (t : Thread) : Nat :=
  match t.spec with
  | none => 0
  | some sp => match sp.st with
    | .active | .committing => 1
    | .paused => 2
    | .ended => 3
    | .rolling | .rolledBack => 4
/-- Speculative: a window is open (R348 to R353). -/
def Thread.speculative (t : Thread) : Bool :=
  match t.spec with
  | some sp => sp.st == .active || sp.st == .paused || sp.st == .ended
  | none => false
def Thread.kind (t : Thread) : Nat := bitsOf t.word0 11 3

/-- Applies `f` to the thread with context number `cid` on tile `x`, resident or spilled. -/
def Tile.modCid (t : Tile) (cid : Nat) (f : Thread → Thread) : Tile :=
  { t with
    slots := t.slots.map fun q => match q.thr with
      | some th => if th.cid = cid then { q with thr := some (f th) } else q
      | none => q
    spills := t.spills.map fun e => if e.thr.cid = cid then { e with thr := f e.thr } else e }
/-- The slot of the resident thread with context number `cid`. -/
def Tile.slotOf (t : Tile) (cid : Nat) : Option Nat :=
  (List.range 8).find? fun q => match (t.slot q).thr with
    | some th => th.cid == cid
    | none => false
def Tile.spilled (t : Tile) (cid : Nat) : Option Spilled := t.spills.find? fun e => e.thr.cid == cid
def Tile.thread (t : Tile) (cid : Nat) : Option Thread :=
  match t.slotOf cid with
  | some q => (t.slot q).thr
  | none => (t.spilled cid).map Spilled.thr
def State.modCid (s : State) (x cid : Nat) (f : Thread → Thread) : State := s.modTile x fun t => t.modCid cid f
/-- Gives refill candidates their age: a spilled context that awaits nothing and is not Suspended (R375). -/
def Tile.ageSpills (t : Tile) : Tile :=
  let due := fun (e : Spilled) => e.ready.isNone && e.thr.wait == .none && !e.thr.susp
  if t.spills.any due then
    { t with spills := t.spills.map fun e => if due e then { e with ready := some t.age } else e }
  else t
/-- The awaited event of the thread with context number `cid` has arrived. -/
def State.wakeCid (s : State) (x cid : Nat) : State := s.modTile x fun t => (t.modCid cid Thread.wakeUp).ageSpills
/-- The register result of a long-latency operation of a thread, in the tile's own record of it; a blocking tuple operation also ends the thread's
wait (R282). -/
def State.landTile (s : State) (x cid op : Nat) (rd : Reg) (v : W64) : State :=
  s.modTile x fun t => (t.modCid cid fun th =>
    let th := th.land op rd v
    if th.wait = .tuple op then th.wakeUp else th).ageSpills

/-! Traps (R59, R97, R398 to R401). -/
/-- A failed check: its rank, the cause code and the value for `cr.tval`. -/
structure Trap where
  rank : Nat
  cause : Nat
  val : W64
  deriving DecidableEq, Repr
/-- Trap entry at bundle `pc` (R97, R399). -/
def Thread.trapEntry (t : Thread) (tvec : Nat) (tr : Trap) : Thread :=
  { t with tcause := BitVec.ofNat 4 tr.cause, tval := tr.val, tpc := BitVec.ofNat 48 t.pc, pmode := t.sys, sys := true, tact := true,
           pc := tvec, feTried := false }
/-- Return from a trap handler (R422). -/
def Thread.trapReturn (t : Thread) : Thread := { t with sys := t.pmode, tact := false, pc := t.tpc.toNat }
/-- A thread that is stopped leaves the rotation (R34, R401). -/
def Thread.stop (t : Thread) (now : Nat) : Thread := { t with susp := true, pin := true, outSince := now, mark := false }

/-! The bundle cache (R16). -/
/-- The bundle at a tile's address, if its line is cached under the tile's ASID. -/
def Tile.bundleAt (t : Tile) (pc : Nat) : Option W64 :=
  (t.icache.find? fun l => l.1 == t.asid && l.2.1 == pc / 64).map fun l => l.2.2.getD (pc / 8 % 8) 0

/-- `cr.ecost`: whole picojoules, rounded up, saturating (R416). -/
def ecostOf (cost : Nat) : BitVec 32 := BitVec.ofNat 32 (min ((cost + 1) / 2) 0xFFFFFFFF)
def State.setEcost (s : State) (x cid cost : Nat) : State := s.modCid x cid fun t => { t with ecost := ecostOf cost }

/-! Scratchpad (R134 to R140). -/
def bankOf (a : Nat) : Nat := a / 8192 % 128
/-- The region that has claimed a bank (R137, R209). -/
def Region.has (r : Region) (b : Nat) : Bool := r.st != .free && r.b0 ≤ b && b < r.b0 + r.kb * r.nb
def Tile.stat (t : Tile) (b : Nat) : Bool := (List.range 8).any fun i => (t.region i).has b
/-- The lowest address of [a, a + n) in a stationary bank. -/
def Tile.statIn (t : Tile) (a n : Nat) : Option Nat :=
  if n = 0 then none
  else (List.range ((a + n - 1) / 8192 - a / 8192 + 1)).findSome? fun i =>
    let b := a / 8192 + i
    if b < 128 && t.stat b then some (max a (b * 8192)) else none
/-- The address of the first uncorrectable word that [a, a + n) touches (R139). -/
def Tile.badIn (t : Tile) (a n : Nat) : Option Nat :=
  if n = 0 then none
  else (List.range ((a + n - 1) / 8 - a / 8 + 1)).findSome? fun i =>
    if t.bad.contains (a / 8 + i) then some ((a / 8 + i) * 8) else none
/-- Single-bit errors in the words of an access are corrected and counted (R138). -/
def State.scrub (s : State) (x a n : Nat) : State :=
  let t := s.tile x
  let hit := t.soft.filter fun w => a / 8 ≤ w && w * 8 < a + n
  if hit.isEmpty then s
  else
    let s := s.modTile x fun t => { t with soft := t.soft.filter fun w => !hit.contains w }
    s.modBelfry fun b => { b with spCorrected := b.spCorrected.put (dieOf x) (b.spCorrected.at 0 (dieOf x) + hit.length) }
/-- Lines of [a, a + n). -/
def linesOf (a n : Nat) : List Nat := if n = 0 then [] else (List.range ((a + n - 1) / 64 - a / 64 + 1)).map (a / 64 + ·)
/-- The start of a rollback with its cause: the thread issues nothing until it is done (R351, R354). -/
def Thread.rollback (t : Thread) (cause : Nat) : Thread :=
  match t.spec with
  | some sp => if t.speculative then { t with spec := some { sp with st := .rolling, cause := cause }, wait := .spec } else t
  | none => t
/-- A write to scratchpad lines by anyone but context `who` makes the threads that have read them roll back (R351, cause 1). -/
def Tile.conflict (t : Tile) (who : Option Nat) (ls : List Nat) : Tile :=
  { t with slots := t.slots.map fun q => match q.thr with
      | some th => match th.spec with
        | some sp => if th.speculative && some th.cid != who && ls.any sp.reads.contains then { q with thr := some (th.rollback 1) } else q
        | none => q
      | none => q }
def State.conflict (s : State) (x : Nat) (who : Option Nat) (a n : Nat) : State := s.modTile x fun t => t.conflict who (linesOf a n)
/-- Sets the full/empty bit of the word of `a` and returns its waiters to Running (R94, R149). -/
def Tile.setFull (t : Tile) (a : Nat) (f : Bool) : Tile :=
  let w := a / 8
  let t := { t with full := if f then (if t.full.contains w then t.full else w :: t.full) else t.full.filter (· != w) }
  let wk : Thread → Thread := fun th => if th.wait = .fe (w * 8) f then th.wakeUp else th
  let t : Tile := { t with slots := t.slots.map fun (q : Slot) => { q with thr := q.thr.map wk },
                           spills := t.spills.map fun (e : Spilled) => { e with thr := wk e.thr } }
  t.ageSpills
def Tile.isFull (t : Tile) (a : Nat) : Bool := t.full.contains (a / 8)
/-- A thread's store of `n` bytes, aligned: a whole word gets a fresh code, and is set empty if its code was bad (R139). -/
def State.store (s : State) (x : Nat) (who : Option Nat) (a n v : Nat) : State :=
  let s := s.modTile x fun t =>
    let wasBad := n == 8 && t.bad.contains (a / 8)
    let t := { t with sp := t.sp.writeN a n v, bad := if wasBad then t.bad.filter (· != a / 8) else t.bad }
    if wasBad then t.setFull a false else t
  (s.conflict x who a n).scrub x a n
/-- An engine's write of bytes: a word that is uncorrectable and written in part is left as it is, one written whole gets a fresh code
(R139). -/
def State.engineWrite (s : State) (x : Nat) (who : Option Nat) (a : Nat) (bs : List Byte) : State :=
  let n := bs.length
  let s := s.modTile x fun t =>
    let whole := fun w => a ≤ w * 8 && w * 8 + 8 ≤ a + n
    let sp := (List.range n).foldl (fun m i =>
      if t.bad.contains ((a + i) / 8) && !whole ((a + i) / 8) then m else m.write (a + i) (bs.getD i 0)) t.sp
    { t with sp := sp, bad := t.bad.filter fun w => !whole w }
  (s.conflict x who a n).scrub x a n
/-- Whether an engine write of [a, a + n) meets an uncorrectable word that it writes in part. -/
def Tile.partBad (t : Tile) (a n : Nat) : Bool :=
  t.bad.any fun w => a < w * 8 + 8 && w * 8 < a + n && !(a ≤ w * 8 && w * 8 + 8 ≤ a + n)
/-- `complete(cw, status)` with completion tag `ctag`, one event (R96). -/
def State.complete (s : State) (x : Nat) (who : Option Nat) (cw ctag status : Nat) : State :=
  let s := s.modTile x fun t => { t with sp := t.sp.writeN cw 8 (ctag * 65536 + status), bad := t.bad.filter (· != cw / 8) }
  let s := (s.conflict x who cw 8).scrub x cw 8
  s.modTile x fun t => t.setFull cw true
/-- The bytes of a speculative thread's own buffered store, if it has one (R157). -/
def Spec.byte (sp : Spec) (a : Nat) : Option Byte := (sp.buf.find? fun l => l.line == a / 64).bind fun l => l.bytes.find (a % 64)
/-- A thread's load of `n` bytes: from its own buffered stores first (R157). -/
def State.load (s : State) (x : Nat) (t : Thread) (a n : Nat) : Nat :=
  let m := (s.tile x).sp
  match t.spec with
  | none => m.readN a n
  | some sp => natOfBytes ((List.range n).map fun i => (sp.byte (a + i)).getD (m.read (a + i)))
/-- Read bits for the lines of [a, a + n) (R350). -/
def Thread.mark_read (t : Thread) (a n : Nat) : Thread :=
  match t.spec with
  | some sp => if sp.st = .active then { t with spec := some { sp with reads := (sp.reads ++ linesOf a n).eraseDups } } else t
  | none => t
/-- [a, a + n) lies inside a speculation area (R347). -/
def areaHas (area : W64) (a n : Nat) : Bool :=
  let base := bitsOf area 6 14 * 64
  let size := bitsOf area 26 14 * 64
  bitsOf area 40 1 == 1 && base ≤ a && a + n ≤ min (base + size) Config.spSize
/-- Merges a buffered store into the store buffer (R349). -/
def Spec.buffer (sp : Spec) (a : Nat) (bs : List Byte) : Spec :=
  { sp with buf := (List.range bs.length).foldl (fun buf i =>
      let l := (a + i) / 64
      if buf.any fun e => e.line == l then
        buf.map fun e => if e.line == l then { e with bytes := e.bytes.put ((a + i) % 64) (bs.getD i 0) } else e
      else buf ++ [⟨l, [((a + i) % 64, bs.getD i 0)]⟩]) sp.buf }
/-- Store-buffer entries in use: a deferred put takes two (R349, R362). -/
def Spec.used (sp : Spec) : Nat := sp.buf.length + 2 * sp.puts.length
/-- A thread's store in its issue cycle, buffered in a speculative window unless it lies in the speculation area (R157). -/
def State.threadStore (s : State) (a n v : Nat) : State :=
  let t := s.cthr
  match t.spec with
  | some sp =>
    if sp.st = .active && !areaHas sp.area a n then
      s.modCur fun t => { t with spec := t.spec.map fun sp => sp.buffer a (bytesOfNat n v) }
    else s.store s.tx (some t.cid) a n v
  | none => s.store s.tx (some t.cid) a n v
/-- The load's side effects: read bits and error correction. -/
def State.noteLoad (s : State) (a n : Nat) : State := (s.modCur fun t => t.mark_read a n).scrub s.tx a n

/-- A sampled V operation takes effect: what it sets, and its entry at the end of its window's queue (R164). -/
def State.vEnter (s : State) (x q : Nat) (v : VIssue) : State :=
  let w := ((s.thr x q).getD {}).win
  let s := match v.load with
    | some a => (s.modThr x q fun t => t.mark_read a 32).scrub x a 32
    | none => s
  let id := s.nextId
  let s := s.bump.modTile x fun l =>
    let u := l.win w
    l.setWin w { u with fds := v.fd.elim u.fds fun p => u.fds.setIfInBounds p.1 p.2, queue := u.queue ++ [{ v.entry with id := id }] }
  s.modThr x q fun t =>
    let t := v.reads.foldl (fun t a => t.mark_read a 1) (t.setWarn v.warn)
    let t := { t with vl := v.vl.getD t.vl, spec := t.spec.map fun (sp : Spec) => { sp with written := sp.written ++ v.written } }
    t.launch id v.gdst
/-- The V half that a speculative `READ.B` has kept back takes effect (R311). -/
def State.enterHeld (s : State) (x q : Nat) : State :=
  match (s.thr x q).bind Thread.vheld with
  | some (_, v) => (s.modThr x q fun th => { th with vheld := none }).vEnter x q v
  | none => s

/-- An event of a running package: nothing happens without power or in the fatal state (R451, R455). -/
def State.event (s : State) (f : State → State) : Host.Outcome State Fault Refusal :=
  .next (if s.service = .off ∨ s.service = .fatal then s else f s)

/-! The ready queue and the threads' ends (R33, R374, R376, R384, R388). -/
def pktLen (p : Packet) : Nat := bitsOf (p.headD 0) 0 6
def pktPrio (p : Packet) : Nat := bitsOf (p.headD 0) 6 2
def pktSucc (p : Packet) : Nat := bitsOf (p.headD 0) 8 3
def pktCompute (p : Packet) : Bool := bitsOf (p.headD 0) 14 1 == 1
/-- A well-formed first word (R366). -/
def pktOk (w : W64) : Bool :=
  let len := bitsOf w 0 6
  4 ≤ len && len ≤ 32 && bitsOf w 8 3 + 1 ≤ len && bitsOf w 11 3 ≤ 4 && bitsOf w 15 1 == 0
/-- The packet with another kind (R366). -/
def pktKind (p : Packet) (k : Nat) : Packet :=
  match p with
  | [] => []
  | w :: ws => BitVec.ofNat 64 (w.toNat - bitsOf w 11 3 * 2048 + k * 2048) :: ws
/-- A window is free: in service, no owner, nothing queued (R33, R376, R449). -/
def Tile.winFree (t : Tile) (w : Nat) : Bool :=
  let v := t.win w
  !v.dead && v.owner.isNone && v.queue.isEmpty && v.busy.isNone && !v.resetDue
def Tile.freeWin (t : Tile) : Option Nat := (List.range 4).find? t.winFree
def Tile.freeSlot (t : Tile) : Option Nat := (List.range 8).find? fun q => (t.slot q).thr.isNone
/-- A thread of the tile holds a window. -/
def Tile.hasCompute (t : Tile) : Bool := t.slots.toList.any fun q => match q.thr with
  | some th => th.compute
  | none => false
/-- A tile takes a microcode patch in the present cycle, the first without a compute thread; no window is bound in it (R444). -/
def State.swapping (s : State) (x : Nat) : Bool :=
  let t := s.tile x
  t.swapped || (t.patch != s.belfry.patchNo && !t.hasCompute)
/-- A live context number of the tile (R377). -/
def Tile.liveCid (t : Tile) (c : Nat) : Bool := (t.thread c).isSome
/-- The counter's next value, skipping live numbers (R377). -/
def Tile.nextCid (t : Tile) (c : Nat) : Nat → Nat
  | 0 => c
  | f + 1 => if t.liveCid c then Tile.nextCid t ((c + 1) % 65536) f else c
/-- Binds a packet to a slot at cycle `now` (R111, R163, R376, R377, R402). -/
def Tile.bind (t : Tile) (p : Packet) (q : Nat) (now : Nat) (wdog : BitVec 32) : Tile :=
  let w0 := p.headD 0
  let comp := pktCompute p
  let len := pktLen p
  let s := pktSucc p
  let words := (p.drop 1).take (len - 1 - s)
  let w := (t.freeWin).getD 0
  let cid := t.nextCid t.cidNext 300
  let g : Vector W64 32 := (List.range words.length).foldl (fun g i => g.setIfInBounds (i + 1) (words.getD i 0)) (Vector.replicate 32 0)
  let th : Thread := { g := g, pc := bitsOf w0 16 48, compute := comp, win := if comp then w else 0, cid := cid, word0 := w0,
                       prio := BitVec.ofNat 2 (pktPrio p), succ := (p.drop (len - s)).take s, readyAt := now + 8,
                       vl := if comp then Config.rows else 0, outSince := now }
  let t := if comp then
      let v := t.win w
      t.setWin w { v with owner := some cid, fds := Vector.replicate 32 {}, rows := (v.rows.map fun e => (e.1, e.2 &&& BitVec.ofNat 264 (2 ^ 256 - 1))).filter fun e => e.2 != 0, ckpt := none }
    else t
  let t := t.setSlot q { t.slot q with wdogLimit := wdog, wdogCount := 0, thr := some th }
  { t with cidNext := t.nextCid ((cid + 1) % 65536) 300 }
/-- Threads parked by `YIELD` return once the packet has bound elsewhere (R364). -/
def Tile.unyield (t : Tile) (seq : Nat) : Tile :=
  let f : Thread → Thread := fun th => if th.wait = .yielded seq then th.wakeUp else th
  let t : Tile := { t with slots := t.slots.map fun (q : Slot) => { q with thr := q.thr.map f },
                           spills := t.spills.map fun (e : Spilled) => { e with thr := f e.thr } }
  t.ageSpills
/-- Barrier registrations of a slot are cleared (R343). -/
def Tile.unregister (t : Tile) (q cid : Nat) : Tile :=
  let m : BitVec 8 := ~~~(1#8 <<< q)
  { t with bars := t.bars.map fun e => { e with reg := e.reg &&& m, arr := e.arr &&& m, sreg := e.sreg.filter (· != cid), sarr := e.sarr.filter (· != cid) } }
/-- Frees the slot of a thread and releases its window once its queue has run out (R384). Its operations run on; `cr.lend` stays. -/
def Tile.release (t : Tile) (q : Nat) : Tile :=
  match (t.slot q).thr with
  | none => t
  | some th =>
    let t := t.setSlot q { t.slot q with thr := none }
    if th.compute then t.setWin th.win { t.win th.win with owner := none, ckpt := none } else t
/-- Local instants at which a tile's arrival is due, entry by entry (R344): the entries whose arrival must be sent now. -/
def BarEntry.due (e : BarEntry) : Bool := e.used && !e.sent && e.pending.isEmpty && (e.reg &&& ~~~e.arr) == 0 && e.sreg.length == e.sarr.length
end Sys2Proof.Machine
end

