-- ==== Sys2Proof/Machine/Walk.lean ====
section
/-! DEFINITION. Tenant memory: DRAM windows, page walks, the region table, routing of keys, and the notices that agents put on their own
account (R245 to R248, R263, R410 to R415, R467). -/
namespace Sys2Proof.Machine

/-! DRAM. A physical address is stack × 48 GiB + the offset in the stack (R22). -/
/-- The physical address of the `n` bytes at tenant physical address `p`, inside one valid window of the tenant (R410). -/
def State.phys (s : State) (tenant p n : Nat) : Option Nat :=
  let w := recWord (s.tenantRec tenant) (8 + p / 2 ^ 44 % 16)
  let off := p % 2 ^ 44
  if p < 2 ^ 48 ∧ bitsOf w 63 1 = 1 ∧ off + n ≤ bitsOf w 20 20 * 65536 then
    some (bitsOf w 40 3 * Config.stackBytes + bitsOf w 0 20 * 65536 + off)
  else none
/-- A 64-byte line of DRAM holds an uncorrectable error (R268). -/
def State.badLine (s : State) (p n : Nat) : Bool := s.dramBad.any fun l => l * 64 < p + n && p < l * 64 + 64
/-- The stack of a physical address. -/
def stackOf (p : Nat) : Nat := p / Config.stackBytes
/-- A little-endian word of DRAM. -/
def State.dramWord (s : State) (p : Nat) : Nat := s.dram.readN p 8

/-! Walks (R412 to R414). -/
/-- What a walk answers: the physical address and how many bytes the page still holds from it on, a page fault, or a refusal. -/
inductive Xlate where
  | ok (phys left : Nat)
  | fault
  | refused
  deriving DecidableEq, Repr
/-- A leaf entry: ASID, first address and size of the page, physical base, permission bits as in R413. -/
abbrev Leaf := Nat × Nat × Nat × Nat × Nat
/-- Read, write and fetch permissions, as bit numbers of R413. -/
def pR : Nat := 1
def pW : Nat := 2
def pX : Nat := 3
/-- A table entry that a walker cache holds: ASID, level (0 the ASID table), the address bits that index it, the table it names. -/
abbrev TabEnt := Nat × Nat × Nat × Nat
/-- What a walk has found: its answer, the lines it read, the leaf entry, the table entries it read. -/
structure Walk where
  res : Xlate
  lines : Nat := 0
  leaf : Option Leaf := none
  tabs : List TabEnt := []
  deriving DecidableEq, Repr
/-- The walk with one line and one table entry read before it. -/
def Walk.after (w : Walk) (t : List TabEnt) : Walk := { w with lines := w.lines + 1, tabs := t ++ w.tabs }
/-- The address bits that index the tables down to level `lvl`. -/
def walkIndex (va lvl : Nat) : Nat := if lvl = 0 then 0 else va / 2 ^ (48 - 9 * lvl)
/-- The table that a cached entry names (R414). -/
def State.cachedTable (s : State) (asid lvl va : Nat) : Option Nat :=
  (s.tables.find? fun e => e.1 == asid && e.2.1 == lvl && e.2.2.1 == walkIndex va lvl).map fun e => e.2.2.2
/-- The walk below the ASID table from level `4 - f` on, the table at `tp` (R412 to R414). -/
def State.walkFrom (s : State) (tenant asid va : Nat) : Nat → Nat → Walk
  | 0, _ => { res := .refused }
  | f + 1, tp =>
    let lvl := 4 - f
    match if lvl = 4 then none else s.cachedTable asid lvl va with
    | some t => s.walkFrom tenant asid va f t
    | none =>
      let idx := if lvl = 4 then va / 65536 % 32 else walkIndex va lvl % 512
      match s.phys tenant (tp + 8 * idx) 8 with
      | none => { res := .refused }
      | some p =>
        let e := BitVec.ofNat 64 (s.dramWord p)
        let tpa := bitsOf e 8 40 * 256
        let refused : Walk := { res := .refused, lines := 1 }
        if s.badLine p 8 then refused
        else if bitsOf e 0 1 = 0 then { res := .fault, lines := 1 }
        else if bitsOf e 48 16 ≠ 0 ∨ bitsOf e 5 3 ≠ 0 then refused
        else if bitsOf e 4 1 = 1 then
          if lvl < 3 then refused
          else
            let size := if lvl = 3 then 2 ^ 21 else 65536
            if tpa % size ≠ 0 then refused
            else match s.phys tenant tpa size with
              | none => refused
              | some pp => { res := .ok (pp + va % size) (size - va % size), lines := 1, leaf := some (asid, va / size * size, size, pp, e.toNat % 16) }
        else if lvl = 4 ∨ (lvl < 3 ∧ tpa % 4096 ≠ 0) then refused
        else (s.walkFrom tenant asid va f tpa).after [(asid, lvl, walkIndex va lvl, tpa)]
/-- A whole walk (R412): an ASID of the tenant, its table entry, four levels. -/
def State.walk (s : State) (tenant asid va : Nat) : Walk :=
  let r := s.tenantRec tenant
  if !recHasAsid r asid || !recValid r then { res := .refused }
  else match s.cachedTable asid 0 va with
    | some t => s.walkFrom tenant asid va 4 t
    | none => match s.phys tenant (recAtab r + 8 * (asid - recAfirst r)) 8 with
      | none => { res := .refused }
      | some p =>
        let e := BitVec.ofNat 64 (s.dramWord p)
        if s.badLine p 8 ∨ bitsOf e 0 1 = 0 ∨ bitsOf e 48 16 ≠ 0 ∨ bitsOf e 1 11 ≠ 0 then { res := .refused, lines := 1 }
        else (s.walkFrom tenant asid va 4 (bitsOf e 12 36 * 4096)).after [(asid, 0, 0, bitsOf e 12 36 * 4096)]
/-- The cached leaf entry of an address (log 14). -/
def State.cached (s : State) (asid va : Nat) : Option Leaf := s.tlb.find? fun e => e.1 == asid && e.2.1 ≤ va && va < e.2.1 + e.2.2.1
/-- Translates `va` under `asid` with permission `perm`, on behalf of an agent whose energy is debited on die `d` (R414, R417). -/
def State.xlate (s : State) (d tenant asid va perm : Nat) : Xlate × State :=
  if va ≥ 2 ^ 48 then (.refused, s)
  else match s.cached asid va with
    | some (_, b, size, pp, perms) => (if perms / 2 ^ perm % 2 = 1 then .ok (pp + (va - b)) (size - (va - b)) else .refused, s)
    | none =>
      let w := s.walk tenant asid va
      let s := if w.lines = 0 then s else s.debit d (2000 * w.lines)
      let s := { s with tables := w.tabs ++ s.tables }
      match w.leaf with
      | none => (w.res, s)
      | some e => (if e.2.2.2.2 / 2 ^ perm % 2 = 1 then w.res else .refused, { s with tlb := e :: s.tlb })
/-- Reads `n` bytes at a virtual address, page by page; none where a translation does not succeed or a line is bad. -/
def State.readVa (s : State) (d tenant asid va n : Nat) : Nat → Option (List Byte) × State
  | 0 => (none, s)
  | f + 1 =>
    if n = 0 then (some [], s)
    else match s.xlate d tenant asid va pR with
      | (.ok p left, s) =>
        let k := min n left
        if s.badLine p k then (none, s)
        else match s.readVa d tenant asid (va + k) (n - k) f with
          | (some bs, s) => (some (s.dram.bytes p k ++ bs), s)
          | (none, s) => (none, s)
      | (_, s) => (none, s)
def State.writeDram (s : State) (p : Nat) (bs : List Byte) : State := { s with dram := s.dram.putBytes p bs }

/-! The region table (R263, R415). -/
/-- The two words of region `r`; none where the table lies outside the tenant's windows. -/
def State.regionWords (s : State) (tenant r : Nat) : Option (Nat × W64 × W64) :=
  (s.phys tenant (recRtab (s.tenantRec tenant) + 16 * r) 16).map fun p => (p, BitVec.ofNat 64 (s.dramWord p), BitVec.ofNat 64 (s.dramWord (p + 8)))
def rgBase (w0 : W64) : Nat := bitsOf w0 16 32 * 65536
def rgSize (w1 : W64) : Nat := bitsOf w1 0 32 * 65536
def rgState (w1 : W64) : Nat := bitsOf w1 32 2
def rgIssued (w1 : W64) : Nat := bitsOf w1 34 1
def rgGen (w1 : W64) : Nat := bitsOf w1 42 22
/-- Some frozen region of the tenant holds [va, va + n) (R17). Only entries with a listed byte can be frozen. -/
def State.inFrozen (s : State) (tenant va n : Nat) : Bool :=
  match s.phys tenant (recRtab (s.tenantRec tenant)) 16 with
  | none => false
  | some p0 =>
    (s.dram.filter fun c => p0 ≤ c.1 && c.1 < p0 + 65536 * 16).any fun c =>
      match s.regionWords tenant ((c.1 - p0) / 16) with
      | some (_, w0, w1) => rgState w1 == 2 && rgBase w0 ≤ va && va + n ≤ rgBase w0 + rgSize w1
      | none => false

/-! Routing (R245 to R248). -/
/-- CRC-32C of a byte string (R247). -/
def crc32c (bs : List Byte) : Nat :=
  let byte : Nat → Byte → Nat := fun c b => (List.range 8).foldl (fun c _ => if c % 2 = 1 then c / 2 ^^^ 0x82F63B78 else c / 2) (c ^^^ b.toNat)
  bs.foldl byte 0xFFFFFFFF ^^^ 0xFFFFFFFF
/-- The routing value of a key in a space with routing-field mask `rf` (R247). -/
def routingValue (k : Key) (rf : Nat) : Nat :=
  crc32c (bytesOfNat 2 (keySpace k) ++ (if rf % 2 = 1 then bytesOfNat 2 (keyField k 0 / 65536) else []) ++
    ((List.range 7).flatMap fun i => if rf / 2 ^ (i + 1) % 2 = 1 then bytesOfNat 4 (keyField k (i + 1)) else []))
/-- A well-formed range table (R246). -/
def tableOk (t : List (Nat × BitVec 32)) : Bool :=
  match t with
  | [] => false
  | e :: _ => e.1 == 0 && (t.zip (t.drop 1)).all fun p => p.1.1 < p.2.1
/-- The home name of the entry that covers a routing value. -/
def coverOf (t : List (Nat × BitVec 32)) (v : Nat) : Option (BitVec 32) := ((t.filter fun e => e.1 ≤ v).getLast?).map Prod.snd
/-- The care mask fixes the space and every bit of each routing field (R248). -/
def careRoutes (care : Key) (rf : Nat) : Bool :=
  keySpace care == 0xFFFF && (rf % 2 == 0 || keyField care 0 / 65536 == 0xFFFF) &&
    (List.range 7).all fun i => rf / 2 ^ (i + 1) % 2 == 0 || keyField care (i + 1) == 0xFFFFFFFF
/-- Fetches a space's descriptor and range table through the tenant's translation (R248, R268). -/
def State.fetchRoute (s : State) (d tenant asid space : Nat) : Route × State :=
  let bad : Route := ⟨tenant, space, false, 0, []⟩
  match s.readVa d tenant asid (recRoute (s.tenantRec tenant) + 16 * space) 16 2 with
  | (none, s) => (bad, s)
  | (some bs, s) =>
    let w0 := BitVec.ofNat 64 (natOfBytes (bs.take 8))
    let w1 := BitVec.ofNat 64 (natOfBytes (bs.drop 8))
    let n := bitsOf w0 40 6 + 1
    if bitsOf w0 47 1 = 0 ∨ bitsOf w0 48 16 ≠ 0 ∨ bitsOf w0 46 1 ≠ 0 ∨ bitsOf w0 16 24 ≠ 0 ∨ bitsOf w0 0 8 ≠ 0
        ∨ bitsOf w1 48 16 ≠ 0 ∨ bitsOf w1 0 6 ≠ 0 then (bad, s)
    else match s.readVa d tenant asid (bitsOf w1 6 42 * 64) (8 * n) 3 with
      | (none, s) => (bad, s)
      | (some ts, s) =>
        let t := (List.range n).map fun i => (natOfBytes ((ts.drop (8 * i)).take 4), BitVec.ofNat 32 (natOfBytes ((ts.drop (8 * i + 4)).take 4)))
        (⟨tenant, space, tableOk t, bitsOf w0 8 8, t⟩, s)
/-- The home that a cached route gives a key (R247); none is MISROUTE. -/
def Route.homeOf (r : Route) (k care : Key) : Option (BitVec 32) :=
  if r.ok && careRoutes care r.rfmask then coverOf r.table (routingValue k r.rfmask) else none
/-- In reduced service every request of a tenant goes to its bring-up home (R450). -/
def State.reducedHome (s : State) (tenant : Nat) : Option (BitVec 32) := if s.service = .full then none else some (s.homeName (tenant % 32))

/-! Peer contexts as routes to other packages (R313). -/
/-- A context of the tenant to a package on a given port: the one of lowest number (R411). -/
def State.contextOn (s : State) (tenant pkg port : Nat) : Option Nat :=
  (s.peers.find? fun e => peerValid e.2 && peerPkg e.2 == pkg && peerTenant e.2 == tenant && peerPort e.2 == port).map Prod.fst
/-- The context that the interface of die `d` uses toward home number `home` of a package: on port 2d + bit 0 of the number, else on the
other port of the die (R313). -/
def State.contextTo (s : State) (d tenant pkg home : Nat) : Option Nat :=
  match s.contextOn tenant pkg (2 * d + home % 2) with
  | some c => some c
  | none => s.contextOn tenant pkg (2 * d + (home + 1) % 2)
/-- The agent that a home name leads to from die `d`: a home of this package, or a peer context; none has no route. -/
def State.homeAgent (s : State) (d tenant : Nat) (name : Nat) : Option Agent :=
  if !homeNameOk name then none
  else if s.isLocal name then some (.home (name % 32))
  else (s.contextTo d tenant (name / 65536 % 65536) (name % 32)).map fun c => .peer c (name % 32)

/-! Notices (R467) and other puts that an agent makes on its own account. -/
/-- The agent's records of its own operations; agents other than tiles and homes keep none and learn nothing from a reply. -/
def State.addAux (s : State) (who : Agent) (op : Nat) (a : Aux) : State :=
  match who with
  | .tile x => s.modTile x fun t => { t with aux := t.aux.put op a }
  | .home h => s.modHome h fun v => { v with aux := v.aux.put op a }
  | .launch d => s.modDie d fun v => { v with launch := { v.launch with notices := op :: v.launch.notices } }
  | _ => s
def State.dropNotice (s : State) : State := s.modBelfry fun b => { b with notices := b.notices + 1 }
/-- The home agent for a key, found without a cached route by an agent that acts on its own account on die `d` (R247, R450). -/
def State.routeKey (s : State) (d tenant asid : Nat) (k care : Key) : Option Agent × State :=
  match s.reducedHome tenant with
  | some n => (if keySpace care = 0xFFFF then s.homeAgent d tenant n.toNat else none, s)
  | none =>
    let (r, s) := s.fetchRoute d tenant asid (keySpace k)
    ((r.homeOf k care).bind fun n => s.homeAgent d tenant n.toNat, s)
/-- Puts a tuple of the tenant from an agent's own account: routed like any put, under `asid`. The second answer says whether it could
be sent. -/
def State.ownPut (s : State) (who : Agent) (tenant asid : Nat) (t : Tuple) (a : Aux) : State × Bool :=
  match s.routeKey (agentDie who) tenant asid t.key (BitVec.allOnes 256) with
  | (none, s) => (s, false)
  | (some dst, s) =>
    let op := s.nextId
    (((s.bump.addAux who op a).send who dst tenant asid (.put op t)), true)
/-- The agent that puts the notice of an event at `who`: for what came over a peer context the launch unit of the port's die, in whose name the port
puts it (log 40). -/
def State.noticeAgent (s : State) (who : Agent) : Agent :=
  match who with
  | .peer c _ => .launch (peerPort (s.peer c) / 2)
  | a => a
/-- Puts a notice into the tenant's error space; one that cannot be sent is dropped and counted (R467). -/
def State.notice (s : State) (who : Agent) (tenant : Nat) (key : Key) (bytes : List Byte) : State :=
  let (s, sent) := s.ownPut (s.noticeAgent who) tenant (s.afirst tenant) ⟨key, .inline bytes, 0, 0⟩ .notice
  if sent then s else s.dropNotice

/-! Trap entry, thread faults and stops (R97, R399 to R401). -/
/-- Stops the current thread by R401 at resume address `pc`, with the notice's `k3` and `k4`. -/
def State.stopThread (s : State) (pc k3 k4 : Nat) : State :=
  let t := s.cthr
  let x := s.tx
  let a := t.pc
  let s := s.modCur fun t => { (t.stop (s.cycleOf x)) with pc := pc }
  let key := keyOf [0x5FFFE, (s.tileName x).toNat, t.cid, k3, k4, a % 2 ^ 32, a / 2 ^ 32 % 2 ^ 16, 0]
  match (s.tile x).tenant with
  | none => s
  | some tn => (s.notice (.tile x) tn key []).raiseError tn
/-- A trap cause met by the current thread: rollback while it is speculative (R353), a thread fault while a handler is active (R400),
otherwise trap entry (R97). -/
def State.takeTrap (s : State) (tr : Trap) : State :=
  let t := s.cthr
  if t.speculative then s.modCur fun t => t.rollback 5
  else if t.tact then s.stopThread t.pc 1 tr.cause
  else s.modCur fun t => t.trapEntry (s.tile s.tx).tvec tr

/-- Sends the tile's arrivals that are due (R344), each to the home that its handle names. -/
def State.arrivals (s : State) (x : Nat) : State :=
  (List.range 16).foldl (fun s e =>
    let t := s.tile x
    let b := t.bar e
    if b.due then
      let s := s.modTile x fun t => t.setBar e { b with sent := true }
      match s.homeAgent (dieOf x) (s.tenantOf x) (bitsOf b.handle 32 32) with
      | some dst => s.send (.tile x) dst (s.tenantOf x) t.asid (.ctrAdd b.handle 1 (.one (.tile x) 0 1 false))
      | none => s
    else s) s

end Sys2Proof.Machine
end

