-- ==== Sys2Proof/Machine/Image.lean ====
section
/-! DEFINITION. The spill area and the context images in it (13_system.md R404 to R408), and the register result of an operation, which for a spilled
context goes into its image. -/
namespace Sys2Proof.Machine

/-- The address of a tile's place in the spill area, of a control place and of a compute place (R408). -/
def spillBase (base x : Nat) : Nat := base + x * 2359296
def controlPlace (base x j : Nat) : Nat := spillBase base x + 512 * j
def computePlace (base x j : Nat) : Nat := spillBase base x + 131072 + 139264 * j
/-- Length of a control image (R406) and of a compute part (R407). -/
def controlSize (t : Thread) : Nat := 320 + 8 * t.succ.length
def computeSize : Nat := 0x600 + 33 * 4096
/-- The spill base of a tile's tenant (R409). -/
def State.spillAt (s : State) (x : Nat) : Nat := recSpill (s.tenantRec (s.tenantOf x))
/-- The physical pieces of the range [va, va + n) of the spill area under the tenant's first ASID; the first address that fails. -/
def State.spillPieces (s : State) (x va n perm : Nat) : Nat → Except (Nat × Bool) (List (Nat × Nat)) × State
  | 0 => (.ok [], s)
  | f + 1 =>
    if n = 0 then (.ok [], s)
    else
      let tn := s.tenantOf x
      match s.xlate (dieOf x) tn (s.afirst tn) va perm with
      | (.ok p left, s) =>
        let k := min n left
        if perm = pR && s.badLine p k then (.error (va, false), s)
        else match s.spillPieces x (va + k) (n - k) perm f with
          | (.ok l, s) => (.ok ((p, k) :: l), s)
          | (.error e, s) => (.error e, s)
      | (.fault, s) => (.error (va, true), s)
      | (.refused, s) => (.error (va, false), s)
/-- The image's two ranges in the spill area. -/
def State.imagePieces (s : State) (x : Nat) (t : Thread) (place cplace perm : Nat) : Except (Nat × Bool) (List (Nat × Nat) × List (Nat × Nat)) × State :=
  let base := s.spillAt x
  match s.spillPieces x (controlPlace base x place) (controlSize t) perm 3 with
  | (.error e, s) => (.error e, s)
  | (.ok l, s) =>
    if !t.compute then (.ok (l, []), s)
    else match s.spillPieces x (computePlace base x cplace) computeSize perm 5 with
      | (.error e, s) => (.error e, s)
      | (.ok m, s) => (.ok (l, m), s)
/-- Lines of DRAM that [va, va + n) touches. -/
def linesTouched (va n : Nat) : Nat := if n = 0 then 0 else (va + n - 1) / 64 - va / 64 + 1
/-- Half picojoules of the lines of an image (R417). -/
def State.imageCost (s : State) (x : Nat) (t : Thread) (place cplace : Nat) : Nat :=
  let base := s.spillAt x
  2000 * (linesTouched (controlPlace base x place) (controlSize t) + if t.compute then linesTouched (computePlace base x cplace) computeSize else 0)
/-- Writes bytes over physical pieces. -/
def State.writePhys (s : State) (l : List (Nat × Nat)) (bs : List Byte) : State :=
  (l.foldl (fun (a : State × List Byte) p => (a.1.writeDram p.1 (a.2.take p.2), a.2.drop p.2)) (s, bs)).1
/-- The bytes of physical pieces. -/
def State.readPhys (s : State) (l : List (Nat × Nat)) : List Byte := l.flatMap fun p => s.dram.bytes p.1 p.2

/-! The control part (R406). -/
/-- The pending mask: bit n for `g`n. -/
def Thread.pendMask (t : Thread) : W64 := t.pend.foldl (fun m e => m ||| (1#64 <<< e.1.toNat)) 0
/-- Packs fields given as (value, width), the lowest first, into one word. -/
def packWord (fs : List (Nat × Nat)) : W64 :=
  BitVec.ofNat 64 (fs.foldr (fun f acc => f.1 % 2 ^ f.2 + acc * 2 ^ f.2) 0)
def barMask (l : List Nat) : Nat := (l.eraseDups.map (2 ^ ·)).sum
/-- The word of an image with the predicates, the counts and the pending bits. -/
def Thread.countWord (t : Thread) : W64 :=
  packWord [(0, 1), (t.p.toNat / 2, 7), (t.cmt, 8), (t.rbk, 8), (t.outs.length, 8), (0, 1), (t.pendMask.toNat / 2, 31)]
/-- The control part of a context image, from the thread and the barrier entries on which it is registered and has arrived. -/
def controlImage (t : Thread) (breg barr : List Nat) : List W64 :=
  let b := fun (v : Bool) => (v.toNat, 1)
  [packWord [(0, 8), (barMask breg, 16), (t.specEntry.toNat, 4), (t.specNo, 3), b t.pwdg.isSome, b t.ptim.isSome, b t.evt, b t.wake, b t.pmode, b t.tact,
    b t.sys, b t.pin, (t.prio.toNat, 2), b t.compute, (t.succ.length, 3), (t.kind, 3), (t.cid, 16)]] ++
  ((List.range 31).map fun i => t.g[i + 1]?.getD 0) ++
  [t.countWord,
    packWord [(t.pc, 48), (barMask barr, 16)], t.workid, t.tval,
    packWord [(t.tpc.toNat, 48), (t.tcause.toNat, 4), (t.round.toNat, 2), (t.fflags.toNat, 5), (0, 5)],
    packWord [(t.touched.toNat, 33), (t.warn.toNat, 9), (t.sparse.toNat, 2), (t.fmtA.toNat, 5), (t.fmtW.toNat, 5), (0, 10)],
    packWord [(t.scaleA.toNat, 21), (t.scaleW.toNat, 21), (t.feCount, 16), (0, 6)],
    packWord [(t.specarea.toNat, 41), (t.feLimit, 16), (0, 7)]] ++ t.succ
/-- A spilled context as its image in the spill area gives it. The image has no field for the awaited event, the packet's first word, the owners of pending
bits and the outstanding operations themselves: those are the spill table's, with an event recorded there meanwhile (R404, R405; log 33). -/
def Thread.fromImage (t : Thread) (ws : List W64) : Thread :=
  let w := fun (i : Nat) => ws.getD i 0
  { t with
    g := Vector.ofFn fun (i : Fin 32) => if i.val = 0 then 0 else w i.val
    specEntry := (w 0).extractLsb' 24 4, evt := (w 0).getLsbD 33 || t.evt, wake := (w 0).getLsbD 34, pin := (w 0).getLsbD 38, pmode := (w 0).getLsbD 35, tact := (w 0).getLsbD 36, sys := (w 0).getLsbD 37, prio := (w 0).extractLsb' 39 2
    pwdg := if (w 0).getLsbD 31 then t.pwdg else none, ptim := if (w 0).getLsbD 32 then t.ptim else none
    p := BitVec.ofNat 8 (bitsOf (w 32) 1 7 * 2), cmt := bitsOf (w 32) 8 8, rbk := bitsOf (w 32) 16 8, outs := t.outs.take (bitsOf (w 32) 24 8)
    pend := t.pend.filter fun e => (w 32).getLsbD (32 + e.1.toNat)
    pc := bitsOf (w 33) 0 48, workid := w 34, tval := w 35
    tpc := (w 36).extractLsb' 0 48, tcause := (w 36).extractLsb' 48 4, round := (w 36).extractLsb' 52 2, fflags := (w 36).extractLsb' 54 5
    touched := (w 37).extractLsb' 0 33, warn := (w 37).extractLsb' 33 9, sparse := (w 37).extractLsb' 42 2, fmtA := (w 37).extractLsb' 44 5, fmtW := (w 37).extractLsb' 49 5
    scaleA := (w 38).extractLsb' 0 21, scaleW := (w 38).extractLsb' 21 21, feCount := bitsOf (w 38) 42 16
    specarea := (w 39).extractLsb' 0 41, feLimit := bitsOf (w 39) 41 16
    succ := (List.range t.succ.length).map fun i => w (40 + i) }

/-! Register results (R56, R282, R404). -/
/-- Writes a word of the image of a spilled context; where its page cannot be written the image keeps what it has (log 33). -/
def State.writeImage (s : State) (x place off : Nat) (v : W64) : State :=
  match s.spillPieces x (controlPlace (s.spillAt x) x place + off) 8 pW 2 with
  | (.ok l, s) => (s.debit (dieOf x) 2000).writePhys l (bytesOfNat 8 v.toNat)
  | (.error _, s) => s
/-- The images of a tile's spilled contexts as they ought to stand: context number, place, control part. -/
def Tile.images (t : Tile) : List (Nat × Nat × List W64) :=
  t.spills.map fun e =>
    let on := fun (f : BarEntry → List Nat) => (List.range 16).filter fun b => (f (t.bar b)).contains e.thr.cid
    (e.thr.cid, e.place, controlImage e.thr (on BarEntry.sreg) (on BarEntry.sarr))
/-- What `f` changes in the fields of a spilled context the spill engine writes into its image, word by word (R404); `f` keeps the spill table's order. -/
def State.imaged (s : State) (x : Nat) (f : State → State) : State :=
  let old := (s.tile x).images
  let s := f s
  ((s.tile x).images.zip old).foldl (fun s e =>
    if e.1 = e.2 then s
    else (List.range e.1.2.2.length).foldl (fun s i =>
      let v := e.1.2.2.getD i 0
      if e.2.2.2.getD i 0 = v then s else s.writeImage x e.1.2.1 (8 * i) v) s) s
/-- The register result of a long-latency operation. For a spilled context the spill engine writes it into the image, clears the pending bit and lowers
the counter there (R404). -/
def State.land (s : State) (x cid op : Nat) (rd : Reg) (v : W64) : State := s.imaged x fun s => s.landTile x cid op rd v

end Sys2Proof.Machine
end

