-- ==== Sys2Proof/Machine/Operands.lean ====
section
/-! DEFINITION. Operand forms of the S operations (R49, R112, R145 to R147), and the issue checks of a scratchpad access (R144). -/
namespace Sys2Proof.Machine

/-- The second operand of an SL twin whose `imm32` is sign-extended, and of one marked Z in R60. -/
def immS (imm : BitVec 32) : W64 := imm.signExtend 64
def immZ (imm : BitVec 32) : W64 := imm.zeroExtend 64
/-- Base plus scaled displacement, modulo 2^64 (R145, R147). -/
def dispAddr (base : W64) (imm : BitVec 9) (n : Nat) : Nat := (base + imm.signExtend 64 * BitVec.ofNat 64 n).toNat
/-- Base plus index, scaled by 2^k where asked (R146). -/
def indexAddr (base idx : W64) (k : Nat) (scaled : Bool) : Nat := (base + (if scaled then idx <<< k else idx)).toNat
/-- Sign extension of the low `n` bits (R94). -/
def sext (n : Nat) (v : W64) : W64 := sextN n v.toNat
/-- Zero extension of the low `n` bits (R94). -/
def zext (n : Nat) (v : W64) : W64 := zextN n v.toNat
/-- The format code that `fn` or `cfmt` selects (R125). -/
def fmtNo : FFmt → Nat
  | .fp32 => 8
  | .fp16 => 9
  | .bf16 => 10

/-- The failing checks of a naturally aligned access of `n` bytes at `a` (R144): `ecc` says that an uncorrectable word traps (R139). -/
def Tile.access (t : Tile) (a n : Nat) (ecc : Bool) : List Trap :=
  let v := BitVec.ofNat 64 a
  (if a % n = 0 then [] else [⟨5, cALIGN, v⟩]) ++
  (if a < Config.spSize then
    (if t.stat (bankOf a) then [⟨7, cSTAT, v⟩] else []) ++
    (if ecc && t.bad.contains (a / 8) then [⟨10, cPARITY, BitVec.ofNat 64 (a / 8 * 8)⟩] else [])
  else [⟨6, cBOUNDS, v⟩])
/-- The failing checks of `n` bytes at `a` with a required alignment (R100, R284): the first address at fault is reported. -/
def Tile.span (t : Tile) (a n align : Nat) (ecc : Bool) : List Trap :=
  (if a % align = 0 then [] else [⟨5, cALIGN, BitVec.ofNat 64 a⟩]) ++
  (if n ≠ 0 ∧ a + n > Config.spSize then [⟨6, cBOUNDS, BitVec.ofNat 64 (max a Config.spSize)⟩]
  else
    (match t.statIn a n with
      | some b => [⟨7, cSTAT, BitVec.ofNat 64 b⟩]
      | none => []) ++
    (if ecc then match t.badIn a n with
      | some b => [⟨10, cPARITY, BitVec.ofNat 64 b⟩]
      | none => []
    else []))

end Sys2Proof.Machine
end

