-- ==== Sys2Proof/Machine/Issue.lean ====
section
/-! DEFINITION. The issue of a bundle (R46 to R59, R104, R148, R157, R349, R352, R353): what each half reads, names, checks and does, and
the one operation that runs the checks in rank order and then both halves. -/
namespace Sys2Proof.Machine

/-- What a half does in a speculative window (R352): it acts, it ends speculation, or it pauses for want of store-buffer entries. -/
inductive SpecAct where
  | go | ends | pause
  deriving DecidableEq, Repr

/-- One half of a bundle: source and destination `g` registers, whether it is privileged, long-latency, in need of a request-queue place or of a
window, its failing checks beyond HAZARD, its answer in a speculative window, the full/empty word whose state makes it fail (R148), the word on whose
state its answer in a speculative window rests (R157), the code with which it stops its thread (R428), the scratchpad ranges that it accesses in its
issue cycle (R355), what a V half samples at issue, whether an S half holds the V half back until its own operation has ended (R311), and its effect.
The effect reads the state before the bundle (first argument) and changes the second (R55). -/
structure Half where
  srcs : List Reg := []
  dsts : List Reg := []
  priv : State → Bool := fun _ => false
  long : State → Bool := fun _ => false
  queue : Bool := false
  vec : Bool := false
  checks : State → List Trap := fun _ => []
  spec : State → SpecAct := fun _ => .go
  gate : State → Option (Nat × Bool) := fun _ => none
  probes : State → Option Nat := fun _ => none
  stops : State → Option Nat := fun _ => none
  touches : State → List (Nat × Nat) := fun _ => []
  sample : State → Option VIssue := fun _ => none
  holds : State → Bool := fun _ => false
  eff : State → State → State := fun _ s => s

/-- The half that carries `NOP`, `VNOP`, or a guarded-off operation (R45, R57). -/
def Half.none : Half := {}
/-- A half that writes one register with a function of the thread as it stood before the bundle. -/
def Half.alu (rd : Reg) (srcs : List Reg) (f : Thread → W64) : Half :=
  { srcs := srcs, dsts := [rd], eff := fun pre s => s.modCur fun t => t.wr rd (f pre.cthr) }
/-- A half that changes only its own thread. -/
def Half.own (srcs dsts : List Reg) (f : Thread → Thread → Thread) : Half :=
  { srcs := srcs, dsts := dsts, eff := fun pre s => s.modCur (f pre.cthr) }

/-- The trap of lowest rank, the earliest in the list among equals (R59). -/
def firstTrap (l : List Trap) : Option Trap :=
  l.foldl (fun best tr => match best with
    | none => some tr
    | some b => if tr.rank < b.rank then some tr else some b) none
/-- HAZARD for the first pending register of a list (R56). -/
def Thread.hazards (t : Thread) (rs : List Reg) : List Trap :=
  match rs.find? t.pending with
  | some r => [⟨4, cHAZARD, r.zeroExtend 64⟩]
  | none => []
/-- HAZARD for a register that both halves name as destination, `g0` included (R58). -/
def sameDst (a b : List Reg) : List Trap :=
  match a.find? b.contains with
  | some r => [⟨4, cHAZARD, r.zeroExtend 64⟩]
  | none => []
/-- Every failing check of a bundle whose bits are `w`, the S half's first. A half that needs a window is ILLOP in a control thread whatever the
guard (R57, R59, R234). -/
def bundleTraps (w : W64) (guard : Bool) (hs hv : Half) (s : State) : List Trap :=
  let t := s.cthr
  (if (hs.vec || hv.vec) && !t.compute then [⟨2, cILLOP, w⟩] else []) ++
  (if guard then
    (if hs.priv s && !t.sys then [⟨3, cPRIV, w⟩] else []) ++ t.hazards (hs.srcs ++ hs.dsts) ++ sameDst hs.dsts hv.dsts ++ hs.checks s
  else []) ++ t.hazards (hv.srcs ++ hv.dsts) ++ hv.checks s

/-- Counts an issue: performance counters 0 and 1 (R426), and the slot watchdog (R402). -/
def State.countWdog (s : State) : State :=
  s.setSlot s.tx s.sx { s.slot s.tx s.sx with wdogCount := (s.slot s.tx s.sx).wdogCount + 1 }
def State.countIssue (s : State) (lent : Bool) : State :=
  (s.modCur fun t => if lent then { t with issLent := t.issLent + 1 } else { t with issOwn := t.issOwn + 1 }).countWdog
/-- A progress point restarts the slot watchdog (R378, R402). -/
def State.progress (s : State) : State := s.setSlot s.tx s.sx { s.slot s.tx s.sx with wdogCount := 0 }
/-- Parks the current thread (R34). -/
def State.park (s : State) (w : Wait) : State := s.modCur fun t => { t with wait := w, outSince := s.cycleOf s.tx }
/-- Takes a pending WATCHDOG or TIMER cause, watchdog first (R59 rank 1, R392, R402). -/
def State.takePending (s : State) : State :=
  let t := s.cthr
  if t.tact then s
  else if t.speculative then (if t.pwdg.isSome || t.ptim.isSome then s.modCur fun t => t.rollback 5 else s)
  else match t.pwdg with
    | some v => (s.countWdog.modCur fun t => { t with pwdg := none }).takeTrap ⟨1, cWATCHDOG, v⟩
    | none => match t.ptim with
      | some v => (s.countWdog.modCur fun t => { t with ptim := none }).takeTrap ⟨1, cTIMER, v⟩
      | none => s
/-- The bundle does not issue because speculation ends or pauses at it (R157, R349). -/
def State.parkSpec (s : State) (st : SpecState) : State :=
  (s.modCur fun t => { t with spec := t.spec.map fun sp => { sp with st := st } }).park .spec
/-- A full/empty operation fails its condition at word `a`: it parks, or takes FERETRY; its word's code has been checked (R138, R148 to
R150, R400). -/
def State.feFail (s : State) (a : Nat) (full : Bool) : State :=
  let t := s.cthr
  let s := s.scrub s.tx a 8
  if t.feTried then
    let c := min (t.feCount + 1) 0xFFFF
    if t.feLimit ≠ 0 ∧ c = t.feLimit then
      (s.modCur fun t => { t with feCount := 0, feTried := false }).takeTrap ⟨0, cFERETRY, BitVec.ofNat 64 a⟩
    else ((s.modCur fun t => { t with feCount := c }).park (.fe a full)).progress
  else ((s.modCur fun t => { t with feTried := true }).park (.fe a full)).progress

/-- New store-buffer entries that a store of `n` bytes at `a` needs (R157, R349). -/
def Spec.need (sp : Spec) (a n : Nat) : Nat :=
  ((linesOf a n).filter fun l => !(sp.buf.any fun e => e.line == l) && !areaHas sp.area (l * 64) 64).length
/-- A store acts in a speculative window while the buffer has room for it (R349). -/
def storeAct (a n : Nat) (s : State) : SpecAct :=
  match s.cthr.spec with
  | some sp => if sp.used + sp.need a n ≤ 64 then .go else .pause
  | none => .go
/-- Stores of bytes by the current thread, line by line: into the buffer in a speculative window, unless the line lies in the
speculation area (R157). -/
def State.threadBytes (s : State) (a : Nat) (bs : List Byte) : State :=
  let t := s.cthr
  match t.spec with
  | some sp =>
    if sp.st = .active then
      (linesOf a bs.length).foldl (fun s l =>
        let lo := max a (l * 64)
        let hi := min (a + bs.length) (l * 64 + 64)
        let part := (bs.drop (lo - a)).take (hi - lo)
        if areaHas sp.area (l * 64) 64 then s.engineWrite s.tx (some t.cid) lo part
        else s.modCur fun t => { t with spec := t.spec.map fun sp => sp.buffer lo part }) s
    else s.engineWrite s.tx (some t.cid) a bs
  | none => s.engineWrite s.tx (some t.cid) a bs

/-- An operation that ends speculation on what it has read of a word has checked that word's code all the same (R138, R157). -/
def State.attempted (s : State) (h : Half) : State := match h.probes s with
  | some a => s.scrub s.tx a 8
  | none => s
/-- The V half of a bundle waits for the S half's operation, which takes the next number (R311). -/
def State.holdV (s : State) (v : VIssue) : State := s.modCur fun t => { t with vheld := some (s.nextId, v) }

/-- Issues a bundle whose bits are `w`: `lent` in a lent cycle, `wait` its wait marker, `guard` the S guard's value, `hs` and `hv` its halves. The
checks come in rank order; the first that fails is taken and neither half has an effect (R59). The V half's effect is applied first and the S half's
last: where both write one register or enter one queue (`cr.vl`, `cr.warn`, a register that `WRCTX` names, `MRDV` beside a V operation), the manual
gives no order (DESIGN CHOICE, log 8). -/
def State.issue (s : State) (lent : Bool) (w : W64) (wait guard : Bool) (hs hv : Half) : State :=
  let t := s.cthr
  if !t.tact && (t.pwdg.isSome || t.ptim.isSome) then s.takePending
  else match firstTrap (bundleTraps w guard hs hv s) with
    | some tr => (s.countIssue lent).takeTrap tr
    | none =>
      let hs := if guard then hs else Half.none
      let act := if t.speculative then (if hs.spec s = .go then hv.spec s else hs.spec s) else .go
      if act = .ends then (s.attempted hs).parkSpec .ended
      else if act = .pause then s.parkSpec .paused
      else match hs.gate s with
        | some (a, full) => s.feFail a full
        | none => match hs.stops s with
        | some code => (s.countIssue lent).stopThread ((t.pc + 8) % 2 ^ 64) 0 code
        | none =>
          let s' := (s.countIssue lent).modCur fun t => { t with pc := (t.pc + 8) % 2 ^ 64, mark := wait, feTried := false }
          hs.eff s (match if hs.holds s then hv.sample s else none with
            | some v => s'.holdV v
            | none => hv.eff s s')
/-- A bundle that is no instruction (R63). -/
def State.issueIllegal (s : State) (lent : Bool) (w : W64) : State :=
  let t := s.cthr
  if !t.tact && (t.pwdg.isSome || t.ptim.isSome) then s.takePending
  else (s.countIssue lent).takeTrap ⟨2, cILLOP, w⟩
/-- Issues an S operation alone, always executed, without wait marker (R45). -/
def State.issueS (s : State) (i : Instr) (h : Half) : State := s.issue false (encodeWord i) false true h Half.none
/-- Issues a V operation alone. -/
def State.issueV (s : State) (o : VOp) (h : Half) : State :=
  s.issue false (BitVec.ofNat 64 ((encodeNat ⟨false, 0, false, .nop, o⟩).getD 0)) false true Half.none h

end Sys2Proof.Machine
end

