-- ==== Sys2Proof/Machine/Integer.lean ====
section
/-! DEFINITION. Integer, predicate and branch instructions (04_scalar.md R114 to R124, R130 to R133). -/
namespace Sys2Proof.Machine

/-! The operations of R115 to R121 on 64-bit words. -/
def opSll (a b : W64) : W64 := a <<< (b.toNat % 64)
def opSrl (a b : W64) : W64 := a >>> (b.toNat % 64)
def opSra (a b : W64) : W64 := a.sshiftRight (b.toNat % 64)
def opRor (a b : W64) : W64 := a.rotateRight (b.toNat % 64)
def opMin (a b : W64) : W64 := if a.slt b then a else b
def opMax (a b : W64) : W64 := if a.slt b then b else a
def opMinz (a b : W64) : W64 := if a.ult b then a else b
def opMaxz (a b : W64) : W64 := if a.ult b then b else a
/-- Bits [127:64] of the product of two integers (R117). -/
def highOf (p : Int) : W64 := BitVec.ofInt 64 (p / 2 ^ 64)
def opMulh (a b : W64) : W64 := highOf (a.toInt * b.toInt)
def opMulhz (a b : W64) : W64 := highOf (a.toNat * b.toNat)
def opMulhsz (a b : W64) : W64 := highOf (a.toInt * b.toNat)
/-- The divisions of R117 with the borderline cases of R118. -/
def opDiv (a b : W64) : W64 := if b = 0 then BitVec.allOnes 64 else BitVec.ofInt 64 (a.toInt.tdiv b.toInt)
def opDivz (a b : W64) : W64 := if b = 0 then BitVec.allOnes 64 else BitVec.ofNat 64 (a.toNat / b.toNat)
def opRem (a b : W64) : W64 := if b = 0 then a else BitVec.ofInt 64 (a.toInt.tmod b.toInt)
def opRemz (a b : W64) : W64 := if b = 0 then a else BitVec.ofNat 64 (a.toNat % b.toNat)
/-- Leading zeros, trailing zeros and ones among 64 bits (R117). -/
def opClz (a : W64) : W64 := BitVec.ofNat 64 (if a = 0 then 64 else 63 - Nat.log2 a.toNat)
def opCtz (a : W64) : W64 := BitVec.ofNat 64 (((List.range 64).find? fun i => a.getLsbD i).getD 64)
def opPopc (a : W64) : W64 := BitVec.ofNat 64 ((List.range 64).filter fun i => a.getLsbD i).length
/-- Width in effect of a bit field (R66 row 10). -/
def fieldWidth (pos width : Nat) : Nat := if pos + width > 64 then 64 - pos else width
/-- `cr.warn` bits ic and ps (R65). -/
def warnIc : BitVec 9 := 0x100
def warnPs : BitVec 9 := 0x040

/-- Two register operands; a register and an immediate; one register operand. -/
def alu2 (rd ra rb : Reg) (f : W64 → W64 → W64) : Half := .alu rd [ra, rb] fun t => f (t.rd ra) (t.rd rb)
def aluI (rd ra : Reg) (b : W64) (f : W64 → W64 → W64) : Half := .alu rd [ra] fun t => f (t.rd ra) b
def alu1 (rd ra : Reg) (f : W64 → W64) : Half := .alu rd [ra] fun t => f (t.rd ra)

def halfNop : Half := {}
def halfAdd (rd ra rb : Reg) : Half := alu2 rd ra rb (· + ·)
def halfAddSl (rd ra : Reg) (imm : BitVec 32) : Half := aluI rd ra (immS imm) (· + ·)
def halfSub (rd ra rb : Reg) : Half := alu2 rd ra rb (· - ·)
def halfSubSl (rd ra : Reg) (imm : BitVec 32) : Half := aluI rd ra (immS imm) (· - ·)
def halfAnd (rd ra rb : Reg) : Half := alu2 rd ra rb (· &&& ·)
def halfAndSl (rd ra : Reg) (imm : BitVec 32) : Half := aluI rd ra (immS imm) (· &&& ·)
def halfOr (rd ra rb : Reg) : Half := alu2 rd ra rb (· ||| ·)
def halfOrSl (rd ra : Reg) (imm : BitVec 32) : Half := aluI rd ra (immS imm) (· ||| ·)
def halfXor (rd ra rb : Reg) : Half := alu2 rd ra rb (· ^^^ ·)
def halfXorSl (rd ra : Reg) (imm : BitVec 32) : Half := aluI rd ra (immS imm) (· ^^^ ·)
def halfAndn (rd ra rb : Reg) : Half := alu2 rd ra rb fun a b => a &&& ~~~b
def halfAndnSl (rd ra : Reg) (imm : BitVec 32) : Half := aluI rd ra (immS imm) fun a b => a &&& ~~~b
def halfOrn (rd ra rb : Reg) : Half := alu2 rd ra rb fun a b => a ||| ~~~b
def halfOrnSl (rd ra : Reg) (imm : BitVec 32) : Half := aluI rd ra (immS imm) fun a b => a ||| ~~~b
def halfXnor (rd ra rb : Reg) : Half := alu2 rd ra rb fun a b => ~~~(a ^^^ b)
def halfXnorSl (rd ra : Reg) (imm : BitVec 32) : Half := aluI rd ra (immS imm) fun a b => ~~~(a ^^^ b)
def halfSll (rd ra rb : Reg) : Half := alu2 rd ra rb opSll
def halfSllSl (rd ra : Reg) (imm : BitVec 32) : Half := aluI rd ra (immS imm) opSll
def halfSrl (rd ra rb : Reg) : Half := alu2 rd ra rb opSrl
def halfSrlSl (rd ra : Reg) (imm : BitVec 32) : Half := aluI rd ra (immS imm) opSrl
def halfSra (rd ra rb : Reg) : Half := alu2 rd ra rb opSra
def halfSraSl (rd ra : Reg) (imm : BitVec 32) : Half := aluI rd ra (immS imm) opSra
def halfRor (rd ra rb : Reg) : Half := alu2 rd ra rb opRor
def halfRorSl (rd ra : Reg) (imm : BitVec 32) : Half := aluI rd ra (immS imm) opRor
def halfMin (rd ra rb : Reg) : Half := alu2 rd ra rb opMin
def halfMinSl (rd ra : Reg) (imm : BitVec 32) : Half := aluI rd ra (immS imm) opMin
def halfMax (rd ra rb : Reg) : Half := alu2 rd ra rb opMax
def halfMaxSl (rd ra : Reg) (imm : BitVec 32) : Half := aluI rd ra (immS imm) opMax
def halfMinz (rd ra rb : Reg) : Half := alu2 rd ra rb opMinz
def halfMinzSl (rd ra : Reg) (imm : BitVec 32) : Half := aluI rd ra (immZ imm) opMinz
def halfMaxz (rd ra rb : Reg) : Half := alu2 rd ra rb opMaxz
def halfMaxzSl (rd ra : Reg) (imm : BitVec 32) : Half := aluI rd ra (immZ imm) opMaxz
def halfAddi (rd ra : Reg) (imm : BitVec 9) : Half := aluI rd ra (imm.signExtend 64) (· + ·)
def halfMul (rd ra rb : Reg) : Half := alu2 rd ra rb (· * ·)
def halfMulSl (rd ra : Reg) (imm : BitVec 32) : Half := aluI rd ra (immS imm) (· * ·)
def halfMulh (rd ra rb : Reg) : Half := alu2 rd ra rb opMulh
def halfMulhSl (rd ra : Reg) (imm : BitVec 32) : Half := aluI rd ra (immS imm) opMulh
def halfMulhz (rd ra rb : Reg) : Half := alu2 rd ra rb opMulhz
def halfMulhzSl (rd ra : Reg) (imm : BitVec 32) : Half := aluI rd ra (immZ imm) opMulhz
def halfMulhsz (rd ra rb : Reg) : Half := alu2 rd ra rb opMulhsz
def halfMulhszSl (rd ra : Reg) (imm : BitVec 32) : Half := aluI rd ra (immZ imm) opMulhsz
def halfDiv (rd ra rb : Reg) : Half := alu2 rd ra rb opDiv
def halfDivSl (rd ra : Reg) (imm : BitVec 32) : Half := aluI rd ra (immS imm) opDiv
def halfDivz (rd ra rb : Reg) : Half := alu2 rd ra rb opDivz
def halfDivzSl (rd ra : Reg) (imm : BitVec 32) : Half := aluI rd ra (immZ imm) opDivz
def halfRem (rd ra rb : Reg) : Half := alu2 rd ra rb opRem
def halfRemSl (rd ra : Reg) (imm : BitVec 32) : Half := aluI rd ra (immS imm) opRem
def halfRemz (rd ra rb : Reg) : Half := alu2 rd ra rb opRemz
def halfRemzSl (rd ra : Reg) (imm : BitVec 32) : Half := aluI rd ra (immZ imm) opRemz
def halfClz (rd ra : Reg) : Half := alu1 rd ra opClz
def halfCtz (rd ra : Reg) : Half := alu1 rd ra opCtz
def halfPopc (rd ra : Reg) : Half := alu1 rd ra opPopc
def halfSxb (rd ra : Reg) : Half := alu1 rd ra (sext 8)
def halfSxh (rd ra : Reg) : Half := alu1 rd ra (sext 16)
def halfSxw (rd ra : Reg) : Half := alu1 rd ra (sext 32)
def halfZxb (rd ra : Reg) : Half := alu1 rd ra (zext 8)
def halfZxh (rd ra : Reg) : Half := alu1 rd ra (zext 16)
def halfZxw (rd ra : Reg) : Half := alu1 rd ra (zext 32)
def halfSel (rd : Reg) (pn : Pred) (ra rb : Reg) : Half := .alu rd [ra, rb] fun t => if t.pr pn then t.rd ra else t.rd rb
def halfSelSl (rd : Reg) (pn : Pred) (ra : Reg) (imm : BitVec 32) : Half := .alu rd [ra] fun t => if t.pr pn then t.rd ra else immS imm
def halfAddx (rd ra rb : Reg) (sc : BitVec 2) : Half := alu2 rd ra rb fun a b => a + b <<< sc.toNat
def halfAddxSl (rd ra : Reg) (imm : BitVec 32) (sc : BitVec 2) : Half := aluI rd ra (immS imm) fun a b => a + b <<< sc.toNat
/-- A bit-field operation: the result and, when the width is clipped, `ic` in `cr.warn` (R121). -/
def bitField (rd : Reg) (srcs : List Reg) (pos : BitVec 6) (width : BitVec 7) (f : Thread → Nat → W64) : Half :=
  .own srcs [rd] fun p t =>
    (t.wr rd (f p (fieldWidth pos.toNat width.toNat))).setWarn (if pos.toNat + width.toNat > 64 then warnIc else 0)
def halfBfx (rd ra : Reg) (pos : BitVec 6) (width : BitVec 7) : Half :=
  bitField rd [ra] pos width fun t w => sext w (t.rd ra >>> pos.toNat)
def halfBfxz (rd ra : Reg) (pos : BitVec 6) (width : BitVec 7) : Half :=
  bitField rd [ra] pos width fun t w => zext w (t.rd ra >>> pos.toNat)
def halfBfi (rd ra : Reg) (pos : BitVec 6) (width : BitVec 7) : Half :=
  bitField rd [ra, rd] pos width fun t w =>
    let mask := zext w (BitVec.allOnes 64) <<< pos.toNat
    (t.rd rd &&& ~~~mask) ||| ((t.rd ra <<< pos.toNat) &&& mask)
def halfLi (rd : Reg) (imm : BitVec 32) : Half := .alu rd [] fun _ => immS imm
def halfLiz (rd : Reg) (imm : BitVec 32) : Half := .alu rd [] fun _ => immZ imm
def halfLih (rd : Reg) (imm : BitVec 32) : Half := .alu rd [rd] fun t => (immZ imm <<< 32) ||| zext 32 (t.rd rd)

/-! Predicates (R123, R124). -/
def plog (pd pa pb : Pred) (f : Bool → Bool → Bool) : Half := .own [] [] fun p t => t.wp pd (f (p.pr pa) (p.pr pb))
def halfPand (pd pa pb : Pred) : Half := plog pd pa pb (· && ·)
def halfPor (pd pa pb : Pred) : Half := plog pd pa pb (· || ·)
def halfPxor (pd pa pb : Pred) : Half := plog pd pa pb (· != ·)
def halfPandn (pd pa pb : Pred) : Half := plog pd pa pb fun a b => a && !b
def halfPorn (pd pa pb : Pred) : Half := plog pd pa pb fun a b => a || !b
def halfPnor (pd pa pb : Pred) : Half := plog pd pa pb fun a b => !(a || b)
def halfPget (rd : Reg) : Half := .alu rd [] fun t => (t.p ||| 1).zeroExtend 64
def halfPput (ra : Reg) : Half := .own [ra] [] fun p t => { t with p := (p.rd ra).truncate 8 &&& 0xFE }
/-- The two predicate writes of a compare, `pf` after `pt` (R123, R66 row 8). -/
def Thread.wrCmp (t : Thread) (pt pf : Pred) (c : Bool) : Thread :=
  ((t.wp pt c).wp pf (!c)).setWarn (if pt = pf ∧ pt ≠ 0 then warnPs else 0)
def cmp2 (pt pf : Pred) (ra rb : Reg) (f : W64 → W64 → Bool) : Half := .own [ra, rb] [] fun p t => t.wrCmp pt pf (f (p.rd ra) (p.rd rb))
def cmpI (pt pf : Pred) (ra : Reg) (b : W64) (f : W64 → W64 → Bool) : Half := .own [ra] [] fun p t => t.wrCmp pt pf (f (p.rd ra) b)
def halfCmpEq (pt pf : Pred) (ra rb : Reg) : Half := cmp2 pt pf ra rb (· == ·)
def halfCmpEqSl (pt pf : Pred) (ra : Reg) (imm : BitVec 32) : Half := cmpI pt pf ra (immS imm) (· == ·)
def halfCmpLt (pt pf : Pred) (ra rb : Reg) : Half := cmp2 pt pf ra rb BitVec.slt
def halfCmpLtSl (pt pf : Pred) (ra : Reg) (imm : BitVec 32) : Half := cmpI pt pf ra (immS imm) BitVec.slt
def halfCmpLe (pt pf : Pred) (ra rb : Reg) : Half := cmp2 pt pf ra rb BitVec.sle
def halfCmpLeSl (pt pf : Pred) (ra : Reg) (imm : BitVec 32) : Half := cmpI pt pf ra (immS imm) BitVec.sle
def halfCmpLtz (pt pf : Pred) (ra rb : Reg) : Half := cmp2 pt pf ra rb BitVec.ult
def halfCmpLtzSl (pt pf : Pred) (ra : Reg) (imm : BitVec 32) : Half := cmpI pt pf ra (immZ imm) BitVec.ult
def halfCmpLez (pt pf : Pred) (ra rb : Reg) : Half := cmp2 pt pf ra rb BitVec.ule
def halfCmpLezSl (pt pf : Pred) (ra : Reg) (imm : BitVec 32) : Half := cmpI pt pf ra (immZ imm) BitVec.ule

/-! Branches (R130 to R133). The address of the branch is that of the thread before the bundle. -/
/-- The target at a displacement in bundles from address `a`. -/
def target (a : Nat) (d : Int) : Nat := (((a : Int) + 8 * d) % 2 ^ 64).toNat
def linkOf (a : Nat) : W64 := BitVec.ofNat 64 (a + 8)
def halfBr (disp : BitVec 19) : Half := .own [] [] fun p t => { t with pc := target p.pc disp.toInt }
def halfBrl (disp : BitVec 19) : Half := .own [] [31] fun p t => { (t.wr 31 (linkOf p.pc)) with pc := target p.pc disp.toInt }
/-- A branch taken on a condition over the thread before the bundle. -/
def branchIf (rc : Reg) (disp : BitVec 14) (c : W64 → Bool) : Half :=
  .own [rc] [] fun p t => if c (p.rd rc) then { t with pc := target p.pc disp.toInt } else t
def halfLoop (rc : Reg) (disp : BitVec 14) : Half :=
  .own [rc] [rc] fun p t =>
    let v := p.rd rc - 1
    if v ≠ 0 then { (t.wr rc v) with pc := target p.pc disp.toInt } else t.wr rc v
def halfBz (rc : Reg) (disp : BitVec 14) : Half := branchIf rc disp (· == 0)
def halfBnz (rc : Reg) (disp : BitVec 14) : Half := branchIf rc disp (· != 0)
def halfJr (ra : Reg) : Half := .own [ra] [] fun p t => { t with pc := (p.rd ra).toNat }
def halfJrl (rd ra : Reg) : Half := .own [ra] [rd] fun p t => { (t.wr rd (linkOf p.pc)) with pc := (p.rd ra).toNat }

/-! The meanings: each issues its operation alone. -/
/-- `NOP` (R60). -/
def execNop (s : State) : Host.Outcome State Fault Refusal :=
  .next (s.issueS .nop halfNop)
/-- `ADD` (R115). -/
def execAdd (rd : Reg) (ra : Reg) (rb : Reg) (s : State) : Host.Outcome State Fault Refusal :=
  .next (s.issueS (.add rd ra rb) (halfAdd rd ra rb))
/-- `ADD_SL` (R115). -/
def execAddSl (rd : Reg) (ra : Reg) (imm : BitVec 32) (s : State) : Host.Outcome State Fault Refusal :=
  .next (s.issueS (.addSl rd ra imm) (halfAddSl rd ra imm))
/-- `SUB` (R115). -/
def execSub (rd : Reg) (ra : Reg) (rb : Reg) (s : State) : Host.Outcome State Fault Refusal :=
  .next (s.issueS (.sub rd ra rb) (halfSub rd ra rb))
/-- `SUB_SL` (R115). -/
def execSubSl (rd : Reg) (ra : Reg) (imm : BitVec 32) (s : State) : Host.Outcome State Fault Refusal :=
  .next (s.issueS (.subSl rd ra imm) (halfSubSl rd ra imm))
/-- `AND` (R115). -/
def execAnd (rd : Reg) (ra : Reg) (rb : Reg) (s : State) : Host.Outcome State Fault Refusal :=
  .next (s.issueS (.and rd ra rb) (halfAnd rd ra rb))
/-- `AND_SL` (R115). -/
def execAndSl (rd : Reg) (ra : Reg) (imm : BitVec 32) (s : State) : Host.Outcome State Fault Refusal :=
  .next (s.issueS (.andSl rd ra imm) (halfAndSl rd ra imm))
/-- `OR` (R115). -/
def execOr (rd : Reg) (ra : Reg) (rb : Reg) (s : State) : Host.Outcome State Fault Refusal :=
  .next (s.issueS (.or rd ra rb) (halfOr rd ra rb))
/-- `OR_SL` (R115). -/
def execOrSl (rd : Reg) (ra : Reg) (imm : BitVec 32) (s : State) : Host.Outcome State Fault Refusal :=
  .next (s.issueS (.orSl rd ra imm) (halfOrSl rd ra imm))
/-- `XOR` (R115). -/
def execXor (rd : Reg) (ra : Reg) (rb : Reg) (s : State) : Host.Outcome State Fault Refusal :=
  .next (s.issueS (.xor rd ra rb) (halfXor rd ra rb))
/-- `XOR_SL` (R115). -/
def execXorSl (rd : Reg) (ra : Reg) (imm : BitVec 32) (s : State) : Host.Outcome State Fault Refusal :=
  .next (s.issueS (.xorSl rd ra imm) (halfXorSl rd ra imm))
/-- `ANDN` (R115). -/
def execAndn (rd : Reg) (ra : Reg) (rb : Reg) (s : State) : Host.Outcome State Fault Refusal :=
  .next (s.issueS (.andn rd ra rb) (halfAndn rd ra rb))
/-- `ANDN_SL` (R115). -/
def execAndnSl (rd : Reg) (ra : Reg) (imm : BitVec 32) (s : State) : Host.Outcome State Fault Refusal :=
  .next (s.issueS (.andnSl rd ra imm) (halfAndnSl rd ra imm))
/-- `ORN` (R115). -/
def execOrn (rd : Reg) (ra : Reg) (rb : Reg) (s : State) : Host.Outcome State Fault Refusal :=
  .next (s.issueS (.orn rd ra rb) (halfOrn rd ra rb))
/-- `ORN_SL` (R115). -/
def execOrnSl (rd : Reg) (ra : Reg) (imm : BitVec 32) (s : State) : Host.Outcome State Fault Refusal :=
  .next (s.issueS (.ornSl rd ra imm) (halfOrnSl rd ra imm))
/-- `XNOR` (R115). -/
def execXnor (rd : Reg) (ra : Reg) (rb : Reg) (s : State) : Host.Outcome State Fault Refusal :=
  .next (s.issueS (.xnor rd ra rb) (halfXnor rd ra rb))
/-- `XNOR_SL` (R115). -/
def execXnorSl (rd : Reg) (ra : Reg) (imm : BitVec 32) (s : State) : Host.Outcome State Fault Refusal :=
  .next (s.issueS (.xnorSl rd ra imm) (halfXnorSl rd ra imm))
/-- `SLL` (R115). -/
def execSll (rd : Reg) (ra : Reg) (rb : Reg) (s : State) : Host.Outcome State Fault Refusal :=
  .next (s.issueS (.sll rd ra rb) (halfSll rd ra rb))
/-- `SLL_SL` (R115). -/
def execSllSl (rd : Reg) (ra : Reg) (imm : BitVec 32) (s : State) : Host.Outcome State Fault Refusal :=
  .next (s.issueS (.sllSl rd ra imm) (halfSllSl rd ra imm))
/-- `SRL` (R115). -/
def execSrl (rd : Reg) (ra : Reg) (rb : Reg) (s : State) : Host.Outcome State Fault Refusal :=
  .next (s.issueS (.srl rd ra rb) (halfSrl rd ra rb))
/-- `SRL_SL` (R115). -/
def execSrlSl (rd : Reg) (ra : Reg) (imm : BitVec 32) (s : State) : Host.Outcome State Fault Refusal :=
  .next (s.issueS (.srlSl rd ra imm) (halfSrlSl rd ra imm))
/-- `SRA` (R115). -/
def execSra (rd : Reg) (ra : Reg) (rb : Reg) (s : State) : Host.Outcome State Fault Refusal :=
  .next (s.issueS (.sra rd ra rb) (halfSra rd ra rb))
/-- `SRA_SL` (R115). -/
def execSraSl (rd : Reg) (ra : Reg) (imm : BitVec 32) (s : State) : Host.Outcome State Fault Refusal :=
  .next (s.issueS (.sraSl rd ra imm) (halfSraSl rd ra imm))
/-- `ROR` (R115). -/
def execRor (rd : Reg) (ra : Reg) (rb : Reg) (s : State) : Host.Outcome State Fault Refusal :=
  .next (s.issueS (.ror rd ra rb) (halfRor rd ra rb))
/-- `ROR_SL` (R115). -/
def execRorSl (rd : Reg) (ra : Reg) (imm : BitVec 32) (s : State) : Host.Outcome State Fault Refusal :=
  .next (s.issueS (.rorSl rd ra imm) (halfRorSl rd ra imm))
/-- `MIN` (R115). -/
def execMin (rd : Reg) (ra : Reg) (rb : Reg) (s : State) : Host.Outcome State Fault Refusal :=
  .next (s.issueS (.min rd ra rb) (halfMin rd ra rb))
/-- `MIN_SL` (R115). -/
def execMinSl (rd : Reg) (ra : Reg) (imm : BitVec 32) (s : State) : Host.Outcome State Fault Refusal :=
  .next (s.issueS (.minSl rd ra imm) (halfMinSl rd ra imm))
/-- `MAX` (R115). -/
def execMax (rd : Reg) (ra : Reg) (rb : Reg) (s : State) : Host.Outcome State Fault Refusal :=
  .next (s.issueS (.max rd ra rb) (halfMax rd ra rb))
/-- `MAX_SL` (R115). -/
def execMaxSl (rd : Reg) (ra : Reg) (imm : BitVec 32) (s : State) : Host.Outcome State Fault Refusal :=
  .next (s.issueS (.maxSl rd ra imm) (halfMaxSl rd ra imm))
/-- `MINZ` (R115). -/
def execMinz (rd : Reg) (ra : Reg) (rb : Reg) (s : State) : Host.Outcome State Fault Refusal :=
  .next (s.issueS (.minz rd ra rb) (halfMinz rd ra rb))
/-- `MINZ_SL` (R115). -/
def execMinzSl (rd : Reg) (ra : Reg) (imm : BitVec 32) (s : State) : Host.Outcome State Fault Refusal :=
  .next (s.issueS (.minzSl rd ra imm) (halfMinzSl rd ra imm))
/-- `MAXZ` (R115). -/
def execMaxz (rd : Reg) (ra : Reg) (rb : Reg) (s : State) : Host.Outcome State Fault Refusal :=
  .next (s.issueS (.maxz rd ra rb) (halfMaxz rd ra rb))
/-- `MAXZ_SL` (R115). -/
def execMaxzSl (rd : Reg) (ra : Reg) (imm : BitVec 32) (s : State) : Host.Outcome State Fault Refusal :=
  .next (s.issueS (.maxzSl rd ra imm) (halfMaxzSl rd ra imm))
/-- `ADDI` (R116). -/
def execAddi (rd : Reg) (ra : Reg) (imm : BitVec 9) (s : State) : Host.Outcome State Fault Refusal :=
  .next (s.issueS (.addi rd ra imm) (halfAddi rd ra imm))
/-- `MUL` (R117). -/
def execMul (rd : Reg) (ra : Reg) (rb : Reg) (s : State) : Host.Outcome State Fault Refusal :=
  .next (s.issueS (.mul rd ra rb) (halfMul rd ra rb))
/-- `MUL_SL` (R117). -/
def execMulSl (rd : Reg) (ra : Reg) (imm : BitVec 32) (s : State) : Host.Outcome State Fault Refusal :=
  .next (s.issueS (.mulSl rd ra imm) (halfMulSl rd ra imm))
/-- `MULH` (R117). -/
def execMulh (rd : Reg) (ra : Reg) (rb : Reg) (s : State) : Host.Outcome State Fault Refusal :=
  .next (s.issueS (.mulh rd ra rb) (halfMulh rd ra rb))
/-- `MULH_SL` (R117). -/
def execMulhSl (rd : Reg) (ra : Reg) (imm : BitVec 32) (s : State) : Host.Outcome State Fault Refusal :=
  .next (s.issueS (.mulhSl rd ra imm) (halfMulhSl rd ra imm))
/-- `MULHZ` (R117). -/
def execMulhz (rd : Reg) (ra : Reg) (rb : Reg) (s : State) : Host.Outcome State Fault Refusal :=
  .next (s.issueS (.mulhz rd ra rb) (halfMulhz rd ra rb))
/-- `MULHZ_SL` (R117). -/
def execMulhzSl (rd : Reg) (ra : Reg) (imm : BitVec 32) (s : State) : Host.Outcome State Fault Refusal :=
  .next (s.issueS (.mulhzSl rd ra imm) (halfMulhzSl rd ra imm))
/-- `MULHSZ` (R117). -/
def execMulhsz (rd : Reg) (ra : Reg) (rb : Reg) (s : State) : Host.Outcome State Fault Refusal :=
  .next (s.issueS (.mulhsz rd ra rb) (halfMulhsz rd ra rb))
/-- `MULHSZ_SL` (R117). -/
def execMulhszSl (rd : Reg) (ra : Reg) (imm : BitVec 32) (s : State) : Host.Outcome State Fault Refusal :=
  .next (s.issueS (.mulhszSl rd ra imm) (halfMulhszSl rd ra imm))
/-- `DIV` (R118). -/
def execDiv (rd : Reg) (ra : Reg) (rb : Reg) (s : State) : Host.Outcome State Fault Refusal :=
  .next (s.issueS (.div rd ra rb) (halfDiv rd ra rb))
/-- `DIV_SL` (R118). -/
def execDivSl (rd : Reg) (ra : Reg) (imm : BitVec 32) (s : State) : Host.Outcome State Fault Refusal :=
  .next (s.issueS (.divSl rd ra imm) (halfDivSl rd ra imm))
/-- `DIVZ` (R118). -/
def execDivz (rd : Reg) (ra : Reg) (rb : Reg) (s : State) : Host.Outcome State Fault Refusal :=
  .next (s.issueS (.divz rd ra rb) (halfDivz rd ra rb))
/-- `DIVZ_SL` (R118). -/
def execDivzSl (rd : Reg) (ra : Reg) (imm : BitVec 32) (s : State) : Host.Outcome State Fault Refusal :=
  .next (s.issueS (.divzSl rd ra imm) (halfDivzSl rd ra imm))
/-- `REM` (R118). -/
def execRem (rd : Reg) (ra : Reg) (rb : Reg) (s : State) : Host.Outcome State Fault Refusal :=
  .next (s.issueS (.rem rd ra rb) (halfRem rd ra rb))
/-- `REM_SL` (R118). -/
def execRemSl (rd : Reg) (ra : Reg) (imm : BitVec 32) (s : State) : Host.Outcome State Fault Refusal :=
  .next (s.issueS (.remSl rd ra imm) (halfRemSl rd ra imm))
/-- `REMZ` (R118). -/
def execRemz (rd : Reg) (ra : Reg) (rb : Reg) (s : State) : Host.Outcome State Fault Refusal :=
  .next (s.issueS (.remz rd ra rb) (halfRemz rd ra rb))
/-- `REMZ_SL` (R118). -/
def execRemzSl (rd : Reg) (ra : Reg) (imm : BitVec 32) (s : State) : Host.Outcome State Fault Refusal :=
  .next (s.issueS (.remzSl rd ra imm) (halfRemzSl rd ra imm))
/-- `CLZ` (R117). -/
def execClz (rd : Reg) (ra : Reg) (s : State) : Host.Outcome State Fault Refusal :=
  .next (s.issueS (.clz rd ra) (halfClz rd ra))
/-- `CTZ` (R117). -/
def execCtz (rd : Reg) (ra : Reg) (s : State) : Host.Outcome State Fault Refusal :=
  .next (s.issueS (.ctz rd ra) (halfCtz rd ra))
/-- `POPC` (R117). -/
def execPopc (rd : Reg) (ra : Reg) (s : State) : Host.Outcome State Fault Refusal :=
  .next (s.issueS (.popc rd ra) (halfPopc rd ra))
/-- `SXB` (R119). -/
def execSxb (rd : Reg) (ra : Reg) (s : State) : Host.Outcome State Fault Refusal :=
  .next (s.issueS (.sxb rd ra) (halfSxb rd ra))
/-- `SXH` (R119). -/
def execSxh (rd : Reg) (ra : Reg) (s : State) : Host.Outcome State Fault Refusal :=
  .next (s.issueS (.sxh rd ra) (halfSxh rd ra))
/-- `SXW` (R119). -/
def execSxw (rd : Reg) (ra : Reg) (s : State) : Host.Outcome State Fault Refusal :=
  .next (s.issueS (.sxw rd ra) (halfSxw rd ra))
/-- `ZXB` (R119). -/
def execZxb (rd : Reg) (ra : Reg) (s : State) : Host.Outcome State Fault Refusal :=
  .next (s.issueS (.zxb rd ra) (halfZxb rd ra))
/-- `ZXH` (R119). -/
def execZxh (rd : Reg) (ra : Reg) (s : State) : Host.Outcome State Fault Refusal :=
  .next (s.issueS (.zxh rd ra) (halfZxh rd ra))
/-- `ZXW` (R119). -/
def execZxw (rd : Reg) (ra : Reg) (s : State) : Host.Outcome State Fault Refusal :=
  .next (s.issueS (.zxw rd ra) (halfZxw rd ra))
/-- `SEL` (R119). -/
def execSel (rd : Reg) (pn : Pred) (ra : Reg) (rb : Reg) (s : State) : Host.Outcome State Fault Refusal :=
  .next (s.issueS (.sel rd pn ra rb) (halfSel rd pn ra rb))
/-- `SEL_SL` (R119). -/
def execSelSl (rd : Reg) (pn : Pred) (ra : Reg) (imm : BitVec 32) (s : State) : Host.Outcome State Fault Refusal :=
  .next (s.issueS (.selSl rd pn ra imm) (halfSelSl rd pn ra imm))
/-- `ADDX` (R120). -/
def execAddx (rd : Reg) (ra : Reg) (rb : Reg) (sc : BitVec 2) (s : State) : Host.Outcome State Fault Refusal :=
  .next (s.issueS (.addx rd ra rb sc) (halfAddx rd ra rb sc))
/-- `ADDX_SL` (R120). -/
def execAddxSl (rd : Reg) (ra : Reg) (imm : BitVec 32) (sc : BitVec 2) (s : State) : Host.Outcome State Fault Refusal :=
  .next (s.issueS (.addxSl rd ra imm sc) (halfAddxSl rd ra imm sc))
/-- `BFX` (R121). -/
def execBfx (rd : Reg) (ra : Reg) (pos : BitVec 6) (width : BitVec 7) (s : State) : Host.Outcome State Fault Refusal :=
  .next (s.issueS (.bfx rd ra pos width) (halfBfx rd ra pos width))
/-- `BFXZ` (R121). -/
def execBfxz (rd : Reg) (ra : Reg) (pos : BitVec 6) (width : BitVec 7) (s : State) : Host.Outcome State Fault Refusal :=
  .next (s.issueS (.bfxz rd ra pos width) (halfBfxz rd ra pos width))
/-- `BFI` (R121). -/
def execBfi (rd : Reg) (ra : Reg) (pos : BitVec 6) (width : BitVec 7) (s : State) : Host.Outcome State Fault Refusal :=
  .next (s.issueS (.bfi rd ra pos width) (halfBfi rd ra pos width))
/-- `LI` (R122). -/
def execLi (rd : Reg) (imm : BitVec 32) (s : State) : Host.Outcome State Fault Refusal :=
  .next (s.issueS (.li rd imm) (halfLi rd imm))
/-- `LIZ` (R122). -/
def execLiz (rd : Reg) (imm : BitVec 32) (s : State) : Host.Outcome State Fault Refusal :=
  .next (s.issueS (.liz rd imm) (halfLiz rd imm))
/-- `LIH` (R122). -/
def execLih (rd : Reg) (imm : BitVec 32) (s : State) : Host.Outcome State Fault Refusal :=
  .next (s.issueS (.lih rd imm) (halfLih rd imm))
/-- `PAND` (R124). -/
def execPand (pd : Pred) (pa : Pred) (pb : Pred) (s : State) : Host.Outcome State Fault Refusal :=
  .next (s.issueS (.pand pd pa pb) (halfPand pd pa pb))
/-- `POR` (R124). -/
def execPor (pd : Pred) (pa : Pred) (pb : Pred) (s : State) : Host.Outcome State Fault Refusal :=
  .next (s.issueS (.por pd pa pb) (halfPor pd pa pb))
/-- `PXOR` (R124). -/
def execPxor (pd : Pred) (pa : Pred) (pb : Pred) (s : State) : Host.Outcome State Fault Refusal :=
  .next (s.issueS (.pxor pd pa pb) (halfPxor pd pa pb))
/-- `PANDN` (R124). -/
def execPandn (pd : Pred) (pa : Pred) (pb : Pred) (s : State) : Host.Outcome State Fault Refusal :=
  .next (s.issueS (.pandn pd pa pb) (halfPandn pd pa pb))
/-- `PORN` (R124). -/
def execPorn (pd : Pred) (pa : Pred) (pb : Pred) (s : State) : Host.Outcome State Fault Refusal :=
  .next (s.issueS (.porn pd pa pb) (halfPorn pd pa pb))
/-- `PNOR` (R124). -/
def execPnor (pd : Pred) (pa : Pred) (pb : Pred) (s : State) : Host.Outcome State Fault Refusal :=
  .next (s.issueS (.pnor pd pa pb) (halfPnor pd pa pb))
/-- `PGET` (R124). -/
def execPget (rd : Reg) (s : State) : Host.Outcome State Fault Refusal :=
  .next (s.issueS (.pget rd) (halfPget rd))
/-- `PPUT` (R124). -/
def execPput (ra : Reg) (s : State) : Host.Outcome State Fault Refusal :=
  .next (s.issueS (.pput ra) (halfPput ra))
/-- `CMP_EQ` (R123). -/
def execCmpEq (pt : Pred) (pf : Pred) (ra : Reg) (rb : Reg) (s : State) : Host.Outcome State Fault Refusal :=
  .next (s.issueS (.cmpEq pt pf ra rb) (halfCmpEq pt pf ra rb))
/-- `CMP_EQ_SL` (R123). -/
def execCmpEqSl (pt : Pred) (pf : Pred) (ra : Reg) (imm : BitVec 32) (s : State) : Host.Outcome State Fault Refusal :=
  .next (s.issueS (.cmpEqSl pt pf ra imm) (halfCmpEqSl pt pf ra imm))
/-- `CMP_LT` (R123). -/
def execCmpLt (pt : Pred) (pf : Pred) (ra : Reg) (rb : Reg) (s : State) : Host.Outcome State Fault Refusal :=
  .next (s.issueS (.cmpLt pt pf ra rb) (halfCmpLt pt pf ra rb))
/-- `CMP_LT_SL` (R123). -/
def execCmpLtSl (pt : Pred) (pf : Pred) (ra : Reg) (imm : BitVec 32) (s : State) : Host.Outcome State Fault Refusal :=
  .next (s.issueS (.cmpLtSl pt pf ra imm) (halfCmpLtSl pt pf ra imm))
/-- `CMP_LE` (R123). -/
def execCmpLe (pt : Pred) (pf : Pred) (ra : Reg) (rb : Reg) (s : State) : Host.Outcome State Fault Refusal :=
  .next (s.issueS (.cmpLe pt pf ra rb) (halfCmpLe pt pf ra rb))
/-- `CMP_LE_SL` (R123). -/
def execCmpLeSl (pt : Pred) (pf : Pred) (ra : Reg) (imm : BitVec 32) (s : State) : Host.Outcome State Fault Refusal :=
  .next (s.issueS (.cmpLeSl pt pf ra imm) (halfCmpLeSl pt pf ra imm))
/-- `CMP_LTZ` (R123). -/
def execCmpLtz (pt : Pred) (pf : Pred) (ra : Reg) (rb : Reg) (s : State) : Host.Outcome State Fault Refusal :=
  .next (s.issueS (.cmpLtz pt pf ra rb) (halfCmpLtz pt pf ra rb))
/-- `CMP_LTZ_SL` (R123). -/
def execCmpLtzSl (pt : Pred) (pf : Pred) (ra : Reg) (imm : BitVec 32) (s : State) : Host.Outcome State Fault Refusal :=
  .next (s.issueS (.cmpLtzSl pt pf ra imm) (halfCmpLtzSl pt pf ra imm))
/-- `CMP_LEZ` (R123). -/
def execCmpLez (pt : Pred) (pf : Pred) (ra : Reg) (rb : Reg) (s : State) : Host.Outcome State Fault Refusal :=
  .next (s.issueS (.cmpLez pt pf ra rb) (halfCmpLez pt pf ra rb))
/-- `CMP_LEZ_SL` (R123). -/
def execCmpLezSl (pt : Pred) (pf : Pred) (ra : Reg) (imm : BitVec 32) (s : State) : Host.Outcome State Fault Refusal :=
  .next (s.issueS (.cmpLezSl pt pf ra imm) (halfCmpLezSl pt pf ra imm))
/-- `BR` (R131). -/
def execBr (disp : BitVec 19) (s : State) : Host.Outcome State Fault Refusal :=
  .next (s.issueS (.br disp) (halfBr disp))
/-- `BRL` (R131). -/
def execBrl (disp : BitVec 19) (s : State) : Host.Outcome State Fault Refusal :=
  .next (s.issueS (.brl disp) (halfBrl disp))
/-- `LOOP` (R132). -/
def execLoop (rc : Reg) (disp : BitVec 14) (s : State) : Host.Outcome State Fault Refusal :=
  .next (s.issueS (.loop rc disp) (halfLoop rc disp))
/-- `BZ` (R132). -/
def execBz (rc : Reg) (disp : BitVec 14) (s : State) : Host.Outcome State Fault Refusal :=
  .next (s.issueS (.bz rc disp) (halfBz rc disp))
/-- `BNZ` (R132). -/
def execBnz (rc : Reg) (disp : BitVec 14) (s : State) : Host.Outcome State Fault Refusal :=
  .next (s.issueS (.bnz rc disp) (halfBnz rc disp))
/-- `JR` (R133). -/
def execJr (ra : Reg) (s : State) : Host.Outcome State Fault Refusal :=
  .next (s.issueS (.jr ra) (halfJr ra))
/-- `JRL` (R133). -/
def execJrl (rd : Reg) (ra : Reg) (s : State) : Host.Outcome State Fault Refusal :=
  .next (s.issueS (.jrl rd ra) (halfJrl rd ra))

end Sys2Proof.Machine
end

