-- ==== Sys2Proof/Machine/Float.lean ====
section
/-! DEFINITION. Scalar floating point, conversions, block quantisation of one block, bit planes of one word (04_scalar.md R125 to R129;
03_numbers.md R98 to R102). -/
namespace Sys2Proof.Machine

/-- `FADD`, `FSUB`, `FMUL`, `FMA` (R125): `op` as in `fArith`, the addend of `FMA` read from `gd`. -/
def farHalf (op : Nat) (fmt : FFmt) (rd ra rb : Reg) : Half :=
  .own (if op = 3 then [ra, rb, rd] else [ra, rb]) [rd] fun p t =>
    let (y, f) := fArith (fmtNo fmt) op (p.rd ra).toNat (p.rd rb).toNat (p.rd rd).toNat p.round.toNat
    (t.wr rd (widen (fmtNo fmt) y)).orFlags f
def halfFadd (fmt : FFmt) (rd ra rb : Reg) : Half := farHalf 0 fmt rd ra rb
def halfFsub (fmt : FFmt) (rd ra rb : Reg) : Half := farHalf 1 fmt rd ra rb
def halfFmul (fmt : FFmt) (rd ra rb : Reg) : Half := farHalf 2 fmt rd ra rb
def halfFma (fmt : FFmt) (rd ra rb : Reg) : Half := farHalf 3 fmt rd ra rb
/-- `FMIN` and `FMAX` (R127). -/
def fminHalf (isMax : Bool) (fmt : FFmt) (rd ra rb : Reg) : Half :=
  .own [ra, rb] [rd] fun p t =>
    let (y, f) := fMinMax (fmtNo fmt) isMax (p.rd ra).toNat (p.rd rb).toNat
    (t.wr rd (widen (fmtNo fmt) y)).orFlags f
def halfFmin (fmt : FFmt) (rd ra rb : Reg) : Half := fminHalf false fmt rd ra rb
def halfFmax (fmt : FFmt) (rd ra rb : Reg) : Half := fminHalf true fmt rd ra rb
def halfFclass (fmt : FFmt) (rd ra : Reg) : Half := .alu rd [ra] fun t => BitVec.ofNat 64 (2 ^ fClass (fmtNo fmt) ((t.rd ra).toNat % 2 ^ fmtWidth (fmtNo fmt)))
/-- The compares of R129. -/
def fcmpHalf (op : Nat) (fmt : FFmt) (pt pf : Pred) (ra rb : Reg) : Half :=
  .own [ra, rb] [] fun p t =>
    let (c, f) := fCompare (fmtNo fmt) op (p.rd ra).toNat (p.rd rb).toNat
    (t.wrCmp pt pf c).orFlags f
def halfFcmpEq (fmt : FFmt) (pt pf : Pred) (ra rb : Reg) : Half := fcmpHalf 0 fmt pt pf ra rb
def halfFcmpLt (fmt : FFmt) (pt pf : Pred) (ra rb : Reg) : Half := fcmpHalf 1 fmt pt pf ra rb
def halfFcmpLe (fmt : FFmt) (pt pf : Pred) (ra rb : Reg) : Half := fcmpHalf 2 fmt pt pf ra rb
def halfFcmpUn (fmt : FFmt) (pt pf : Pred) (ra rb : Reg) : Half := fcmpHalf 3 fmt pt pf ra rb

/-- `cr.warn` bit cv (R65). -/
def warnCv : BitVec 9 := 0x020
/-- `CVT` (R98, R66 row 7). -/
def halfCvt (dst src : Fmt) (rd ra : Reg) : Half :=
  .own [ra] [rd] fun p t =>
    if cvtDefined dst.toNat src.toNat then
      let (y, f) := convert dst.toNat src.toNat (p.rd ra).toNat p.round.toNat
      (t.wr rd (widen dst.toNat y)).orFlags f
    else (t.wr rd (p.rd ra)).setWarn warnCv

/-! `QBS` and `DQBS` (R99 to R101). The block of R87: a scale byte, then sixteen elements. -/
def blockSize (ef : Nat) : Nat := if ef = 13 then 9 else 17
/-- The bytes of a block. -/
def packBlock (ef sc : Nat) (es : List Nat) : List Byte :=
  BitVec.ofNat 8 sc :: (if ef = 13 then (List.range 8).map fun i => BitVec.ofNat 8 (es.getD (2 * i) 0 + 16 * es.getD (2 * i + 1) 0)
    else es.map (BitVec.ofNat 8))
/-- Element `i` of a block's bytes. -/
def blockElem (ef : Nat) (bs : List Byte) (i : Nat) : Nat :=
  if ef = 13 then ((bs.getD (1 + i / 2) 0).toNat / 16 ^ (i % 2)) % 16 else (bs.getD (1 + i) 0).toNat
/-- The bytes that the current thread reads from [a, a + n). -/
def State.threadRead (s : State) (a n : Nat) : List Byte := bytesOfNat n (s.load s.tx s.cthr a n)
/-- `QBS.E` and `DQBS.E`: `src` bytes read at `g[ra]`, `dst` bytes written at `g[rb]`, the FP32 side 64-byte aligned; `f` gives the
bytes written and the value of `gd` with its flags. Where both ranges fail one check, the source's address is reported: R100 names the first such
address and gives the two ranges no order (DESIGN CHOICE, log 49). -/
def blockHalf (rd ra rb : Reg) (src dst alignS alignD : Nat) (f : List Byte → List Byte × Nat × FFlags) : Half :=
  { srcs := [ra, rb], dsts := [rd]
    checks := fun s =>
      let t := s.cthr
      let l := s.ctile
      l.span (t.rd ra).toNat src alignS true ++ l.span (t.rd rb).toNat dst alignD false
    spec := fun s => storeAct (s.cthr.rd rb).toNat dst s
    touches := fun s => [((s.cthr.rd ra).toNat, src), ((s.cthr.rd rb).toNat, dst)]
    eff := fun pre s =>
      let a := (pre.cthr.rd ra).toNat
      let b := (pre.cthr.rd rb).toNat
      let (bs, g, fl) := f (pre.threadRead a src)
      ((s.noteLoad a src).threadBytes b bs).modCur fun t =>
        { (t.wr rd (BitVec.ofNat 64 g)).orFlags fl with readyAt := pre.cycleOf pre.tx + 9 } }
def qbsHalf (ef : Nat) (rd ra rb : Reg) : Half :=
  blockHalf rd ra rb 64 (blockSize ef) 64 1 fun bs =>
    let (sc, es, fl) := quantise ef ((List.range 16).map fun i => val 8 (natOfBytes ((bs.drop (4 * i)).take 4)))
    (packBlock ef sc es, sc, fl)
def dqbsHalf (ef : Nat) (rd ra rb : Reg) : Half :=
  blockHalf rd ra rb (blockSize ef) 64 1 64 fun bs =>
    let sc := (bs.getD 0 0).toNat
    ((List.range 16).flatMap fun i => bytesOfNat 4 (dequantise ef sc (blockElem ef bs i)), sc, 0)
def halfQbsE2m1 (rd ra rb : Reg) : Half := qbsHalf 13 rd ra rb
def halfQbsE4m3 (rd ra rb : Reg) : Half := qbsHalf 11 rd ra rb
def halfDqbsE2m1 (rd ra rb : Reg) : Half := dqbsHalf 13 rd ra rb
def halfDqbsE4m3 (rd ra rb : Reg) : Half := dqbsHalf 11 rd ra rb

/-- `NISPLIT` (R102): bit 8p + j of the result is bit 8j + 7 - p of the operand. -/
def niSplit (x : W64) : W64 :=
  (List.range 64).foldl (fun y i => if x.getLsbD (8 * (i % 8) + 7 - i / 8) then y ||| (1#64 <<< i) else y) 0
/-- `NIJOIN` (R102): element j from the first `k` planes. -/
def niJoin (x : W64) (k : Nat) : W64 :=
  if k = 0 then 0
  else (List.range 8).foldl (fun y j =>
    let b := (List.range k).foldl (fun b p => 2 * b + (x.getLsbD (8 * p + j)).toNat) 0
    y ||| (BitVec.ofNat 64 ((sextN k b).toNat % 256) <<< (8 * j))) 0
def halfNisplit (rd ra : Reg) : Half := alu1 rd ra niSplit
def halfNijoin (rd ra rb : Reg) : Half := alu2 rd ra rb fun x k => niJoin x (min k.toNat 8)

/-! The meanings: each issues its operation alone. -/
/-- `FADD` (R125). -/
def execFadd (fmt : FFmt) (rd : Reg) (ra : Reg) (rb : Reg) (s : State) : Host.Outcome State Fault Refusal :=
  .next (s.issueS (.fadd fmt rd ra rb) (halfFadd fmt rd ra rb))
/-- `FSUB` (R125). -/
def execFsub (fmt : FFmt) (rd : Reg) (ra : Reg) (rb : Reg) (s : State) : Host.Outcome State Fault Refusal :=
  .next (s.issueS (.fsub fmt rd ra rb) (halfFsub fmt rd ra rb))
/-- `FMUL` (R125). -/
def execFmul (fmt : FFmt) (rd : Reg) (ra : Reg) (rb : Reg) (s : State) : Host.Outcome State Fault Refusal :=
  .next (s.issueS (.fmul fmt rd ra rb) (halfFmul fmt rd ra rb))
/-- `FMA` (R125). -/
def execFma (fmt : FFmt) (rd : Reg) (ra : Reg) (rb : Reg) (s : State) : Host.Outcome State Fault Refusal :=
  .next (s.issueS (.fma fmt rd ra rb) (halfFma fmt rd ra rb))
/-- `FMIN` (R127). -/
def execFmin (fmt : FFmt) (rd : Reg) (ra : Reg) (rb : Reg) (s : State) : Host.Outcome State Fault Refusal :=
  .next (s.issueS (.fmin fmt rd ra rb) (halfFmin fmt rd ra rb))
/-- `FMAX` (R127). -/
def execFmax (fmt : FFmt) (rd : Reg) (ra : Reg) (rb : Reg) (s : State) : Host.Outcome State Fault Refusal :=
  .next (s.issueS (.fmax fmt rd ra rb) (halfFmax fmt rd ra rb))
/-- `FCLASS` (R128). -/
def execFclass (fmt : FFmt) (rd : Reg) (ra : Reg) (s : State) : Host.Outcome State Fault Refusal :=
  .next (s.issueS (.fclass fmt rd ra) (halfFclass fmt rd ra))
/-- `FCMP_EQ` (R129). -/
def execFcmpEq (fmt : FFmt) (pt : Pred) (pf : Pred) (ra : Reg) (rb : Reg) (s : State) : Host.Outcome State Fault Refusal :=
  .next (s.issueS (.fcmpEq fmt pt pf ra rb) (halfFcmpEq fmt pt pf ra rb))
/-- `FCMP_LT` (R129). -/
def execFcmpLt (fmt : FFmt) (pt : Pred) (pf : Pred) (ra : Reg) (rb : Reg) (s : State) : Host.Outcome State Fault Refusal :=
  .next (s.issueS (.fcmpLt fmt pt pf ra rb) (halfFcmpLt fmt pt pf ra rb))
/-- `FCMP_LE` (R129). -/
def execFcmpLe (fmt : FFmt) (pt : Pred) (pf : Pred) (ra : Reg) (rb : Reg) (s : State) : Host.Outcome State Fault Refusal :=
  .next (s.issueS (.fcmpLe fmt pt pf ra rb) (halfFcmpLe fmt pt pf ra rb))
/-- `FCMP_UN` (R129). -/
def execFcmpUn (fmt : FFmt) (pt : Pred) (pf : Pred) (ra : Reg) (rb : Reg) (s : State) : Host.Outcome State Fault Refusal :=
  .next (s.issueS (.fcmpUn fmt pt pf ra rb) (halfFcmpUn fmt pt pf ra rb))
/-- `QBS_E2M1` (R100). -/
def execQbsE2m1 (rd : Reg) (ra : Reg) (rb : Reg) (s : State) : Host.Outcome State Fault Refusal :=
  .next (s.issueS (.qbsE2m1 rd ra rb) (halfQbsE2m1 rd ra rb))
/-- `QBS_E4M3` (R100). -/
def execQbsE4m3 (rd : Reg) (ra : Reg) (rb : Reg) (s : State) : Host.Outcome State Fault Refusal :=
  .next (s.issueS (.qbsE4m3 rd ra rb) (halfQbsE4m3 rd ra rb))
/-- `DQBS_E2M1` (R100). -/
def execDqbsE2m1 (rd : Reg) (ra : Reg) (rb : Reg) (s : State) : Host.Outcome State Fault Refusal :=
  .next (s.issueS (.dqbsE2m1 rd ra rb) (halfDqbsE2m1 rd ra rb))
/-- `DQBS_E4M3` (R100). -/
def execDqbsE4m3 (rd : Reg) (ra : Reg) (rb : Reg) (s : State) : Host.Outcome State Fault Refusal :=
  .next (s.issueS (.dqbsE4m3 rd ra rb) (halfDqbsE4m3 rd ra rb))
/-- `NISPLIT` (R102). -/
def execNisplit (rd : Reg) (ra : Reg) (s : State) : Host.Outcome State Fault Refusal :=
  .next (s.issueS (.nisplit rd ra) (halfNisplit rd ra))
/-- `NIJOIN` (R102). -/
def execNijoin (rd : Reg) (ra : Reg) (rb : Reg) (s : State) : Host.Outcome State Fault Refusal :=
  .next (s.issueS (.nijoin rd ra rb) (halfNijoin rd ra rb))
/-- `CVT` (R98). -/
def execCvt (dst : Fmt) (src : Fmt) (rd : Reg) (ra : Reg) (s : State) : Host.Outcome State Fault Refusal :=
  .next (s.issueS (.cvt dst src rd ra) (halfCvt dst src rd ra))

end Sys2Proof.Machine
end

