-- ==== Sys2Proof/Machine/Scratchpad.lean ====
section
/-! DEFINITION. Scratchpad access instructions (05_scratchpad.md R145 to R157): loads, stores, full/empty instructions, atomics, directory. -/
namespace Sys2Proof.Machine

/-- A load of `n` bytes at the address that `addr` gives, widened by `ext` (R145, R157). -/
def loadHalf (rd : Reg) (srcs : List Reg) (addr : Thread → Nat) (n : Nat) (ext : Nat → W64) (warn : BitVec 9) : Half :=
  { srcs := srcs, dsts := [rd]
    checks := fun s => s.ctile.access (addr s.cthr) n true
    touches := fun s => [(addr s.cthr, n)]
    eff := fun pre s =>
      let a := addr pre.cthr
      let v := pre.load pre.tx pre.cthr a n
      (s.noteLoad a n).modCur fun t => (t.wr rd (ext v)).setWarn warn }
/-- A store of the low `n` bytes of `gd` (R145, R139, R157). -/
def storeHalf (rd : Reg) (srcs : List Reg) (addr : Thread → Nat) (n : Nat) : Half :=
  { srcs := rd :: srcs
    checks := fun s => s.ctile.access (addr s.cthr) n (n != 8)
    spec := fun s => storeAct (addr s.cthr) n s
    touches := fun s => [(addr s.cthr, n)]
    eff := fun pre s => s.threadStore (addr pre.cthr) n (pre.cthr.rd rd).toNat }
def dispOf (ra : Reg) (imm : BitVec 9) (n : Nat) (t : Thread) : Nat := dispAddr (t.rd ra) imm n
def halfLdb (rd ra : Reg) (imm : BitVec 9) : Half := loadHalf rd [ra] (dispOf ra imm 1) 1 (sextN 8) 0
def halfLdbz (rd ra : Reg) (imm : BitVec 9) : Half := loadHalf rd [ra] (dispOf ra imm 1) 1 (zextN 8) 0
def halfLdh (rd ra : Reg) (imm : BitVec 9) : Half := loadHalf rd [ra] (dispOf ra imm 2) 2 (sextN 16) 0
def halfLdhz (rd ra : Reg) (imm : BitVec 9) : Half := loadHalf rd [ra] (dispOf ra imm 2) 2 (zextN 16) 0
def halfLdw (rd ra : Reg) (imm : BitVec 9) : Half := loadHalf rd [ra] (dispOf ra imm 4) 4 (sextN 32) 0
def halfLdwz (rd ra : Reg) (imm : BitVec 9) : Half := loadHalf rd [ra] (dispOf ra imm 4) 4 (zextN 32) 0
def halfLdd (rd ra : Reg) (imm : BitVec 9) : Half := loadHalf rd [ra] (dispOf ra imm 8) 8 (BitVec.ofNat 64) 0
def halfStb (rd ra : Reg) (imm : BitVec 9) : Half := storeHalf rd [ra] (dispOf ra imm 1) 1
def halfSth (rd ra : Reg) (imm : BitVec 9) : Half := storeHalf rd [ra] (dispOf ra imm 2) 2
def halfStw (rd ra : Reg) (imm : BitVec 9) : Half := storeHalf rd [ra] (dispOf ra imm 4) 4
def halfStd (rd ra : Reg) (imm : BitVec 9) : Half := storeHalf rd [ra] (dispOf ra imm 8) 8
/-- `cr.warn` bit xz (R65). -/
def warnXz : BitVec 9 := 0x080
def indexOf (ra rb : Reg) (sz : BitVec 2) (scaled : Bool) (t : Thread) : Nat := indexAddr (t.rd ra) (t.rd rb) sz.toNat scaled
def halfLdx (sz : BitVec 2) (zx scaled : Bool) (rd ra rb : Reg) : Half :=
  let n := 2 ^ sz.toNat
  loadHalf rd [ra, rb] (indexOf ra rb sz scaled) n (if zx then zextN (8 * n) else sextN (8 * n)) (if zx && sz == 3 then warnXz else 0)
def halfStx (sz : BitVec 2) (scaled : Bool) (rd ra rb : Reg) : Half := storeHalf rd [ra, rb] (indexOf ra rb sz scaled) (2 ^ sz.toNat)

/-! Full/empty instructions (R147 to R150). -/
/-- Shared form: the awaited state of the word (none: never waits), the answer in a speculative window, and the event. -/
def feHalf (srcs dsts : List Reg) (ra : Reg) (imm : BitVec 9) (await : Option Bool) (spec : State → SpecAct)
    (ev : State → Nat → State → State) : Half :=
  { srcs := srcs, dsts := dsts
    checks := fun s => s.ctile.access (dispOf ra imm 8 s.cthr) 8 true
    spec := spec
    gate := fun s =>
      let a := dispOf ra imm 8 s.cthr
      match await with
      | some f => if s.ctile.isFull a = f then none else some (a, f)
      | none => none
    touches := fun s => [(dispOf ra imm 8 s.cthr, 8)]
    eff := fun pre s => (ev pre (dispOf ra imm 8 pre.cthr) s).modCur fun t => { t with feCount := 0 } }
/-- `LDF` and `WAITF` act on a full word in a speculative window (R157). -/
def fullAct (ra : Reg) (imm : BitVec 9) (s : State) : SpecAct := if s.ctile.isFull (dispOf ra imm 8 s.cthr) then .go else .ends
/-- The word that decides so, where it ends speculation. -/
def probeFull (ra : Reg) (imm : BitVec 9) (s : State) : Option Nat :=
  if fullAct ra imm s = .ends then some (dispOf ra imm 8 s.cthr) else none
def endsAct (_ : State) : SpecAct := .ends
def State.readInto (s pre : State) (rd : Reg) (a : Nat) : State :=
  (s.noteLoad a 8).modCur fun t => t.wr rd (BitVec.ofNat 64 (pre.load pre.tx pre.cthr a 8))
def State.setFullAt (s : State) (a : Nat) (f : Bool) : State := (s.modCtile fun t => t.setFull a f).conflict s.tx (some s.cthr.cid) a 8
def halfLdf (rd ra : Reg) (imm : BitVec 9) : Half :=
  { feHalf [ra] [rd] ra imm (some true) (fullAct ra imm) fun pre a s => s.readInto pre rd a with probes := probeFull ra imm }
def halfLde (rd ra : Reg) (imm : BitVec 9) : Half :=
  feHalf [ra] [rd] ra imm (some true) endsAct fun pre a s => (s.readInto pre rd a).setFullAt a false
def halfStf (rd ra : Reg) (imm : BitVec 9) : Half :=
  feHalf [rd, ra] [] ra imm none endsAct fun pre a s => (s.threadStore a 8 (pre.cthr.rd rd).toNat).setFullAt a true
def halfSte (rd ra : Reg) (imm : BitVec 9) : Half :=
  feHalf [rd, ra] [] ra imm (some false) endsAct fun pre a s => (s.threadStore a 8 (pre.cthr.rd rd).toNat).setFullAt a true
def halfWaitf (ra : Reg) (imm : BitVec 9) : Half :=
  { feHalf [ra] [] ra imm (some true) (fullAct ra imm) fun _ a s => s.noteLoad a 8 with probes := probeFull ra imm }

/-! Atomics (R151 to R154). -/
/-- Read, compute, write as one event: `f` gives the new value (none: no write), the register result and the flags, from the old
value and the two registers. -/
def amoHalf (n : Nat) (noret cas : Bool) (rd ra rb : Reg) (f : Nat → Nat → Nat → Option Nat × W64 × FFlags) : Half :=
  { srcs := if cas then [ra, rb, rd] else [ra, rb], dsts := if noret then [] else [rd]
    checks := fun s => s.ctile.access (s.cthr.rd ra).toNat n true
    spec := endsAct
    touches := fun s => [((s.cthr.rd ra).toNat, n)]
    eff := fun pre s =>
      let p := pre.cthr
      let a := (p.rd ra).toNat
      let (new, r, fl) := f (pre.load pre.tx p a n) ((p.rd rb).toNat % 2 ^ (8 * n)) ((p.rd rd).toNat % 2 ^ (8 * n))
      let s := s.scrub s.tx a n
      let s := match new with
        | some v => s.threadStore a n v
        | none => s
      s.modCur fun t => (if noret then t else t.wr rd r).orFlags fl }
/-- An integer atomic that always writes (R151). -/
def amoInt (wide noret zx : Bool) (rd ra rb : Reg) (f : Nat → Nat → Nat → Nat) : Half :=
  let n := if wide then 8 else 4
  amoHalf n noret false rd ra rb fun old b _ => (some (f (8 * n) old b), if zx then zextN (8 * n) old else sextN (8 * n) old, 0)
/-- Signed order of two `w`-bit values. -/
def sltN (w a b : Nat) : Bool := (sextN w a).slt (sextN w b)
def halfAmoadd (wide noret : Bool) (rd ra rb : Reg) : Half := amoInt wide noret false rd ra rb fun w o b => (o + b) % 2 ^ w
def halfAmomax (wide noret : Bool) (rd ra rb : Reg) : Half := amoInt wide noret false rd ra rb fun w o b => if sltN w o b then b else o
def halfAmomin (wide noret : Bool) (rd ra rb : Reg) : Half := amoInt wide noret false rd ra rb fun w o b => if sltN w b o then b else o
def halfAmomaxz (wide noret : Bool) (rd ra rb : Reg) : Half := amoInt wide noret true rd ra rb fun _ o b => max o b
def halfAmominz (wide noret : Bool) (rd ra rb : Reg) : Half := amoInt wide noret true rd ra rb fun _ o b => min o b
def halfAmoand (wide noret : Bool) (rd ra rb : Reg) : Half := amoInt wide noret false rd ra rb fun _ o b => o &&& b
def halfAmoor (wide noret : Bool) (rd ra rb : Reg) : Half := amoInt wide noret false rd ra rb fun _ o b => o ||| b
def halfAmoxor (wide noret : Bool) (rd ra rb : Reg) : Half := amoInt wide noret false rd ra rb fun _ o b => o ^^^ b
def halfAmoswap (wide noret : Bool) (rd ra rb : Reg) : Half := amoInt wide noret false rd ra rb fun _ _ b => b
def halfAmocas (wide noret : Bool) (rd ra rb : Reg) : Half :=
  let n := if wide then 8 else 4
  amoHalf n noret true rd ra rb fun old b d => (if old = d ∧ b ≠ old then some b else none, sextN (8 * n) old, 0)
/-- A floating-point atomic (R152, R153). -/
def amoFp (half noret : Bool) (rd ra rb : Reg) (f : Nat → Nat → Nat → Nat × FFlags) : Half :=
  let n := if half then 2 else 4
  amoHalf n noret false rd ra rb fun old b _ =>
    let (y, fl) := f (if half then 9 else 8) old b
    (some y, zextN (8 * n) old, fl)
def halfAmofadd (half noret : Bool) (rd ra rb : Reg) : Half := amoFp half noret rd ra rb fun c x y => fArith c 0 x y 0 0
def halfAmofmax (half noret : Bool) (rd ra rb : Reg) : Half := amoFp half noret rd ra rb fun c x y => fMinMaxNan c true x y
def halfAmofmin (half noret : Bool) (rd ra rb : Reg) : Half := amoFp half noret rd ra rb fun c x y => fMinMaxNan c false x y

/-! The key directory (R155, R156). -/
def dirMiss : W64 := BitVec.allOnes 64
def dirFull : W64 := 0xFFFFFFFFFFFFFFFE
def Tile.dirFind (t : Tile) (k : W64) : Option (BitVec 32) := (t.dir.find? fun e => e.1 == k).map Prod.snd
/-- A directory operation: `f` gives the new directory and the result. A search that meets an entry with a parity error raises
PARITY-SYNC; the search compares every valid entry (DEDUCED, log 16). -/
def dirHalf (rd ra : Reg) (srcs : List Reg) (f : Tile → Thread → List (W64 × BitVec 32) × W64) : Half :=
  { srcs := srcs, dsts := [rd]
    checks := fun s => if s.ctile.badDir.isEmpty then [] else [⟨10, cPARITY, s.cthr.rd ra⟩]
    spec := endsAct
    eff := fun pre s =>
      let (d, r) := f pre.ctile pre.cthr
      (s.modCtile fun t => { t with dir := d }).modCur fun t => t.wr rd r }
def slotWord (v : Option (BitVec 32)) : W64 := (v.map (BitVec.zeroExtend 64)).getD dirMiss
def halfDlook (rd ra : Reg) : Half := dirHalf rd ra [ra] fun l t => (l.dir, slotWord (l.dirFind (t.rd ra)))
def halfDins (rd ra rb : Reg) : Half :=
  dirHalf rd ra [ra, rb] fun l t =>
    let k := t.rd ra
    let v := (t.rd rb).truncate 32
    match l.dirFind k with
    | some o => (l.dir.map fun e => if e.1 = k then (k, v) else e, o.zeroExtend 64)
    | none => if l.dir.length < 256 then (l.dir ++ [(k, v)], dirMiss) else (l.dir, dirFull)
def halfDdel (rd ra : Reg) : Half :=
  dirHalf rd ra [ra] fun l t => (l.dir.filter fun e => e.1 != t.rd ra, slotWord (l.dirFind (t.rd ra)))

/-! The meanings: each issues its operation alone. -/
/-- `LDB` (R145). -/
def execLdb (rd : Reg) (ra : Reg) (imm : BitVec 9) (s : State) : Host.Outcome State Fault Refusal :=
  .next (s.issueS (.ldb rd ra imm) (halfLdb rd ra imm))
/-- `LDBZ` (R145). -/
def execLdbz (rd : Reg) (ra : Reg) (imm : BitVec 9) (s : State) : Host.Outcome State Fault Refusal :=
  .next (s.issueS (.ldbz rd ra imm) (halfLdbz rd ra imm))
/-- `LDH` (R145). -/
def execLdh (rd : Reg) (ra : Reg) (imm : BitVec 9) (s : State) : Host.Outcome State Fault Refusal :=
  .next (s.issueS (.ldh rd ra imm) (halfLdh rd ra imm))
/-- `LDHZ` (R145). -/
def execLdhz (rd : Reg) (ra : Reg) (imm : BitVec 9) (s : State) : Host.Outcome State Fault Refusal :=
  .next (s.issueS (.ldhz rd ra imm) (halfLdhz rd ra imm))
/-- `LDW` (R145). -/
def execLdw (rd : Reg) (ra : Reg) (imm : BitVec 9) (s : State) : Host.Outcome State Fault Refusal :=
  .next (s.issueS (.ldw rd ra imm) (halfLdw rd ra imm))
/-- `LDWZ` (R145). -/
def execLdwz (rd : Reg) (ra : Reg) (imm : BitVec 9) (s : State) : Host.Outcome State Fault Refusal :=
  .next (s.issueS (.ldwz rd ra imm) (halfLdwz rd ra imm))
/-- `LDD` (R145). -/
def execLdd (rd : Reg) (ra : Reg) (imm : BitVec 9) (s : State) : Host.Outcome State Fault Refusal :=
  .next (s.issueS (.ldd rd ra imm) (halfLdd rd ra imm))
/-- `STB` (R145). -/
def execStb (rd : Reg) (ra : Reg) (imm : BitVec 9) (s : State) : Host.Outcome State Fault Refusal :=
  .next (s.issueS (.stb rd ra imm) (halfStb rd ra imm))
/-- `STH` (R145). -/
def execSth (rd : Reg) (ra : Reg) (imm : BitVec 9) (s : State) : Host.Outcome State Fault Refusal :=
  .next (s.issueS (.sth rd ra imm) (halfSth rd ra imm))
/-- `STW` (R145). -/
def execStw (rd : Reg) (ra : Reg) (imm : BitVec 9) (s : State) : Host.Outcome State Fault Refusal :=
  .next (s.issueS (.stw rd ra imm) (halfStw rd ra imm))
/-- `STD` (R145). -/
def execStd (rd : Reg) (ra : Reg) (imm : BitVec 9) (s : State) : Host.Outcome State Fault Refusal :=
  .next (s.issueS (.std rd ra imm) (halfStd rd ra imm))
/-- `LDX` (R146). -/
def execLdx (sz : BitVec 2) (zx : Bool) (scaled : Bool) (rd : Reg) (ra : Reg) (rb : Reg) (s : State) : Host.Outcome State Fault Refusal :=
  .next (s.issueS (.ldx sz zx scaled rd ra rb) (halfLdx sz zx scaled rd ra rb))
/-- `STX` (R146). -/
def execStx (sz : BitVec 2) (scaled : Bool) (rd : Reg) (ra : Reg) (rb : Reg) (s : State) : Host.Outcome State Fault Refusal :=
  .next (s.issueS (.stx sz scaled rd ra rb) (halfStx sz scaled rd ra rb))
/-- `LDF` (R147). -/
def execLdf (rd : Reg) (ra : Reg) (imm : BitVec 9) (s : State) : Host.Outcome State Fault Refusal :=
  .next (s.issueS (.ldf rd ra imm) (halfLdf rd ra imm))
/-- `LDE` (R147). -/
def execLde (rd : Reg) (ra : Reg) (imm : BitVec 9) (s : State) : Host.Outcome State Fault Refusal :=
  .next (s.issueS (.lde rd ra imm) (halfLde rd ra imm))
/-- `STF` (R147). -/
def execStf (rd : Reg) (ra : Reg) (imm : BitVec 9) (s : State) : Host.Outcome State Fault Refusal :=
  .next (s.issueS (.stf rd ra imm) (halfStf rd ra imm))
/-- `STE` (R147). -/
def execSte (rd : Reg) (ra : Reg) (imm : BitVec 9) (s : State) : Host.Outcome State Fault Refusal :=
  .next (s.issueS (.ste rd ra imm) (halfSte rd ra imm))
/-- `WAITF` (R147). -/
def execWaitf (ra : Reg) (imm : BitVec 9) (s : State) : Host.Outcome State Fault Refusal :=
  .next (s.issueS (.waitf ra imm) (halfWaitf ra imm))
/-- `AMOADD` (R151). -/
def execAmoadd (wide : Bool) (noret : Bool) (rd : Reg) (ra : Reg) (rb : Reg) (s : State) : Host.Outcome State Fault Refusal :=
  .next (s.issueS (.amoadd wide noret rd ra rb) (halfAmoadd wide noret rd ra rb))
/-- `AMOMAX` (R151). -/
def execAmomax (wide : Bool) (noret : Bool) (rd : Reg) (ra : Reg) (rb : Reg) (s : State) : Host.Outcome State Fault Refusal :=
  .next (s.issueS (.amomax wide noret rd ra rb) (halfAmomax wide noret rd ra rb))
/-- `AMOMIN` (R151). -/
def execAmomin (wide : Bool) (noret : Bool) (rd : Reg) (ra : Reg) (rb : Reg) (s : State) : Host.Outcome State Fault Refusal :=
  .next (s.issueS (.amomin wide noret rd ra rb) (halfAmomin wide noret rd ra rb))
/-- `AMOMAXZ` (R151). -/
def execAmomaxz (wide : Bool) (noret : Bool) (rd : Reg) (ra : Reg) (rb : Reg) (s : State) : Host.Outcome State Fault Refusal :=
  .next (s.issueS (.amomaxz wide noret rd ra rb) (halfAmomaxz wide noret rd ra rb))
/-- `AMOMINZ` (R151). -/
def execAmominz (wide : Bool) (noret : Bool) (rd : Reg) (ra : Reg) (rb : Reg) (s : State) : Host.Outcome State Fault Refusal :=
  .next (s.issueS (.amominz wide noret rd ra rb) (halfAmominz wide noret rd ra rb))
/-- `AMOAND` (R151). -/
def execAmoand (wide : Bool) (noret : Bool) (rd : Reg) (ra : Reg) (rb : Reg) (s : State) : Host.Outcome State Fault Refusal :=
  .next (s.issueS (.amoand wide noret rd ra rb) (halfAmoand wide noret rd ra rb))
/-- `AMOOR` (R151). -/
def execAmoor (wide : Bool) (noret : Bool) (rd : Reg) (ra : Reg) (rb : Reg) (s : State) : Host.Outcome State Fault Refusal :=
  .next (s.issueS (.amoor wide noret rd ra rb) (halfAmoor wide noret rd ra rb))
/-- `AMOXOR` (R151). -/
def execAmoxor (wide : Bool) (noret : Bool) (rd : Reg) (ra : Reg) (rb : Reg) (s : State) : Host.Outcome State Fault Refusal :=
  .next (s.issueS (.amoxor wide noret rd ra rb) (halfAmoxor wide noret rd ra rb))
/-- `AMOSWAP` (R151). -/
def execAmoswap (wide : Bool) (noret : Bool) (rd : Reg) (ra : Reg) (rb : Reg) (s : State) : Host.Outcome State Fault Refusal :=
  .next (s.issueS (.amoswap wide noret rd ra rb) (halfAmoswap wide noret rd ra rb))
/-- `AMOCAS` (R151). -/
def execAmocas (wide : Bool) (noret : Bool) (rd : Reg) (ra : Reg) (rb : Reg) (s : State) : Host.Outcome State Fault Refusal :=
  .next (s.issueS (.amocas wide noret rd ra rb) (halfAmocas wide noret rd ra rb))
/-- `AMOFADD` (R152). -/
def execAmofadd (half : Bool) (noret : Bool) (rd : Reg) (ra : Reg) (rb : Reg) (s : State) : Host.Outcome State Fault Refusal :=
  .next (s.issueS (.amofadd half noret rd ra rb) (halfAmofadd half noret rd ra rb))
/-- `AMOFMAX` (R153). -/
def execAmofmax (half : Bool) (noret : Bool) (rd : Reg) (ra : Reg) (rb : Reg) (s : State) : Host.Outcome State Fault Refusal :=
  .next (s.issueS (.amofmax half noret rd ra rb) (halfAmofmax half noret rd ra rb))
/-- `AMOFMIN` (R153). -/
def execAmofmin (half : Bool) (noret : Bool) (rd : Reg) (ra : Reg) (rb : Reg) (s : State) : Host.Outcome State Fault Refusal :=
  .next (s.issueS (.amofmin half noret rd ra rb) (halfAmofmin half noret rd ra rb))
/-- `DLOOK` (R156). -/
def execDlook (rd : Reg) (ra : Reg) (s : State) : Host.Outcome State Fault Refusal :=
  .next (s.issueS (.dlook rd ra) (halfDlook rd ra))
/-- `DINS` (R156). -/
def execDins (rd : Reg) (ra : Reg) (rb : Reg) (s : State) : Host.Outcome State Fault Refusal :=
  .next (s.issueS (.dins rd ra rb) (halfDins rd ra rb))
/-- `DDEL` (R156). -/
def execDdel (rd : Reg) (ra : Reg) (s : State) : Host.Outcome State Fault Refusal :=
  .next (s.issueS (.ddel rd ra) (halfDdel rd ra))

end Sys2Proof.Machine
end

