-- ==== Sys2Proof/Machine/Tuple.lean ====
section
/-! DEFINITION. Tuple and copy instructions at issue (09_tuple_instr.md R278 to R312; 10_spanning.md R317 to R319; 08_tuples_homes.md
R262 to R265): the descriptor, the checks of R286 and R319, the request that enters the tile's queue, and `TFENCE` and `TSTAT`. -/
namespace Sys2Proof.Machine

/-! Tokens and handles (R254, R263). -/
def tokPkg (t : W64) : Nat := bitsOf t 48 16
def tokTenant (t : W64) : Nat := bitsOf t 40 8
def tokRegion (t : W64) : Nat := bitsOf t 24 16
def tokKind (t : W64) : Nat := bitsOf t 22 2
def tokGen (t : W64) : Nat := bitsOf t 0 22
def hHome (h : W64) : Nat := bitsOf h 32 32
def hKind (h : W64) : Nat := bitsOf h 31 1
def hPlace (h : W64) : Nat := bitsOf h 13 18
def hGen (h : W64) : Nat := bitsOf h 0 13
/-- A handle from the home's name, its kind, the place and the generation (R254). -/
def handleOf (home : BitVec 32) (kind place gen : Nat) : W64 :=
  BitVec.ofNat 64 (home.toNat * 2 ^ 32 + kind * 2 ^ 31 + place % 2 ^ 18 * 2 ^ 13 + gen % 2 ^ 13)

/-! The descriptor (R283 to R285). -/
/-- Word `i` of a descriptor's bytes. -/
def wordAt (bs : List Byte) (i : Nat) : W64 := BitVec.ofNat 64 (natOfBytes ((bs.drop (8 * i)).take 8))
def fNcw : Nat := 3
def fNd : Nat := 2
def fSb : Nat := 1
def fKb : Nat := 0
def fDir : Nat := 4
def Desc.flag (d : Desc) (i : Nat) : Bool := d.flags.getLsbD i
/-- Reads the 128 bytes of a descriptor. -/
def readDesc (bs : List Byte) : Desc :=
  { key := BitVec.ofNat 256 (natOfBytes (bs.take 32)), care := BitVec.ofNat 256 (natOfBytes ((bs.drop 32).take 32)),
    addr := bitsOf (wordAt bs 8) 0 48, flags := BitVec.ofNat 5 (bitsOf (wordAt bs 9) 40 5), fmt := bitsOf (wordAt bs 9) 32 5,
    plen := bitsOf (wordAt bs 9) 0 32, p2 := wordAt bs 10, p3 := wordAt bs 11, ctag := bitsOf (wordAt bs 12) 16 48,
    deadline := bitsOf (wordAt bs 13) 40 24, cpkt := bitsOf (wordAt bs 13) 20 20, cw := bitsOf (wordAt bs 13) 0 20, token := wordAt bs 14 }
/-- The scratchpad address in a register (R279). -/
def spAddr (v : W64) : Nat := bitsOf v 0 20
def State.descAt (s : State) (a : Nat) : Desc := readDesc (s.threadRead a 128)
/-- The packet words at `a`: word 0, then as many as its length says (R278, R381). -/
def State.packetAt (s : State) (a : Nat) : Packet :=
  let len := pktLen [wordAt (s.threadRead a 8) 0]
  let bs := s.threadRead a (8 * len)
  (List.range len).map (wordAt bs)
def isRT : TKind → Bool
  | .readB | .readP | .readC | .takeB | .takeP | .takeC => true
  | _ => false
def isCont : TKind → Bool
  | .readC | .takeC => true
  | _ => false
/-- Operations whose addr field is a scratchpad range of plen bytes (R284, R286). -/
def hasRange : TKind → Bool
  | .put | .putI | .accA | .copyin | .copyout | .copyr => true
  | k => isRT k
def isCopy : TKind → Bool
  | .copyin | .copyout | .copyr => true
  | _ => false
def isPut : TKind → Bool
  | .put | .putI | .putR | .putG => true
  | _ => false
/-- A packet is sampled with the descriptor: continuation forms and join cells. -/
def hasPacket (k : TKind) (d : Desc) : Bool := isCont k || (k == .ctrO && d.addr / 2 ^ 32 % 2 == 0)
/-- Flags that apply to an instruction (R285). -/
def flagsOf (k : TKind) : BitVec 5 := if isRT k then 0xF else if k = .copyr then 0x18 else 0x8
/-- A reserved descriptor field or reserved flag is not zero (R283 to R285). -/
def descReserved (k : TKind) (bs : List Byte) : Bool :=
  let d := readDesc bs
  let w := wordAt bs
  bitsOf (w 8) 48 16 != 0 || bitsOf (w 9) 45 19 != 0 || bitsOf (w 9) 37 3 != 0 || bitsOf (w 12) 0 16 != 0 || (d.flags &&& ~~~(flagsOf k)) != 0 ||
  ((isRT k || k == .takeN || k == .putG || k == .range || k == .ctrO || k == .accA) && d.fmt != 0) ||
  (hasRange k && d.addr ≥ 2 ^ 20) ||
  ((k == .putG || k == .takeN || k == .range) && d.addr != 0) || ((k == .range || k == .ctrO) && d.plen != 0) ||
  (k == .accO && (d.addr % 2 ^ 16 ≥ 2 ^ 11 || d.addr ≥ 2 ^ 24)) ||
  (k == .ctrO && d.addr ≥ 2 ^ 33) ||
  ((k == .takeN || k == .ctrO || k == .accA || isCopy k) && (d.p2 != 0 || d.p3 != 0)) ||
  (isCopy k && (bitsOf (w 0) 48 16 != 0 || w 1 != 0 || w 2 != 0 || w 3 != 0)) ||
  (hasPacket k d && bitsOf d.token 32 32 != 0)
/-- Parameters of `ACC.O` inside R262. -/
def accParams (d : Desc) : Bool :=
  let n := d.addr % 2 ^ 11
  let pk := d.addr / 2 ^ 16 % 2 ^ 8
  (d.fmt == 8 || d.fmt == 2 || d.fmt == 3) && 1 ≤ n && n ≤ 1024 && (pk == 1 || pk == 2 || pk == 4 || pk == 8) && n % pk == 0 &&
    d.plen ≤ 65536 && d.plen % (if d.fmt = 3 then 8 else 4) == 0
/-- A grant usable in the tile's grant table (R264, R292). -/
def Tile.hasGrant (t : Tile) (tok : W64) : Bool := t.grants.contains (tok, true)
/-- A sys-mode `PUT.G` mints the first grant of a region (R415). -/
def State.mintable (s : State) (tok : W64) : Bool :=
  let tn := s.tenantOf s.tx
  s.cthr.sys && tokKind tok == 0 && tokPkg tok == s.pkg.toNat && tokTenant tok == tn &&
    match s.regionWords tn (tokRegion tok) with
    | some (_, _, w1) => rgState w1 == 1 && rgGen w1 == tokGen tok && rgIssued w1 == 0
    | none => false
/-- A target tile name that is legal: the issuing tile, or a tile of this package (R14, R286). -/
def State.targetOk (s : State) (n : Nat) : Bool := n == 0xFFFFFFFF || (s.tileOf n).isSome
def trapB (v : W64) (c : Bool) : List Trap := if c then [⟨6, cBOUNDS, v⟩] else []
def trapA (a : Nat) (c : Bool) : List Trap := if c then [⟨5, cALIGN, BitVec.ofNat 64 a⟩] else []
/-- STAT is reported for the lowest such address of several ranges (R286). -/
def lowestStat (ts : List Trap) : List Trap :=
  let st := ts.filter fun t => t.rank == 7
  (ts.filter fun t => t.rank != 7) ++
    match st.foldl (fun b t => match b with
      | none => some t
      | some u => if t.val.toNat < u.val.toNat then some t else some u) (none : Option Trap) with
    | some t => [t]
    | none => []

/-- The failing checks of R286 for an operation with a descriptor at `g[ra]`; `n` is the value of `gb`. -/
def descChecks (k : TKind) (ra : Reg) (rb : Option Reg) (s : State) : List Trap :=
  let t := s.cthr
  let l := s.ctile
  let a := spAddr (t.rd ra)
  let n := ((rb.map t.rd).getD 0)
  let bs := s.threadRead a 128
  let d := readDesc bs
  let ncw := d.flag fNcw
  let pkt := s.packetAt d.cpkt
  let tokV := d.token
  let nv := BitVec.ofNat 64
  let grantNeeded := match k with
    | .putG => !s.mintable tokV
    | .copyout => true
    | .copyr => d.flag fDir || tokKind tokV != 1
    | .copyin => tokKind tokV != 1
    | _ => false
  lowestStat (
    trapA a (a % 64 != 0) ++ trapA d.cw (!ncw && d.cw % 8 != 0) ++ trapA d.cpkt (hasPacket k d && d.cpkt % 8 != 0) ++
    l.span a 128 1 true ++
    (if hasRange k then l.span (d.addr % 2 ^ 20) d.plen 1 false else []) ++
    (if ncw then [] else l.span d.cw 8 1 false) ++
    (if hasPacket k d then l.span d.cpkt (8 * max 1 (pktLen pkt)) 1 true else []) ++
    trapB (nv a) (descReserved k bs) ++ trapB (nv d.fmt) (d.fmt ≥ 25) ++
    trapB (nv d.plen) (k == .putI && d.plen > 64) ++
    trapB (nv d.plen) ((isRT k || k == .put || k == .putR) && d.plen > 2 ^ 24) ++
    trapB (nv d.plen) (k == .putG && d.plen != 0) ++
    trapB tokV (k == .putR && tokKind tokV != 1) ++
    trapB (nv d.addr) (k == .accO && !accParams d) ++
    trapB n (k == .takeN && (n.toNat == 0 || n.toNat ≥ 2 ^ 32)) ++
    trapB 0 (k == .ctrO && d.addr % 2 ^ 32 == 0) ++
    trapB (nv d.cpkt) (hasPacket k d && !(4 ≤ pktLen pkt && pktLen pkt ≤ 27)) ++
    trapB tokV (hasPacket k d && !s.targetOk (bitsOf tokV 0 32)) ++
    trapB tokV ((k == .copyin || k == .copyout) && tokPkg tokV != s.pkg.toNat) ++
    trapB tokV (k == .copyr && (tokPkg tokV == s.pkg.toNat || tokPkg tokV == 0xFFFF)) ++
    (if grantNeeded && !l.hasGrant tokV then [⟨8, cGRANTSYNC, tokV⟩] else []))

/-! The request (R278, R282). -/
/-- The number of operations that hold a place of the request queue: those not yet routed or taken by the copy engine, and a `SEND` whose
packet meets a full ready queue (R104, R278, R306, R383). -/
def Tile.queued (t : Tile) : Nat := (t.ops.filter fun o => o.stage == .queued || (o.kind == .send && o.stage == .registered)).length
def opOf (id : Nat) (k : TKind) (cid asid : Nat) (rd : Reg) : TOp :=
  ⟨id, k, cid, asid, {}, 0, rd, 0, [], .queued, 0, false, false, false, 0⟩
/-- Enters an operation of the current thread in the records and counts it (R282, R426). -/
def State.request (s : State) (op : TOp) : State :=
  let op := { op with id := s.nextId, cid := s.cthr.cid, asid := s.ctile.asid, spec := s.cthr.speculative }
  let s := s.bump.modCtile fun t => { t with ops := t.ops ++ [op] }
  s.modCur fun t => { (t.launch op.id (some op.rd)) with requests := t.requests + 1 }
/-- The grant leaves the table but keeps its entry reserved; one that is minted marks its region issued (R292, R415). -/
def State.giveGrant (s : State) (x : Nat) (tok : W64) : State :=
  let t := s.tile x
  if t.hasGrant tok then s.setTile x { t with grants := t.grants.map fun g => if g.1 = tok then (tok, false) else g }
  else match s.regionWords (s.tenantOf x) (tokRegion tok) with
    | some (p, _, w1) => s.writeDram (p + 8) (bytesOfNat 8 (w1.toNat ||| 2 ^ 34))
    | none => s
/-- The record of an operation with the descriptor at `a`, as sampled in state `pre`. -/
def State.sampleOp (pre : State) (k : TKind) (a : Nat) (rd : Reg) (arg : W64) : TOp :=
  let d := pre.descAt a
  { opOf 0 k 0 0 rd with desc := d, dAddr := a, arg := arg, packet := if hasPacket k d then pre.packetAt d.cpkt else [] }
/-- `n` bytes at `a` lie inside the speculation area of the thread's window (R311). -/
def Thread.inside (t : Thread) (a n : Nat) : Bool :=
  match t.spec with
  | some sp => n = 0 || areaHas sp.area a n
  | none => false
/-- What a tuple or copy operation does in a speculative window (R311, R349). -/
def tupleAct (k : TKind) (rd ra : Reg) (s : State) : SpecAct :=
  let t := s.cthr
  let a := spAddr (t.rd ra)
  let d := s.descAt a
  let cwIn := d.flag fNcw || t.inside d.cw 8
  if isPut k then
    if rd = 0 ∧ cwIn then
      match t.spec with
      | some sp => if sp.used + 2 ≤ 64 then .go else .pause
      | none => .go
    else .ends
  else match k with
    | .readB | .readP => if t.inside d.addr d.plen && t.inside (a + 64) 64 && cwIn then .go else .ends
    | .copyin => if tokKind d.token = 1 && t.inside d.addr d.plen && t.inside (a + 64) 64 && cwIn then .go else .ends
    | _ => .ends
/-- The effect at issue of an operation with a descriptor: a request, or in a speculative window a deferred put (R312). Blocking forms
park the thread (R282). A speculative `READ.B` may turn out not issued, so its bundle's V half is held back (R311). -/
def tupleEff (k : TKind) (rd ra : Reg) (rb : Option Reg) (pre s : State) : State :=
  let t := pre.cthr
  let a := spAddr (t.rd ra)
  let op := pre.sampleOp k a rd ((rb.map t.rd).getD 0)
  let s := s.noteLoad a 128
  let s := if hasPacket k op.desc then s.noteLoad op.desc.cpkt (8 * op.packet.length) else s
  if isPut k && t.speculative then
    s.modCur fun t => { t with spec := t.spec.map fun sp => { sp with puts := sp.puts ++ [op] } }
  else
    let s := if k = .putG then s.giveGrant s.tx op.desc.token else s
    let id := s.nextId
    let s := s.request op
    if k = .readB ∨ k = .takeB then (s.park (.tuple id)).progress else s
/-- The ranges that an operation with a descriptor reads in its issue cycle: the descriptor, and the packet it names (R278). -/
def descTouches (k : TKind) (ra : Reg) (s : State) : List (Nat × Nat) :=
  let a := spAddr (s.cthr.rd ra)
  let d := s.descAt a
  (a, 128) :: if hasPacket k d then [(d.cpkt, 8 * max 1 (pktLen (s.packetAt d.cpkt)))] else []
/-- An operation with a descriptor (R280, R281). -/
def descHalf (k : TKind) (rd ra : Reg) (rb : Option Reg) : Half :=
  { srcs := ra :: rb.toList, dsts := [rd], long := fun _ => true, queue := true
    checks := descChecks k ra rb, spec := tupleAct k rd ra, touches := descTouches k ra, holds := fun s => k == .readB && s.cthr.speculative
    eff := tupleEff k rd ra rb }
def halfPut (rd ra : Reg) : Half := descHalf .put rd ra none
def halfPutI (rd ra : Reg) : Half := descHalf .putI rd ra none
def halfPutR (rd ra : Reg) : Half := descHalf .putR rd ra none
def halfPutG (rd ra : Reg) : Half := descHalf .putG rd ra none
def halfReadB (rd ra : Reg) : Half := descHalf .readB rd ra none
def halfReadP (rd ra : Reg) : Half := descHalf .readP rd ra none
def halfReadC (rd ra : Reg) : Half := descHalf .readC rd ra none
def halfTakeB (rd ra : Reg) : Half := descHalf .takeB rd ra none
def halfTakeP (rd ra : Reg) : Half := descHalf .takeP rd ra none
def halfTakeC (rd ra : Reg) : Half := descHalf .takeC rd ra none
def halfTakeN (rd ra rb : Reg) : Half := descHalf .takeN rd ra (some rb)
def halfRange (rd ra : Reg) : Half := descHalf .range rd ra none
def halfAccO (rd ra : Reg) : Half := descHalf .accO rd ra none
def halfAccA (rd ra rb : Reg) : Half := descHalf .accA rd ra (some rb)
def halfCtrO (rd ra : Reg) : Half := descHalf .ctrO rd ra none
def halfCopyin (rd ra : Reg) : Half := descHalf .copyin rd ra none
def halfCopyout (rd ra : Reg) : Half := descHalf .copyout rd ra none
def halfCopyr (rd ra : Reg) : Half := descHalf .copyr rd ra none
/-- An operation that names a handle or a token and has no descriptor: `arg` is its register, `n` a second number. -/
def plainHalf (k : TKind) (rd ra : Reg) (rb : Option Reg) (checks : State → List Trap) (eff : W64 → State → State) : Half :=
  { srcs := ra :: rb.toList, dsts := [rd], long := fun _ => true, queue := true, checks := checks, spec := endsAct
    eff := fun pre s =>
      let t := pre.cthr
      eff (t.rd ra) (s.request { opOf 0 k 0 0 rd with arg := t.rd ra, prog := ((rb.map t.rd).getD 0).toNat }) }
/-- A handle whose home field names no home is refused at issue, with the name (R14). -/
def badHandle (ra : Reg) (s : State) : List Trap :=
  let n := hHome (s.cthr.rd ra)
  trapB (BitVec.ofNat 64 n) (!homeNameOk n)
def halfCtrA (rd ra rb : Reg) : Half :=
  plainHalf .ctrA rd ra (some rb) (fun s =>
    let c := s.cthr.rd rb
    badHandle ra s ++ trapB c (c.toNat == 0 || c.toNat ≥ 2 ^ 32)) fun _ s => s
def halfTcancel (rd ra : Reg) : Half := plainHalf .tcancel rd ra none (badHandle ra) fun _ s => s
/-- `FREEZE` (R309): the grant leaves the table at issue. -/
def halfFreeze (rd ra : Reg) : Half :=
  { srcs := [ra], dsts := [rd], long := fun _ => true, queue := true, spec := endsAct
    checks := fun s => if s.ctile.hasGrant (s.cthr.rd ra) then [] else [⟨8, cGRANTSYNC, s.cthr.rd ra⟩]
    eff := fun pre s =>
      let tok := pre.cthr.rd ra
      let s := s.request { opOf 0 .freeze 0 0 rd with arg := tok, stage := .sent }
      s.modCtile fun t => { t with grants := t.grants.filter fun g => g.1 != tok } }

/-! `TSTAT` (R310). -/
def Tile.opsOf (t : Tile) (cid : Nat) : List TOp := t.ops.filter fun o => o.cid == cid
/-- Operations with a completion word still to come. -/
def hasWord (o : TOp) : Bool := !(o.kind == .ctrA || o.kind == .tcancel || o.kind == .freeze || o.kind == .tstat || o.kind == .bars || o.kind == .send ||
  o.kind == .tlbinv || o.kind == .crget || o.kind == .sleep) && !o.desc.flag fNcw
def tstatWord (l : List TOp) (a : Nat) : W64 :=
  let m := l.filter fun o => hasWord o && o.desc.cw == a
  match m with
  | [] => 0xFFFF
  | o :: _ =>
    let (w, st) := match o.stage with
      | .queued => (0, 0xFFFE)
      | .sent | .ended _ _ => (o.dest, 0xFFFD)
      | .registered => (o.dest, 0xFFFC)
      | .pager => (o.dest, 3)
    BitVec.ofNat 64 (w % 2 ^ 32 * 2 ^ 32 + min m.length 0xFFFF * 2 ^ 16 + st)
/-- A result already known at issue that is written `n` cycles later (R310, R359, R365, R420). -/
def State.later (s : State) (k : TKind) (rd : Reg) (v : W64) (n : Nat) : State :=
  let op := { opOf s.nextId k s.cthr.cid s.ctile.asid rd with arg := v, stage := .ended 0 v, prog := s.cycleOf s.tx + n }
  (s.bump.modCtile fun t => { t with ops := t.ops ++ [op] }).modCur fun t => t.launch op.id (some rd)
def halfTstat (rd ra : Reg) : Half :=
  { srcs := [ra], dsts := [rd], long := fun _ => true, queue := true
    eff := fun pre s =>
      let t := pre.cthr
      s.later .tstat rd (tstatWord (pre.ctile.opsOf t.cid) (spAddr (t.rd ra))) 4 }

/-! `TFENCE` (R304). -/
/-- An earlier operation that the fence waits for. -/
def TOp.fences (o : TOp) : Bool :=
  !o.performed && match o.kind with
    | .put | .putI | .putR | .putG | .readP | .readC | .takeP | .takeC | .takeN | .range | .accO | .accA | .ctrO | .ctrA | .tcancel => true
    | .copyout => true
    | .copyr => o.desc.flag fDir
    | _ => false
/-- The operation that a message to a tile answers. -/
def answers (b : Body) (x op : Nat) : Bool :=
  let asks := fun (w : Comb) => (combOps w).any fun e => e.1 == .tile x && e.2 == op
  match b with
  | .reply o _ _ _ => o == op
  | .deliver d => d.op == op
  | .rangeReply _ _ _ w _ | .ctrReply _ w _ => asks w
  | _ => false
/-- The condition of `TFENCE` holds for a thread: every operation that it waits for has been performed. One of a home of this package has been as
soon as its reply or delivery is under way and the notifications before it have been received (R304, R339). -/
def State.fenced (s : State) (x cid : Nat) : Bool :=
  ((s.tile x).opsOf cid).all fun o => !o.fences || !isCopy o.kind && s.net.any fun m =>
    answers m.body x o.id && (dstsOf m).contains (.tile x) && !s.awaitsNotice m
/-- The `TFENCE` wait ends: `cr.touched` is cleared (R304). -/
def State.tryTfence (s : State) (x cid : Nat) : State :=
  let t := s.tile x
  match t.thread cid with
  | some th => if th.wait = .tfence ∧ s.fenced x cid then (s.imaged x fun s => s.modCid x cid fun th => { th with touched := 0 }).wakeCid x cid else s
  | none => s
/-- Restarts the watchdog if the bundle has parked its thread (R378). -/
def State.progressIfParked (s : State) : State := if s.cthr.wait = .none then s else s.progress
def halfTfence : Half :=
  { spec := endsAct, eff := fun _ s => ((s.park .tfence).tryTfence s.tx s.cthr.cid).progressIfParked }

/-! `SPLIT` at issue (R317 to R319). -/
/-- The split request of a descriptor's bytes. -/
def readSplit (bs : List Byte) : SplitReq :=
  let w := wordAt bs
  ⟨0, bitsOf (w 0) 0 16, bitsOf (w 1) 0 32, BitVec.ofNat 32 (bitsOf (w 0) 32 32), bitsOf (w 2) 6 42 * 64, bitsOf (w 2) 0 6⟩
def splitReserved (bs : List Byte) : Bool :=
  let w := wordAt bs
  bitsOf (w 0) 16 16 != 0 || bitsOf (w 1) 32 32 != 0 || bitsOf (w 2) 48 16 != 0 || bitsOf (w 3) 0 16 != 0 || bitsOf (w 4) 20 44 != 0 || w 6 != 0 || w 7 != 0
def splitChecks (ra : Reg) (s : State) : List Trap :=
  let l := s.ctile
  let a := spAddr (s.cthr.rd ra)
  let bs := s.threadRead a 64
  let r := readSplit bs
  let cw := bitsOf (wordAt bs 4) 0 20
  lowestStat (trapA a (a % 64 != 0) ++ trapA cw (cw % 8 != 0) ++ l.span a 64 1 true ++ l.span cw 8 1 false ++
    trapB (BitVec.ofNat 64 a) (splitReserved bs) ++ trapB (r.target.zeroExtend 64) (!homeNameOk r.target.toNat) ++
    (if l.splits.any (fun e => e.2 == r.space) || l.splits.length ≥ Config.splitPlaces then [⟨9, cSPLITSTATE, BitVec.ofNat 64 r.space⟩] else []))
def halfSplit (rd ra : Reg) : Half :=
  { srcs := [ra], dsts := [rd], priv := fun _ => true, long := fun _ => true, queue := true, checks := splitChecks ra, spec := endsAct
    touches := fun s => [(spAddr (s.cthr.rd ra), 64)]
    eff := fun pre s =>
      let a := spAddr (pre.cthr.rd ra)
      let s := s.noteLoad a 64
      let bs := pre.threadRead a 64
      let r := readSplit bs
      let id := s.nextId
      let d : Desc := { key := keyOf [r.space, r.lo, r.target.toNat, r.nentm], addr := r.ntbase, ctag := bitsOf (wordAt bs 3) 16 48, cw := bitsOf (wordAt bs 4) 0 20 }
      (s.request { opOf 0 .split 0 0 rd with desc := d, dAddr := a }).modCtile fun t => { t with splits := t.splits ++ [(id, r.space)] } }

/-! The meanings: each issues its operation alone. -/
/-- `PUT` (R290). -/
def execPut (rd : Reg) (ra : Reg) (s : State) : Host.Outcome State Fault Refusal :=
  .next (s.issueS (.put rd ra) (halfPut rd ra))
/-- `PUT_I` (R290). -/
def execPutI (rd : Reg) (ra : Reg) (s : State) : Host.Outcome State Fault Refusal :=
  .next (s.issueS (.putI rd ra) (halfPutI rd ra))
/-- `PUT_R` (R291). -/
def execPutR (rd : Reg) (ra : Reg) (s : State) : Host.Outcome State Fault Refusal :=
  .next (s.issueS (.putR rd ra) (halfPutR rd ra))
/-- `PUT_G` (R292). -/
def execPutG (rd : Reg) (ra : Reg) (s : State) : Host.Outcome State Fault Refusal :=
  .next (s.issueS (.putG rd ra) (halfPutG rd ra))
/-- `READ_B` (R293). -/
def execReadB (rd : Reg) (ra : Reg) (s : State) : Host.Outcome State Fault Refusal :=
  .next (s.issueS (.readB rd ra) (halfReadB rd ra))
/-- `READ_P` (R293). -/
def execReadP (rd : Reg) (ra : Reg) (s : State) : Host.Outcome State Fault Refusal :=
  .next (s.issueS (.readP rd ra) (halfReadP rd ra))
/-- `READ_C` (R293). -/
def execReadC (rd : Reg) (ra : Reg) (s : State) : Host.Outcome State Fault Refusal :=
  .next (s.issueS (.readC rd ra) (halfReadC rd ra))
/-- `TAKE_B` (R293). -/
def execTakeB (rd : Reg) (ra : Reg) (s : State) : Host.Outcome State Fault Refusal :=
  .next (s.issueS (.takeB rd ra) (halfTakeB rd ra))
/-- `TAKE_P` (R293). -/
def execTakeP (rd : Reg) (ra : Reg) (s : State) : Host.Outcome State Fault Refusal :=
  .next (s.issueS (.takeP rd ra) (halfTakeP rd ra))
/-- `TAKE_C` (R293). -/
def execTakeC (rd : Reg) (ra : Reg) (s : State) : Host.Outcome State Fault Refusal :=
  .next (s.issueS (.takeC rd ra) (halfTakeC rd ra))
/-- `TAKE_N` (R298). -/
def execTakeN (rd : Reg) (ra : Reg) (rb : Reg) (s : State) : Host.Outcome State Fault Refusal :=
  .next (s.issueS (.takeN rd ra rb) (halfTakeN rd ra rb))
/-- `RANGE` (R299). -/
def execRange (rd : Reg) (ra : Reg) (s : State) : Host.Outcome State Fault Refusal :=
  .next (s.issueS (.range rd ra) (halfRange rd ra))
/-- `ACC_O` (R300). -/
def execAccO (rd : Reg) (ra : Reg) (s : State) : Host.Outcome State Fault Refusal :=
  .next (s.issueS (.accO rd ra) (halfAccO rd ra))
/-- `ACC_A` (R300). -/
def execAccA (rd : Reg) (ra : Reg) (rb : Reg) (s : State) : Host.Outcome State Fault Refusal :=
  .next (s.issueS (.accA rd ra rb) (halfAccA rd ra rb))
/-- `CTR_O` (R301). -/
def execCtrO (rd : Reg) (ra : Reg) (s : State) : Host.Outcome State Fault Refusal :=
  .next (s.issueS (.ctrO rd ra) (halfCtrO rd ra))
/-- `CTR_A` (R302). -/
def execCtrA (rd : Reg) (ra : Reg) (rb : Reg) (s : State) : Host.Outcome State Fault Refusal :=
  .next (s.issueS (.ctrA rd ra rb) (halfCtrA rd ra rb))
/-- `TCANCEL` (R303). -/
def execTcancel (rd : Reg) (ra : Reg) (s : State) : Host.Outcome State Fault Refusal :=
  .next (s.issueS (.tcancel rd ra) (halfTcancel rd ra))
/-- `TFENCE` (R304). -/
def execTfence (s : State) : Host.Outcome State Fault Refusal :=
  .next (s.issueS .tfence halfTfence)
/-- `COPYIN` (R305). -/
def execCopyin (rd : Reg) (ra : Reg) (s : State) : Host.Outcome State Fault Refusal :=
  .next (s.issueS (.copyin rd ra) (halfCopyin rd ra))
/-- `COPYOUT` (R305). -/
def execCopyout (rd : Reg) (ra : Reg) (s : State) : Host.Outcome State Fault Refusal :=
  .next (s.issueS (.copyout rd ra) (halfCopyout rd ra))
/-- `COPYR` (R307). -/
def execCopyr (rd : Reg) (ra : Reg) (s : State) : Host.Outcome State Fault Refusal :=
  .next (s.issueS (.copyr rd ra) (halfCopyr rd ra))
/-- `FREEZE` (R309). -/
def execFreeze (rd : Reg) (ra : Reg) (s : State) : Host.Outcome State Fault Refusal :=
  .next (s.issueS (.freeze rd ra) (halfFreeze rd ra))
/-- `SPLIT` (R317). -/
def execSplit (rd : Reg) (ra : Reg) (s : State) : Host.Outcome State Fault Refusal :=
  .next (s.issueS (.split rd ra) (halfSplit rd ra))
/-- `TSTAT` (R310). -/
def execTstat (rd : Reg) (ra : Reg) (s : State) : Host.Outcome State Fault Refusal :=
  .next (s.issueS (.tstat rd ra) (halfTstat rd ra))

end Sys2Proof.Machine
end

