-- ==== Sys2Proof/Machine/Sync.lean ====
section
/-! DEFINITION. Fences, barriers, speculation entry, sleep and wake at issue (11_sync.md R342 to R348, R357 to R365), with the waits that they
share with the events that end them. -/
namespace Sys2Proof.Machine

/-! Barrier registration (R342, R343, R359). -/
def Tile.barOf (t : Tile) (h : W64) : Option Nat := (List.range 16).find? fun e => (t.bar e).used && (t.bar e).handle == h
def Tile.freeBar (t : Tile) : Option Nat := (List.range 16).find? fun e => !(t.bar e).used
def bit8 (q : Nat) : BitVec 8 := 1#8 <<< q
/-- Registers a context on an entry; one that registers after the tile's arrival was sent counts as arrived (R359). -/
def Tile.register (t : Tile) (e cid : Nat) : Tile :=
  let b := t.bar e
  match t.slotOf cid with
  | some q => t.setBar e { b with reg := b.reg ||| bit8 q, arr := if b.sent then b.arr ||| bit8 q else b.arr }
  | none =>
    if (t.spilled cid).isSome then
      t.setBar e { b with sreg := b.sreg ++ [cid], sarr := if b.sent then b.sarr ++ [cid] else b.sarr }
    else t
def Tile.registered (t : Tile) (e cid : Nat) : Bool :=
  match t.slotOf cid with
  | some q => (t.bar e).reg.getLsbD q
  | none => (t.bar e).sreg.contains cid
/-- `BARS` (R359): local registration, or a registration sent to the home that the handle names. A handle that names no home ends it with the status BOUNDS
(DESIGN CHOICE, log 72). -/
def barsEff (rd ra : Reg) (pre s : State) : State :=
  let h := pre.cthr.rd ra
  let cid := pre.cthr.cid
  let x := s.tx
  let t := s.ctile
  let record (s : State) (e : Nat) : State :=
    let op := { opOf s.nextId .bars cid s.ctile.asid rd with arg := h, stage := .sent, dest := hHome h }
    let s := s.modCtile fun t => { (t.setBar e { t.bar e with pending := (t.bar e).pending ++ [(op.id, cid, 0)] }) with ops := t.ops ++ [op] }
    s.bump.modCur fun th => th.launch op.id (some rd)
  match t.barOf h with
  | some e =>
    if !(t.bar e).pending.isEmpty then record s e
    else
      let s := if t.registered e cid then s else s.modCtile fun t => t.register e cid
      (s.later .bars rd 0 1).arrivals x
  | none => match t.freeBar with
    | none => s.later .bars rd (BitVec.ofNat 64 stNOSPACE) 1
    | some e =>
      if !homeNameOk (hHome h) then s.later .bars rd (BitVec.ofNat 64 stBOUNDS) 1
      else match s.homeAgent (dieOf x) (s.tenantOf x) (hHome h) with
        | none => s.later .bars rd (BitVec.ofNat 64 stMISROUTE) 1
        | some dst =>
          let op := s.nextId
          let s := s.modCtile fun t => t.setBar e { used := true, handle := h }
          (record s e).send (.tile x) dst (s.tenantOf x) t.asid (.barReg op h h)
def halfBars (rd ra : Reg) : Half := { srcs := [ra], dsts := [rd], long := fun _ => true, spec := endsAct, eff := barsEff rd ra }

/-! Arrival (R345, R348). -/
/-- The rows' tags `t1` to `t7`, as the tag checkpoint holds them (R207). -/
def tagsOf (rows : Map Row) : Map (BitVec 8) := (rows.map fun e => (e.1, e.2.extractLsb' 256 8 &&& 0xFE)).filter fun e => e.2 != 0
/-- Opens the speculative window of a number on a barrier entry: takes the checkpoint of R348. -/
def Tile.openSpec (t : Tile) (q e no : Nat) : Tile :=
  match (t.slot q).thr with
  | none => t
  | some th =>
    let w := t.win th.win
    let sp : Spec := ⟨.active, no, 0, e, 0, th.pc, th.g, th.p, th.round, th.fmtA, th.fmtW, th.scaleA, th.scaleW, th.sparse, th.vl,
      if th.compute then w.fds else Vector.replicate 32 {}, th.specarea.zeroExtend 64, th.specfld, [], [], [], [], [], [], false, false⟩
    let t := t.setSlot q { t.slot q with thr := some { th with spec := some sp, wait := .none, specEntry := BitVec.ofNat 4 e } }
    if th.compute then t.setWin th.win { w with ckpt := some (tagsOf w.rows) } else t
/-- The arrival of a context that waits at `BARR` or `BARW`, once its counter is zero and the condition of `TFENCE` holds (R345); one that
takes a tag checkpoint also waits for its window's queue (R207). A thread that is being spilled counts as spilled (R348). -/
def State.tryArrive (s : State) (x cid : Nat) : State :=
  let t := s.tile x
  match t.thread cid with
  | none => s
  | some th => match th.wait with
    | .arrive e opens =>
      let out := th.susp || (t.slotOf cid).isNone || t.spilling == some cid
      let idle := (t.win th.win).queue.isEmpty && (t.win th.win).busy.isNone
      if th.outs.isEmpty && s.fenced x cid && (!opens || !th.compute || out || idle) then
        let s := s.imaged x fun s => s.modTile x fun t =>
          let t := t.modCid cid fun th => { th with touched := 0, wait := .release e }
          let b := t.bar e
          match t.slotOf cid with
          | some q =>
            let t := t.setBar e { b with arr := b.arr ||| bit8 q }
            if opens && !out then t.openSpec q e s.nextId else t
          | none => t.setBar e { b with sarr := b.sarr ++ [cid] }
        (if opens && !out then s.bump else s).arrivals x
      else s
    | _ => s
/-- `BARR` and `BARW` (R360). -/
def arriveHalf (opens : Bool) (ra : Reg) : Half :=
  { srcs := [ra], spec := endsAct
    checks := fun s =>
      let h := s.cthr.rd ra
      let ok := match s.ctile.barOf h with
        | some e => s.ctile.registered e s.cthr.cid
        | none => false
      trapB h (!ok)
    eff := fun pre s =>
      match s.ctile.barOf (pre.cthr.rd ra) with
      | some e => ((s.park (.arrive e opens)).progress).tryArrive s.tx s.cthr.cid
      | none => s }
def halfBarr (ra : Reg) : Half := arriveHalf true ra
def halfBarw (ra : Reg) : Half := arriveHalf false ra
def halfSpend : Half := { spec := endsAct }
/-- The speculation word (R362). -/
def Thread.specWord (t : Thread) : W64 :=
  let used := match t.spec with
    | some sp => sp.used
    | none => 0
  BitVec.ofNat 64 (t.rbk * 2 ^ 32 + t.cmt * 2 ^ 24 + t.specCause.toNat * 2 ^ 20 + t.specEntry.toNat * 2 ^ 16 + used * 2 ^ 8 + t.specNo)
def halfSpst (rd : Reg) : Half := .alu rd [] Thread.specWord

/-! `FENCE` (R363). -/
/-- V operations that go through the corner turner. -/
def isTransfer (k : VKind) : Bool := k == .vld || k == .vst || k == .vlds || k == .vsts || k == .vldr || k == .vstr || k == .vucload
/-- Classes of R363 that a tuple or copy operation is in, as a mask. -/
def fenceClass (k : TKind) : Nat :=
  if isCopy k then 4 else if isPut k || k == .accA || k == .readB || k == .readP || k == .takeB || k == .takeP then 8 else 0
def Window.entries (w : Window) : List VEntry := w.queue ++ (w.busy.map VBusy.e).toList
/-- The operations of a thread in the classes of mask `m` that have not ended. -/
def Tile.fenceOps (t : Tile) (cid m : Nat) : List Nat :=
  let m := if m = 0 then 15 else m
  (t.wins.toList.flatMap fun w => (w.entries.filter fun e => e.cid == cid && m % 2 == 1 && (isTransfer e.op.kind || e.mx.isSome)).map VEntry.id) ++
  ((t.mxq.filter fun o => o.cid == cid &&
    ((m / 2 % 2 == 1 && (o.kind == .mma || o.kind == .mrd || o.kind == .mrdv)) || (m % 2 == 1 && o.kind == .mrdv))).map MxOp.id) ++
  (((t.opsOf cid).filter fun o => fenceClass o.kind &&& m != 0).map TOp.id)
/-- An operation of the tile has not ended. -/
def Tile.live (t : Tile) (id : Nat) : Bool :=
  (t.wins.toList.any fun w => w.entries.any fun e => e.id == id) || (t.mxq.any fun o => o.id == id) || t.ops.any fun o => o.id == id
/-- The `FENCE` wait ends once its operations have ended. -/
def State.tryFence (s : State) (x cid : Nat) : State :=
  let t := s.tile x
  match t.thread cid with
  | some th => match th.wait with
    | .fence ids => if ids.any t.live then s else s.wakeCid x cid
    | _ => s
  | none => s
def halfFence (ra : Reg) : Half :=
  { srcs := [ra]
    eff := fun pre s =>
      let ids := pre.ctile.fenceOps pre.cthr.cid (bitsOf (pre.cthr.rd ra) 0 4)
      ((s.park (.fence ids)).tryFence s.tx s.cthr.cid).progressIfParked }

/-! `YIELD`, `SLEEP`, `WAKE` (R364, R365). -/
/-- The order in which entries of the ready queue bind: priority, then age (R376). -/
def Ready.before (a b : Ready) : Bool := pktPrio a.words > pktPrio b.words || (pktPrio a.words == pktPrio b.words && a.seq < b.seq)
/-- The first packet of at least this priority that cannot bind for want of a slot or a window (R364). -/
def Tile.starving (t : Tile) (prio : Nat) : Option Ready :=
  (t.ready.filter fun r => pktPrio r.words ≥ prio && (t.freeSlot.isNone || (pktCompute r.words && t.freeWin.isNone))).foldl (fun b r => match b with
    | none => some r
    | some q => if r.before q then some r else some q) none
def halfYield : Half :=
  { eff := fun pre s =>
      let t := pre.cthr
      let s := s.progress
      match pre.ctile.starving t.prio.toNat with
      | some r => if t.speculative then s else s.park (.yielded r.seq)
      | none => s }
/-- Removes an operation from the records and writes its register result (R282, R404). -/
def State.endOp (s : State) (x : Nat) (o : TOp) (v : W64) : State :=
  let s := s.modTile x fun t => { t with ops := t.ops.filter fun p => p.id != o.id }
  if o.gdDone then s else s.land x o.cid o.id o.rd v
/-- A sleeping thread returns with `gd` = `v` (R365). -/
def State.endSleep (s : State) (x cid : Nat) (v : W64) : State :=
  match (s.tile x).thread cid with
  | some th => match th.wait with
    | .sleep op _ =>
      let s := s.imaged x fun s => s.modCid x cid fun th => if v = 1 then { th with wake := false } else th
      match (s.tile x).ops.find? fun o => o.id == op with
      | some o => (s.endOp x o v).wakeCid x cid
      | none => s.wakeCid x cid
    | _ => s
  | none => s
/-- Sets a thread's wake bit; a sleeping thread returns (R365). -/
def State.wakeBit (s : State) (x cid : Nat) : State := (s.modCid x cid fun th => { th with wake := true }).endSleep x cid 1
def halfSleep (rd ra : Reg) : Half :=
  { srcs := [ra], dsts := [rd], long := fun _ => true, spec := endsAct
    eff := fun pre s =>
      let t := pre.cthr
      if t.wake then (s.modCur fun t => { t with wake := false }).later .sleep rd 1 1
      else
        let lim := (t.rd ra).toNat
        let id := s.nextId
        let op := { opOf id .sleep t.cid s.ctile.asid rd with stage := .registered }
        let s := (s.bump.modCtile fun l => { l with ops := l.ops ++ [op] }).modCur fun t => t.launch id (some rd)
        (s.park (.sleep id (if lim = 0 then none else some (s.cycleOf s.tx + lim)))).progress }
def halfWake (ra : Reg) : Half :=
  { srcs := [ra], spec := endsAct
    eff := fun pre s =>
      match s.thr s.tx (bitsOf (pre.cthr.rd ra) 0 3) with
      | some th => s.wakeBit s.tx th.cid
      | none => s }

/-! The meanings: each issues its operation alone. -/
/-- `BARS` (R359). -/
def execBars (rd : Reg) (ra : Reg) (s : State) : Host.Outcome State Fault Refusal :=
  .next (s.issueS (.bars rd ra) (halfBars rd ra))
/-- `BARR` (R360). -/
def execBarr (ra : Reg) (s : State) : Host.Outcome State Fault Refusal :=
  .next (s.issueS (.barr ra) (halfBarr ra))
/-- `BARW` (R360). -/
def execBarw (ra : Reg) (s : State) : Host.Outcome State Fault Refusal :=
  .next (s.issueS (.barw ra) (halfBarw ra))
/-- `SPEND` (R361). -/
def execSpend (s : State) : Host.Outcome State Fault Refusal :=
  .next (s.issueS .spend halfSpend)
/-- `SPST` (R362). -/
def execSpst (rd : Reg) (s : State) : Host.Outcome State Fault Refusal :=
  .next (s.issueS (.spst rd) (halfSpst rd))
/-- `FENCE` (R363). -/
def execFence (ra : Reg) (s : State) : Host.Outcome State Fault Refusal :=
  .next (s.issueS (.fence ra) (halfFence ra))
/-- `YIELD` (R364). -/
def execYield (s : State) : Host.Outcome State Fault Refusal :=
  .next (s.issueS .yield halfYield)
/-- `SLEEP` (R365). -/
def execSleep (rd : Reg) (ra : Reg) (s : State) : Host.Outcome State Fault Refusal :=
  .next (s.issueS (.sleep rd ra) (halfSleep rd ra))
/-- `WAKE` (R365). -/
def execWake (ra : Reg) (s : State) : Host.Outcome State Fault Refusal :=
  .next (s.issueS (.wake ra) (halfWake ra))

end Sys2Proof.Machine
end

