-- ==== Sys2Proof/Machine/Task.lean ====
section
/-! DEFINITION. Task instructions (12_tasks.md R366, R374 to R392). -/
namespace Sys2Proof.Machine

/-- `SPAWN` and `SEND`: the checks of the packet at `g[ra]` (R381). -/
def packetChecks (ra : Reg) (s : State) : List Trap :=
  let l := s.ctile
  let a := spAddr (s.cthr.rd ra)
  let p := s.packetAt a
  let n := 8 * max 1 (pktLen p)
  trapA a (a % 8 != 0) ++ trapB (BitVec.ofNat 64 a) (!pktOk (wordAt (s.threadRead a 8) 0)) ++
    (if a + n > Config.spSize then trapB (BitVec.ofNat 64 a) true else l.span a n 1 true)
/-- The range that `SPAWN` and `SEND` read in their issue cycle. -/
def packetTouches (ra : Reg) (s : State) : List (Nat × Nat) :=
  let a := spAddr (s.cthr.rd ra)
  [(a, 8 * max 1 (pktLen (s.packetAt a)))]
/-- A status as a register value. -/
def stWord (st : Nat) : W64 := BitVec.ofNat 64 st
def State.curTenantRec (s : State) (x : Nat) : TenantRec := s.tenantRec (s.tenantOf x)
/-- `SPAWN` (R382): binds at once when the slot and, for a compute packet, a window are free. In a cycle in which the tile takes a microcode patch no
window is bound (R444), so a compute packet finds none (DESIGN CHOICE, log 66). -/
def halfSpawn (rd ra rb : Reg) : Half :=
  { srcs := [ra, rb], dsts := [rd], checks := packetChecks ra, spec := endsAct, touches := packetTouches ra
    eff := fun pre s =>
      let t := pre.cthr
      let a := spAddr (t.rd ra)
      let p := pre.packetAt a
      let q := bitsOf (t.rd rb) 0 3
      let s := s.noteLoad a (8 * p.length)
      let l := s.ctile
      if (l.slot q).thr.isNone && (!pktCompute p || (l.freeWin.isSome && !s.swapping s.tx)) then
        (s.modCtile fun l => l.bind p q (s.cycleOf s.tx) (recWdog (s.curTenantRec s.tx))).modCur fun t => t.wr rd 0
      else s.modCur fun t => t.wr rd (stWord stMISS) }
/-- `SEND` (R383): the packet takes a request-queue place, for which it waits as the tuple operations of R104 do (DESIGN CHOICE, log 50), and a
route. -/
def halfSend (rd ra rb : Reg) : Half :=
  { srcs := [ra, rb], dsts := [rd], long := fun _ => true, queue := true, spec := endsAct, touches := packetTouches ra
    checks := fun s =>
      let n := bitsOf (s.cthr.rd rb) 0 32
      lowestStat (packetChecks ra s ++ trapB (BitVec.ofNat 64 n) (!s.targetOk n))
    eff := fun pre s =>
      let t := pre.cthr
      let a := spAddr (t.rd ra)
      let n := bitsOf (t.rd rb) 0 32
      let tile := if n = 0xFFFFFFFF then s.tx else (s.tileOf n).getD s.tx
      (s.noteLoad a (8 * (pre.packetAt a).length)).request { opOf 0 .send 0 0 rd with packet := pre.packetAt a, prog := tile } }

/-! `EXIT` (R384). -/
/-- One successor arrival (R37, R384): a handle whose home cannot be reached finds nothing (R255, DEDUCED, log 17). -/
def State.succArrival (s : State) (x : Nat) (h : W64) : State :=
  let tn := s.tenantOf x
  let lost := s.notice (.tile x) tn (keyOf [0x1FFFE, bitsOf h 0 32, bitsOf h 32 32]) []
  match s.homeAgent (dieOf x) tn (hHome h) with
  | some dst => s.send (.tile x) dst tn (s.tile x).asid (.ctrAdd h 1 (.one (.tile x) 0 1 true))
  | none => lost
/-- Steps 2 to 4 of R384 for a resident context; an arrival that step 2 makes due (R344) goes before those of step 3. -/
def State.leave (s : State) (x q : Nat) : State :=
  match s.thr x q with
  | none => s
  | some th =>
    let s := (s.modTile x fun t => t.unregister q th.cid).arrivals x
    (th.succ.foldl (fun s h => s.succArrival x h) s).modTile x fun t => t.release q
/-- A thread that waits at `EXIT` ends once the condition of `TFENCE` holds, a spilled one where it is; a Suspended one ends after it
has been resumed (DEDUCED, log 17). -/
def State.tryExit (s : State) (x cid : Nat) : State :=
  let t := s.tile x
  match t.slotOf cid with
  | some q => match (t.slot q).thr with
    | some th => if th.wait = .exit ∧ !th.susp ∧ s.fenced x cid then s.leave x q else s
    | none => s
  | none => match t.spilled cid with
    | some e =>
      if e.thr.wait = .exit ∧ !e.thr.susp ∧ s.fenced x cid then
        let s := (s.modTile x fun t => { (t.unregister 8 cid) with spills := t.spills.filter fun e => e.thr.cid != cid }).arrivals x
        e.thr.succ.foldl (fun s h => s.succArrival x h) s
      else s
    | none => s
def halfExit : Half := { spec := endsAct, eff := fun _ s => (s.park .exit).tryExit s.tx s.cthr.cid }
def halfPrio (ra : Reg) : Half :=
  { (Half.own [ra] [] fun p t => { t with prio := BitVec.ofNat 2 (bitsOf (p.rd ra) 0 2) }) with spec := endsAct }

/-! Suspension (R386 to R388). -/
/-- Suspends a thread; one that is speculative, rolling back or committing is suspended when that has ended (R354, R386). -/
def Thread.suspend (t : Thread) (pin : Bool) (now : Nat) : Thread :=
  let later (sp : Spec) : Spec := { sp with susp := true, pin := sp.pin || pin }
  if t.susp then t
  else match t.spec with
    | some sp =>
      if t.speculative then (let t := t.rollback 3; { t with spec := t.spec.map later })
      else if sp.st = .rolling ∨ sp.st = .committing then { t with spec := some (later sp) }
      else { t with susp := true, pin := pin, outSince := now }
    | none => { t with susp := true, pin := pin, outSince := now }
def halfSusp (rd ra rb : Reg) : Half :=
  { srcs := [ra, rb], dsts := [rd], spec := endsAct
    eff := fun pre s =>
      let t := pre.cthr
      let q := bitsOf (t.rd ra) 0 3
      match s.thr s.tx q with
      | some th => (s.modCur fun t => t.wr rd (BitVec.ofNat 64 th.cid)).modThr s.tx q fun th => th.suspend (bitsOf (t.rd rb) 0 1 == 1) (s.cycleOf s.tx)
      | none => s.modCur fun t => t.wr rd (BitVec.allOnes 64) }
/-- A Suspended context returns to Parked or Running, or becomes a refill candidate (R387). -/
def Thread.resume (t : Thread) : Thread := { t with susp := false, pin := false, evt := false, spillBan := false }
def Tile.suspended (t : Tile) (cid : Nat) : Bool :=
  match t.thread cid with
  | some th => th.susp
  | none => false
def halfResume (rd ra : Reg) : Half :=
  { srcs := [ra], dsts := [rd], spec := endsAct
    eff := fun pre s =>
      let cid := bitsOf (pre.cthr.rd ra) 0 16
      if s.ctile.suspended cid then (s.imaged s.tx fun s => s.modCtile fun t => (t.modCid cid Thread.resume).ageSpills).modCur fun t => t.wr rd 0
      else s.modCur fun t => t.wr rd (stWord stMISS) }
/-- The homes that may hold waiters or continuations of a context. -/
def Tile.waitHomes (t : Tile) (cid : Nat) : List Nat :=
  (((t.opsOf cid).filter fun o => isRT o.kind && (o.stage == .sent || o.stage == .registered || o.stage == .pager)).map TOp.dest).eraseDups
/-- Discards a context, resident or spilled (R388): its waiters at homes are removed, its requests still queued end with them. -/
def State.discard (s : State) (x cid : Nat) : State :=
  let t := s.tile x
  let tn := s.tenantOf x
  let s := (t.waitHomes cid).foldl (fun s h => match s.homeAgent (dieOf x) tn h with
    | some dst => s.send (.tile x) dst tn t.asid (.dropWaits cid)
    | none => s) s
  let s := match t.slotOf cid with
    | some q => s.modTile x fun t => (t.unregister q cid).release q
    | none => s.modTile x fun t =>
      { (t.unregister 8 cid) with spills := t.spills.filter fun e => e.thr.cid != cid, refilling := t.refilling.filter (· != cid) }
  s.arrivals x
def halfFree (rd ra : Reg) : Half :=
  { srcs := [ra], dsts := [rd], spec := endsAct
    eff := fun pre s =>
      let cid := bitsOf (pre.cthr.rd ra) 0 16
      if s.ctile.suspended cid then (s.discard s.tx cid).modCur fun t => t.wr rd 0
      else s.modCur fun t => t.wr rd (stWord stMISS) }
def halfLend (ra : Reg) : Half :=
  { srcs := [ra], spec := endsAct
    eff := fun pre s => s.setSlot s.tx s.sx { s.slot s.tx s.sx with lend := BitVec.ofNat 3 (bitsOf (pre.cthr.rd ra) 0 3) } }
def halfTimer (ra rb : Reg) : Half :=
  { srcs := [ra, rb], spec := endsAct
    eff := fun pre s => s.modCtile fun t => { t with timecmp := pre.cthr.rd ra, timSlot := BitVec.ofNat 3 (bitsOf (pre.cthr.rd rb) 0 3) } }

/-! The meanings: each issues its operation alone. -/
/-- `SPAWN` (R382). -/
def execSpawn (rd : Reg) (ra : Reg) (rb : Reg) (s : State) : Host.Outcome State Fault Refusal :=
  .next (s.issueS (.spawn rd ra rb) (halfSpawn rd ra rb))
/-- `SEND` (R383). -/
def execSend (rd : Reg) (ra : Reg) (rb : Reg) (s : State) : Host.Outcome State Fault Refusal :=
  .next (s.issueS (.send rd ra rb) (halfSend rd ra rb))
/-- `EXIT` (R384). -/
def execExit (s : State) : Host.Outcome State Fault Refusal :=
  .next (s.issueS .exit halfExit)
/-- `PRIO` (R385). -/
def execPrio (ra : Reg) (s : State) : Host.Outcome State Fault Refusal :=
  .next (s.issueS (.prio ra) (halfPrio ra))
/-- `SUSP` (R386). -/
def execSusp (rd : Reg) (ra : Reg) (rb : Reg) (s : State) : Host.Outcome State Fault Refusal :=
  .next (s.issueS (.susp rd ra rb) (halfSusp rd ra rb))
/-- `RESUME` (R387). -/
def execResume (rd : Reg) (ra : Reg) (s : State) : Host.Outcome State Fault Refusal :=
  .next (s.issueS (.resume rd ra) (halfResume rd ra))
/-- `FREE` (R388). -/
def execFree (rd : Reg) (ra : Reg) (s : State) : Host.Outcome State Fault Refusal :=
  .next (s.issueS (.free rd ra) (halfFree rd ra))
/-- `LEND` (R391). -/
def execLend (ra : Reg) (s : State) : Host.Outcome State Fault Refusal :=
  .next (s.issueS (.lend ra) (halfLend ra))
/-- `TIMER` (R392). -/
def execTimer (ra : Reg) (rb : Reg) (s : State) : Host.Outcome State Fault Refusal :=
  .next (s.issueS (.timer ra rb) (halfTimer ra rb))

end Sys2Proof.Machine
end

