-- ==== Sys2Proof/Machine/System.lean ====
section
/-! DEFINITION. System instructions and control registers (13_system.md R393 to R397, R418 to R428), and the context items of `RDCTX` and
`WRCTX` (12_tasks.md R389, R390). -/
namespace Sys2Proof.Machine

/-! The control-register map (R395). -/
/-- Access of a register: read-only, read-write (write-one-to-clear included), or SYS. -/
inductive CrAccess where
  | ro | rw | sys
  deriving DecidableEq, Repr
/-- The access of an assigned number; none is unassigned. -/
def crAccess (n : Nat) : Option CrAccess :=
  if n = 0x000 ∨ n = 0x050 ∨ n = 0x051 ∨ n = 0x052 ∨ n = 0x053 ∨ n = 0x061 then some .sys
  else if (1 ≤ n ∧ n ≤ 5) ∨ n = 0x010 ∨ (0x020 ≤ n ∧ n ≤ 0x024) ∨ n = 0x030 ∨ n = 0x031 ∨ n = 0x041 ∨ n = 0x060 then some .rw
  else if n = 0x040 ∨ (0x070 ≤ n ∧ n ≤ 0x072) ∨ n = 0x080 ∨ n = 0x081 ∨ n = 0x090 ∨ n = 0x091 then some .ro
  else none
/-- A register private to the thread (R389, R395). -/
def crPrivate (n : Nat) : Bool :=
  n ≤ 5 || n == 0x010 || (0x020 ≤ n && n ≤ 0x024) || n == 0x030 || n == 0x031 || n == 0x040 || n == 0x041 || (0x051 ≤ n && n ≤ 0x053) || n == 0x091
/-- A register of a die, read as a long-latency operation (R420). -/
def crDie (n : Nat) : Bool := n == 0x080 || n == 0x090
/-- A register that the speculation checkpoint holds (R348, R352): `cr.vl`, `cr.specarea` and `cr.specfld` among them (DEDUCED, log 18). -/
def crChecked (t : Thread) (n : Nat) : Bool :=
  n == 0x001 || (0x020 ≤ n && n ≤ 0x024) || n == 0x030 || n == 0x031 || (n == 0x010 && t.compute)
/-- `cr.status` of a thread in slot `q` (R394). -/
def Thread.status (t : Thread) (q : Nat) : W64 :=
  BitVec.ofNat 64 (t.tact.toNat * 2 ^ 13 + t.pmode.toNat * 2 ^ 12 + q * 2 ^ 9 + t.compute.toNat * 2 ^ 8 +
    (if t.compute then t.win * 2 ^ 6 else 0) + t.specNo * 2 ^ 3 + t.sys.toNat)
/-- The reserve in whole microjoules, rounded toward -∞, as an I32 (R416). -/
def Die.reserveWord (d : Die) : W64 := BitVec.ofNat 64 (2250 * 2 ^ 32 + (BitVec.ofInt 32 (d.reserve / 2000000)).toNat)
/-- Reads control register `n` of thread `t` in slot `q` of tile `x` (R395, R396). -/
def State.crGet (s : State) (x q : Nat) (t : Thread) (n : Nat) : W64 :=
  let l := s.tile x
  let sl := l.slot q
  match n with
  | 0x000 => t.status q
  | 0x001 => t.round.zeroExtend 64
  | 0x002 => t.fflags.zeroExtend 64
  | 0x003 => t.warn.zeroExtend 64
  | 0x004 => BitVec.ofNat 64 (t.feCount * 65536 + t.feLimit)
  | 0x005 => if t.compute then t.werr.zeroExtend 64 else 0
  | 0x010 => if t.compute then BitVec.ofNat 64 t.vl else 0
  | 0x020 => t.fmtA.zeroExtend 64
  | 0x021 => t.fmtW.zeroExtend 64
  | 0x022 => t.scaleA.zeroExtend 64
  | 0x023 => t.scaleW.zeroExtend 64
  | 0x024 => t.sparse.zeroExtend 64
  | 0x030 => t.specarea.zeroExtend 64
  | 0x031 => if t.compute then t.specfld else 0
  | 0x040 => t.touched.zeroExtend 64
  | 0x041 => t.workid
  | 0x050 => BitVec.ofNat 64 l.tvec
  | 0x051 => t.tcause.zeroExtend 64
  | 0x052 => t.tpc.zeroExtend 64
  | 0x053 => t.tval
  | 0x060 => sl.lend.zeroExtend 64
  | 0x061 => sl.wdogCount.zeroExtend 64 <<< 32 ||| sl.wdogLimit.zeroExtend 64
  | 0x070 => match l.tenant with
    | some tn => BitVec.ofNat 64 (256 + tn)
    | none => 0
  | 0x071 => BitVec.ofNat 64 l.asid
  | 0x072 => (s.tileName x).zeroExtend 64
  | 0x080 => (s.die (dieOf x)).cycle
  | 0x081 => l.timecmp
  | 0x090 => (s.die (dieOf x)).reserveWord
  | 0x091 => t.ecost.zeroExtend 64
  | _ => 0
/-- The valid bits of `cr.specfld` (R206). -/
def specfldMask : W64 := 0x83FF83FF83FF83FF
/-- Writes a thread-private control register by its access code (R4, R65, R82, R84, R150, R162, R205, R206, R215, R347, R394, R396). -/
def Thread.crPut (t : Thread) (n : Nat) (v : W64) : Thread :=
  match n with
  | 0x000 => { t with tact := bitsOf v 13 1 == 1, pmode := bitsOf v 12 1 == 1, sys := bitsOf v 0 1 == 1 }
  | 0x001 => { t with round := v.truncate 2 }
  | 0x002 => { t with fflags := v.truncate 5 }
  | 0x003 => { t with warn := t.warn &&& ~~~(v.truncate 9) }
  | 0x004 => { t with feLimit := bitsOf v 0 16 }
  | 0x005 => if t.compute then { t with werr := t.werr &&& ~~~(v.truncate 32 &&& 0xC0000000) } else t
  | 0x010 =>
    if t.compute then
      if v.toNat > Config.rows then { (t.setWarn warnIc) with vl := Config.rows } else { t with vl := v.toNat }
    else t
  | 0x020 => { t with fmtA := v.truncate 5 }
  | 0x021 => { t with fmtW := v.truncate 5 }
  | 0x022 => { t with scaleA := v.truncate 21 }
  | 0x023 => { t with scaleW := v.truncate 21 }
  | 0x024 => { t with sparse := v.truncate 2 }
  | 0x030 => { t with specarea := v.truncate 41 }
  | 0x031 => if t.compute then { t with specfld := v &&& specfldMask } else t
  | 0x041 => { t with workid := v }
  | 0x051 => { t with tcause := v.truncate 4 }
  | 0x052 => { t with tpc := v.truncate 48 }
  | 0x053 => { t with tval := v }
  | _ => t
/-- `CRSET` by the current thread (R397). -/
def State.crSet (s : State) (n : Nat) (v : W64) : State :=
  match n with
  | 0x050 => s.modCtile fun t => { t with tvec := bitsOf v 3 45 * 8 }
  | 0x060 => s.setSlot s.tx s.sx { s.slot s.tx s.sx with lend := v.truncate 3 }
  | 0x061 => s.setSlot s.tx s.sx { s.slot s.tx s.sx with wdogLimit := v.truncate 32 }
  | n => s.modCur fun t => t.crPut n v

/-! `CRGET` and `CRSET` (R420). `num` gives the register number from the thread; `sl` is the bundle where the number stands in it. -/
def badNum (sl : Option W64) (n : Nat) : List Trap :=
  if (crAccess n).isSome then [] else match sl with
    | some w => [⟨2, cILLOP, w⟩]
    | none => [⟨6, cBOUNDS, BitVec.ofNat 64 n⟩]
def crgetHalf (rd : Reg) (srcs : List Reg) (sl : Option W64) (num : Thread → Nat) : Half :=
  { srcs := srcs, dsts := [rd], long := fun s => crDie (num s.cthr), checks := fun s => badNum sl (num s.cthr)
    eff := fun pre s =>
      let n := num pre.cthr
      let v := pre.crGet pre.tx pre.sx pre.cthr n
      if crDie n then s.later .crget rd v 4 else s.modCur fun t => t.wr rd v }
def crsetHalf (ra : Reg) (srcs : List Reg) (sl : Option W64) (num : Thread → Nat) : Half :=
  { srcs := ra :: srcs, priv := fun s => crAccess (num s.cthr) == some .sys, checks := fun s => badNum sl (num s.cthr)
    spec := fun s => if crChecked s.cthr (num s.cthr) then .go else .ends
    eff := fun pre s =>
      let n := num pre.cthr
      if crAccess n = some .ro then s else s.crSet n (pre.cthr.rd ra) }
def numIn (rb : Reg) (t : Thread) : Nat := bitsOf (t.rd rb) 0 12
def halfCrget (rd rb : Reg) : Half := crgetHalf rd [rb] none (numIn rb)
def halfCrgetSl (rd : Reg) (num : BitVec 12) : Half := crgetHalf rd [] (some (encodeWord (.crgetSl rd num))) fun _ => num.toNat
def halfCrset (ra rb : Reg) : Half := crsetHalf ra [rb] none (numIn rb)
def halfCrsetSl (ra : Reg) (num : BitVec 12) : Half := crsetHalf ra [] (some (encodeWord (.crsetSl ra num))) fun _ => num.toNat

/-! Traps on purpose and the return from a handler (R421, R422). -/
def halfTrap (ra rb : Reg) : Half :=
  { srcs := [ra, rb]
    checks := fun s =>
      let n := bitsOf (s.cthr.rd ra) 0 4
      [⟨11, if n = 0 ∨ n = 15 then cUSER else n, s.cthr.rd rb⟩] }
def halfSvc (ra : Reg) : Half := { srcs := [ra], checks := fun s => [⟨11, cSVC, s.cthr.rd ra⟩] }
def halfBrk (ra : Reg) : Half := { srcs := [ra], checks := fun s => [⟨11, cBREAK, s.cthr.rd ra⟩] }
def halfRft : Half := { priv := fun _ => true, spec := endsAct, eff := fun _ s => s.modCur Thread.trapReturn }

/-! Address spaces (R423, R424). -/
/-- An address range [lo, hi) overlaps a page or line of `n` bytes at `b`. -/
def overlaps (lo hi b n : Nat) : Bool := lo < b + n && b < hi
/-- Bytes of address space under a cached table entry of a level. -/
def tabSpan (lvl : Nat) : Nat := if lvl = 0 then 2 ^ 48 else 2 ^ (48 - 9 * lvl)
/-- Drops what a `TLBINV` of tenant `tn` with address `va` and control word `c` selects: cached leaf entries, the table entries that lead there, and
the bundle-cache lines of every page whose translation it drops (R20, R414, R423). -/
def State.dropPages (s : State) (tn va : Nat) (c : W64) : State :=
  let asid := bitsOf c 0 13
  let every := bitsOf c 15 1 == 1
  let whole := bitsOf c 13 1 == 1
  let size := if bitsOf c 14 1 = 1 then 2 ^ 21 else 65536
  let lo := va / size * size
  let r := s.tenantRec tn
  let hit := fun (a b n : Nat) => recHasAsid r a && (every || (a == asid && (whole || overlaps lo (lo + size) b n)))
  let gone := s.tlb.filter fun e => hit e.1 e.2.1 e.2.2.1
  let stale := fun (a line : Nat) => hit a (line * 64) 64 || gone.any fun e => e.1 == a && overlaps e.2.1 (e.2.1 + e.2.2.1) (line * 64) 64
  { s with tlb := s.tlb.filter fun e => !gone.contains e
           tables := s.tables.filter fun e => !hit e.1 (e.2.2.1 * tabSpan e.2.1) (tabSpan e.2.1)
           tiles := s.tiles.map fun e =>
             if e.2.tenant = some tn then (e.1, { e.2 with icache := e.2.icache.filter fun l => !stale l.1 l.2.1 }) else e }
def halfTlbinv (rd ra rb : Reg) : Half :=
  { srcs := [ra, rb], dsts := [rd], priv := fun _ => true, long := fun _ => true, spec := endsAct
    checks := fun s =>
      let c := s.cthr.rd rb
      let a := bitsOf c 0 13
      trapB (BitVec.ofNat 64 a) (bitsOf c 15 1 == 0 && !recHasAsid (s.curTenantRec s.tx) a)
    eff := fun pre s =>
      let t := pre.cthr
      let va := bitsOf (t.rd ra) 0 48
      let op := { opOf s.nextId .tlbinv t.cid s.ctile.asid rd with arg := t.rd rb, prog := va, stage := .sent }
      let s := s.dropPages (s.tenantOf s.tx) va (t.rd rb)
      (s.bump.modCtile fun l => { l with ops := l.ops ++ [op] }).modCur fun th => th.launch op.id (some rd) }
def halfAsid (ra : Reg) : Half :=
  { srcs := [ra], priv := fun _ => true, spec := endsAct
    checks := fun s =>
      let a := bitsOf (s.cthr.rd ra) 0 13
      trapB (BitVec.ofNat 64 a) (!recHasAsid (s.curTenantRec s.tx) a)
    eff := fun pre s => s.modCtile fun t => { t with asid := bitsOf (pre.cthr.rd ra) 0 13 } }

/-! `NOTIFY`, `PERF`, `WDOG`, `HALT` (R425 to R428). -/
/-- The message of a thread that waits at `NOTIFY` goes once the condition of `TFENCE` holds (R425). -/
def State.tryNotify (s : State) (x cid : Nat) : State :=
  let t := s.tile x
  match t.thread cid with
  | some th => match th.wait with
    | .notify v => if s.fenced x cid then (s.raiseVector (s.tenantOf x) v).wakeCid x cid else s
    | _ => s
  | none => s
def halfNotify (ra : Reg) : Half :=
  { srcs := [ra], spec := endsAct
    checks := fun s =>
      let v := bitsOf (s.cthr.rd ra) 0 12
      trapB (BitVec.ofNat 64 v) (decide (v ≥ recVcount (s.curTenantRec s.tx)))
    eff := fun pre s => ((s.park (.notify (bitsOf (pre.cthr.rd ra) 0 12))).tryNotify s.tx s.cthr.cid).progressIfParked }
/-- Performance counter `n` (R426). -/
def State.perfCounter (s : State) (t : Thread) (n : Nat) : W64 :=
  match n with
  | 0 => t.issOwn
  | 1 => t.issLent
  | 2 => t.parked
  | 3 => s.ctile.perfIdle
  | 4 => t.passes
  | 5 => s.ctile.perfMx
  | 6 => t.requests
  | _ => t.stalls
/-- `PERF`: counters 0 and 1 count this issue (R426). -/
def halfPerf (rd ra : Reg) : Half :=
  { srcs := [ra], dsts := [rd], spec := endsAct
    checks := fun s =>
      let n := bitsOf (s.cthr.rd ra) 0 8
      trapB (BitVec.ofNat 64 n) (decide (n > 7))
    eff := fun pre s => s.modCur fun t => t.wr rd (s.perfCounter s.cthr (bitsOf (pre.cthr.rd ra) 0 8)) }
def halfWdog (ra : Reg) : Half :=
  { srcs := [ra], priv := fun _ => true, spec := endsAct
    eff := fun pre s => s.setSlot s.tx s.sx { s.slot s.tx s.sx with wdogLimit := (pre.cthr.rd ra).truncate 32, wdogCount := 0 } }
def halfHalt (ra : Reg) : Half :=
  { srcs := [ra], priv := fun _ => true, spec := endsAct, stops := fun s => some (bitsOf (s.cthr.rd ra) 0 32) }

/-! Context items (R389, R390). -/
/-- The thread word (R390). -/
def Thread.word (t : Thread) : W64 :=
  BitVec.ofNat 64 (t.cid * 2 ^ 16 + t.pin.toNat * 2 ^ 15 + t.compute.toNat * 2 ^ 14 + (if t.compute then t.win * 2 ^ 12 else 0) + t.compute.toNat * 2 ^ 11 +
    t.kind * 2 ^ 8 + t.prio.toNat * 2 ^ 6 + t.sys.toNat * 2 ^ 5 + t.evt.toNat * 2 ^ 4 + t.stateNo)
/-- A selector that names an item. -/
def ctxItem (sel : Nat) : Bool := sel ≤ 0x026 || (0x1000 ≤ sel && crPrivate (sel - 0x1000))
/-- A selector that may be written, by an issuer in sys mode or in app mode. -/
def ctxWritable (sys : Bool) (sel : Nat) : Bool :=
  sel ≤ 0x020 || sel == 0x023 || (0x1000 ≤ sel && crPrivate (sel - 0x1000) && match crAccess (sel - 0x1000) with
    | some .rw => true
    | some .sys => sys
    | _ => false)
def State.ctxRead (s : State) (q : Nat) (t : Thread) (sel : Nat) : W64 :=
  if sel < 0x020 then t.rd (BitVec.ofNat 5 sel)
  else if sel = 0x020 then (t.p ||| 1).zeroExtend 64
  else if sel = 0x021 then t.pendMask
  else if sel = 0x022 then BitVec.ofNat 64 t.outs.length
  else if sel = 0x023 then BitVec.ofNat 64 t.pc
  else if sel = 0x024 then t.word
  else if sel = 0x025 then t.specWord
  else if sel = 0x026 then t.word0
  else s.crGet s.tx q t (sel - 0x1000)
def Thread.ctxWrite (t : Thread) (sel : Nat) (v : W64) : Thread :=
  if sel < 0x020 then
    let r := BitVec.ofNat 5 sel
    { t.wr r v with pend := t.pend.filter fun e => e.1 != r }
  else if sel = 0x020 then { t with p := v.truncate 8 &&& 0xFE }
  else if sel = 0x023 then { t with pc := v.toNat, feTried := false }
  else t.crPut (sel - 0x1000) v
def ctxChecks (ra rb : Reg) (write : Bool) (s : State) : List Trap :=
  let t := s.cthr
  let q := bitsOf (t.rd ra) 0 3
  let sel := bitsOf (t.rd rb) 0 13
  let ok := q == s.sx || match s.thr s.tx q with
    | some th => th.susp
    | none => false
  trapB (BitVec.ofNat 64 sel) (!ok || !(if write then ctxWritable t.sys sel else ctxItem sel))
def halfRdctx (rd ra rb : Reg) : Half :=
  { srcs := [ra, rb], dsts := [rd], checks := ctxChecks ra rb false, spec := endsAct
    eff := fun pre s =>
      let q := bitsOf (pre.cthr.rd ra) 0 3
      let v := pre.ctxRead q ((pre.thr pre.tx q).getD {}) (bitsOf (pre.cthr.rd rb) 0 13)
      s.modCur fun t => t.wr rd v }
/-- `WRCTX` (R389, R390). Beside a V operation with the register that it names as G destination, the S half's write stands and the V operation's result is
dropped (DESIGN CHOICE, log 8). -/
def halfWrctx (rd ra rb : Reg) : Half :=
  { srcs := [rd, ra, rb], checks := ctxChecks ra rb true, spec := endsAct
    eff := fun pre s =>
      s.modThr s.tx (bitsOf (pre.cthr.rd ra) 0 3) fun t => t.ctxWrite (bitsOf (pre.cthr.rd rb) 0 13) (pre.cthr.rd rd) }
/-- `ILLEGAL_ENCODING` (R63). -/
def execIllegalEncoding (w : W64) (s : State) : Host.Outcome State Fault Refusal := .next (s.issueIllegal false w)

/-! The meanings: each issues its operation alone. -/
/-- `RDCTX` (R389). -/
def execRdctx (rd : Reg) (ra : Reg) (rb : Reg) (s : State) : Host.Outcome State Fault Refusal :=
  .next (s.issueS (.rdctx rd ra rb) (halfRdctx rd ra rb))
/-- `WRCTX` (R389). -/
def execWrctx (rd : Reg) (ra : Reg) (rb : Reg) (s : State) : Host.Outcome State Fault Refusal :=
  .next (s.issueS (.wrctx rd ra rb) (halfWrctx rd ra rb))
/-- `CRGET` (R420). -/
def execCrget (rd : Reg) (rb : Reg) (s : State) : Host.Outcome State Fault Refusal :=
  .next (s.issueS (.crget rd rb) (halfCrget rd rb))
/-- `CRGET_SL` (R420). -/
def execCrgetSl (rd : Reg) (num : BitVec 12) (s : State) : Host.Outcome State Fault Refusal :=
  .next (s.issueS (.crgetSl rd num) (halfCrgetSl rd num))
/-- `CRSET` (R397). -/
def execCrset (ra : Reg) (rb : Reg) (s : State) : Host.Outcome State Fault Refusal :=
  .next (s.issueS (.crset ra rb) (halfCrset ra rb))
/-- `CRSET_SL` (R397). -/
def execCrsetSl (ra : Reg) (num : BitVec 12) (s : State) : Host.Outcome State Fault Refusal :=
  .next (s.issueS (.crsetSl ra num) (halfCrsetSl ra num))
/-- `TRAP` (R421). -/
def execTrap (ra : Reg) (rb : Reg) (s : State) : Host.Outcome State Fault Refusal :=
  .next (s.issueS (.trap ra rb) (halfTrap ra rb))
/-- `RFT` (R422). -/
def execRft (s : State) : Host.Outcome State Fault Refusal :=
  .next (s.issueS .rft halfRft)
/-- `SVC` (R421). -/
def execSvc (ra : Reg) (s : State) : Host.Outcome State Fault Refusal :=
  .next (s.issueS (.svc ra) (halfSvc ra))
/-- `BREAK` (R421). -/
def execBrk (ra : Reg) (s : State) : Host.Outcome State Fault Refusal :=
  .next (s.issueS (.brk ra) (halfBrk ra))
/-- `TLBINV` (R423). -/
def execTlbinv (rd : Reg) (ra : Reg) (rb : Reg) (s : State) : Host.Outcome State Fault Refusal :=
  .next (s.issueS (.tlbinv rd ra rb) (halfTlbinv rd ra rb))
/-- `ASID` (R424). -/
def execAsid (ra : Reg) (s : State) : Host.Outcome State Fault Refusal :=
  .next (s.issueS (.asid ra) (halfAsid ra))
/-- `NOTIFY` (R425). -/
def execNotify (ra : Reg) (s : State) : Host.Outcome State Fault Refusal :=
  .next (s.issueS (.notify ra) (halfNotify ra))
/-- `PERF` (R426). -/
def execPerf (rd : Reg) (ra : Reg) (s : State) : Host.Outcome State Fault Refusal :=
  .next (s.issueS (.perf rd ra) (halfPerf rd ra))
/-- `WDOG` (R427). -/
def execWdog (ra : Reg) (s : State) : Host.Outcome State Fault Refusal :=
  .next (s.issueS (.wdog ra) (halfWdog ra))
/-- `HALT` (R428). -/
def execHalt (ra : Reg) (s : State) : Host.Outcome State Fault Refusal :=
  .next (s.issueS (.halt ra) (halfHalt ra))

end Sys2Proof.Machine
end

