-- ==== Sys2Proof/Machine/Window.lean ====
section
/-! DEFINITION. What V operations do to a window's rows (06_associative.md R158 to R206; fallbacks of 02_encoding.md R66): fields and tags of
a row, the result of each operation in one row, the operations over many rows, passes, parity. -/
namespace Sys2Proof.Machine

/-! Rows (R158, R159, R161). -/
/-- All `n` rows from `r` on, the unlisted ones as zero. -/
def rowList : Nat → Nat → Map Row → List (Nat × Row)
  | 0, _, _ => []
  | n + 1, r, [] => (r, 0) :: rowList n (r + 1) []
  | n + 1, r, (j, v) :: m => if j = r then (r, v) :: rowList n (r + 1) m else (r, 0) :: rowList n (r + 1) ((j, v) :: m)
def Window.all (w : Window) : List (Nat × Row) := rowList Config.rows 0 w.rows
/-- The table of rows, zero rows unlisted. -/
def rowMap (l : List (Nat × Row)) : Map Row := l.filter fun e => e.2 != 0
def Window.row (w : Window) (r : Nat) : Row := w.rows.at 0 r
/-- The low `min width w` columns of a field (R66 rows 2 and 3). -/
def FieldDesc.get (f : FieldDesc) (w : Nat) (row : Row) : Nat := row.toNat / 2 ^ f.start % 2 ^ min f.width w
/-- Writes a `w`-bit result into a field; columns above it get copies of its top bit if `sx`, otherwise zero (R66 rows 4 and 5). -/
def FieldDesc.set (f : FieldDesc) (w : Nat) (sx : Bool) (v : Nat) (row : Row) : Row :=
  let v := v % 2 ^ w
  let v := if sx && decide (w < f.width) && decide (0 < w) && decide (2 ^ (w - 1) ≤ v) then v + (2 ^ f.width - 2 ^ w) else v
  let lo := row.toNat % 2 ^ f.start
  let hi := row.toNat / 2 ^ (f.start + f.width)
  BitVec.ofNat 264 (lo + v % 2 ^ f.width * 2 ^ f.start + hi * 2 ^ (f.start + f.width))
/-- Tag `n` of row `r`; `t0` is 1 below the captured `cr.vl` (R161). -/
def rowTag (vl r : Nat) (row : Row) (n : Nat) : Bool := if n = 0 then decide (r < vl) else row.getLsbD (256 + n)
/-- Writes bit `c` of a row. -/
def rowBit (c : Nat) (b : Bool) (row : Row) : Row := if b then row ||| (1#264 <<< c) else row &&& ~~~(1#264 <<< c)
/-- Writes tag `n`; a write to `t0` is discarded (R66 row 6). -/
def rowSetTag (n : Nat) (b : Bool) (row : Row) : Row := if n = 0 then row else rowBit (256 + n) b row

/-! Operand kinds and formats (R62, R64, R66). -/
/-- The format is in the operation's set. -/
def vFmtOk (o : VOp) : Bool :=
  let m := o.m
  match o.kind with
  | .vld | .vst | .vlds | .vsts | .vldr | .vstr | .vget | .vput | .vbc | .vbci | .vsel => isELEM m || isNI m
  | .vceq | .vclt | .vcle | .vadd | .vsub | .vneg | .vabs | .vmin | .vmax | .vand | .vor | .vxor | .vnot | .vshl | .vshr | .vrsum => isInt m
  | .vmul => isInt m && fmtWidth m != 64
  | .vfadd | .vfsub | .vfmul | .vfmin | .vfmax | .vfceq | .vfclt | .vfcle | .vsfn | .vrfsum => isFPA m
  | .vlut8 => m == 0 || m == 4
  | .vlut16 => m == 1 || m == 5
  | .vrmax | .vrmin | .voutl => isInt m || isFPA m
  | .vqbs | .vdqbs => isBLK m
  | _ => true
/-- The element format of a block format. -/
def blkElem (m : Nat) : Nat := if m = 14 then 13 else 11
/-- The source fields of an operation, 0 for `fd`, 1 for `fa`, 2 for `fb`, with the source width; `wa` is the width of `fa`. -/
def vSrcs (o : VOp) (wa : Nat) : List (Nat × Nat) :=
  let w := fmtWidth o.m
  match o.kind with
  | .vst | .vsts | .vstr => [(0, w)]
  | .vget | .vneg | .vabs | .vnot | .vshl | .vshr | .vlut8 | .vlut16 | .vsfn | .vrmax | .vrmin | .vrsum | .vrfsum => [(1, w)]
  | .vcopy => [(1, wa)]
  | .vceq | .vclt | .vcle | .vadd | .vsub | .vmin | .vmax | .vmul | .vand | .vor | .vxor | .vsel | .vfadd | .vfsub | .vfmul | .vfmin |
    .vfmax | .vfceq | .vfclt | .vfcle | .voutl => [(1, w), (2, w)]
  | .vcvt => [(1, fmtWidth o.b)]
  | .vqbs => [(1, 32)]
  | .vdqbs => [(1, fmtWidth (blkElem o.m)), (2, 8)]
  | _ => []
/-- The destination fields, with the destination width. -/
def vDsts (o : VOp) (wa : Nat) : List (Nat × Nat) :=
  let w := fmtWidth o.m
  match o.kind with
  | .vld | .vlds | .vldr | .vput | .vbc | .vbci | .vadd | .vsub | .vneg | .vabs | .vmin | .vmax | .vand | .vor | .vxor | .vnot |
    .vshl | .vshr | .vsel | .vfadd | .vfsub | .vfmul | .vfmin | .vfmax | .vlut8 | .vlut16 | .vsfn | .vcvt => [(0, w)]
  | .vcopy => [(0, wa)]
  | .vmul => [(0, 2 * w)]
  | .vqbs => [(0, fmtWidth (blkElem o.m)), (2, 8)]
  | .vdqbs => [(0, 32)]
  | _ => []
/-- The tag destination. -/
def vTagDst (o : VOp) : Option Nat :=
  match o.kind with
  | .vtand | .vtor | .vtxor | .vtandn | .vtset | .vtclr | .vtfirst | .vceq | .vclt | .vcle | .vfceq | .vfclt | .vfcle | .vrmax | .vrmin |
    .voutl => some o.d
  | _ => none
/-- The `g` destination. -/
def vGDst (o : VOp) : Option Reg :=
  match o.kind with
  | .vfrd | .vget | .vtcount | .vtany | .vrsum | .vrfsum => some (BitVec.ofNat 5 o.d)
  | _ => none
/-- The `g` registers read. -/
def vGSrcs (o : VOp) : List Reg :=
  let a : Reg := BitVec.ofNat 5 o.a
  let b : Reg := BitVec.ofNat 5 o.b
  match o.kind with
  | .vfld | .vvl | .vld | .vst | .vbc | .vucload => [a]
  | .vlds | .vsts | .vldr | .vstr | .vput => [a, b]
  | .vget => [b]
  | _ => []
/-- The words that a `VSEQ` runs: first, count after clipping, and whether it was clipped (R176, R66 row 11). -/
def vseqWords (o : VOp) : Nat × Nat × Bool :=
  let first := o.x % 128
  let n := o.x / 128 % 128 + 1
  (first, min n (128 - first), decide (first + n > 128))
/-- `VUCLOAD`: first word, count after clipping, address, and whether it was clipped (R177). -/
def vucWords (g : W64) : Nat × Nat × Nat × Bool :=
  let first := bitsOf g 32 7
  let n := bitsOf g 40 7 + 1
  (first, min n (128 - first), bitsOf g 0 20, decide (first + n > 128))
/-- The immediate of a `VBCI` (R54). -/
def vbciVal (m x : Nat) : Nat :=
  if m = 2 ∨ m = 3 then (sextN 29 x).toNat % 2 ^ fmtWidth m else if m = 8 then x * 8 % 2 ^ 32 else x % 2 ^ fmtWidth m

/-! Pass counts (R203). -/
def vPasses (e : VEntry) : Nat :=
  let o := e.op
  let w := fmtWidth o.m
  if e.quiet then 1
  else match o.kind with
    | .vnop | .vfld | .vfldi | .vfcpy | .vvl | .vvli | .vfrd | .vld | .vst | .vlds | .vsts | .vldr | .vstr | .vucload => 0
    | .vtset | .vtclr | .vtany | .vpass => 1
    | .vget | .vput | .vtand | .vtor | .vtxor | .vtandn | .vtfirst | .vtcount => 2
    | .vbc | .vbci | .vrsum => w
    | .vceq | .vclt | .vcle => w + 1
    | .vrmax | .vrmin => w + 2
    | .vmin | .vmax | .voutl => 2 * w + 2
    | .vand | .vor | .vxor | .vnot | .vshl | .vshr | .vsel => 2 * w
    | .vcopy => 2 * e.fa.width
    | .vadd | .vsub | .vneg => 4 * w + 1
    | .vabs => 4 * w + 2
    | .vmul => 4 * w * w + 2 * w
    | .vfadd | .vfsub => if o.m = 8 then 388 else if o.m = 9 then 212 else 188
    | .vfmul => if o.m = 8 then 1212 else if o.m = 9 then 396 else 300
    | .vfmin | .vfmax => 2 * w + 4
    | .vfceq | .vfclt | .vfcle => w + 4
    | .vlut8 => 256
    | .vlut16 => 1280
    | .vsfn => if o.m = 8 then 6144 else 1536
    | .vcvt => if isInt o.m && isInt o.b then fmtWidth o.b + w else 2 * (fmtWidth o.b + w) + 16
    | .vrfsum => 3 * w + 24
    | .vqbs => if o.m = 14 then 336 else 368
    | .vdqbs => if o.m = 14 then 96 else 128
    | .vseq => (vseqWords o).2.1

/-! Results in one row (R188 to R196, R201, R202). -/
/-- The signed or unsigned value of an integer format. -/
def intVal (m a : Nat) : Int := if isI m && 2 ^ (fmtWidth m - 1) ≤ a then (a : Int) - 2 ^ fmtWidth m else a
/-- The low `n` bits of an integer. -/
def lowBits (n : Nat) (i : Int) : Nat := (i % (2 ^ n : Nat)).toNat
/-- Byte `i` of the microcode RAM (R194). -/
def ucByte (u : Vector W64 128) (i : Nat) : Nat := bitsOf (u[i / 8]?.getD 0) (8 * (i % 8)) 8
/-- The value written to the destination field, with its flags: `a` and `b` are the source fields, `u` the microcode RAM, `g` the value
of `VBC`, `VBCI` and `VPUT`. -/
def vFieldRes (o : VOp) (mode : Nat) (u : Vector W64 128) (g a b : Nat) : Nat × FFlags :=
  let m := o.m
  let w := fmtWidth m
  let x := intVal m a
  let y := intVal m b
  let int (i : Int) : Nat × FFlags := (lowBits w i, 0)
  match o.kind with
  | .vput | .vbc | .vbci => (g, 0)
  | .vcopy => (a, 0)
  | .vadd => int (x + y)
  | .vsub => int (x - y)
  | .vneg => int (-x)
  | .vabs => int x.natAbs
  | .vmin => int (if x ≤ y then x else y)
  | .vmax => int (if x ≤ y then y else x)
  | .vmul => (lowBits (2 * w) (x * y), 0)
  | .vand => (a &&& b, 0)
  | .vor => (a ||| b, 0)
  | .vxor => (a ^^^ b, 0)
  | .vnot => (2 ^ w - 1 - a, 0)
  | .vshl => (a * 2 ^ o.b % 2 ^ w, 0)
  | .vshr => int (x / (2 ^ o.b : Nat))
  | .vfadd => fArith m 0 a b 0 mode
  | .vfsub => fArith m 1 a b 0 mode
  | .vfmul => fArith m 2 a b 0 mode
  | .vfmin => fMinMax m false a b
  | .vfmax => fMinMax m true a b
  | .vlut8 => (ucByte u (if m = 0 then a ^^^ 0x80 else a), 0)
  | .vlut16 =>
    let h := if m = 1 then a / 256 ^^^ 0x80 else a / 256
    let base := ucByte u (2 * h) + 256 * ucByte u (2 * h + 1)
    (lowBits 16 (base + intVal 0 (ucByte u (512 + h)) * (a % 256 : Nat) / 16), 0)
  | .vsfn => specialFn m (o.b % 8) a mode
  | .vcvt => convert m o.b a mode
  | .vdqbs => (dequantise (blkElem m) b a, 0)
  | _ => (0, 0)
/-- The value written to the destination tag, with its flags: `p` and `q` are the source tags. -/
def vTagRes (o : VOp) (p q : Bool) (a b : Nat) : Bool × FFlags :=
  let m := o.m
  let x := intVal m a
  let y := intVal m b
  match o.kind with
  | .vtand => (p && q, 0)
  | .vtor => (p || q, 0)
  | .vtxor => (p != q, 0)
  | .vtandn => (p && !q, 0)
  | .vtset => (true, 0)
  | .vceq => (x == y, 0)
  | .vclt => (decide (x < y), 0)
  | .vcle => (decide (x ≤ y), 0)
  | .vfceq => fCompare m 0 a b
  | .vfclt => fCompare m 1 a b
  | .vfcle => fCompare m 2 a b
  | .voutl =>
    if isFPA m then
      let v := val m a
      let t := val m b
      (v.isNan || (!t.isNan && decide (vCmp v.abs t > 0)), v.nv ||| t.nv)
    else (decide ((x.natAbs : Int) > y), 0)
  | _ => (false, 0)

/-! Parity (R204). -/
/-- The parity groups of columns [lo, hi). -/
def groupsOf (lo hi : Nat) : List Nat := if lo < hi then (List.range ((hi - 1) / 32 - lo / 32 + 1)).map (lo / 32 + ·) else []
def fieldGroups (f : FieldDesc) (w : Nat) : List Nat := groupsOf f.start (f.start + min f.width w)
/-- A field of an entry by its number in `vSrcs`. -/
def VEntry.fieldAt (e : VEntry) : Nat → FieldDesc
  | 0 => e.fd
  | 1 => e.fa
  | _ => e.fb
/-- The groups whose columns an operation compares: those of its source fields and source tags (DEDUCED, log 20). -/
def vGroups (e : VEntry) : List Nat :=
  match e.op.kind with
  | .vtand | .vtor | .vtxor | .vtandn => if e.op.a % 8 = 0 && e.op.b % 8 = 0 then [] else [8]
  | _ => ((vSrcs e.op e.fa.width).flatMap fun f => fieldGroups (e.fieldAt f.1) f.2).eraseDups
/-- The failing groups among `gs` in row `r`, each with the row: every one is an error (R204). -/
def Window.failing (w : Window) (r : Nat) (gs : List Nat) : List (Nat × Nat) :=
  if w.badPar.isEmpty then [] else (gs.filter fun g => w.badPar.contains (r, g)).map fun g => (r, g)
/-- The failing groups of several rows. -/
def Window.failures (w : Window) (rs : List Nat) (gs : List Nat) : List (Nat × Nat) :=
  if w.badPar.isEmpty then [] else rs.flatMap fun r => w.failing r gs
/-- Every column of a group is rewritten in these rows: the parity is good again. -/
def Window.repair (w : Window) (rs : List Nat) (f : FieldDesc) : Window :=
  { w with badPar := w.badPar.filter fun p => !(rs.contains p.1 && f.start ≤ 32 * p.2 && 32 * p.2 + 32 ≤ f.start + f.width) }

/-! Whole operations. -/
/-- What an operation leaves: the window, the value for its `g` destination, its flags, the parity failures met (row, group). -/
structure VOut where
  win : Window
  g : W64
  flags : FFlags
  errs : List (Nat × Nat)
  deriving DecidableEq, Repr
/-- The rows that the operation selects (R166). -/
def VEntry.sel (e : VEntry) (r : Nat) (row : Row) : Bool := rowTag e.vl r row e.op.t != e.op.tn
/-- One pass (R95, R173, R174) in row `r`: pass word `p`, captured length `vl`. -/
def passRow (p vl r : Nat) (row : Row) : Row :=
  let bit (i : Nat) : Bool := p / 2 ^ i % 2 == 1
  let col (c : Nat) : Bool := if c = 256 then decide (r < vl) else if c < 264 then row.getLsbD c else false
  let cmp (c v m : Nat) : Bool := !bit m || col c == bit v
  let sel := rowTag vl r row (p / 2 ^ 50 % 8) != bit 49
  let hit := sel && cmp (p / 2 ^ 40 % 512) 39 38 && cmp (p / 2 ^ 29 % 512) 28 27 && cmp (p / 2 ^ 18 % 512) 17 16 && cmp (256 + p / 2 ^ 60 % 8) 59 58
  let wr (c : Nat) (b : Bool) (row : Row) : Row := if c = 256 ∨ c ≥ 264 then row else rowBit c b row
  let row := if hit && bit 5 then wr (p / 2 ^ 7 % 512) (bit 6) row else row
  let row := if hit && bit 53 then wr (256 + p / 2 ^ 55 % 8) (bit 54) row else row
  let u := p / 4 % 8
  match p % 4 with
  | 1 => if hit then rowSetTag u true row else row
  | 2 => if sel then rowSetTag u hit row else row
  | 3 => if hit then rowSetTag u false row else row
  | _ => row
/-- The groups that a pass compares. -/
def passGroups (p : Nat) : List Nat :=
  let one (c m : Nat) : List Nat :=
    if p / 2 ^ m % 2 = 0 ∨ c = 256 ∨ c ≥ 264 then [] else if c < 256 then [c / 32] else [8]
  (one (p / 2 ^ 40 % 512) 38 ++ one (p / 2 ^ 29 % 512) 27 ++ one (p / 2 ^ 18 % 512) 16 ++ one (256 + p / 2 ^ 60 % 8) 58).eraseDups
/-- Runs pass words one after another. Every pass checks every row that it selects; a row whose check has failed is written no more in this
operation (R204). -/
def runPasses (vl : Nat) : List Nat → Window → List (Nat × Nat) → Window × List (Nat × Nat)
  | [], w, errs => (w, errs)
  | p :: ps, w, errs =>
    let sel := w.all.filter fun e => rowTag vl e.1 e.2 (p / 2 ^ 50 % 8) != (p / 2 ^ 49 % 2 == 1)
    let errs := errs ++ w.failures (sel.map Prod.fst) (passGroups p)
    let dead := errs.map Prod.fst
    runPasses vl ps { w with rows := rowMap (w.all.map fun e => (e.1, if dead.contains e.1 then e.2 else passRow p vl e.1 e.2)) } errs
/-- The extreme value of R197 among encodings; a NaN never counts. -/
def extreme (m : Nat) (isMax : Bool) (xs : List Nat) : Option Nat :=
  let less (a b : Nat) : Bool := if isInt m then decide (intVal m a < intVal m b) else decide (vCmpZ (val m a) (val m b) < 0)
  (xs.filter fun x => isInt m || !(val m x).isNan).foldl (fun best x => match best with
    | none => some x
    | some b => if (if isMax then less b x else less x b) then some x else some b) none
/-- An extreme is tied by the same value. -/
def tied (m a b : Nat) : Bool := if isInt m then a == b else !(val m a).isNan && vCmpZ (val m a) (val m b) == 0
/-- Runs an operation that is no transfer over the window (R164 to R168). `VQBS` writes the element and then the scale, which matters where `fd` and `fb`
overlap (DESIGN CHOICE, log 74). -/
def VEntry.run (e : VEntry) (w : Window) : VOut :=
  let o := e.op
  let m := o.m
  let wd := fmtWidth m
  let sx := isI m
  let mode := e.round.toNat
  let keep : VOut := ⟨w, 0, 0, []⟩
  if e.quiet then keep
  else
    let all := w.all
    let gs := vGroups e
    let isSel := fun (p : Nat × Row) => e.sel p.1 p.2
    let errs := w.failures ((all.filter isSel).map Prod.fst) gs
    let hit := fun (p : Nat × Row) => isSel p && !errs.any fun q => q.1 == p.1
    let sw := fun (i : Nat) => (((vSrcs o e.fa.width).find? fun q => q.1 == i).map Prod.snd).getD 0
    let a := fun (row : Row) => e.fa.get (sw 1) row
    let b := fun (row : Row) => e.fb.get (sw 2) row
    let tagRows := fun (f : Nat × Row → Bool) =>
      { w with rows := rowMap (all.map fun p => if hit p then (p.1, rowSetTag o.d (f p) p.2) else p) }
    let hits := all.filter hit
    match o.kind with
    | .vnop | .vfld | .vfldi | .vfcpy | .vvl | .vvli | .vld | .vst | .vlds | .vsts | .vldr | .vstr | .vucload => keep
    | .vfrd => { keep with g := e.ga }
    | .vget =>
      let q := e.gb.toNat
      let row := w.row q
      if e.sel q row then
        match w.failing q gs with
        | [] => ⟨w, widen m (a row), 0, []⟩
        | er => ⟨w, 0, 0, er⟩
      else keep
    | .vput =>
      let q := e.gb.toNat
      let row := w.row q
      if e.sel q row then
        let row := e.fd.set wd sx e.ga.toNat row
        { keep with win := { w with rows := if row = 0 then w.rows.del q else w.rows.put q row } }
      else keep
    | .vbc | .vbci =>
      let g := if o.kind = .vbc then e.ga.toNat % 2 ^ wd else vbciVal m o.x
      let w := { w with rows := rowMap (all.map fun p => if isSel p then (p.1, e.fd.set wd sx g p.2) else p) }
      { keep with win := if w.badPar.isEmpty then w else w.repair ((all.filter isSel).map Prod.fst) e.fd }
    | .vtfirst =>
      match hits with
      | [] => { keep with errs := errs }
      | f :: _ => ⟨tagRows fun p => p.1 == f.1, 0, 0, errs⟩
    | .vtcount => { keep with g := BitVec.ofNat 64 (all.filter isSel).length }
    | .vtany => { keep with g := if (all.any isSel) then 1 else 0 }
    | .vrmax | .vrmin =>
      let best := extreme m (o.kind == .vrmax) (hits.map fun p => a p.2)
      ⟨tagRows fun p => match best with
        | some x => tied m (a p.2) x
        | none => false, 0, 0, errs⟩
    | .vrsum => ⟨w, BitVec.ofInt 64 ((hits.map fun p => intVal m (a p.2)).foldl (· + ·) 0), 0, errs⟩
    | .vrfsum =>
      let (z, f) := exactSum (hits.map fun p => val m (a p.2)) mode
      let (r, f2) := roundVal m z mode
      ⟨w, widen m r, f ||| f2, errs⟩
    | .vsel =>
      let errs2 := if w.badPar.isEmpty then [] else all.flatMap fun p =>
        w.failing p.1 (if isSel p then fieldGroups e.fa wd else fieldGroups e.fb wd)
      let rows := all.map fun p =>
        if errs2.any fun q => q.1 == p.1 then p
        else (p.1, e.fd.set wd sx (if isSel p then e.fa.get wd p.2 else e.fb.get wd p.2) p.2)
      ⟨{ w with rows := rowMap rows }, 0, 0, errs2⟩
    | .vqbs =>
      let ef := blkElem m
      let group := fun (k : Nat) (l : List (Nat × Row)) =>
        let blk := (l.drop (16 * k)).take 16
        if blk.any hit then
          let (sc, es, fl) := quantise ef (blk.map fun p => if hit p then val 8 (e.fa.get 32 p.2) else .fin false 0 1 0)
          ((blk.zip es).map fun p => if hit p.1 then (p.1.1, e.fb.set 8 false sc (e.fd.set (fmtWidth ef) false p.2 p.1.2)) else p.1, fl)
        else (blk, 0)
      let gsr := (List.range (Config.rows / 16)).map fun k => group k all
      ⟨{ w with rows := rowMap (gsr.flatMap Prod.fst) }, 0, gsr.foldl (fun f g => f ||| g.2) 0, errs⟩
    | .vpass =>
      let (w, errs) := runPasses e.vl [o.x * 2 ^ 24 + o.m] w []
      ⟨w, 0, 0, errs⟩
    | .vseq =>
      let (first, n, _) := vseqWords o
      let (w, errs) := runPasses e.vl ((List.range n).map fun i => (w.ucode[first + i]?.getD 0).toNat) w []
      ⟨w, 0, 0, errs⟩
    | _ =>
      match vTagDst o with
      | some d =>
        let res := fun (p : Nat × Row) => vTagRes o (rowTag e.vl p.1 p.2 (o.a % 8)) (rowTag e.vl p.1 p.2 (o.b % 8)) (a p.2) (b p.2)
        ⟨{ w with rows := rowMap (all.map fun p => if hit p then (p.1, rowSetTag d (res p).1 p.2) else p) }, 0,
          hits.foldl (fun f p => f ||| (res p).2) 0, errs⟩
      | none =>
        let dw := (((vDsts o e.fa.width).head?).map Prod.snd).getD 0
        let sx := match o.kind with
          | .vcopy | .vdqbs => false
          | _ => sx
        let res := fun (p : Nat × Row) => vFieldRes o mode w.ucode 0 (a p.2) (b p.2)
        ⟨{ w with rows := rowMap (all.map fun p => if hit p then (p.1, e.fd.set dw sx (res p).1 p.2) else p) }, 0,
          hits.foldl (fun f p => f ||| (res p).2) 0, errs⟩
/-- `cr.werr` after an error of a cause with its window, group and place (R205). -/
def werrAdd (r : BitVec 32) (cause win group place : Nat) : BitVec 32 :=
  if r.getLsbD 31 then r ||| 0x40000000
  else BitVec.ofNat 32 (2 ^ 31 + r.toNat / 2 ^ 30 % 2 * 2 ^ 30 + cause * 2 ^ 28 + win * 2 ^ 26 + group * 2 ^ 22 + place % 2 ^ 20)

end Sys2Proof.Machine
end

