-- ==== Sys2Proof/Machine/Associative.lean ====
section
/-! DEFINITION. V operations at issue (R159 to R164, R180 to R187, R207; fallbacks of R66), transfers (R171, R172, R181 to R186), and the events
by which a window runs its queue (R167 to R170). -/
namespace Sys2Proof.Machine

/-! Redirection in a speculative window (R206, R207). -/
/-- The shadow that `cr.specfld` gives primary `n`. -/
def shadowOf (fld : W64) (n : Nat) : Option Nat :=
  (List.range 4).findSome? fun j =>
    let p := bitsOf fld (16 * j) 5
    let sh := bitsOf fld (16 * j + 5) 5
    if bitsOf fld (16 * j + 15) 1 = 1 ∧ p = n ∧ sh ≠ p then some sh else none
/-- The descriptor number that a speculative thread's operation uses for reads of `n`. -/
def Thread.readFld (t : Thread) (n : Nat) : Nat :=
  match t.spec with
  | some sp => if t.speculative && sp.written.contains n then (shadowOf sp.fld n).getD n else n
  | none => n
/-- And for writes of `n`. -/
def Thread.writeFld (t : Thread) (n : Nat) : Nat :=
  match t.spec with
  | some sp => if t.speculative then (shadowOf sp.fld n).getD n else n
  | none => n
/-- Every field destination is a valid primary. -/
def Thread.primaries (t : Thread) (ns : List Nat) : Bool :=
  match t.spec with
  | some sp => ns.all fun n => (shadowOf sp.fld n).isSome
  | none => true

/-! Transfers at issue (R181 to R185). -/
/-- One contiguous piece of an element: bit address, number of bits, place in the value. -/
abbrev Piece := Nat × Nat × Nat
/-- The element index of row `r` (R182, R183). -/
def elemIndex (k : VKind) (gb : W64) (shape : List (Nat × Int)) (r : Nat) : Option Int :=
  match k with
  | .vlds | .vsts => some ((r : Int) * gb.toInt)
  | .vldr | .vstr =>
    if r < shape.foldl (fun p d => p * d.1) 1 then
      some (shape.foldl (fun (acc : Nat × Int) d => (acc.1 / d.1, acc.2 + ((acc.1 % d.1 : Nat) : Int) * d.2)) (r, 0)).2
    else none
  | _ => some r
/-- The pieces of element `e` (R181), addresses modulo 2^64 bytes (R134). -/
def elemPieces (m base vl : Nat) (e : Int) : List Piece :=
  let w := fmtWidth m
  let at_ (off : Int) : Nat := ((8 * (base : Int) + off) % (2 ^ 67 : Nat)).toNat
  if isNI m then (List.range w).map fun p => (at_ ((p * (8 * ceilDiv vl 8) : Nat) + e), 1, w - 1 - p)
  else [(at_ (w * e), w, 0)]
/-- The pieces of every mapped row below `cr.vl`. -/
def mapped (o : VOp) (vl : Nat) (ga gb : W64) (shape : List (Nat × Int)) : List (Nat × List Piece) :=
  (List.range vl).filterMap fun r => (elemIndex o.kind gb shape r).map fun e => (r, elemPieces o.m ga.toNat vl e)
/-- The bytes that hold a piece. -/
def pieceBytes (p : Piece) : List Nat := (List.range ((p.1 % 8 + p.2.1 + 7) / 8)).map fun i => (p.1 / 8 + i) % 2 ^ 64
def isStoreV (k : VKind) : Bool := k == .vst || k == .vsts || k == .vstr
def isShape (k : VKind) : Bool := k == .vldr || k == .vstr
/-- The shape record's extents and strides. -/
def readShape (bs : List Byte) : List (Nat × Int) :=
  (List.range 4).map fun d =>
    (max 1 (natOfBytes ((bs.drop (8 * d)).take 4)), (BitVec.ofNat 32 (natOfBytes ((bs.drop (8 * d + 4)).take 4))).toInt)
/-- BOUNDS and STAT at the lowest such byte address. -/
def Tile.byteTraps (t : Tile) (bs : List Nat) : List Trap :=
  let least (l : List Nat) : Option Nat := l.foldl (fun b x => match b with
    | none => some x
    | some y => some (min x y)) none
  (match least (bs.filter (Config.spSize ≤ ·)) with
    | some a => [⟨6, cBOUNDS, BitVec.ofNat 64 a⟩]
    | none => []) ++
  (match least (bs.filter fun a => a < Config.spSize && t.stat (bankOf a)) with
    | some a => [⟨7, cSTAT, BitVec.ofNat 64 a⟩]
    | none => [])
/-- The thread's value of `cr.vl`, the operand registers and the shape record of an operation at issue. -/
def vShape (o : VOp) (s : State) : List (Nat × Int) :=
  if isShape o.kind then readShape (s.threadRead (s.cthr.rd (BitVec.ofNat 5 o.b)).toNat 32) else []
def vMapped (o : VOp) (s : State) : List (Nat × List Piece) :=
  let t := s.cthr
  mapped o t.vl (t.rd (BitVec.ofNat 5 o.a)) (t.rd (BitVec.ofNat 5 o.b)) (vShape o s)
def mappedBytes (l : List (Nat × List Piece)) : List Nat := (l.flatMap fun r => r.2.flatMap pieceBytes).eraseDups
/-- R66 rows 1 and 7: the operation writes nothing. -/
def vQuiet (o : VOp) : Bool := !vFmtOk o || (o.kind == .vcvt && !cvtDefined o.m o.b)
/-- The failing checks of an operation beyond ILLOP and HAZARD (R185, R187). An operation of R66 row 1 (its format outside its set) writes nothing
and is not checked, and a base that is misaligned beside a misaligned shape record is the one reported (DESIGN CHOICE, log 51). -/
def vChecks (o : VOp) (s : State) : List Trap :=
  let t := s.cthr
  let l := s.ctile
  let a := t.rd (BitVec.ofNat 5 o.a)
  let b := t.rd (BitVec.ofNat 5 o.b)
  match o.kind with
  | .vget | .vput => if vQuiet o then [] else trapB b (decide (b.toNat ≥ Config.rows))
  | .vucload =>
    let (_, n, addr, _) := vucWords a
    trapA addr (addr % 8 != 0) ++ l.span addr (8 * n) 1 false
  | .vld | .vst | .vlds | .vsts | .vldr | .vstr =>
    if vQuiet o then []
    else
      let w := fmtWidth o.m
      let al := trapA a.toNat (decide (w ≥ 8) && a.toNat % (w / 8) != 0)
      if isShape o.kind then
        let sb := (List.range 32).map fun i => (b.toNat + i) % 2 ^ 64
        let al := al ++ trapA b.toNat (b.toNat % 8 != 0)
        if sb.any (Config.spSize ≤ ·) then al ++ l.byteTraps sb
        else al ++ l.byteTraps (sb ++ mappedBytes (vMapped o s)) ++ (match l.badIn b.toNat 32 with
          | some p => [⟨10, cPARITY, BitVec.ofNat 64 p⟩]
          | none => [])
      else al ++ l.byteTraps (mappedBytes (vMapped o s))
  | _ => []
/-- Setup operations (R180). -/
def isSetup (k : VKind) : Bool := k == .vnop || k == .vfld || k == .vfldi || k == .vfcpy || k == .vvl || k == .vvli || k == .vfrd
/-- The numbers of the field destinations. -/
def vFDsts (o : VOp) : List Nat := (vDsts o 0).map fun d => if d.1 = 0 then o.d else o.b
/-- What a V operation does in a speculative window (R207). -/
def vAct (o : VOp) (s : State) : SpecAct :=
  let t := s.cthr
  match o.kind with
  | .vpass | .vseq | .vucload => .ends
  | .vst | .vsts | .vstr =>
    if vQuiet o then .go
    else match t.spec with
      | some sp => if (mappedBytes (vMapped o s)).all fun a => areaHas sp.area a 1 then .go else .ends
      | none => .go
  | _ =>
    if t.primaries (vFDsts o) then .go else .ends

/-! Issue (R164, R180, R66). -/
/-- The `cr.warn` bits of rows 2 to 6 for an operation with these descriptors; a code of `VCVT` without a row width (R64) is compared with
none (log 67). -/
def vWarn (o : VOp) (fd fa fb : FieldDesc) : BitVec 9 :=
  let f (i : Nat) : FieldDesc := if i = 0 then fd else if i = 1 then fa else fb
  let known := fun (l : List (Nat × Nat)) => if o.kind = .vcvt then l.filter (·.2 != 0) else l
  let src := (known (vSrcs o fa.width)).foldl (fun (m : BitVec 9) p =>
    m ||| (if (f p.1).width > p.2 then 1 else 0) ||| (if (f p.1).width < p.2 then 2 else 0)) 0
  let dst := if (known (vDsts o fa.width)).any fun p => (f p.1).width != p.2 then (4 : BitVec 9) else 0
  let tag := if vTagDst o = some 0 then (16 : BitVec 9) else 0
  src ||| dst ||| tag
/-- A descriptor as `VFLD` records it, and whether it was clipped (R160). -/
def fieldOf (start width : Nat) : FieldDesc × Bool :=
  if width = 0 ∨ width > 256 ∨ start + width > 256 then (⟨start, 256 - start⟩, true) else (⟨start, width⟩, false)
def FieldDesc.word (f : FieldDesc) : W64 := BitVec.ofNat 64 (f.width * 256 + f.start)
def fieldAt (w : Window) (n : Nat) : FieldDesc := w.fds[n]?.getD {}
/-- A V operation at issue, sampled in state `pre` (R164, R180): descriptor and length changes, warnings, the entry in the window's queue. A `VCVT` of
row 7 is still held against rows 2 to 5 where its codes have a width (R64, R66). A speculative load marks the lines of every row that its form maps
below `cr.vl`, whatever the tags (DESIGN CHOICE, log 65). -/
def vSample (o : VOp) (pre : State) : VIssue :=
  let t := pre.cthr
  let w := pre.ctile.win t.win
  let q := vQuiet o
  let a := t.rd (BitVec.ofNat 5 o.a)
  let b := t.rd (BitVec.ofNat 5 o.b)
  let fd := fieldAt w (if isStoreV o.kind then t.readFld o.d else t.writeFld o.d)
  let fa := fieldAt w (t.readFld o.a)
  let fb := fieldAt w (if o.kind = .vqbs then t.writeFld o.b else t.readFld o.b)
  let clip := fun (c : Bool) => if c then warnIc else 0
  let loaded := fieldOf (bitsOf a 0 8) (bitsOf a 8 9)
  let given := fieldOf (o.x % 256) (o.x / 256 % 512)
  { warn := match o.kind with
      | .vfld => clip loaded.2
      | .vfldi => clip given.2
      | .vfcpy => 0
      | .vvl => clip (decide (a.toNat > Config.rows))
      | .vvli => clip (decide (o.x % 8192 > Config.rows))
      | .vseq => clip (vseqWords o).2.2
      | .vucload => clip (vucWords a).2.2.2
      | .vcvt => vWarn o fd fa fb ||| (if q then warnCv else 0)
      | _ => if q then 8 else vWarn o fd fa fb
    fd := match o.kind with
      | .vfld => some (o.d, loaded.1)
      | .vfldi => some (o.d, given.1)
      | .vfcpy => some (o.d, fieldAt w o.a)
      | _ => none
    vl := match o.kind with
      | .vvl => some (min a.toNat Config.rows)
      | .vvli => some (min (o.x % 8192) Config.rows)
      | _ => none
    load := if isShape o.kind && !q then some b.toNat else none
    reads := if t.speculative && isTransfer o.kind && !isStoreV o.kind && o.kind != .vucload && !q then mappedBytes (vMapped o pre) else []
    written := if t.speculative && !q then vFDsts o else []
    entry := ⟨0, t.cid, o, fd, fa, fb, t.vl, t.round, if o.kind = .vfrd then (fieldAt w o.a).word else a, b,
      if q then [] else vShape o pre, q, t.speculative, none⟩
    gdst := vGDst o }
/-- The effect of a V operation at issue. -/
def vEff (o : VOp) (pre s : State) : State := if o.kind = .vnop then s else s.vEnter s.tx s.sx (vSample o pre)
/-- A V operation (R62). -/
def halfV (o : VOp) : Half :=
  { srcs := vGSrcs o, dsts := (vGDst o).toList, long := fun _ => o.kind != .vnop, vec := o.kind != .vnop
    checks := vChecks o, spec := vAct o, eff := vEff o, sample := fun s => if o.kind = .vnop then none else some (vSample o s)
    touches := fun s => if isShape o.kind && !vQuiet o then [((s.cthr.rd (BitVec.ofNat 5 o.b)).toNat, 32)] else [] }

/-- Issues a V operation alone. -/
def State.runV (s : State) (o : VOp) : State := s.issueV o (halfV o)

/-! The queue (R167 to R171). -/
/-- Corner-turner cycles of a transfer (R177, R184). The lines of the strided and shape forms are those of every mapped row (DEDUCED,
log 20). -/
def vTurnCycles (e : VEntry) : Nat :=
  match e.op.kind with
  | .vucload => ceilDiv (vucWords e.ga).2.1 16
  | .vld | .vst => max 1 (ceilDiv (e.vl * fmtWidth e.op.m) 1024)
  | .vlds | .vsts | .vldr | .vstr =>
    max (max 1 (ceilDiv (e.vl * fmtWidth e.op.m) 1024))
      ((mappedBytes (mapped e.op e.vl e.ga e.gb e.shape)).map (· / 64)).eraseDups.length
  | _ => 0
/-- The cost of an entry in half picojoules (R170); the matrix sequencer has paid for an `MRDV` (R226). -/
def VEntry.cost (e : VEntry) : Nat := if e.mx.isSome then 0 else if e.quiet then 12 else 12 * vPasses e + 8 * vTurnCycles e
/-- Records window errors of a thread: cause, group, place; window parity is counted by the belfry (R204, R205). -/
def State.windowErrors (s : State) (x w cid : Nat) (l : List (Nat × Nat × Nat)) : State :=
  let s := s.modCid x cid fun t => { t with werr := l.foldl (fun r e => werrAdd r e.1 w e.2.1 e.2.2) t.werr }
  let n := (l.filter fun e => e.1 == 0).length
  if n = 0 then s else s.modBelfry fun b => { b with winParity := b.winParity.put (dieOf x) (b.winParity.at 0 (dieOf x) + n) }
/-- The operation goes through the corner turner. -/
def VEntry.turns (e : VEntry) : Bool := e.mx.isSome || (isTransfer e.op.kind && !e.quiet)
/-- Window `w` becomes ready in cycle `c`: behind the transfers of earlier cycles and of lower windows, and behind the one being served (R171). -/
def turnJoin (q : List (Nat × Nat)) (w c : Nat) (serving : Bool) : List (Nat × Nat) :=
  let fixed := if serving then q.take 1 else []
  let rest := if serving then q.drop 1 else q
  let before := fun (p : Nat × Nat) => p.2 < c || (p.2 == c && p.1 < w)
  fixed ++ rest.filter before ++ [(w, c)] ++ rest.filter fun p => !before p
/-- The head of a window's queue starts: its cost is debited, and it runs, or becomes a ready transfer (R169 to R171). An `MRDV` waits for
the end of its conversion in the sequencer (R226, R239). -/
def State.vopStart (s : State) (x w : Nat) : State :=
  let t := s.tile x
  let v := t.win w
  match v.queue, v.busy with
  | e :: rest, none =>
    let converted := match e.mx with
      | none => true
      | some id => t.mxq.any fun o => o.id == id && o.started && o.due ≤ s.cycleOf x
    if !converted || !s.covers (dieOf x) e.cost then s
    else
      let s := if e.mx.isSome then s else
        ((s.debit (dieOf x) e.cost).setEcost x e.cid e.cost).modCid x e.cid fun t => { t with passes := t.passes + BitVec.ofNat 64 (vPasses e) }
      if e.turns then
        s.modTile x fun t => { (t.setWin w { v with queue := rest, busy := some ⟨e, none, 0, false, 0⟩ }) with
          turner := turnJoin t.turner w (s.cycleOf x) ((t.win ((t.turner.head?.map Prod.fst).getD 0)).busy.any VBusy.served) }
      else
        let r := e.run v
        let s := s.modTile x fun t => t.setWin w { r.win with queue := rest, busy := some ⟨e, some r.g, r.flags, true, s.cycleOf x + vPasses e⟩ }
        s.windowErrors x w e.cid (r.errs.map fun p => (0, p.2, p.1))
  | _, _ => s
/-- The bytes that an engine reads for an operation: for a speculative thread its own buffered stores first (R341). -/
def State.opByte (s : State) (x cid : Nat) (spec : Bool) (a : Nat) : Byte :=
  let m := (s.tile x).sp.read a
  if spec then match ((s.tile x).thread cid).bind Thread.spec with
    | some sp => (sp.byte a).getD m
    | none => m
  else m
/-- The value of an element. -/
def pieceValue (rd : Nat → Byte) (ps : List Piece) : Nat :=
  ps.foldl (fun v p =>
    let raw := natOfBytes ((pieceBytes p).map rd)
    v ||| (raw / 2 ^ (p.1 % 8) % 2 ^ p.2.1) * 2 ^ p.2.2) 0
/-- Writes an element. -/
def writePieces (m : Memory) (v : Nat) (ps : List Piece) : Memory :=
  ps.foldl (fun m p =>
    let bs := pieceBytes p
    let n := bs.length
    let old := natOfBytes (bs.map m.read)
    let sh := p.1 % 8
    let field := v / 2 ^ p.2.2 % 2 ^ p.2.1
    let new := old % 2 ^ sh + field * 2 ^ sh + old / 2 ^ (sh + p.2.1) * 2 ^ (sh + p.2.1)
    ((bs.zip (bytesOfNat n new)).foldl (fun m q => m.write q.1 q.2) m)) m
/-- The first byte of an element in a bank that has become stationary, or in an uncorrectable word. -/
def Tile.elemStat (t : Tile) (ps : List Piece) : Option Nat := (ps.flatMap pieceBytes).find? fun a => t.stat (bankOf a)
def Tile.elemBad (t : Tile) (ps : List Piece) : Option Nat := (ps.flatMap pieceBytes).find? fun a => t.bad.contains (a / 8)
/-- A load by the corner turner (R181, R185). Each row that meets an affected place is one error, in row order, and the whole of its element is
left as it was (DESIGN CHOICE, log 52). -/
def State.turnLoad (s : State) (x w : Nat) (e : VEntry) : State :=
  let t := s.tile x
  let v := t.win w
  let rows := (mapped e.op e.vl e.ga e.gb e.shape).filter fun r => e.sel r.1 (v.row r.1)
  let errs := rows.filterMap fun r => match t.elemStat r.2 with
    | some a => some (r.1, (1, 0, a))
    | none => (t.elemBad r.2).map fun a => (r.1, (2, 0, a))
  let good := rows.filter fun r => !errs.any fun p => p.1 == r.1
  let val := fun (r : Nat × List Piece) => pieceValue (s.opByte x e.cid e.spec) r.2
  let m := v.rows
  let rows' := good.foldl (fun (m : Map Row) r =>
    let row := e.fd.set (fmtWidth e.op.m) (isI e.op.m) (val r) (m.at 0 r.1)
    if row = 0 then m.del r.1 else m.put r.1 row) m
  let s := s.modTile x fun t => t.setWin w (({ v with rows := rows' } : Window).repair (good.map Prod.fst) e.fd)
  let s := rows.foldl (fun s r => ((r.2.flatMap pieceBytes).filter fun a => !t.stat (bankOf a)).foldl (fun s a => s.scrub x a 1) s) s
  s.windowErrors x w e.cid (errs.map Prod.snd)
/-- A store by the corner turner, the highest row last (R185, R186). An uncorrectable word that the store does not write whole is left
as it was (R139). The errors are recorded in row order, those of stationary banks before those of uncorrectable words; an element with some of its
planes in a stationary bank is left whole (DESIGN CHOICE, log 52). -/
def State.turnStore (s : State) (x w : Nat) (e : VEntry) : State :=
  let t := s.tile x
  let v := t.win w
  let rows := (mapped e.op e.vl e.ga e.gb e.shape).filter fun r => e.sel r.1 (v.row r.1)
  let stat := rows.filterMap fun r => (t.elemStat r.2).map fun a => (r.1, (1, 0, a))
  let good := rows.filter fun r => !stat.any fun p => p.1 == r.1
  let m := good.foldl (fun m r => writePieces m (e.fd.get (fmtWidth e.op.m) (v.row r.1)) r.2) t.sp
  let pieces := good.flatMap Prod.snd
  let bytes := (pieces.flatMap pieceBytes).eraseDups
  let touched := ((bytes.map (· / 8)).eraseDups).filter t.bad.contains
  let covered := fun (wd : Nat) => (List.range 64).all fun i => pieces.any fun p => p.1 ≤ wd * 64 + i && wd * 64 + i < p.1 + p.2.1
  let part := touched.filter fun wd => !covered wd
  let m := part.foldl (fun m wd => m.writeN (8 * wd) 8 (t.sp.readN (8 * wd) 8)) m
  let s := s.modTile x fun t => { t with sp := m, bad := t.bad.filter fun wd => !(touched.contains wd && !part.contains wd) }
  let s := bytes.foldl (fun s a => (s.conflict x (some e.cid) a 1).scrub x a 1) s
  s.windowErrors x w e.cid (stat.map Prod.snd ++ part.map fun wd => (2, 0, (bytes.find? fun a => a / 8 == wd).getD 0))
/-- `VUCLOAD` (R177): words in a bank that has become stationary, or uncorrectable, leave their RAM words as they were (R185). -/
def State.turnUc (s : State) (x w : Nat) (e : VEntry) : State :=
  let t := s.tile x
  let v := t.win w
  let (first, n, addr, _) := vucWords e.ga
  let errs := (List.range n).filterMap fun i =>
    let a := addr + 8 * i
    if t.stat (bankOf a) then some (1, 0, a) else if t.bad.contains (a / 8) then some (2, 0, a) else none
  let uc := (List.range n).foldl (fun (u : Vector W64 128) i =>
    let a := addr + 8 * i
    if errs.any fun p => p.2.2 == a then u else u.setIfInBounds (first + i) (BitVec.ofNat 64 (t.sp.readN a 8))) v.ucode
  let s := s.modTile x fun t => t.setWin w { v with ucode := uc }
  let s := (List.range n).foldl (fun s i => if t.stat (bankOf (addr + 8 * i)) then s else s.scrub x (addr + 8 * i) 8) s
  s.windowErrors x w e.cid errs
/-- Rows converted by `MRDV` (R230, R239): (row, width and sign in one number, value). -/
def State.turnMx (s : State) (x w id : Nat) (e : VEntry) : State :=
  let t := s.tile x
  let v := t.win w
  match t.mxq.find? fun o => o.id == id with
  | none => s
  | some o =>
    let rows' := o.writes.foldl (fun (m : Map Row) r =>
      let row := e.fd.set (r.2.1 / 2) (r.2.1 % 2 == 1) r.2.2 (m.at 0 r.1)
      if row = 0 then m.del r.1 else m.put r.1 row) v.rows
    s.modTile x fun t => t.setWin w (({ v with rows := rows' } : Window).repair (o.writes.map Prod.fst) e.fd)
/-- The corner turner serves the transfer that has waited longest, from the cycle after the one in which it became ready, since those of one cycle are
served in window order (R171). -/
def State.transferStart (s : State) (x w : Nat) : State :=
  let t := s.tile x
  match t.turner, (t.win w).busy with
  | h :: _, some b =>
    if h.1 ≠ w ∨ b.served ∨ s.cycleOf x ≤ h.2 then s
    else
      let e := b.e
      let s := match e.mx with
        | some id => s.turnMx x w id e
        | none => match e.op.kind with
          | .vucload => s.turnUc x w e
          | .vst | .vsts | .vstr => s.turnStore x w e
          | _ => s.turnLoad x w e
      let n := match e.mx with
        | some id => (t.mxq.find? fun o => o.id == id).elim 0 MxOp.turn
        | none => vTurnCycles e
      s.modTile x fun t => t.setWin w { t.win w with busy := some { b with served := true, due := s.cycleOf x + n } }
  | _, _ => s
/-- The operation that a window runs finishes once its cycles have passed: result, flags, counter (R167 to R169). -/
def State.vopComplete (s : State) (x w : Nat) : State :=
  let t := s.tile x
  match (t.win w).busy with
  | none => s
  | some b =>
    if !b.served || s.cycleOf x < b.due then s
    else
      let s := s.modTile x fun t => { (t.setWin w { t.win w with busy := none }) with turner := t.turner.filter (·.1 != w) }
      if b.e.mx.isSome then s
      else
        let rd := (vGDst b.e.op).getD 0
        (s.modCid x b.e.cid fun t => t.orFlags b.flags).land x b.e.cid b.e.id rd (b.result.getD 0)

/-! The events. -/
/-- `VOP_START` (R169). -/
def execVopStart (tile win : Nat) (s : State) : Host.Outcome State Fault Refusal := s.event fun s => s.vopStart tile win
/-- `TRANSFER_START` (R171). -/
def execTransferStart (tile win : Nat) (s : State) : Host.Outcome State Fault Refusal := s.event fun s => s.transferStart tile win
/-- `VOP_COMPLETE` (R167). -/
def execVopComplete (tile win : Nat) (s : State) : Host.Outcome State Fault Refusal := s.event fun s => s.vopComplete tile win

/-! The meanings: each issues its operation alone. -/
/-- `VNOP` (R180). -/
def execVnop (s : State) : Host.Outcome State Fault Refusal :=
  .next (s.runV ⟨.vnop, 0, 0, 0, 0, false, 0, 0⟩)
/-- `VFLD` (R180). -/
def execVfld (d : Fld) (a : Reg) (s : State) : Host.Outcome State Fault Refusal :=
  .next (s.runV ⟨.vfld, d.toNat, a.toNat, 0, 0, false, 0, 0⟩)
/-- `VFLDI` (R180). -/
def execVfldi (d : Fld) (start : BitVec 8) (width : BitVec 9) (s : State) : Host.Outcome State Fault Refusal :=
  .next (s.runV ⟨.vfldi, d.toNat, 0, 0, 0, false, 0, start.toNat + width.toNat * 256⟩)
/-- `VFCPY` (R180). -/
def execVfcpy (d : Fld) (a : Fld) (s : State) : Host.Outcome State Fault Refusal :=
  .next (s.runV ⟨.vfcpy, d.toNat, a.toNat, 0, 0, false, 0, 0⟩)
/-- `VVL` (R180). -/
def execVvl (a : Reg) (s : State) : Host.Outcome State Fault Refusal :=
  .next (s.runV ⟨.vvl, 0, a.toNat, 0, 0, false, 0, 0⟩)
/-- `VVLI` (R180). -/
def execVvli (rows : BitVec 13) (s : State) : Host.Outcome State Fault Refusal :=
  .next (s.runV ⟨.vvli, 0, 0, 0, 0, false, 0, rows.toNat⟩)
/-- `VFRD` (R180). -/
def execVfrd (d : Reg) (a : Fld) (s : State) : Host.Outcome State Fault Refusal :=
  .next (s.runV ⟨.vfrd, d.toNat, a.toNat, 0, 0, false, 0, 0⟩)
/-- `VLD` (R182). -/
def execVld (d : Fld) (a : Reg) (t : TagN) (tn : Bool) (m : Fmt) (s : State) : Host.Outcome State Fault Refusal :=
  .next (s.runV ⟨.vld, d.toNat, a.toNat, 0, t.toNat, tn, m.toNat, 0⟩)
/-- `VST` (R182). -/
def execVst (d : Fld) (a : Reg) (t : TagN) (tn : Bool) (m : Fmt) (s : State) : Host.Outcome State Fault Refusal :=
  .next (s.runV ⟨.vst, d.toNat, a.toNat, 0, t.toNat, tn, m.toNat, 0⟩)
/-- `VLDS` (R182). -/
def execVlds (d : Fld) (a : Reg) (b : Reg) (t : TagN) (tn : Bool) (m : Fmt) (s : State) : Host.Outcome State Fault Refusal :=
  .next (s.runV ⟨.vlds, d.toNat, a.toNat, b.toNat, t.toNat, tn, m.toNat, 0⟩)
/-- `VSTS` (R182). -/
def execVsts (d : Fld) (a : Reg) (b : Reg) (t : TagN) (tn : Bool) (m : Fmt) (s : State) : Host.Outcome State Fault Refusal :=
  .next (s.runV ⟨.vsts, d.toNat, a.toNat, b.toNat, t.toNat, tn, m.toNat, 0⟩)
/-- `VLDR` (R183). -/
def execVldr (d : Fld) (a : Reg) (b : Reg) (t : TagN) (tn : Bool) (m : Fmt) (s : State) : Host.Outcome State Fault Refusal :=
  .next (s.runV ⟨.vldr, d.toNat, a.toNat, b.toNat, t.toNat, tn, m.toNat, 0⟩)
/-- `VSTR` (R183). -/
def execVstr (d : Fld) (a : Reg) (b : Reg) (t : TagN) (tn : Bool) (m : Fmt) (s : State) : Host.Outcome State Fault Refusal :=
  .next (s.runV ⟨.vstr, d.toNat, a.toNat, b.toNat, t.toNat, tn, m.toNat, 0⟩)
/-- `VGET` (R187). -/
def execVget (d : Reg) (a : Fld) (b : Reg) (t : TagN) (tn : Bool) (m : Fmt) (s : State) : Host.Outcome State Fault Refusal :=
  .next (s.runV ⟨.vget, d.toNat, a.toNat, b.toNat, t.toNat, tn, m.toNat, 0⟩)
/-- `VPUT` (R187). -/
def execVput (d : Fld) (a : Reg) (b : Reg) (t : TagN) (tn : Bool) (m : Fmt) (s : State) : Host.Outcome State Fault Refusal :=
  .next (s.runV ⟨.vput, d.toNat, a.toNat, b.toNat, t.toNat, tn, m.toNat, 0⟩)
/-- `VBC` (R188). -/
def execVbc (d : Fld) (a : Reg) (t : TagN) (tn : Bool) (m : Fmt) (s : State) : Host.Outcome State Fault Refusal :=
  .next (s.runV ⟨.vbc, d.toNat, a.toNat, 0, t.toNat, tn, m.toNat, 0⟩)
/-- `VBCI` (R188). -/
def execVbci (d : Fld) (t : TagN) (tn : Bool) (m : Fmt) (imm : BitVec 29) (s : State) : Host.Outcome State Fault Refusal :=
  .next (s.runV ⟨.vbci, d.toNat, 0, 0, t.toNat, tn, m.toNat, imm.toNat⟩)
/-- `VCOPY` (R188). -/
def execVcopy (d : Fld) (a : Fld) (t : TagN) (tn : Bool) (s : State) : Host.Outcome State Fault Refusal :=
  .next (s.runV ⟨.vcopy, d.toNat, a.toNat, 0, t.toNat, tn, 0, 0⟩)
/-- `VTAND` (R189). -/
def execVtand (d : TagN) (a : TagN) (b : TagN) (t : TagN) (tn : Bool) (s : State) : Host.Outcome State Fault Refusal :=
  .next (s.runV ⟨.vtand, d.toNat, a.toNat, b.toNat, t.toNat, tn, 0, 0⟩)
/-- `VTOR` (R189). -/
def execVtor (d : TagN) (a : TagN) (b : TagN) (t : TagN) (tn : Bool) (s : State) : Host.Outcome State Fault Refusal :=
  .next (s.runV ⟨.vtor, d.toNat, a.toNat, b.toNat, t.toNat, tn, 0, 0⟩)
/-- `VTXOR` (R189). -/
def execVtxor (d : TagN) (a : TagN) (b : TagN) (t : TagN) (tn : Bool) (s : State) : Host.Outcome State Fault Refusal :=
  .next (s.runV ⟨.vtxor, d.toNat, a.toNat, b.toNat, t.toNat, tn, 0, 0⟩)
/-- `VTANDN` (R189). -/
def execVtandn (d : TagN) (a : TagN) (b : TagN) (t : TagN) (tn : Bool) (s : State) : Host.Outcome State Fault Refusal :=
  .next (s.runV ⟨.vtandn, d.toNat, a.toNat, b.toNat, t.toNat, tn, 0, 0⟩)
/-- `VTSET` (R189). -/
def execVtset (d : TagN) (t : TagN) (tn : Bool) (s : State) : Host.Outcome State Fault Refusal :=
  .next (s.runV ⟨.vtset, d.toNat, 0, 0, t.toNat, tn, 0, 0⟩)
/-- `VTCLR` (R189). -/
def execVtclr (d : TagN) (t : TagN) (tn : Bool) (s : State) : Host.Outcome State Fault Refusal :=
  .next (s.runV ⟨.vtclr, d.toNat, 0, 0, t.toNat, tn, 0, 0⟩)
/-- `VTFIRST` (R189). -/
def execVtfirst (d : TagN) (t : TagN) (tn : Bool) (s : State) : Host.Outcome State Fault Refusal :=
  .next (s.runV ⟨.vtfirst, d.toNat, 0, 0, t.toNat, tn, 0, 0⟩)
/-- `VTCOUNT` (R189). -/
def execVtcount (d : Reg) (t : TagN) (tn : Bool) (s : State) : Host.Outcome State Fault Refusal :=
  .next (s.runV ⟨.vtcount, d.toNat, 0, 0, t.toNat, tn, 0, 0⟩)
/-- `VTANY` (R189). -/
def execVtany (d : Reg) (t : TagN) (tn : Bool) (s : State) : Host.Outcome State Fault Refusal :=
  .next (s.runV ⟨.vtany, d.toNat, 0, 0, t.toNat, tn, 0, 0⟩)
/-- `VCEQ` (R190). -/
def execVceq (d : TagN) (a : Fld) (b : Fld) (t : TagN) (tn : Bool) (m : Fmt) (s : State) : Host.Outcome State Fault Refusal :=
  .next (s.runV ⟨.vceq, d.toNat, a.toNat, b.toNat, t.toNat, tn, m.toNat, 0⟩)
/-- `VCLT` (R190). -/
def execVclt (d : TagN) (a : Fld) (b : Fld) (t : TagN) (tn : Bool) (m : Fmt) (s : State) : Host.Outcome State Fault Refusal :=
  .next (s.runV ⟨.vclt, d.toNat, a.toNat, b.toNat, t.toNat, tn, m.toNat, 0⟩)
/-- `VCLE` (R190). -/
def execVcle (d : TagN) (a : Fld) (b : Fld) (t : TagN) (tn : Bool) (m : Fmt) (s : State) : Host.Outcome State Fault Refusal :=
  .next (s.runV ⟨.vcle, d.toNat, a.toNat, b.toNat, t.toNat, tn, m.toNat, 0⟩)
/-- `VADD` (R190). -/
def execVadd (d : Fld) (a : Fld) (b : Fld) (t : TagN) (tn : Bool) (m : Fmt) (s : State) : Host.Outcome State Fault Refusal :=
  .next (s.runV ⟨.vadd, d.toNat, a.toNat, b.toNat, t.toNat, tn, m.toNat, 0⟩)
/-- `VSUB` (R190). -/
def execVsub (d : Fld) (a : Fld) (b : Fld) (t : TagN) (tn : Bool) (m : Fmt) (s : State) : Host.Outcome State Fault Refusal :=
  .next (s.runV ⟨.vsub, d.toNat, a.toNat, b.toNat, t.toNat, tn, m.toNat, 0⟩)
/-- `VNEG` (R190). -/
def execVneg (d : Fld) (a : Fld) (t : TagN) (tn : Bool) (m : Fmt) (s : State) : Host.Outcome State Fault Refusal :=
  .next (s.runV ⟨.vneg, d.toNat, a.toNat, 0, t.toNat, tn, m.toNat, 0⟩)
/-- `VABS` (R190). -/
def execVabs (d : Fld) (a : Fld) (t : TagN) (tn : Bool) (m : Fmt) (s : State) : Host.Outcome State Fault Refusal :=
  .next (s.runV ⟨.vabs, d.toNat, a.toNat, 0, t.toNat, tn, m.toNat, 0⟩)
/-- `VMIN` (R190). -/
def execVmin (d : Fld) (a : Fld) (b : Fld) (t : TagN) (tn : Bool) (m : Fmt) (s : State) : Host.Outcome State Fault Refusal :=
  .next (s.runV ⟨.vmin, d.toNat, a.toNat, b.toNat, t.toNat, tn, m.toNat, 0⟩)
/-- `VMAX` (R190). -/
def execVmax (d : Fld) (a : Fld) (b : Fld) (t : TagN) (tn : Bool) (m : Fmt) (s : State) : Host.Outcome State Fault Refusal :=
  .next (s.runV ⟨.vmax, d.toNat, a.toNat, b.toNat, t.toNat, tn, m.toNat, 0⟩)
/-- `VMUL` (R191). -/
def execVmul (d : Fld) (a : Fld) (b : Fld) (t : TagN) (tn : Bool) (m : Fmt) (s : State) : Host.Outcome State Fault Refusal :=
  .next (s.runV ⟨.vmul, d.toNat, a.toNat, b.toNat, t.toNat, tn, m.toNat, 0⟩)
/-- `VAND` (R190). -/
def execVand (d : Fld) (a : Fld) (b : Fld) (t : TagN) (tn : Bool) (m : Fmt) (s : State) : Host.Outcome State Fault Refusal :=
  .next (s.runV ⟨.vand, d.toNat, a.toNat, b.toNat, t.toNat, tn, m.toNat, 0⟩)
/-- `VOR` (R190). -/
def execVor (d : Fld) (a : Fld) (b : Fld) (t : TagN) (tn : Bool) (m : Fmt) (s : State) : Host.Outcome State Fault Refusal :=
  .next (s.runV ⟨.vor, d.toNat, a.toNat, b.toNat, t.toNat, tn, m.toNat, 0⟩)
/-- `VXOR` (R190). -/
def execVxor (d : Fld) (a : Fld) (b : Fld) (t : TagN) (tn : Bool) (m : Fmt) (s : State) : Host.Outcome State Fault Refusal :=
  .next (s.runV ⟨.vxor, d.toNat, a.toNat, b.toNat, t.toNat, tn, m.toNat, 0⟩)
/-- `VNOT` (R190). -/
def execVnot (d : Fld) (a : Fld) (t : TagN) (tn : Bool) (m : Fmt) (s : State) : Host.Outcome State Fault Refusal :=
  .next (s.runV ⟨.vnot, d.toNat, a.toNat, 0, t.toNat, tn, m.toNat, 0⟩)
/-- `VSHL` (R190). -/
def execVshl (d : Fld) (a : Fld) (b : BitVec 5) (t : TagN) (tn : Bool) (m : Fmt) (s : State) : Host.Outcome State Fault Refusal :=
  .next (s.runV ⟨.vshl, d.toNat, a.toNat, b.toNat, t.toNat, tn, m.toNat, 0⟩)
/-- `VSHR` (R190). -/
def execVshr (d : Fld) (a : Fld) (b : BitVec 5) (t : TagN) (tn : Bool) (m : Fmt) (s : State) : Host.Outcome State Fault Refusal :=
  .next (s.runV ⟨.vshr, d.toNat, a.toNat, b.toNat, t.toNat, tn, m.toNat, 0⟩)
/-- `VSEL` (R192). -/
def execVsel (d : Fld) (a : Fld) (b : Fld) (t : TagN) (tn : Bool) (m : Fmt) (s : State) : Host.Outcome State Fault Refusal :=
  .next (s.runV ⟨.vsel, d.toNat, a.toNat, b.toNat, t.toNat, tn, m.toNat, 0⟩)
/-- `VFADD` (R193). -/
def execVfadd (d : Fld) (a : Fld) (b : Fld) (t : TagN) (tn : Bool) (m : Fmt) (s : State) : Host.Outcome State Fault Refusal :=
  .next (s.runV ⟨.vfadd, d.toNat, a.toNat, b.toNat, t.toNat, tn, m.toNat, 0⟩)
/-- `VFSUB` (R193). -/
def execVfsub (d : Fld) (a : Fld) (b : Fld) (t : TagN) (tn : Bool) (m : Fmt) (s : State) : Host.Outcome State Fault Refusal :=
  .next (s.runV ⟨.vfsub, d.toNat, a.toNat, b.toNat, t.toNat, tn, m.toNat, 0⟩)
/-- `VFMUL` (R193). -/
def execVfmul (d : Fld) (a : Fld) (b : Fld) (t : TagN) (tn : Bool) (m : Fmt) (s : State) : Host.Outcome State Fault Refusal :=
  .next (s.runV ⟨.vfmul, d.toNat, a.toNat, b.toNat, t.toNat, tn, m.toNat, 0⟩)
/-- `VFMIN` (R193). -/
def execVfmin (d : Fld) (a : Fld) (b : Fld) (t : TagN) (tn : Bool) (m : Fmt) (s : State) : Host.Outcome State Fault Refusal :=
  .next (s.runV ⟨.vfmin, d.toNat, a.toNat, b.toNat, t.toNat, tn, m.toNat, 0⟩)
/-- `VFMAX` (R193). -/
def execVfmax (d : Fld) (a : Fld) (b : Fld) (t : TagN) (tn : Bool) (m : Fmt) (s : State) : Host.Outcome State Fault Refusal :=
  .next (s.runV ⟨.vfmax, d.toNat, a.toNat, b.toNat, t.toNat, tn, m.toNat, 0⟩)
/-- `VFCEQ` (R193). -/
def execVfceq (d : TagN) (a : Fld) (b : Fld) (t : TagN) (tn : Bool) (m : Fmt) (s : State) : Host.Outcome State Fault Refusal :=
  .next (s.runV ⟨.vfceq, d.toNat, a.toNat, b.toNat, t.toNat, tn, m.toNat, 0⟩)
/-- `VFCLT` (R193). -/
def execVfclt (d : TagN) (a : Fld) (b : Fld) (t : TagN) (tn : Bool) (m : Fmt) (s : State) : Host.Outcome State Fault Refusal :=
  .next (s.runV ⟨.vfclt, d.toNat, a.toNat, b.toNat, t.toNat, tn, m.toNat, 0⟩)
/-- `VFCLE` (R193). -/
def execVfcle (d : TagN) (a : Fld) (b : Fld) (t : TagN) (tn : Bool) (m : Fmt) (s : State) : Host.Outcome State Fault Refusal :=
  .next (s.runV ⟨.vfcle, d.toNat, a.toNat, b.toNat, t.toNat, tn, m.toNat, 0⟩)
/-- `VLUT8` (R194). -/
def execVlut8 (d : Fld) (a : Fld) (t : TagN) (tn : Bool) (m : Fmt) (s : State) : Host.Outcome State Fault Refusal :=
  .next (s.runV ⟨.vlut8, d.toNat, a.toNat, 0, t.toNat, tn, m.toNat, 0⟩)
/-- `VLUT16` (R194). -/
def execVlut16 (d : Fld) (a : Fld) (t : TagN) (tn : Bool) (m : Fmt) (s : State) : Host.Outcome State Fault Refusal :=
  .next (s.runV ⟨.vlut16, d.toNat, a.toNat, 0, t.toNat, tn, m.toNat, 0⟩)
/-- `VSFN` (R195). -/
def execVsfn (d : Fld) (a : Fld) (b : BitVec 3) (t : TagN) (tn : Bool) (m : Fmt) (s : State) : Host.Outcome State Fault Refusal :=
  .next (s.runV ⟨.vsfn, d.toNat, a.toNat, b.toNat, t.toNat, tn, m.toNat, 0⟩)
/-- `VCVT` (R196). -/
def execVcvt (d : Fld) (a : Fld) (b : Fmt) (t : TagN) (tn : Bool) (m : Fmt) (s : State) : Host.Outcome State Fault Refusal :=
  .next (s.runV ⟨.vcvt, d.toNat, a.toNat, b.toNat, t.toNat, tn, m.toNat, 0⟩)
/-- `VRMAX` (R197). -/
def execVrmax (d : TagN) (a : Fld) (t : TagN) (tn : Bool) (m : Fmt) (s : State) : Host.Outcome State Fault Refusal :=
  .next (s.runV ⟨.vrmax, d.toNat, a.toNat, 0, t.toNat, tn, m.toNat, 0⟩)
/-- `VRMIN` (R197). -/
def execVrmin (d : TagN) (a : Fld) (t : TagN) (tn : Bool) (m : Fmt) (s : State) : Host.Outcome State Fault Refusal :=
  .next (s.runV ⟨.vrmin, d.toNat, a.toNat, 0, t.toNat, tn, m.toNat, 0⟩)
/-- `VRSUM` (R198). -/
def execVrsum (d : Reg) (a : Fld) (t : TagN) (tn : Bool) (m : Fmt) (s : State) : Host.Outcome State Fault Refusal :=
  .next (s.runV ⟨.vrsum, d.toNat, a.toNat, 0, t.toNat, tn, m.toNat, 0⟩)
/-- `VRFSUM` (R199). -/
def execVrfsum (d : Reg) (a : Fld) (t : TagN) (tn : Bool) (m : Fmt) (s : State) : Host.Outcome State Fault Refusal :=
  .next (s.runV ⟨.vrfsum, d.toNat, a.toNat, 0, t.toNat, tn, m.toNat, 0⟩)
/-- `VQBS` (R200). -/
def execVqbs (d : Fld) (a : Fld) (b : Fld) (t : TagN) (tn : Bool) (m : Fmt) (s : State) : Host.Outcome State Fault Refusal :=
  .next (s.runV ⟨.vqbs, d.toNat, a.toNat, b.toNat, t.toNat, tn, m.toNat, 0⟩)
/-- `VDQBS` (R201). -/
def execVdqbs (d : Fld) (a : Fld) (b : Fld) (t : TagN) (tn : Bool) (m : Fmt) (s : State) : Host.Outcome State Fault Refusal :=
  .next (s.runV ⟨.vdqbs, d.toNat, a.toNat, b.toNat, t.toNat, tn, m.toNat, 0⟩)
/-- `VOUTL` (R202). -/
def execVoutl (d : TagN) (a : Fld) (b : Fld) (t : TagN) (tn : Bool) (m : Fmt) (s : State) : Host.Outcome State Fault Refusal :=
  .next (s.runV ⟨.voutl, d.toNat, a.toNat, b.toNat, t.toNat, tn, m.toNat, 0⟩)
/-- `VPASS` (R175). -/
def execVpass (lo : BitVec 24) (x : BitVec 29) (s : State) : Host.Outcome State Fault Refusal :=
  .next (s.runV ⟨.vpass, 0, 0, 0, 0, false, lo.toNat, x.toNat⟩)
/-- `VSEQ` (R176). -/
def execVseq (first : BitVec 7) (cnt : BitVec 7) (s : State) : Host.Outcome State Fault Refusal :=
  .next (s.runV ⟨.vseq, 0, 0, 0, 0, false, 0, first.toNat + cnt.toNat * 128⟩)
/-- `VUCLOAD` (R177). -/
def execVucload (a : Reg) (t : TagN) (tn : Bool) (s : State) : Host.Outcome State Fault Refusal :=
  .next (s.runV ⟨.vucload, 0, a.toNat, 0, t.toNat, tn, 0, 0⟩)

end Sys2Proof.Machine
end

