-- ==== Sys2Proof/Machine/Matrix.lean ====
section
/-! DEFINITION. The matrix-bank sequencer (07_matrix.md R209 to R242): the instructions at issue, the arithmetic of `MMA` and `MRD`, and the
events by which an instruction starts and completes. -/
namespace Sys2Proof.Machine

/-! Shapes (R210 to R213, R218, R221). -/
/-- Planes of a weight format. -/
def wPlanes (f : Nat) : Nat := f - 15
def isWeight (f : Nat) : Bool := f == 16 || f == 17 || f == 19 || f == 23
/-- Kept positions per group, kept rows per bank, groups, logical positions per bank, by sparsity mode (R212). -/
def spKeep (m : Nat) : Nat := if m = 1 then 8 else if m = 2 then 4 else if m = 3 then 2 else 1
def spRows (m : Nat) : Nat := if m = 2 then 96 else if m = 3 then 64 else 128
def spSpan (m : Nat) : Nat := if m = 1 then 256 else if m = 2 then 384 else if m = 3 then 512 else 128
/-- Columns of a bank, columns and positions of a region, accumulator rows. -/
def Region.cols (r : Region) : Nat := 512 / max 1 (wPlanes r.wfmt)
def Region.nMax (r : Region) : Nat := r.nb * r.cols
def Region.kMax (r : Region) : Nat := r.kb * spSpan r.sparse
def Region.mMax (r : Region) : Nat := if r.wfmt = 23 then 16 else if r.wfmt = 19 then 8 else 4
def Region.usable (r : Region) : Bool := r.st == .ready
/-- Planes of an activation format; none for a code that `MMA` does not accept. -/
def actPlanes (f : Nat) : Option Nat :=
  if isNI f then some (f - 15) else if f = 0 ∨ f = 11 ∨ f = 12 then some 8 else if f = 1 then some 16 else if f = 9 ∨ f = 10 then some 12 else none
def isFloatAct (f : Nat) : Bool := f == 9 || f == 10 || f == 11 || f == 12
/-- F of R218. -/
def actF (f : Nat) : Int := if f = 9 ∨ f = 10 then 10 else 6
/-- Output formats of R223. -/
def outOk (f : Nat) : Bool := f ≤ 2 || (8 ≤ f && f ≤ 12)
/-- Bank (i, j) of a region. -/
def Region.bank (r : Region) (i j : Nat) : Nat := r.b0 + i * r.nb + j
/-- The two accumulator sets by number; a descriptor's `set` names the active or the other one (R221, R223). -/
def Region.accOf (r : Region) (n : Bool) : AccSet := if n then r.acc1 else r.acc0
def Region.setAcc (r : Region) (n : Bool) (a : AccSet) : Region := if n then { r with acc1 := a } else { r with acc0 := a }
/-- Key of accumulator (m, c). -/
def accKey (m c : Nat) : Nat := 16384 * m + c

/-! The descriptor (R223). -/
structure MxDesc where
  k : Nat
  n : Nat
  m : Nat
  ovw : Bool
  set : Bool
  region : Nat
  act : Nat
  astride : Nat
  ofmt : Nat
  ostride : Nat
  out : Nat
  fld : Nat
  ben : Bool
  bias : Nat
  cw : Nat
  ctag : Nat
  resv : Bool
  deriving DecidableEq, Repr
def readMx (bs : List Byte) : MxDesc :=
  let w := wordAt bs
  { k := bitsOf (w 0) 32 13 + 1, n := bitsOf (w 0) 16 14 + 1, m := bitsOf (w 0) 8 4 + 1, ovw := bitsOf (w 0) 4 1 == 1, set := bitsOf (w 0) 3 1 == 1,
    region := bitsOf (w 0) 0 3, act := bitsOf (w 1) 0 20, astride := bitsOf (w 1) 32 20, ofmt := bitsOf (w 2) 52 5, ostride := bitsOf (w 2) 32 20,
    out := bitsOf (w 2) 0 20, fld := bitsOf (w 3) 32 5, ben := bitsOf (w 3) 20 1 == 1, bias := bitsOf (w 3) 0 20, cw := bitsOf (w 4) 0 20,
    ctag := bitsOf (w 5) 16 48,
    resv := bitsOf (w 0) 45 19 != 0 || bitsOf (w 0) 30 2 != 0 || bitsOf (w 0) 12 4 != 0 || bitsOf (w 0) 5 3 != 0 || bitsOf (w 1) 52 12 != 0 ||
      bitsOf (w 1) 20 12 != 0 || bitsOf (w 2) 57 7 != 0 || bitsOf (w 2) 20 12 != 0 || bitsOf (w 3) 37 27 != 0 || bitsOf (w 3) 21 11 != 0 ||
      bitsOf (w 4) 20 44 != 0 || bitsOf (w 5) 0 16 != 0 || w 7 != 0 }
/-- Output bytes per element, and the first byte of output row `m`. -/
def MxDesc.size (d : MxDesc) : Nat := fmtWidth d.ofmt / 8
def MxDesc.outRow (d : MxDesc) (m : Nat) : Nat := d.out + m * d.ostride
/-- Bytes of one activation row of `K` positions, and the first byte of row `m` (R219). -/
def actBytes (f k : Nat) : Nat := if isNI f then (f - 15) * ceilDiv k 8 else if fmtWidth f = 16 then 2 * k else k
def MxDesc.actRow (d : MxDesc) (m : Nat) : Nat := d.act + m * d.astride

/-! At issue (R234, R235, R239, R241). -/
def mxAddr (v : W64) : Nat := bitsOf v 0 20
/-- Kinds that name a descriptor. -/
def mxDescKind (k : MxKind) : Bool := k == .mma || k == .mrd || k == .mrdv
/-- Enters a matrix instruction of the current thread; `pre` is the state before the bundle. -/
def State.mxEnter (s pre : State) (k : MxKind) (rd : Reg) (ra rb : W64) : State :=
  let t := pre.cthr
  let id := s.nextId
  let (area, sfld) := match t.spec with
    | some sp => (sp.area.truncate 41, sp.fld)
    | none => (t.specarea, t.specfld)
  let o : MxOp :=
    { id := id, kind := k, cid := t.cid, rd := rd, ra := ra, rb := rb, fmtA := t.fmtA.toNat, fmtW := t.fmtW.toNat
      scaleA := t.scaleA, scaleW := t.scaleW, sparse := t.sparse.toNat, win := t.win, spec := t.speculative, area := area, sfld := sfld
      started := false, gd := 0, cw := none, flags := 0, status := 0, region := 0, banks := 0, writes := [] }
  (s.bump.modCtile fun l => { l with mxq := l.mxq ++ [o] }).modCur fun th => th.launch id (if mxDescKind k then none else some rd)
/-- The checks of `MSTAT` (R235); where a condition on `g[ra]` and the bound of the index table both fail, `g[ra]` is reported (DESIGN CHOICE,
log 78). -/
def mstatChecks (ra rb : Reg) (s : State) : List Trap :=
  let t := s.cthr
  let l := s.ctile
  let v := t.rd ra
  let n := (bitsOf v 11 4 + 1) * (bitsOf v 15 5 + 1)
  let b0 := bitsOf v 4 7
  let tab := mxAddr (t.rd rb)
  let sparse := t.sparse != 0
  let bankAt := ((List.range n).find? fun i => l.stat (b0 + i)).map fun i => (b0 + i) * 8192
  let own := if sparse then (List.range n).findSome? fun i =>
      let b := b0 + i
      if tab < b * 8192 + 8192 ∧ b * 8192 < tab + 64 * n then some (max tab (b * 8192)) else none
    else none
  let stat := [bankAt, if sparse then l.statIn tab (64 * n) else none, own].filterMap id
  trapA tab (sparse && tab % 64 != 0) ++
  trapB v (decide (b0 + n > 128) || (l.region (bitsOf v 0 3)).st != .free || !isWeight t.fmtW.toNat) ++
  trapB (BitVec.ofNat 64 tab) (sparse && decide (tab + 64 * n > Config.spSize)) ++
  lowestStat (stat.map fun a => ⟨7, cSTAT, BitVec.ofNat 64 a⟩)
/-- `MSTAT` claims its banks at issue (R137, R235). -/
def halfMstat (rd ra rb : Reg) : Half :=
  { srcs := [ra, rb], dsts := [rd], long := fun _ => true, checks := mstatChecks ra rb, spec := endsAct
    eff := fun pre s =>
      let t := pre.cthr
      let v := t.rd ra
      let r : Region := { st := .claimed, b0 := bitsOf v 4 7, kb := bitsOf v 11 4 + 1, nb := bitsOf v 15 5 + 1, wfmt := t.fmtW.toNat, sparse := t.sparse.toNat }
      (s.modCtile fun l => l.setRegion (bitsOf v 0 3) r).mxEnter pre .mstat rd v (t.rd rb) }
def mxPlain (k : MxKind) (rd ra : Reg) (act : State → SpecAct) : Half :=
  { srcs := [ra], dsts := [rd], long := fun _ => true, spec := act
    eff := fun pre s => s.mxEnter pre k rd (pre.cthr.rd ra) 0 }
def halfMunstat (rd ra : Reg) : Half := mxPlain .munstat rd ra endsAct
def halfMacc (rd ra : Reg) : Half := mxPlain .macc rd ra endsAct
def halfMstatus (rd ra : Reg) : Half := mxPlain .mstatus rd ra fun _ => .go
/-- The issue checks of a descriptor address (R234). -/
def mxDescChecks (ra : Reg) (s : State) : List Trap := s.ctile.span (mxAddr (s.cthr.rd ra)) 64 64 false
/-- The conditions of R241 on a descriptor at `a`, for area and fields as captured at `BARR`. -/
def mxAllowed (k : MxKind) (area fld : W64) (a : Nat) (d : MxDesc) : Bool :=
  areaHas area a 64 && areaHas area d.cw 8 &&
    match k with
    | .mma => d.set
    | .mrd => (List.range d.m).all fun m => areaHas area (d.outRow m) (d.n * d.size)
    | _ => (shadowOf fld d.fld).isSome
def mxAct (k : MxKind) (ra : Reg) (s : State) : SpecAct :=
  let t := s.cthr
  match t.spec with
  | some sp => let a := mxAddr (t.rd ra); if mxAllowed k sp.area sp.fld a (readMx (s.threadRead a 64)) then .go else .ends
  | none => .go
/-- A region named by an allowed instruction is held (R242); the destination of an `MRDV` is redirected from then on (R207), and kept in the
instruction until it reads its descriptor again. -/
def mxHold (k : MxKind) (ra : Reg) (id : Nat) (pre s : State) : State :=
  if pre.cthr.speculative then
    let d := readMx (pre.threadRead (mxAddr (pre.cthr.rd ra)) 64)
    let s := s.modCtile fun l => { l with mxq := l.mxq.map fun (o : MxOp) => if o.id = id then { o with fld := d.fld } else o }
    s.modCur fun t => { t with spec := t.spec.map fun (sp : Spec) =>
      { sp with holds := (sp.holds ++ [d.region]).eraseDups, written := if k = .mrdv then sp.written ++ [d.fld] else sp.written } }
  else s
/-- `MMA`, `MRD` and `MRDV` at issue (R234, R239, R241): a speculative thread reads the descriptor then. Beside a V operation in the same bundle an `MRDV`
enters the window's queue second, its effect being the S half's (DESIGN CHOICE, log 8). -/
def mxDescHalf (k : MxKind) (ra : Reg) : Half :=
  { srcs := [ra], long := fun _ => true, vec := k == .mrdv, checks := mxDescChecks ra, spec := mxAct k ra
    touches := fun s => if s.cthr.speculative then [(mxAddr (s.cthr.rd ra), 64)] else []
    eff := fun pre s =>
      let id := s.nextId
      let s := mxHold k ra id pre (s.mxEnter pre k 0 (pre.cthr.rd ra) 0)
      if k = .mrdv then
        let t := pre.cthr
        let e : VEntry := ⟨s.nextId, t.cid, ⟨.vnop, 0, 0, 0, 0, false, 0, 0⟩, {}, {}, {}, t.vl, t.round, 0, 0, [], false, t.speculative, some id⟩
        s.bump.modCtile fun l => l.setWin t.win { l.win t.win with queue := (l.win t.win).queue ++ [e] }
      else s }
def halfMma (ra : Reg) : Half := mxDescHalf .mma ra
def halfMrd (ra : Reg) : Half := mxDescHalf .mrd ra
def halfMrdv (ra : Reg) : Half := mxDescHalf .mrdv ra

/-! Arithmetic (R211, R213, R216 to R222, R229). -/
/-- The weight of column `c` in line `r` of bank `b` (R210, R211). -/
def weightAt (sp : Memory) (wfmt b r c : Nat) : Int :=
  let k := wPlanes wfmt
  let cols := 512 / k
  let v := (List.range k).foldl (fun v p =>
    2 * v + (sp.read (b * 8192 + 64 * r + p * cols / 8 + c / 8)).toNat / 2 ^ (c % 8) % 2) 0
  if 2 ^ (k - 1) ≤ v then (v : Int) - 2 ^ k else v
/-- The logical k-position of line `r` of bank (i, j) (R211, R213). -/
def Region.pos (rg : Region) (i j r : Nat) : Nat :=
  spSpan rg.sparse * i + (if rg.sparse = 0 then r else (rg.index.getD (i * rg.nb + j) []).getD r 0)
/-- The product sum of one position (R222). -/
def Region.product (rg : Region) (sp : Memory) (a : List Int) (c : Nat) : Int :=
  let j := c / rg.cols
  (List.range rg.kb).foldl (fun acc i =>
    (List.range (spRows rg.sparse)).foldl (fun acc r =>
      match a.getD (rg.pos i j r) 0 with
      | 0 => acc
      | v => acc + v * weightAt sp rg.wfmt (rg.bank i j) r (c % rg.cols)) acc) 0
def satInt (w : Nat) (v : Int) : Int := max (-(2 ^ (w - 1) : Nat)) (min v ((2 ^ (w - 1) : Nat) - 1))
/-- The bits of activation element `k` of the row at `a` (R91, R219). -/
def actElem (rd : Nat → Byte) (f kk a k : Nat) : Nat :=
  if isNI f then
    let len := ceilDiv kk 8
    (List.range (f - 15)).foldl (fun v p => 2 * v + (rd (a + p * len + k / 8)).toNat / 2 ^ (k % 8) % 2) 0
  else if fmtWidth f = 16 then natOfBytes [rd (a + 2 * k), rd (a + 2 * k + 1)] else (rd (a + k)).toNat
/-- One aligned activation row: the integers, the exponent, whether it is a NaN row, whether an element saturated (R220). `rec` is the
recorded exponent in force. -/
def alignRow (f : Nat) (recd : Option Int) (xs : List Val) : List Int × Option Int × Bool × Bool :=
  let special (v : Val) : Bool := match v with
    | .fin _ _ _ _ => false
    | _ => true
  if xs.any special then (xs.map fun _ => 0, recd, true, false)
  else
    let ex (v : Val) : Option Int := match v with
      | .fin _ 0 _ _ => none
      | .fin _ n d e => some (floorLog2 n d + e)
      | _ => none
    let enew := (xs.filterMap ex).foldl (fun m e => match m with
      | none => some e
      | some x => some (max x e)) none
    let e := recd.or enew
    match e with
    | none => (xs.map fun _ => 0, none, false, false)
    | some e0 =>
      let p := (actPlanes f).getD 0
      let one (v : Val) : Int := match v with
        | .fin s n d x =>
          let (a, b) := scale2 n d (x + actF f - e0)
          let (i, _) := roundInt a b s 0
          if s then -(i : Int) else i
        | _ => 0
      let is := xs.map one
      (is.map (satInt p), e, false, is.any fun i => satInt p i != i)
/-- The two's complement value of an integer or NI encoding (R218). -/
def signedVal (f b : Nat) : Int := if 2 ^ (fmtWidth f - 1) ≤ b then (b : Int) - 2 ^ fmtWidth f else b
/-- Activation row `m`: integers, exponent, NaN, saturation. -/
def actRowOf (rd : Nat → Byte) (f k a : Nat) (recd : Option Int) : List Int × Option Int × Bool × Bool :=
  let el := (List.range k).map (actElem rd f k a)
  if isFloatAct f then alignRow f recd (el.map (val f))
  else (el.map fun b => signedVal f b, none, false, false)
/-- One output (R229): `acc` the accumulator, `sa` and `sw` the scales' encodings, `e` the recorded exponent for a float class. The row scale is
multiplied first, and a zero product has the product of the signs (DESIGN CHOICE, log 76). -/
def outputOf (acc : Int) (nan : Bool) (sa sw : Option Nat) (e : Option Int) (bias : Option Nat) (ofmt : Nat) : Nat × FFlags :=
  if nan then roundVal ofmt (.nan false) 0
  else
    let one : Val := .fin false 1 1 0
    let v (b : Option Nat) : Val := match b with
      | some n => val 8 n
      | none => one
    let (p, f1) := vMul (Val.ofInt acc) (v sa)
    let (p, f2) := match e with
      | some k => vMul p (.fin false 1 1 k)
      | none => (p, 0)
    let (p, f3) := vMul p (v sw)
    let (y, f4) := roundVal 8 p 0
    let (y, f5) := match bias with
      | some b =>
        let (z, g) := vAdd (val 8 y) (val 8 b) 0
        let (r, h) := roundVal 8 z 0
        (r, g ||| h)
      | none => (y, 0)
    let (o, f6) := roundVal ofmt (val 8 y) 0
    (o, f1 ||| f2 ||| f3 ||| f4 ||| f5 ||| f6)

/-! Start (R225 to R228, R231, R240, R242). -/
/-- The region that an instruction names; for one with a descriptor, as the descriptor stands until it starts (log 19). -/
def Tile.mxRegion (t : Tile) (o : MxOp) : Nat :=
  if o.started then o.region
  else if mxDescKind o.kind then bitsOf (BitVec.ofNat 64 (t.sp.readN (mxAddr o.ra) 8)) 0 3
  else bitsOf o.ra 0 3
/-- Bank places that an instruction holds (R227). -/
def Tile.mxPlaces (t : Tile) (o : MxOp) : Nat :=
  let r := t.region (t.mxRegion o)
  if (o.kind == .mstat || o.kind == .munstat || o.kind == .mma) && r.st != .free then min 96 (r.kb * r.nb) else 0
/-- The result word (R223). -/
def resultWord (v src erow ebank addr row : Nat) : W64 :=
  BitVec.ofNat 64 (addr * 2 ^ 32 + v * 2 ^ 31 + src * 2 ^ 29 + erow * 2 ^ 22 + ebank * 2 ^ 15 + row)
/-- Why an instruction aborts (R231): row, source, bank, line, address. -/
structure MxAbort where
  row : Nat
  src : Nat
  bank : Nat
  line : Nat
  addr : Nat
  deriving DecidableEq, Repr
/-- What an instruction does at its start: the region as it leaves it, its cost in half picojoules, its status, flags, the value of `gd` or the result
word, the rows for the corner turner and its cycles for them, the bytes written (address, bytes), the ranges read. `ended`: a check of R228, R231 or
R241 has ended it before anything else; `silent`: it writes nothing at all. -/
structure MxRes where
  region : Region
  cost : Nat := 0
  cycles : Nat := 0
  status : Nat := 0
  flags : FFlags := 0
  word : W64 := 0
  ended : Bool := false
  silent : Bool := false
  rows : List (Nat × Nat × Nat) := []
  turn : Nat := 0
  outs : List (Nat × List Byte) := []
  reads : List (Nat × Nat) := []
  deriving DecidableEq, Repr
/-- The ranges that an `MMA` or `MRD` reads, with their alignment, and the output rows (R219, R228, R229). -/
def mxReads (o : MxOp) (d : MxDesc) : List (Nat × Nat × Nat) :=
  if o.kind = .mma then (List.range d.m).map fun m => (d.actRow m, actBytes o.fmtA d.k, if fmtWidth o.fmtA = 16 && !isNI o.fmtA then 2 else 1)
  else
    (if o.scaleA.getLsbD 20 then [(bitsOf (o.scaleA.zeroExtend 64) 2 18 * 4, 4 * d.m, 4)] else []) ++
    (if o.scaleW.getLsbD 20 then [(bitsOf (o.scaleW.zeroExtend 64) 2 18 * 4, 4 * d.n, 4)] else []) ++
    (if d.ben then [(d.bias, 4 * d.n, 4)] else [])
def mxOuts (o : MxOp) (d : MxDesc) : List (Nat × Nat × Nat) :=
  if o.kind = .mrd then (List.range d.m).map fun m => (d.outRow m, d.n * d.size, d.size) else []
/-- The checks of R228; `none` if all pass. -/
def mxStatus (t : Tile) (o : MxOp) (d : MxDesc) : Option Nat :=
  let r := t.region d.region
  let spans := mxReads o d ++ mxOuts o d ++ [(mxAddr o.ra + 0x30, 8, 8), (d.cw, 8, 8)]
  if !r.usable then some stBOUNDS
  else if d.resv || d.m > r.mMax || d.n > r.nMax || (o.kind == .mma && (d.k > r.kMax || (actPlanes o.fmtA).isNone)) || (o.kind != .mma && !outOk d.ofmt) then
    some stBOUNDS
  else if o.kind == .mma && !d.ovw && (match (r.accOf (r.act != d.set)).fmt with
    | some f => f != o.fmtA
    | none => false) then some stBOUNDS
  else if spans.any fun p => decide (p.1 + p.2.1 > Config.spSize) || p.1 % p.2.2 != 0 then some stBOUNDS
  else if spans.any fun p => (t.statIn p.1 p.2.1).isSome then some stSTAT
  else if o.kind == .mrdv && decide (d.m * d.n > Config.rows) then some stBOUNDS
  else none
/-- Column groups of a region of more than 96 banks (R227): the columns' bank indexes per group. -/
def Region.groups (r : Region) : Nat × Nat :=
  if r.kb * r.nb ≤ 96 then (1, r.nb) else let p := 96 / max 1 r.kb; (ceilDiv r.nb p, p)
/-- The first failing weight line of a column group (R214, R231), the lowest line before the lowest bank (DESIGN CHOICE, log 77). -/
def Region.badLine (r : Region) (q per : Nat) : Option (Nat × Nat) :=
  (List.range (spRows r.sparse)).findSome? fun line =>
    (List.range r.kb).findSome? fun i => (List.range r.nb).findSome? fun j =>
      if j / per = q ∧ r.badLines.contains (r.bank i j, line) then some (r.bank i j, line) else none
/-- `MMA` once its checks pass (R220 to R224, R231, R232, R237). Of several failures at one row it records the activation word first (DESIGN CHOICE,
log 77). -/
def mmaRun (t : Tile) (rd : Nat → Byte) (o : MxOp) (d : MxDesc) : MxRes :=
  let r := t.region d.region
  let n := r.act != d.set
  let a0 := r.accOf n
  let inside := fun (key : Nat) => key / 16384 < d.m && key % 16384 < d.n
  let base : AccSet := { a0 with acc := a0.acc.filter fun e => inside e.1, exps := a0.exps.filter fun e => e.1 < d.m,
                                 nans := a0.nans.filter (· < d.m), bad := a0.bad.filter inside }
  let planes := (actPlanes o.fmtA).getD 0
  let rows := (List.range d.m).map fun m => actRowOf rd o.fmtA d.k (d.actRow m) (if d.ovw then none else base.exps.find m)
  let actBad := (List.range d.m).findSome? fun m => (t.badIn (d.actRow m) (actBytes o.fmtA d.k)).map fun a => (m, a)
  let (g, per) := r.groups
  let abortOf (q : Nat) : Option MxAbort :=
    match actBad, r.badLine q per with
    | some (0, a), _ => some ⟨0, 1, 0, 0, a⟩
    | _, some (b, l) => some ⟨0, 0, b, l, 0⟩
    | some (m, a), none => some ⟨m, 1, 0, 0, a⟩
    | none, none => none
  let stopQ := (List.range g).find? fun q => (abortOf q).isSome
  let abort := stopQ.bind abortOf
  let doneRows (c : Nat) : Nat :=
    match stopQ, abort with
    | some q, some ab => let cq := c / r.cols / per; if cq < q then d.m else if cq = q then ab.row else 0
    | _, _ => d.m
  let cells := (List.range d.m).flatMap fun m => ((List.range d.n).filter fun c => decide (m < doneRows c)).map fun c =>
    let v := r.product t.sp (rows.getD m ([], none, false, false)).1 c + (if d.ovw then 0 else base.acc.at 0 (accKey m c))
    (accKey m c, satInt 32 v, satInt 32 v != v)
  let acc := cells.foldl (fun (mp : Map Int) e => if e.2.1 = 0 then mp.del e.1 else mp.put e.1 e.2.1) base.acc
  let recN := match abort with
    | some ab => ab.row
    | none => d.m
  let recs := (List.range recN).map fun m => (m, rows.getD m ([], none, false, false))
  let exps := recs.foldl (fun (mp : Map Int) e => match e.2.2.1 with
    | some x => mp.put e.1 x
    | none => mp.del e.1) base.exps
  let nans := base.nans.filter (recN ≤ ·) ++ (recs.filter fun e => e.2.2.2.1 || (!d.ovw && base.nans.contains e.1)).map Prod.fst
  let sat := cells.any (fun e => e.2.2) || recs.any fun e => e.2.2.2.2
  let out : AccSet := { acc := acc, exps := exps, nans := nans, fmt := some o.fmtA, bad := base.bad.filter fun k => !cells.any fun e => e.1 == k }
  let r := r.setAcc n out
  let r := match abort with
    | some ab => if ab.src = 0 && !r.pe then { r with pe := true, ebank := ab.bank, erow := ab.line } else r
    | none => r
  { region := r, cost := r.kb * r.nb * d.m * 16 * planes * 5, cycles := 24 + g * d.m * 16 * planes
    status := match abort with
      | some _ => stPARITY
      | none => if sat then stSATURATED else stOK
    word := match abort with
      | some ab => resultWord 1 ab.src ab.line ab.bank ab.addr ab.row
      | none => resultWord 0 0 0 0 0 d.m
    reads := (List.range d.m).map fun m => (d.actRow m, actBytes o.fmtA d.k) }
/-- `MRD` and `MRDV` once their checks pass (R229 to R231, R239). Of several failures at one row the first of column scale, bias, row scale, accumulator
and output word is recorded (DESIGN CHOICE, log 77). -/
def mrdRun (t : Tile) (rd : Nat → Byte) (o : MxOp) (d : MxDesc) : MxRes :=
  let r := t.region d.region
  let a := r.accOf (r.act != d.set)
  let word (p : Nat) : Nat := natOfBytes ((List.range 4).map fun i => rd (p + i))
  let sa := if o.scaleA.getLsbD 20 then some (bitsOf (o.scaleA.zeroExtend 64) 2 18 * 4) else none
  let sw := if o.scaleW.getLsbD 20 then some (bitsOf (o.scaleW.zeroExtend 64) 2 18 * 4) else none
  let bias := if d.ben then some d.bias else none
  let badAt (p : Option Nat) (n : Nat) : Option Nat := p.bind fun p => t.badIn p n
  let abortAt (m : Nat) : Option MxAbort :=
    let tab := if m = 0 then (badAt sw (4 * d.n)).or (badAt bias (4 * d.n)) else none
    match tab.or (badAt (sa.map (· + 4 * m)) 4) with
    | some p => some ⟨m, 1, 0, 0, p⟩
    | none =>
      match (List.range d.n).find? fun c => a.bad.contains (accKey m c) with
      | some c => some ⟨m, 2, r.bank (r.kb - 1) (c / r.cols), 0, 0⟩
      | none =>
        if o.kind == .mrd then
          let lo := d.outRow m
          let hi := lo + d.n * d.size
          (t.bad.find? fun w => lo < w * 8 + 8 && w * 8 < hi && !(lo ≤ w * 8 && w * 8 + 8 ≤ hi)).map fun w => ⟨m, 1, 0, 0, w * 8⟩
        else none
  let abort := (List.range d.m).findSome? abortAt
  let done := match abort with
    | some ab => ab.row
    | none => d.m
  let float := match a.fmt with
    | some f => isFloatAct f
    | none => false
  let outs := (List.range done).map fun m => (List.range d.n).map fun c =>
    outputOf (a.acc.at 0 (accKey m c)) (a.nans.contains m) (sa.map fun p => word (p + 4 * m)) (sw.map fun p => word (p + 4 * c))
      (if float then (a.exps.find m).map fun e => e - actF (a.fmt.getD 0) else none) (bias.map fun p => word (p + 4 * c)) d.ofmt
  let cyc := 8 + d.m * ceilDiv d.n 16
  let wd := fmtWidth d.ofmt
  let turn := if o.kind = .mrdv then ceilDiv (d.m * d.n * wd) 1024 else 0
  { region := r, cost := cyc * 5 + 8 * turn, cycles := cyc, turn := turn
    status := if abort.isSome then stPARITY else stOK
    flags := outs.foldl (fun f l => l.foldl (fun f x => f ||| x.2) f) 0
    word := match abort with
      | some ab => resultWord 1 ab.src ab.line ab.bank ab.addr ab.row
      | none => resultWord 0 0 0 0 0 d.m
    rows := if o.kind = .mrdv then ((List.range done).flatMap fun m => (List.range d.n).map fun c =>
      (m * d.n + c, 2 * wd + (isI d.ofmt).toNat, ((outs.getD m []).getD c (0, 0)).1)) else []
    outs := if o.kind = .mrd then (List.range done).map fun m => (d.outRow m, (outs.getD m []).flatMap fun x => bytesOfNat d.size x.1) else []
    reads := (mxReads o d).map fun p => (p.1, p.2.1) }
/-- An instruction with a descriptor at its start (R223, R228, R231, R241). -/
def mxDescRun (t : Tile) (rd : Nat → Byte) (o : MxOp) : MxRes × MxDesc :=
  let a := mxAddr o.ra
  let d := readMx ((List.range 64).map fun i => rd (a + i))
  let r := t.region d.region
  let stop (st : Nat) (silent : Bool) (w : W64) : MxRes := { region := r, status := st, ended := true, silent := silent, word := w }
  let cwBad := d.cw % 8 != 0 || decide (d.cw + 8 > Config.spSize) || t.stat (bankOf d.cw)
  match t.badIn a 64 with
  | some p =>
    (stop stPARITY (t.bad.contains (a / 8 + 4) || t.bad.contains (a / 8 + 5) || cwBad) (resultWord 1 1 0 0 p 0), d)
  | none =>
    if o.spec && !mxAllowed o.kind (o.area.zeroExtend 64) o.sfld a d then (stop stBOUNDS true 0, d)
    else match mxStatus t o d with
      | some st => (stop st cwBad (resultWord 0 0 0 0 0 0), d)
      | none => (if o.kind = .mma then mmaRun t rd o d else mrdRun t rd o d, d)
/-- The indexes of a sparse region (R213); none where a group's positions do not rise strictly. -/
def loadIndex (sp : Memory) (mode tab n : Nat) : Option (List (List Nat)) :=
  let k := spKeep mode
  let nib (b i : Nat) : Nat := (sp.read (tab + 64 * b + i / 2)).toNat / 16 ^ (i % 2) % 16
  let ok := (List.range n).all fun b => (List.range (spRows mode)).all fun i => i % k == 0 || decide (nib b (i - 1) < nib b i)
  if ok then some ((List.range n).map fun b => (List.range (spRows mode)).map fun i => 16 * (i / k) + nib b i) else none
/-- `MSTAT` at its start (R235). -/
def mstatRun (t : Tile) (o : MxOp) : MxRes :=
  let r := t.region (bitsOf o.ra 0 3)
  let n := r.kb * r.nb
  let tab := mxAddr o.rb
  let lines := (List.range n).flatMap fun b => (List.range (spRows r.sparse)).filterMap fun l =>
    if (t.badIn ((r.b0 + b) * 8192 + 64 * l) 64).isSome then some (r.b0 + b, l) else none
  let fresh : Region := { st := .ready, b0 := r.b0, kb := r.kb, nb := r.nb, wfmt := r.wfmt, sparse := r.sparse, badLines := lines }
  let g := r.groups.1
  let bank := (List.range n).map fun b => ((r.b0 + b) * 8192, 64 * spRows r.sparse)
  let table := if r.sparse = 0 ∨ (t.statIn tab (64 * n)).isSome then [] else [(tab, 64 * n)]
  let res (st : Nat) (rg : Region) : MxRes :=
    { region := rg, cost := n * 64 * 5, cycles := 64 * g, status := st, word := BitVec.ofNat 64 st, reads := bank ++ table }
  if r.sparse = 0 then res (if lines.isEmpty then stOK else stPARITY) fresh
  else if (t.statIn tab (64 * n)).isSome then res stSTAT { fresh with st := .failed }
  else if (t.badIn tab (64 * n)).isSome then res stPARITY { fresh with st := .failed }
  else match loadIndex t.sp r.sparse tab n with
    | some ix => res (if lines.isEmpty then stOK else stPARITY) { fresh with index := ix }
    | none => res stBOUNDS { fresh with st := .failed }
/-- `MACC` (R238): its cost and cycles are those of R226 whatever its status; a region that is not claimed has no columns to charge. -/
def maccRun (t : Tile) (o : MxOp) : MxRes :=
  let r := t.region (bitsOf o.ra 0 3)
  let n := bitsOf o.ra 3 1 == 1
  let op := bitsOf o.ra 4 2
  let cost := if r.st = .free then 0 else r.nb * 20
  if !r.usable || op = 3 then { region := r, cost := cost, cycles := 4, status := stBOUNDS, word := BitVec.ofNat 64 stBOUNDS }
  else
    let rg := if op = 0 ∨ op = 2 then r.setAcc n {} else r
    { region := if op = 1 ∨ op = 2 then { rg with act := n } else rg, cost := cost, cycles := 4 }
/-- The status word (R240). -/
def Region.word (r : Region) : W64 :=
  if r.st = .free then 0
  else BitVec.ofNat 64 (r.erow * 2 ^ 40 + r.ebank * 2 ^ 33 + r.lstat * 2 ^ 29 + r.pe.toNat * 2 ^ 28 + r.act.toNat * 2 ^ 27 + r.sparse * 2 ^ 25 + r.wfmt * 2 ^ 20 +
    (r.nb - 1) * 2 ^ 15 + (r.kb - 1) * 2 ^ 11 + r.b0 * 2 ^ 4 + (if r.st = .failed then 2 else 1))
/-- What instruction `o` does at its start, with its descriptor if it has one. `MUNSTAT` of a free region costs nothing and takes no cycle (R236;
DESIGN CHOICE, log 79). -/
def State.mxRun (s : State) (x : Nat) (o : MxOp) : MxRes × Option MxDesc :=
  let t := s.tile x
  match o.kind with
  | .mstat => (mstatRun t o, none)
  | .munstat =>
    let r := t.region (bitsOf o.ra 0 3)
    (if r.st = .free then { region := r, status := stBOUNDS, word := BitVec.ofNat 64 stBOUNDS }
    else { region := r, cost := r.kb * r.nb * 64 * 5, cycles := 64 * r.groups.1 }, none)
  | .macc => (maccRun t o, none)
  | .mstatus =>
    let r := t.region (bitsOf o.ra 0 3)
    ({ region := r, cycles := 1, word := r.word }, none)
  | _ => let p := mxDescRun t (fun a => s.opByte x o.cid o.spec a) o; (p.1, some p.2)
/-- The conditions of R225 and R227 other than energy. -/
def Tile.mxReady (t : Tile) (o : MxOp) : Bool :=
  let earlier := t.mxq.takeWhile fun p => p.id != o.id
  let r := t.mxRegion o
  let used := (t.mxq.filter MxOp.started).foldl (fun n p => n + p.banks) 0
  let head := fun (p : MxOp) => !((t.mxq.takeWhile fun q => q.id != p.id).any fun q => t.mxRegion q == t.mxRegion p)
  !(earlier.any fun p => t.mxRegion p == r) &&
  !((o.kind == .mrd || o.kind == .mrdv) && earlier.any fun p => p.kind == .mrd || p.kind == .mrdv) &&
  (t.mxPlaces o == 0 ||
    (decide (used + t.mxPlaces o ≤ 96) && !(earlier.any fun p => !p.started && t.mxPlaces p != 0 && head p && decide (used + t.mxPlaces p > 96))))
/-- A matrix start on a region rolls back every other thread that holds it (R242, R351). -/
def Tile.mxConflict (t : Tile) (cid r : Nat) : Tile :=
  { t with slots := t.slots.map fun (q : Slot) => match q.thr with
      | some th => match th.spec with
        | some sp => if th.speculative && th.cid != cid && sp.holds.contains r then { q with thr := some (th.rollback 1) } else q
        | none => q
      | none => q }
/-- Sets read bits of a speculative thread for ranges that its operation reads (R241, R350). -/
def Thread.markLines (t : Thread) (l : List (Nat × Nat)) : Thread :=
  if t.speculative then
    { t with spec := t.spec.map fun (sp : Spec) => { sp with reads := (sp.reads ++ l.flatMap fun p => linesOf p.1 p.2).eraseDups } }
  else t
/-- `MUNSTAT`: fresh codes over unchanged data, every word empty, sets and indexes gone (R236). -/
def Tile.unstat (t : Tile) (r : Nat) : Tile :=
  let rg := t.region r
  let mine := fun (w : Nat) => rg.has (w / 1024)
  let t := (t.full.filter mine).foldl (fun t w => t.setFull (8 * w) false)
    { t with bad := t.bad.filter fun w => !mine w, soft := t.soft.filter fun w => !mine w }
  t.setRegion r { rg with acc0 := {}, acc1 := {}, index := [], badLines := [] }
/-- The primaries that a speculative thread's window has written, once an `MRDV` has read its descriptor: the one marked at its issue gives way to
the one whose rows it writes, also while the window commits (R208, R241). -/
def Thread.mrdvWrites (t : Thread) (old : Nat) (new : List Nat) : Thread :=
  { t with spec := t.spec.map fun (sp : Spec) => { sp with written := sp.written.erase old ++ new } }
/-- A region that an instruction of a speculative thread names, as its descriptor reads at its start, is held (R223, R242). -/
def Thread.holdRegion (t : Thread) (r : Nat) : Thread :=
  if t.speculative then { t with spec := t.spec.map fun (sp : Spec) => { sp with holds := (sp.holds ++ [r]).eraseDups } } else t
/-- A matrix instruction starts (R225): its cost is debited, its reads are made, and its accumulators and outputs are written. The sequencer is
busy for its cycles, which other instructions share (R426). -/
def State.mxStart (s : State) (x id : Nat) : State :=
  let t := s.tile x
  match t.mxq.find? fun o => o.id == id with
  | none => s
  | some o =>
    if o.started || !t.mxReady o then s
    else
      let (r, d) := s.mxRun x o
      if !s.covers (dieOf x) r.cost then s
      else
        let rg := t.mxRegion o
        let s := s.debit (dieOf x) r.cost
        let s := if r.ended then s else s.setEcost x o.cid r.cost
        let s := s.modTile x fun t =>
          let t := if r.silent then t else t.setRegion rg r.region
          { (t.mxConflict o.cid rg) with mxUntil := max t.mxUntil (s.cycleOf x + r.cycles) }
        let s := if mxDescKind o.kind && r.status = stPARITY && bitsOf r.word 31 1 == 1 && bitsOf r.word 29 2 != 1 then
            s.modBelfry fun b => { b with statParity := b.statParity.put (dieOf x) (b.statParity.at 0 (dieOf x) + 1) }
          else s
        let s := if o.kind = .munstat && r.status = stOK then s.modTile x fun t => t.unstat rg else s
        let s := if o.spec then s.modCid x o.cid fun th => (th.markLines ((mxAddr o.ra, 64) :: r.reads)).holdRegion rg else s
        let s := if mxDescKind o.kind then s.scrub x (mxAddr o.ra) 64 else s
        let s := r.reads.foldl (fun s p => s.scrub x p.1 p.2) s
        let s := r.outs.foldl (fun s p => s.engineWrite x (some o.cid) p.1 p.2) s
        let dst := match d with
          | some d => fieldAt (t.win o.win) (if o.spec then (shadowOf o.sfld d.fld).getD d.fld else d.fld)
          | none => {}
        let s := if o.kind = .mrdv then
            let wrote := match d with
              | some d => if r.rows.isEmpty then [] else [d.fld]
              | none => []
            let s := if o.spec then s.modCid x o.cid fun th => th.mrdvWrites o.fld wrote else s
            let s := s.modTile x fun t =>
              let v := t.win o.win
              let q := if r.rows.isEmpty then v.queue.filter fun e => e.mx != some id else v.queue.map fun e => if e.mx = some id then { e with fd := dst } else e
              t.setWin o.win { v with queue := q }
            match d with
            | some d => if !r.rows.isEmpty && dst.width != fmtWidth d.ofmt then s.modCid x o.cid fun t => t.setWarn 4 else s
            | none => s
          else s
        let o' : MxOp := { o with
          started := true, due := s.cycleOf x + r.cycles, gd := r.word, flags := r.flags, status := r.status, region := rg, banks := t.mxPlaces o, writes := r.rows, turn := r.turn
          cw := if r.silent then none else d.map fun d => (d.cw, BitVec.ofNat 64 d.ctag) }
        s.modTile x fun t => { t with mxq := t.mxq.map fun p => if p.id = id then o' else p }
/-- A matrix instruction finishes once it has run its cycles (R226, R234): `gd`, or the result word and then the completion word (R223, R237, R239); a
word whose bank another instruction has claimed meanwhile is not written (DESIGN CHOICE, log 73). -/
def State.mxComplete (s : State) (x id : Nat) : State :=
  let t := s.tile x
  match t.mxq.find? fun o => o.id == id with
  | none => s
  | some o =>
    if !o.started || s.cycleOf x < o.due || (o.kind == .mrdv && t.wins.toList.any fun w => w.entries.any fun e => e.mx == some id) then s
    else
      let s := s.modTile x fun t =>
        let rg := t.region o.region
        let t := { t with mxq := t.mxq.filter fun p => p.id != id }
        if o.kind = .munstat && o.status = stOK then t.setRegion o.region {}
        else if o.status ≠ stOK ∧ rg.st ≠ .free then t.setRegion o.region { rg with lstat := o.status } else t
      if mxDescKind o.kind then
        let ra := mxAddr o.ra + 0x30
        let s := s.imaged x fun s => s.modCid x o.cid fun th => th.orFlags o.flags
        let s := match o.cw with
          | some (cw, tag) =>
            let s := if (s.tile x).stat (bankOf ra) then s else s.engineWrite x (some o.cid) ra (bytesOfNat 8 o.gd.toNat)
            if (s.tile x).stat (bankOf cw) then s else s.complete x (some o.cid) cw tag.toNat o.status
          | none => s
        s.land x o.cid id 0 0
      else s.land x o.cid id o.rd o.gd

/-! The events. -/
/-- `MX_START` (R225). -/
def execMxStart (tile op : Nat) (s : State) : Host.Outcome State Fault Refusal := s.event fun s => s.mxStart tile op
/-- `MX_COMPLETE` (R234). -/
def execMxComplete (tile op : Nat) (s : State) : Host.Outcome State Fault Refusal := s.event fun s => s.mxComplete tile op

/-! The meanings: each issues its operation alone. -/
/-- `MSTAT` (R235). -/
def execMstat (rd : Reg) (ra : Reg) (rb : Reg) (s : State) : Host.Outcome State Fault Refusal :=
  .next (s.issueS (.mstat rd ra rb) (halfMstat rd ra rb))
/-- `MUNSTAT` (R236). -/
def execMunstat (rd : Reg) (ra : Reg) (s : State) : Host.Outcome State Fault Refusal :=
  .next (s.issueS (.munstat rd ra) (halfMunstat rd ra))
/-- `MMA` (R237). -/
def execMma (ra : Reg) (s : State) : Host.Outcome State Fault Refusal :=
  .next (s.issueS (.mma ra) (halfMma ra))
/-- `MACC` (R238). -/
def execMacc (rd : Reg) (ra : Reg) (s : State) : Host.Outcome State Fault Refusal :=
  .next (s.issueS (.macc rd ra) (halfMacc rd ra))
/-- `MRD` (R239). -/
def execMrd (ra : Reg) (s : State) : Host.Outcome State Fault Refusal :=
  .next (s.issueS (.mrd ra) (halfMrd ra))
/-- `MRDV` (R239). -/
def execMrdv (ra : Reg) (s : State) : Host.Outcome State Fault Refusal :=
  .next (s.issueS (.mrdv ra) (halfMrdv ra))
/-- `MSTATUS` (R240). -/
def execMstatus (rd : Reg) (ra : Reg) (s : State) : Host.Outcome State Fault Refusal :=
  .next (s.issueS (.mstatus rd ra) (halfMstatus rd ra))

end Sys2Proof.Machine
end

