-- ==== Sys2Proof/Machine/Net.lean ====
section
/-! DEFINITION. The tile network interface: routing requests, combining and splitting at switches, permits, payload streams, deliveries, replies,
ready-queue arrivals, route invalidations (08_tuples_homes.md R248, R258, R269 to R275; 09_tuple_instr.md R278, R282, R287 to R300; 10_spanning.md
R327; 12_tasks.md R374). -/
namespace Sys2Proof.Machine

/-! The end of an operation (R282, R287, R290, R305). -/
def Tile.op (t : Tile) (id : Nat) : Option TOp := t.ops.find? fun o => o.id == id
def State.modOp (s : State) (x id : Nat) (f : TOp → TOp) : State :=
  s.modTile x fun t => { t with ops := t.ops.map fun (o : TOp) => if o.id = id then f o else o }
/-- Operations with a descriptor of 128 bytes. -/
def hasDesc (k : TKind) : Bool := isRT k || isPut k || isCopy k || k == .takeN || k == .range || k == .accO || k == .accA || k == .ctrO
/-- A result word or completion word of an operation would go into a stationary bank. -/
def Tile.finishStat (t : Tile) (o : TOp) (result : Option W64) : Bool :=
  (result.isSome && hasDesc o.kind && t.stat (bankOf (o.dAddr + 0x78))) || (hasWord o && t.stat (bankOf o.desc.cw))
/-- `gd` of an operation that ends with STAT where it would have received `v`: the status, 0 for `CTR.O` (R301), and what `TAKE.N` was granted. -/
def statGd (k : TKind) (v : W64) : W64 := if k = .ctrO then 0 else if k = .takeN ∨ k = .freeze then v else stWord stSTAT
/-- Writes the result word, if one is given, completes and writes `gd`, in this order (R282). No word goes into a stationary bank: an operation
that meets one ends with STAT (R137). -/
def State.finish (s : State) (x : Nat) (o : TOp) (status : Nat) (result : Option W64) (v : W64) : State :=
  let t := s.tile x
  let ra := o.dAddr + 0x78
  let bad := t.finishStat o result
  let s := match result with
    | some r => if hasDesc o.kind && !t.stat (bankOf ra) then s.engineWrite x (some o.cid) ra (bytesOfNat 8 r.toNat) else s
    | none => s
  let s := if hasWord o && !t.stat (bankOf o.desc.cw) then s.complete x (some o.cid) o.desc.cw o.desc.ctag (if bad then stSTAT else status) else s
  s.endOp x o (if bad then statGd o.kind v else v)
/-- A value that the manual leaves open. -/
def State.free (s : State) : W64 × State := (BitVec.ofNat 64 (Config.freeNumber s.freeCtr), s.draw)
/-- Ends an operation with a status: `gd` receives it, or 0 for `CTR.O` and `FREEZE`, or an open value for a `.C` form or a `TAKE.N` that
ends otherwise than the manual states (log 21). A put's result word is zero (R290). -/
def State.endWith (s : State) (x : Nat) (o : TOp) (st : Nat) : State :=
  let res : Option W64 := if isPut o.kind then some 0 else none
  match o.kind with
  | .ctrO | .freeze => s.finish x o st res 0
  | .readC | .takeC => let (v, s) := s.free; s.finish x o st res v
  | .takeN => if st = stMISS then s.finish x o st (some 0) 0 else let (v, s) := s.free; s.finish x o st res v
  | _ => s.finish x o st res (stWord st)
/-- The grant of a `PUT.G` that has ended: its entry is free on success, else it returns (R292). -/
def State.settleGrant (s : State) (x : Nat) (tok : W64) (ok : Bool) : State :=
  s.modTile x fun t => { t with grants := if ok then t.grants.filter fun g => g.1 != tok else t.grants.map fun g => if g.1 = tok then (tok, true) else g }
def stGood (st : Nat) : Bool := st == stOK || st == stNOTHOME

/-! Routing (R247, R248, R278, R320, R327). -/
/-- The space that an operation's request names, if any. -/
def TOp.space (o : TOp) : Option Nat :=
  if hasDesc o.kind && !isCopy o.kind || o.kind == .split then some (keySpace o.desc.key) else none
/-- New requests on the space wait for earlier ones routed under a dropped table (R327). -/
def Tile.held (t : Tile) (sp : Nat) : Bool := t.waitRoutes.any fun w => w.1 == sp
/-- Drops the cached route of a space; later requests on it wait for those under way (R327). -/
def Tile.dropRoute (t : Tile) (sp : Nat) : Tile :=
  let ids := (t.ops.filter fun o => o.space == some sp && !o.performed && o.stage != .queued).map TOp.id
  { t with routes := t.routes.filter fun r => r.space != sp, waitRoutes := (t.waitRoutes.filter fun w => w.1 != sp) ++ [(sp, ids)] }
/-- No queued request of the same thread goes before it, but for those that R327 holds: requests leave in issue order (R23, R278). -/
def Tile.mayRoute (t : Tile) (o : TOp) : Bool :=
  (t.ops.takeWhile fun p => p.id != o.id).all fun p => p.cid != o.cid || p.stage != .queued || isCopy p.kind || match p.space with
    | some sp => t.held sp
    | none => false
/-- Where a request goes. -/
inductive Dest where
  | wait
  | fail (st : Nat)
  | goes (who : Agent) (name : Nat)
  deriving DecidableEq, Repr
def Tile.route (t : Tile) (tenant sp : Nat) : Option Route := t.routes.find? fun r => r.tenant == tenant && r.space == sp
def State.destName (s : State) (x : Nat) (n : Nat) : Dest :=
  match s.homeAgent (dieOf x) (s.tenantOf x) n with
  | some a => .goes a n
  | none => .fail stMISROUTE
def State.destOf (s : State) (x : Nat) (o : TOp) : Dest :=
  let t := s.tile x
  match o.space with
  | none => if o.kind = .send then .goes (.tile o.prog) 0 else s.destName x (hHome o.arg)
  | some sp =>
    let care := if isRT o.kind then o.desc.care else BitVec.allOnes 256
    match s.reducedHome (s.tenantOf x) with
    | some n => if keySpace care = 0xFFFF then s.destName x n.toNat else .fail stMISROUTE
    | none =>
      if t.held sp then .wait
      else match t.route (s.tenantOf x) sp with
        | none => .wait
        | some r =>
          let name := if o.kind = .split then (if r.ok then coverOf r.table (keyField o.desc.key 1) else none) else r.homeOf o.desc.key care
          match name with
          | some n => s.destName x n.toNat
          | none => .fail stMISROUTE
/-- The tuple that a put deposits, its payload sampled now (R287, R290 to R292). -/
def State.putTuple (s : State) (x : Nat) (o : TOp) : Tuple :=
  let d := o.desc
  let bytes := (s.tile x).sp.bytes d.addr d.plen
  let pay := match o.kind with
    | .put => Payload.pool bytes
    | .putI => .inline bytes
    | .putR => .frozen d.token d.addr d.plen o.asid
    | _ => .grant d.token
  ⟨d.key, pay, d.fmt, d.p3 ++ d.p2⟩
def targetName (s : State) (x : Nat) (n : Nat) : BitVec 32 := if n = 0xFFFFFFFF then s.tileName x else BitVec.ofNat 32 n
/-- The number of a thread's open speculative window. -/
def State.windowNo (s : State) (x cid : Nat) : Nat := ((((s.tile x).thread cid).bind Thread.spec).map Spec.no).getD 0
/-- The request of an operation (R278 to R303, R320, R383). -/
def State.bodyOf (s : State) (x : Nat) (o : TOp) : Body :=
  let d := o.desc
  match o.kind with
  | .put | .putI | .putR | .putG => .put o.id (s.putTuple x o)
  | .takeN => .rangeTake d.key o.arg.toNat (.one (.tile x) o.id o.arg.toNat false)
  | .range => .rangeNew o.id d.key d.p2.toNat d.p3.toNat
  | .accO => .accNew o.id d.key (d.addr % 2 ^ 11) (d.addr / 2 ^ 16 % 2 ^ 8) d.plen d.fmt (d.p3 ++ d.p2)
  | .accA => .accAdd o.id d.key o.arg.toNat ((s.tile x).sp.bytes d.addr d.plen)
  | .ctrO => .ctrNew o.id d.key (d.addr % 2 ^ 32) (d.addr / 2 ^ 32 % 2 == 1) o.packet (targetName s x (bitsOf d.token 0 32))
  | .ctrA => .ctrAdd o.arg o.prog (.one (.tile x) o.id o.prog false)
  | .tcancel => .cancel o.id o.arg
  | .split => .split ⟨o.id, keySpace d.key, keyField d.key 1, BitVec.ofNat 32 (keyField d.key 2), d.addr, keyField d.key 3⟩
  | .send => .packet o.packet (some o.id) none
  | k =>
    let take := k == .takeB || k == .takeP || k == .takeC
    let form : Form := if o.spec then (if k = .readB then .specB else .specP) else if k = .readB ∨ k = .takeB then .blocking else if isCont k then .cont else .polling
    .get o.id ⟨take, form, d.key, d.care, d.deadline, o.packet, targetName s x (bitsOf d.token 0 32), d.flag fNd, d.plen, o.cid, s.windowNo x o.cid, false⟩
/-- Operations whose routing `cr.touched` records (R289). -/
def touches (k : TKind) : Bool := !(isCopy k || k == .split || k == .send)
/-- Operations whose request carries payload bytes of the tile's scratchpad (R287, R300). -/
def carries (k : TKind) : Bool := k == .put || k == .putI || k == .accA
/-- The payload that a request samples meets an uncorrectable word or a stationary bank (R139, R268, R287). -/
def Tile.sampleFault (t : Tile) (o : TOp) : Option Nat :=
  if carries o.kind then
    if (t.statIn o.desc.addr o.desc.plen).isSome then some stSTAT
    else if (t.badIn o.desc.addr o.desc.plen).isSome then some stPARITY
    else none
  else none
def beatsOf (n : Nat) : Nat := ceilDiv n 64
/-- Half picojoules that a request debits when it leaves the queue: 150 pJ, and the beats of the payload that goes with it, for a pool payload with
its DRAM lines (R416, R417). -/
def State.requestCost (s : State) (x : Nat) (o : TOp) : Nat :=
  300 + if carries o.kind && ((s.tile x).sampleFault o).isNone then (if o.kind = .put then 2080 else 80) * beatsOf o.desc.plen else 0
/-- Routes and sends a queued request, or completes it with the status that keeps it from a home (R278). -/
def State.routeRequest (s : State) (x id : Nat) : State :=
  let t := s.tile x
  match t.op id with
  | none => s
  | some o =>
    if o.stage != .queued || isCopy o.kind || !t.mayRoute o || !s.covers (dieOf x) (s.requestCost x o) then s
    else match s.destOf x o with
      | .wait => s
      | .fail st =>
        let s := s.modTile x fun t => { t with routes := t.routes.filter fun r => r.ok || o.space != some r.space }
        let s := if o.kind = .putG then s.settleGrant x o.desc.token false else s
        let s := if o.kind = .split then s.modTile x fun t => { t with splits := t.splits.filter fun e => e.1 != id } else s
        s.endWith x o st
      | .goes who name =>
        let cost := s.requestCost x o
        let s := (s.debit (dieOf x) cost).setEcost x o.cid cost
        match t.sampleFault o with
        | some st => s.endWith x o st
        | none =>
          let bit := if s.isLocal name then name % 32 else 32
          let s := if touches o.kind then s.imaged x fun s => s.modCid x o.cid fun th => { th with touched := th.touched ||| (1#33 <<< bit) } else s
          let b := s.bodyOf x o
          let s := if carries o.kind then s.scrub x o.desc.addr o.desc.plen else s
          let s := if o.spec && isRT o.kind then s.modCid x o.cid fun th =>
              { th with spec := th.spec.map fun (sp : Spec) => { sp with watches := (sp.watches ++ [who]).eraseDups } } else s
          (s.modOp x id fun o => { o with stage := .sent, dest := name }).send (.tile x) who (s.tenantOf x) o.asid b

/-- Puts a fetched route into a cache of 16 spaces for each tenant, the oldest leaving first (R248; log 6). -/
def addRoute (rs : List Route) (r : Route) : List Route :=
  let rs := rs.filter fun q => !(q.tenant == r.tenant && q.space == r.space)
  let mine := rs.filter fun q => q.tenant == r.tenant
  (if mine.length < Config.routeSpaces then rs else match mine with
    | q :: _ => rs.filter (· != q)
    | [] => rs) ++ [r]
/-- The route of a space arrives at a tile that has a queued request waiting for it (R248, R327). -/
def State.tileFetch (s : State) (x space : Nat) : State :=
  let t := s.tile x
  match t.ops.find? fun o => o.stage == .queued && o.space == some space with
  | none => s
  | some o =>
    let done := fun (id : Nat) => match t.op id with
      | some p => p.performed
      | none => true
    if (t.route (s.tenantOf x) space).isSome || s.service ≠ .full || t.waitRoutes.any fun w => w.1 == space && !w.2.all done then s
    else
      let (r, s) := s.fetchRoute (dieOf x) (s.tenantOf x) o.asid space
      s.modTile x fun t => { t with routes := addRoute t.routes r, waitRoutes := t.waitRoutes.filter fun w => w.1 != space }

/-! The request network (R25) and combining (R272, R273). -/
def askOf : Comb → Nat
  | .one _ _ n _ => n
  | .two _ u l => askOf u + askOf l
def headAgent : Comb → Agent
  | .one a _ _ _ => a
  | .two _ u _ => headAgent u
/-- The die at which an agent is attached, a spire port's for an agent of another package, and its port on that die's request network (R25, R28). -/
def State.netDie (s : State) (a : Agent) : Nat :=
  match a with
  | .peer c _ => peerPort (s.peer c) / 2
  | a => agentDie a
def State.netPort (s : State) (a : Agent) : Nat :=
  match a with
  | .tile x => x % 192
  | .home h => 192 + h % 8
  | .peer c _ => 224 + peerPort (s.peer c) % 2
  | .launch _ => 226
  | .host _ _ => 227
/-- The gateway on die `d` to or from die `e` that the traffic to home `h` takes (R25). -/
def gatewayPort (d e h : Nat) : Nat := 200 + 8 * ((e + 3 - d) % 4) + h % 8
/-- The port by which an agent's request to home `h` enters the network of die `f`, its own or the home's, and the port by which it leaves it. -/
def State.entryPort (s : State) (f h : Nat) (a : Agent) : Nat := if s.netDie a = f then s.netPort a else gatewayPort f (s.netDie a) h
def exitPort (f h : Nat) : Nat := if h / 8 % 4 = f then 192 + h % 8 else gatewayPort f (h / 8 % 4) h
/-- Where two requests to home `h`, of the askers `us` and `ls`, come together: the switch, numbered by die, stage and place, and whether `us`
comes in on its upper input. In an omega network of 8 stages two ways to one output port merge at stage 7 - b, b the lowest bit in which their input
ports differ; that bit is the input (log 55). -/
def State.meet (s : State) (h : Nat) (us ls : List Agent) : Option (Nat × Bool) :=
  let d := s.netDie (us.headD (.home h))
  let f := if (us ++ ls).all fun a => s.netDie a == d then d else h / 8 % 4
  let p := us.map (s.entryPort f h)
  let q := ls.map (s.entryPort f h)
  let p0 := p.headD 0
  let q0 := q.headD 0
  match (List.range 8).find? fun b => p0 / 2 ^ b % 2 != q0 / 2 ^ b % 2 with
  | none => none
  | some b =>
    if (p.all fun i => i % 2 ^ (b + 1) == p0 % 2 ^ (b + 1)) && q.all fun i => i % 2 ^ (b + 1) == q0 % 2 ^ (b + 1) then
      some (f * 1024 + (7 - b) * 128 + p0 % 2 ^ b * 2 ^ (7 - b) + exitPort f h / 2 ^ (b + 1), p0 / 2 ^ b % 2 == 0)
    else none
/-- The switches whose combining records a request or reply holds. -/
def combSwitches : Comb → List Nat
  | .one _ _ _ _ => []
  | .two sw u l => sw :: (combSwitches u ++ combSwitches l)
def bodySwitches : Body → List Nat
  | .rangeTake _ _ w | .ctrAdd _ _ w | .rangeReply _ _ _ w _ | .ctrReply _ w _ => combSwitches w
  | _ => []
/-- Combining records in use at a switch: those of the requests and replies on the networks, and of requests that another package is to answer. -/
def State.combining (s : State) (sw : Nat) : Nat :=
  ((s.net.flatMap fun m => bodySwitches m.body) ++ s.peers.flatMap fun e => e.2.asked.flatMap fun r => bodySwitches r.2.1).count sw
/-- Two requests of one kind on one cell at a switch, the first from its upper input. -/
def combine (sw : Nat) : Body → Body → Option Body
  | .rangeTake k1 n1 w1, .rangeTake k2 n2 w2 => if k1 = k2 ∧ n1 + n2 < 2 ^ 40 then some (.rangeTake k1 (n1 + n2) (.two sw w1 w2)) else none
  | .ctrAdd h1 c1 w1, .ctrAdd h2 c2 w2 => if h1 = h2 then some (.ctrAdd h1 (c1 + c2) (.two sw w1 w2)) else none
  | _, _ => none
/-- The request from the lower input joins the one from the upper input, in whose place the combined one goes on (R272); it may leave its place
only if nothing of its own source stands between (R271). -/
def State.combineInto (s : State) (sw : Nat) (u l : Msg) : State :=
  match combine sw u.body l.body with
  | none => s
  | some body =>
    let between := ((s.net.dropWhile fun x => x.id != u.id && x.id != l.id).drop 1).takeWhile fun x => x.id != u.id && x.id != l.id
    if between.any (sameWay l) then s
    else { s with net := (s.net.filter fun x => x.id != l.id).map fun (x : Msg) => if x.id = u.id then { x with body := body } else x }
/-- Combines two requests on their way to one home at the switch where their ways meet, if it has one of its 16 combining records free (R272). -/
def State.combineAt (s : State) (m1 m2 : Nat) : State :=
  match s.msg m1, s.msg m2 with
  | some a, some b => match a.dst with
    | .home h =>
      if a.dst ≠ b.dst ∨ a.tenant ≠ b.tenant ∨ a.hops ≠ 0 ∨ b.hops ≠ 0 then s
      else match s.meet h (askersOf a) (askersOf b) with
        | none => s
        | some (sw, upper) => if s.combining sw ≥ 16 then s else if upper then s.combineInto sw a b else s.combineInto sw b a
    | _ => s
  | _, _ => s
/-- The two replies into which a switch splits a combined one (R273). -/
def splitReply : Body → Option (Body × Body)
  | .rangeReply b c st (.two _ u l) fwd =>
    let c1 := min (askOf u) c
    let c2 := c - c1
    some (.rangeReply (if c1 = 0 then 0 else b) c1 (if c1 = 0 then stMISS else st) u fwd,
      .rangeReply (if c2 = 0 then 0 else b + c1) c2 (if c2 = 0 then stMISS else st) l fwd)
  | .ctrReply st (.two _ u l) fwd => some (.ctrReply st u fwd, .ctrReply st l fwd)
  | _ => none
def replyTo : Body → Agent → Agent
  | .rangeReply _ _ _ w _, _ | .ctrReply _ w _, _ => headAgent w
  | _, a => a
def State.splitReplyAt (s : State) (m : Nat) : State :=
  match s.msg m with
  | none => s
  | some a => match splitReply a.body with
    | none => s
    | some (u, l) =>
      let n := s.nextId
      { s with nextId := n + 1, net := s.net.flatMap fun (x : Msg) =>
          if x.id = m then [{ a with dst := replyTo u a.dst, body := u }, { a with id := n, dst := replyTo l a.dst, body := l }] else [x] }.releaseFar

/-! Agents' own operations: notices, page faults, returned grants (R264, R269, R270, R467). -/
/-- The agent's record of an operation of its own. -/
def State.auxOf (s : State) (who : Agent) (op : Nat) : Option Aux :=
  match who with
  | .tile x => (s.tile x).aux.find op
  | .home h => (s.home h).aux.find op
  | .launch d => if (s.die d).launch.notices.contains op then some .notice else none
  | _ => none
def State.dropAux (s : State) (who : Agent) (op : Nat) : State :=
  match who with
  | .tile x => s.modTile x fun t => { t with aux := t.aux.del op }
  | .home h => s.modHome h fun v => { v with aux := v.aux.del op }
  | .launch d => s.modDie d fun v => { v with launch := { v.launch with notices := v.launch.notices.filter (· != op) } }
  | _ => s
def State.agentName (s : State) (who : Agent) : BitVec 32 :=
  match who with
  | .tile x => s.tileName x
  | .home h => s.homeName h
  | _ => s.homeName 0
/-- The next fault number of an agent's name. -/
def State.faultNo (s : State) (who : Agent) : Nat × State :=
  match who with
  | .tile x => ((s.tile x).faults, s.modTile x fun t => { t with faults := (t.faults + 1) % 2 ^ 32 })
  | .home h => ((s.home h).faults, s.modHome h fun v => { v with faults := (v.faults + 1) % 2 ^ 32 })
  | _ => (0, s)
def pagerKey (user fno name va5 : Nat) (rest : List Nat) : Key := keyOf ([0xFFFF + user * 65536, fno, name] ++ (if va5 = 0 then [] else rest))
/-- The ASID under which an agent's own fault put and resolution take are routed: for a home the tenant's first (R268), else that of the access. -/
def State.ownAsid (s : State) (who : Agent) (tenant asid : Nat) : Nat :=
  match who with
  | .home _ => s.afirst tenant
  | _ => asid
/-- Puts a fault tuple into the pager space for a translation fault at `va`; `acc` is 0 read, 1 write, 2 fetch (R269). The second answer
says whether it could be sent. -/
def State.pageFault (s : State) (who : Agent) (tenant asid va acc : Nat) (why : PagerFor) : State × Bool :=
  let (f, s) := s.faultNo who
  let key := pagerKey 0 f (s.agentName who).toNat 1 [va % 2 ^ 32, va / 2 ^ 32 % 2 ^ 16, asid + acc * 65536, 0, 0]
  s.ownPut who tenant (s.ownAsid who tenant asid) ⟨key, .inline (bytesOfNat 8 va), 0, 0⟩ (.faultPut f va asid why)
/-- The context number of an agent's own requests, which no thread has: what ends a context's waits leaves them (R388). -/
def noCid : Nat := 65536
/-- Takes the resolution of a fault by a take continuation (R270). -/
def State.takeResolution (s : State) (who : Agent) (tenant f va asid : Nat) (why : PagerFor) : State × Bool :=
  let key := pagerKey 1 f (s.agentName who).toNat 0 []
  let asid := s.ownAsid who tenant asid
  match s.routeKey (agentDie who) tenant asid key (BitVec.allOnes 256) with
  | (none, s) => (s, false)
  | (some dst, s) =>
    let op := s.nextId
    ((s.bump.addAux who op (.resolve va why dst)).send who dst tenant asid (.get op ⟨true, .cont, key, BitVec.allOnes 256, 0, [], 0, false, 8, noCid, 0, false⟩), true)

/-! Packets at ready queues (R255, R258, R374, R383). -/
/-- The fault notice for an arrival or packet that finds nothing: its key names the handle; a packet that came from no handle leaves those
fields open (R255, log 21). -/
def State.lostNotice (s : State) (who : Agent) (tenant : Nat) (handle : Option W64) : State :=
  let (h, s) := match handle with
    | some h => (h, s)
    | none => s.free
  s.notice who tenant (keyOf [0x1FFFE, bitsOf h 0 32, bitsOf h 32 32]) []
def Tile.roomFor (t : Tile) (p : Packet) : Bool := (t.ready.filter fun r => pktPrio r.words == pktPrio p).length < Config.readyPlaces
def Tile.allDead (t : Tile) : Bool := t.wins.toList.all Window.dead
def Tile.join (t : Tile) (p : Packet) : Tile := { t with ready := t.ready ++ [⟨p, t.age, t.readySeq⟩], readySeq := t.readySeq + 1 }
/-- Replies to the sender of a `SEND` packet. -/
def State.sendReply (s : State) (m : Msg) (sender : Option Nat) (st : Nat) : State :=
  match sender with
  | some op => s.send m.dst m.src m.tenant m.asid (.reply op st 0 false)
  | none => s
/-- A packet joins the ready queue, is held by its sender while the queue is full, or finds nothing. -/
def State.packetArrives (s : State) (m : Msg) (words : Packet) (sender : Option Nat) (handle : Option W64) (x : Nat) : State :=
  let t := s.tile x
  if t.tenant ≠ some m.tenant then
    let s := s.dropMsg m.id
    if sender.isSome then s.sendReply m sender stBOUNDS else s.lostNotice m.src m.tenant handle
  else if sender.isSome && pktCompute words && t.allDead then (s.dropMsg m.id).sendReply m sender stSTAT
  else if t.roomFor words then ((s.dropMsg m.id).modTile x fun t => t.join words).sendReply m sender stOK
  else
    let s := s.modMsg m.id fun m => { m with sent := 1 }
    match m.src, sender with
    | .tile y, some op => s.modOp y op fun o => { o with stage := .registered }
    | _, _ => s
/-- A packet message at tile `x` whose turn it is; `held` says whether it must be one held by its sender. -/
def State.packetEvent (s : State) (m : Nat) (held : Bool) : State :=
  match s.msg m with
  | some a => match a.dst, a.body with
    | .tile x, .packet words sender handle =>
      if s.deliverable a && (a.sent == 1) == held then s.packetArrives a words sender handle x else s
    | _, _ => s
  | none => s

/-! Permits and payload streams (R274, R275). -/
def State.permitAt (s : State) (m : Nat) : State :=
  match s.msg m with
  | some a => match a.dst, a.body with
    | .tile x, .permit op beats =>
      if s.deliverable a then (s.dropMsg m).modTile x fun t => { t with permits := t.permits ++ [(op, beats, a.src)] } else s
    | _, _ => s
  | none => s
/-- Payload length of a tuple (R290, R295). -/
def payLen : Payload → Nat
  | .inline bs | .pool bs => bs.length
  | .frozen _ _ n _ => n
  | .grant _ => 0
/-- The ranges that a delivery writes at its tile: payload, write-backs, result word, completion word (R295). -/
def destRanges (o : TOp) (d : Delivery) : List (Nat × Nat) :=
  let g := o.desc
  (if g.flag fNd then [] else [(g.addr, d.bytes.length)]) ++ (if g.flag fKb then [(o.dAddr, 32)] else []) ++
  (if g.flag fSb then [(o.dAddr + 0x50, 16)] else []) ++
  (match d.tup with
    | some t => match t.pay with
      | .frozen _ _ _ _ | .grant _ => [(o.dAddr + 0x70, 8)]
      | _ => []
    | none => []) ++
  [(o.dAddr + 0x78, 8)] ++ (if g.flag fNcw then [] else [(g.cw, 8)])
/-- A delivery that finds a destination byte in a stationary bank is refused (R278). -/
def Tile.refuses (t : Tile) (o : TOp) (d : Delivery) : Bool := d.tup.isSome && (destRanges o d).any fun r => (t.statIn r.1 r.2).isSome
/-- Bytes that one stream carries: 256 beats (R274). -/
def streamBytes : Nat := 16384
/-- Sends a tile the path permits for the streams of a payload of `n` bytes, one each; a home's permit reserves the links of its stream (R274). -/
def State.sendPermits (s : State) (src : Agent) (x tn asid op n : Nat) : State :=
  (List.range (ceilDiv n streamBytes)).foldl (fun s i =>
    let beats := beatsOf (min streamBytes (n - i * streamBytes))
    let s := match src with
      | .home h => s.modHome h fun v => { v with links := v.links ++ [(Agent.tile x, op, beats)] }
      | _ => s
    s.send src (.tile x) tn asid (.permit op beats)) s
/-- The tile whose permits a message's payload uses, its operation, and the bytes: a delivery to the tile, or a put or contribution that the tile
injects (R274). -/
def streamOf (m : Msg) : Option (Nat × Nat × List Byte) :=
  match m.src, m.dst, m.body with
  | _, .tile x, .deliver d => some (x, d.op, d.bytes)
  | .tile x, .home _, .put op t => some (x, op, tupleBytes t)
  | .tile x, .home _, .accAdd op _ _ bs => some (x, op, bs)
  | _, _, _ => none
/-- A permit is used, or given back: it leaves the tile, and the home that gave it releases the links. -/
def State.usePermit (s : State) (x : Nat) (p : Nat × Nat × Agent) : State :=
  let s := s.modTile x fun t => { t with permits := t.permits.erase p }
  match p.2.2 with
  | .home h => s.modHome h fun v => { v with links := v.links.erase (Agent.tile x, p.1, p.2.1) }
  | _ => s
/-- Half picojoules of `n` bytes that a tile receives: beats, and the lines of a pool payload (R417). -/
def receiveCost (d : Delivery) (n : Nat) : Nat :=
  beatsOf n * match d.tup with
    | some ⟨_, .pool _, _, _⟩ => 2080
    | _ => 80
/-- Another package's agent: its spire port has paid for what it sends (R416). -/
def isPeer : Agent → Bool
  | .peer _ _ => true
  | _ => false
/-- What a delivery becomes when all of its bytes have streamed: its tuple's blocks return to the pool (R252). -/
def streamedOut : Body → Body
  | .deliver d => .deliver { d with blks := [] }
  | b => b
/-- A stream of at most 256 beats runs under its permit, toward a tile or from one (R274, R275). The receiving tile's die pays for a delivery. The
bytes of a delivery are written with its last event, since one that meets a stationary bank by then writes none of them (R278; log 48). -/
def State.stream (s : State) (m : Nat) : State :=
  match s.msg m with
  | none => s
  | some a => match streamOf a with
    | none => s
    | some (x, op, bs) =>
      let t := s.tile x
      match t.permits.find? fun p => p.1 == op with
      | none => s
      | some p =>
        let (cost, refused) := match a.body with
          | .deliver d => (if isPeer a.src then 0 else receiveCost d (min streamBytes (bs.length - a.sent)), match t.op op with
            | some o => t.refuses o d
            | none => false)
          | _ => (0, false)
        if !s.deliverable a || bs.length ≤ a.sent || refused || !s.covers (dieOf x) cost then s
        else
          let n := min bs.length (a.sent + streamBytes)
          ((s.debit (dieOf x) cost).usePermit x p).modMsg m fun a => { a with sent := n, body := if n = bs.length then streamedOut a.body else a.body }

/-! Deliveries (R264, R278, R295 to R297). -/
/-- The payload kind number of a result word. -/
def payKind : Payload → Nat
  | .inline _ => 0
  | .pool _ => 1
  | .frozen _ _ _ _ => 2
  | .grant _ => 3
/-- The result word (R295). -/
def deliveryWord (t : Tuple) (plen : Nat) : W64 :=
  let n := payLen t.pay
  BitVec.ofNat 64 ((if n > plen then 2 ^ 40 else 0) + payKind t.pay * 2 ^ 37 + t.fmt % 32 * 2 ^ 32 + n % 2 ^ 32)
/-- A continuation's packet: key and completion-word value after the inline words, five words longer, of kind 1 (R296). -/
def contPacket (p : Packet) (key : Key) (cwv : W64) : Packet :=
  let len := pktLen p
  let s := pktSucc p
  let ks := (List.range 4).map fun i => key.extractLsb' (64 * i) 64
  match pktKind p 1 with
  | [] => []
  | w :: ws => BitVec.ofNat 64 (w.toNat - len + (len + 5)) :: (ws.take (len - 1 - s) ++ ks ++ [cwv] ++ (ws.drop (len - 1 - s)).take s)
/-- A name of a tile of some package (R12, R14), and the agent that a tile name leads to from die `d`, in another package through a peer context:
the one toward home number 0 (log 22). -/
def tileNameOk (n : Nat) : Bool := n / 65536 % 65536 != 0xFFFF && n / 1024 % 64 == 0 && n % 256 < 192
def State.tileAgent (s : State) (d tenant n : Nat) : Option Agent :=
  match s.tileOf n with
  | some y => some (.tile y)
  | none => if tileNameOk n && !s.isLocal n then (s.contextTo d tenant (n / 65536 % 65536) 0).map fun c => .peer c (32 + (n / 256 % 4 * 192 + n % 256)) else none
/-- Sends a task packet from an agent to the tile of a name; one that cannot be reached is lost (R255). -/
def State.sendPacket (s : State) (src : Agent) (tenant : Nat) (target : BitVec 32) (p : Packet) (handle : Option W64) : State :=
  match s.tileAgent (s.netDie src) tenant target.toNat with
  | some y => s.send src y tenant (s.afirst tenant) (.packet p none handle)
  | none => s.lostNotice src tenant handle
/-- Returns a grant that met a full grant table under the key of its tuple, at the home it came from (R264). -/
def State.putBack (s : State) (x : Nat) (a : Msg) (t : Tuple) : State :=
  let op := s.nextId
  (s.bump.addAux (.tile x) op (.putBack t)).send (.tile x) a.src a.tenant a.asid (.put op t)
/-- The token that a delivery writes back. -/
def payToken : Payload → Option W64
  | .frozen h _ _ _ => some h
  | .grant g => some g
  | _ => none
/-- A delivery's writes at its tile: payload, write-backs, result word, completion word, `gd`, then a continuation's packet and the
acknowledgement of a take (R277, R295, R296). A word with an uncorrectable error that the payload covers in part stays, with status PARITY (R297). -/
def State.deliverTo (s : State) (x : Nat) (a : Msg) (d : Delivery) (o : TOp) : State :=
  let t := s.tile x
  let g := o.desc
  let refused := t.refuses o d
  let grant := match d.tup with
    | some tp => match tp.pay with
      | .grant tok => if d.take && !refused then some (tok, tp) else none
      | _ => none
    | none => none
  let full := grant.isSome && t.grants.length ≥ Config.grantPlaces
  let torn := !d.bytes.isEmpty && t.partBad g.addr d.bytes.length
  let st := if refused then stSTAT else if full then stGRANT else if torn && stGood d.status then stPARITY else fwdStatus d.fwd d.status
  let s := match grant with
    | some (tok, tp) => if full then s.putBack x a tp else s.modTile x fun t => { t with grants := t.grants ++ [(tok, true)] }
    | none => s
  let wr := fun (s : State) (off : Nat) (bs : List Byte) => s.engineWrite x (some o.cid) (o.dAddr + off) bs
  let s := if refused || d.bytes.isEmpty then s else s.engineWrite x (some o.cid) g.addr d.bytes
  let s := match d.tup with
    | some tp =>
      if refused then s
      else
        let s := if g.flag fKb then wr s 0 (bytesOfNat 32 tp.key.toNat) else s
        let s := if g.flag fSb then wr s 0x50 (bytesOfNat 16 tp.shape.toNat) else s
        match payToken tp.pay with
        | some w => wr s 0x70 (bytesOfNat 8 w.toNat)
        | none => s
    | none => s
  let res := if refused then none else d.tup.map fun tp => deliveryWord tp g.plen
  let s := (t.permits.filter fun p => p.1 == o.id).foldl (fun s p => s.usePermit x p) s
  let s := s.finish x o st res (stWord st)
  let s := match o.space with
    | some sp => if d.fwd then s.modTile x fun t => t.dropRoute sp else s
    | none => s
  let s := match d.packet with
    | some (p, target, h) =>
      s.sendPacket a.src a.tenant target (contPacket p ((d.tup.map Tuple.key).getD 0) (BitVec.ofNat 64 (g.ctag * 65536 + st))) (some h)
    | none => s
  if d.take && d.tup.isSome then s.send (.tile x) a.src a.tenant a.asid (.tookAck d.op d.seq refused) else s
/-- The delivery's message, once its payload has streamed in or is refused; one whose operation is gone is discarded. -/
def State.deliveryAt (s : State) (m : Nat) : State :=
  match s.msg m with
  | some a => match a.dst, a.body with
    | .tile x, .deliver d =>
      if !s.deliverable a then s
      else match (s.tile x).op d.op with
        | some o =>
          if a.sent < d.bytes.length && !(s.tile x).refuses o d then s else (s.dropMsg m).deliverTo x a d o
        | none => if ((s.tile x).aux.find d.op).isSome then s else s.dropMsg m
    | _, _ => s
  | none => s

/-! The events. -/
/-- `REQUEST_ROUTE` (R278). -/
def execRequestRoute (tile : Nat) (op : Nat) (s : State) : Host.Outcome State Fault Refusal := s.event fun s => s.routeRequest tile op
/-- `SWITCH_COMBINE` (R272). -/
def execSwitchCombine (m1 : Nat) (m2 : Nat) (s : State) : Host.Outcome State Fault Refusal := s.event fun s => s.combineAt m1 m2
/-- `REPLY_SPLIT` (R273). -/
def execReplySplit (m : Nat) (s : State) : Host.Outcome State Fault Refusal := s.event fun s => s.splitReplyAt m
/-- `PATH_PERMIT` (R274). -/
def execPathPermit (m : Nat) (s : State) : Host.Outcome State Fault Refusal := s.event fun s => s.permitAt m
/-- `PAYLOAD_STREAM` (R275). -/
def execPayloadStream (m : Nat) (s : State) : Host.Outcome State Fault Refusal := s.event fun s => s.stream m
/-- `TILE_DELIVERY` (R295). -/
def execTileDelivery (m : Nat) (s : State) : Host.Outcome State Fault Refusal := s.event fun s => s.deliveryAt m
/-- `READY_QUEUE_ARRIVAL` (R374). -/
def execReadyQueueArrival (m : Nat) (s : State) : Host.Outcome State Fault Refusal := s.event fun s => s.packetEvent m false
/-- `HELD_PACKET_SEND` (R374). -/
def execHeldPacketSend (m : Nat) (s : State) : Host.Outcome State Fault Refusal := s.event fun s => s.packetEvent m true

end Sys2Proof.Machine
end

