-- ==== Sys2Proof/Machine/Home.lean ====
section
/-! DEFINITION. Homes: matching, cells, deliveries, cancellation, deadlines, removals (08_tuples_homes.md R249 to R262, R268 to R270, R276, R277;
09_tuple_instr.md R290 to R303; 10_spanning.md R322, R323, R325, R326; 11_sync.md R359). -/
namespace Sys2Proof.Machine

/-! Rooms of a home (R22, R250 to R253). -/
def stackOfHome (h : Nat) : Nat := h / 4
/-- A buddy block for `n` bytes: 4 KiB to 16 MiB (R252). -/
def blockOf (n : Nat) : Nat := if n = 0 then 0 else ((List.range 13).map fun i => 4096 * 2 ^ i).find? (n ≤ ·) |>.getD 16777216
/-- The sizes of the blocks that a payload of `n` bytes needs, and of a packet record (R252). -/
def payBlocks (n : Nat) : List Nat := if n = 0 then [] else [blockOf n]
def recordSize : Nat := 256
def tupleBlocks (t : Tuple) : List Nat :=
  match t.pay with
  | .pool bs => payBlocks bs.length
  | _ => []
def isContW (k : WatchKind) : Bool := k == .readCont || k == .takeCont
/-- The bounds of what a block keeps from others: a packet record its granule of 4 KiB (R252). -/
def blkLo (b : Blk) : Nat := if b.size < 4096 then b.off / 4096 * 4096 else b.off
def blkHi (b : Blk) : Nat := if b.size < 4096 then b.off / 4096 * 4096 + 4096 else b.off + b.size
/-- The place of a free buddy block in a pool of `n` bytes: the lowest multiple of its size where nothing in use lies (R252; log 54). -/
def freeBlock (used : List Blk) (n size : Nat) : Option Nat :=
  ((0 :: used.map fun b => ceilDiv (blkHi b) size * size).filter fun o => o + size ≤ n && used.all fun b => blkHi b ≤ o || o + size ≤ blkLo b).min?
/-- The place of a free packet record: in a granule that holds records already, else in a new one (R252). -/
def freeRecord (used : List Blk) (n : Nat) : Option Nat :=
  let recs := used.filter fun b => b.size < 4096
  match ((recs.flatMap fun b => (List.range 16).map fun i => blkLo b + recordSize * i).filter fun o => !recs.any fun b => b.off == o).min? with
  | some o => some o
  | none => freeBlock used n 4096
/-- Takes blocks of the sizes asked for, one after another. -/
def allocs (sram : Bool) (n : Nat) : List Nat → List Blk → Option (List Blk)
  | [], _ => some []
  | k :: ks, used => match if k < 4096 then freeRecord used n else freeBlock used n k with
    | none => none
    | some o => (allocs sram n ks (⟨sram, o, k⟩ :: used)).map (⟨sram, o, k⟩ :: ·)
/-- The blocks in use at a home by the tenants that `own` names: of entries, watches, removals not acknowledged, puts that still stream in, retired
blocks, and what a moving half holds or has reserved (R252, R277, R290, R297, R321). -/
def Home.poolBlks (v : Home) (own : Nat → Bool) : List Blk :=
  ((v.entries.filter fun e => own e.tenant).flatMap Entry.blks) ++ ((v.watches.filter fun w => own w.tenant).flatMap Watch.blks) ++
  ((v.removals.filter fun r => own r.tenant).flatMap Removal.blks) ++ ((v.staged.filter fun p => own p.tenant).flatMap Staged.blks) ++
  ((v.retired.filter fun r => own r.1).map Prod.snd) ++
    match v.inert with
    | some i => if own i.tenant then i.blks ++ i.cblks ++ (i.entries.flatMap fun e => e.2.blks) ++ i.watches.flatMap fun w => w.2.blks else []
    | none => []
/-- Pool bytes in use by a tenant at a home (R437). -/
def Home.poolUse (v : Home) (tn : Nat) : Nat := ((v.poolBlks (· == tn)).map Blk.size).sum
/-- The blocks of a delivery that still streams out, on the networks or on a peer context, with the tenant (R252). -/
def flightBlks (tn : Nat) (m : Msg) : List (Agent × Nat × Blk) :=
  match m.body with
  | .deliver d => d.blks.map fun b => (m.src, tn, b)
  | _ => []
def State.flying (s : State) : List (Agent × Nat × Blk) :=
  (s.net.flatMap fun m => flightBlks m.tenant m) ++
    s.peers.flatMap fun e => (e.2.txq.filterMap SpirePacket.body ++ e.2.window.filterMap fun u => u.pkt.body).flatMap (flightBlks (peerTenant e.2))
/-- The blocks in use in a tenant's pool of a stack: one pool for its four homes; the cupola's SRAM pool is shared by all tenants (R252, R449). -/
def State.poolUsed (s : State) (st tn : Nat) (sram : Bool) : List Blk :=
  let own := fun (t : Nat) => sram || t == tn
  let mine := fun (a : Agent) => match a with
    | .home h => stackOfHome h == st
    | _ => false
  (((List.range 4).flatMap fun i => (s.home (4 * st + i)).poolBlks own) ++ ((s.flying.filter fun f => mine f.1 && own f.2.1).map fun f => f.2.2)).filter fun b =>
    b.sram == sram
/-- The pool that serves a tenant at a home: in reduced service the cupola's 16 MiB of SRAM, else its range of the stack, if it has one (R252, R449). -/
def State.poolOf (s : State) (h tn : Nat) : Option (Bool × Nat) :=
  if s.service = .full then
    let w := recWord (s.tenantRec tn) (24 + stackOfHome h)
    if bitsOf w 63 1 = 1 then some (false, bitsOf w 24 24 * 4096) else none
  else some (true, 16777216)
/-- Blocks of the sizes asked for from a tenant's pool at a home; none where the pool cannot hold them (R252, R253). -/
def State.poolRoom (s : State) (h tn : Nat) (sizes : List Nat) : Option (List Blk) :=
  if sizes.isEmpty then some []
  else match s.poolOf h tn with
    | some (sram, n) => allocs sram n sizes (s.poolUsed (stackOfHome h) tn sram)
    | none => none
/-- Room for `n` more entries: a take's place stays its own until it is acknowledged, a put's from its admission on, and a moving half's places are
reserved (R22, R277, R290, R321; log 58). -/
def Home.indexRoom (v : Home) (n : Nat) : Bool :=
  v.entries.length + (v.removals.filter fun r => r.seq.isSome).length + v.staged.length + (match v.inert with
    | some i => max i.room i.entries.length + i.croom
    | none => 0) + n ≤ Config.indexPlaces
def Home.watchRoom (v : Home) (n : Nat) : Bool :=
  v.watches.length + (match v.inert with
    | some i => max i.wroom i.watches.length + i.rroom
    | none => 0) + n ≤ Config.watchPlaces
/-- A free place of a home's table and its generation; each use of a place increments the generation (R254, log 5). `kind` is 0 for the
watch table, 1 for the index. -/
def State.newPlace (s : State) (h kind : Nat) : Nat × Nat × State :=
  let v := s.home h
  let used := if kind = 0 then v.watches.map Watch.place ++ (match v.inert with
      | some i => i.watches.map fun w => w.2.place
      | none => [])
    else v.entries.map Entry.place ++ (match v.inert with
      | some i => i.entries.map fun e => e.2.place
      | none => [])
  let free := (List.range (if kind = 0 then Config.watchPlaces else Config.indexPlaces)).filter fun p => !used.contains p
  let p := free.getD (Config.placePick s.freeCtr % free.length) (used.foldl max 0 + 1)
  let uses := v.gens.at 0 (2 * p + kind)
  (p, (Config.firstGen kind h p + uses) % 2 ^ 13, s.draw.modHome h fun v => { v with gens := v.gens.put (2 * p + kind) (uses + 1) })
def watchHandle (w : Watch) (home : BitVec 32) : W64 := handleOf home 0 w.place w.gen
def entryHandle (e : Entry) (home : BitVec 32) : W64 := handleOf home 1 e.place e.gen

/-! Splitting: the moving half (R321 to R323). -/
/-- A key or template of the moving half of a split. -/
def moving (sp : SplitSrc) (tn : Nat) (k : Key) : Bool :=
  let v := routingValue k sp.rf
  sp.tenant == tn && keySpace k == sp.req.space && sp.mid ≤ v && v < sp.hi
def State.splitTarget (s : State) (h : Nat) (sp : SplitSrc) : Option Agent := s.homeAgent (h / 8) sp.tenant sp.req.target.toNat
def State.toTarget (s : State) (h : Nat) (sp : SplitSrc) (b : Body) : State :=
  match s.splitTarget h sp with
  | some d => s.send (.home h) d sp.tenant (s.afirst sp.tenant) b
  | none => s
def isTup : Cell → Bool
  | .tuple _ => true
  | _ => false
/-- A watch that is copied during Copying: a waiter or a continuation (R322). -/
def isWaitW (k : WatchKind) : Bool := k != .spec && k != .reg
/-- The entries of the moving half, its waiters and continuations, and the watches that move at cut-over. -/
def Home.movingE (v : Home) (sp : SplitSrc) : List Entry := v.entries.filter fun e => moving sp e.tenant e.key
def Home.movingW (v : Home) (sp : SplitSrc) : List Watch := v.watches.filter fun w => moving sp w.tenant w.get.tmpl && isWaitW w.kind
def Home.movingLate (v : Home) (sp : SplitSrc) : List Watch := v.watches.filter fun w => moving sp w.tenant w.get.tmpl && !isWaitW w.kind
/-- What the moving half needs at its target now (R320). -/
def Home.splitRoom (v : Home) (sp : SplitSrc) : SplitRoom :=
  let es := v.movingE sp
  let ts := es.filter fun e => isTup e.cell
  let cs := es.filter fun e => !isTup e.cell
  let ws := v.movingW sp
  ⟨ts.length, cs.length, ws.length, (v.movingLate sp).length, (ts.flatMap Entry.blks ++ ws.flatMap Watch.blks).map Blk.size, (cs.flatMap Entry.blks).map Blk.size⟩
/-- Sends the target what it is to acknowledge before cut-over (R321). -/
def State.toTargetAcked (s : State) (h : Nat) (sp : SplitSrc) (b : Body) : State :=
  (s.modHome h fun v => { v with splitSrc := some { sp with unacked := sp.unacked + 1 } }).toTarget h sp b
/-- Asks the target for room for what has come to the moving half and moves only at cut-over. -/
def State.askMore (s : State) (h : Nat) (sp : SplitSrc) : State := s.toTargetAcked h sp (.splitMore ((s.home h).splitRoom sp))
/-- Sends a copy of a tuple or waiter of the moving half during Copying (R322); for a cell, or a watch that is not copied, room is asked. -/
def State.copyEntry (s : State) (h : Nat) (e : Entry) : State :=
  match (s.home h).splitSrc with
  | some sp =>
    if !(sp.copying && moving sp e.tenant e.key) then s
    else if isTup e.cell then s.toTargetAcked h { sp with sentE := sp.sentE ++ [e.place] } (.splitEntry e)
    else s.askMore h sp
  | none => s
/-- What is left of a watch's deadline at its home, in cycles; 0 for none. -/
def State.watchLeft (s : State) (h : Nat) (w : Watch) : Nat := if w.due = 0 then 0 else max 1 (w.due - (s.die (h / 8)).cycle.toNat)
def State.copyWatch (s : State) (h : Nat) (w : Watch) : State :=
  match (s.home h).splitSrc with
  | some sp =>
    if !(sp.copying && moving sp w.tenant w.get.tmpl) then s
    else if isWaitW w.kind then
      s.toTargetAcked h { sp with sentW := sp.sentW ++ [w.place] } (.splitWatch w (s.watchLeft h w))
    else s.askMore h sp
  | none => s
/-- Removes an entry or a watch; a copy already sent is invalidated (R323). -/
def State.dropEntry (s : State) (h place : Nat) : State :=
  let s := s.modHome h fun v => { v with entries := v.entries.filter fun e => e.place != place }
  match (s.home h).splitSrc with
  | some sp =>
    if sp.sentE.contains place then
      (s.modHome h fun v => { v with splitSrc := some { sp with sentE := sp.sentE.filter (· != place) } }).toTarget h sp (.splitInval true place)
    else s
  | none => s
def State.dropWatch (s : State) (h place : Nat) : State :=
  let s := s.modHome h fun v => { v with watches := v.watches.filter fun w => w.place != place }
  match (s.home h).splitSrc with
  | some sp =>
    if sp.sentW.contains place then
      (s.modHome h fun v => { v with splitSrc := some { sp with sentW := sp.sentW.filter (· != place) } }).toTarget h sp (.splitInval false place)
    else s
  | none => s

/-! Index and watch table (R249 to R251, R256, R257). -/
/-- Entries stand in ascending order of sequence. -/
def insertEntry (l : List Entry) (e : Entry) : List Entry := (l.takeWhile fun x => x.seq ≤ e.seq) ++ e :: l.dropWhile fun x => x.seq ≤ e.seq
/-- What an entry's place in the oldest-first order is: the next, its own again (R277), or the one it had at a home that its range has left. -/
inductive Order where
  | fresh
  | again (seq : Nat)
  | moved (old : Nat)
  deriving DecidableEq, Repr
/-- A tuple that comes back after its range has moved stands before the first entry of its space that was younger than it, or has come since the
move, and takes that entry's sequence (R277, R324). -/
def insertMoved (l : List Entry) (e : Entry) (old n : Nat) : List Entry :=
  let before := fun (x : Entry) => !(x.tenant == e.tenant && keySpace x.key == keySpace e.key && (match x.old with
    | some o => old < o
    | none => true))
  let rest := l.dropWhile before
  l.takeWhile before ++ { e with seq := (rest.head?.map Entry.seq).getD n } :: rest
/-- A cell or tuple to be entered in the index: its key, contents, error place and blocks. -/
structure NewEntry where
  key : Key
  cell : Cell
  fmt : Nat := 0
  shape : BitVec 128 := 0
  bad : Option Nat := none
  blks : List Blk := []
  deriving DecidableEq, Repr
/-- Enters an index entry with the next insertion sequence, or one it had before (R277). -/
def State.insert (s : State) (h tn : Nat) (w : NewEntry) (ord : Order) : State × Entry :=
  let (p, g, s) := s.newPlace h 1
  let n := (s.home h).insSeq
  let e : Entry := ⟨p, g, tn, w.key, n, w.cell, w.fmt, w.shape, w.bad, w.blks, none⟩
  let (e, s) := match ord with
    | .fresh => (e, s.modHome h fun v => { v with entries := insertEntry v.entries e, insSeq := (v.insSeq + 1) % 2 ^ 64 })
    | .again q => let e := { e with seq := q }; (e, s.modHome h fun v => { v with entries := insertEntry v.entries e })
    | .moved o => let e := { e with old := some o }; (e, s.modHome h fun v => { v with entries := insertMoved v.entries e o n, insSeq := (v.insSeq + 1) % 2 ^ 64 })
  (s.copyEntry h e, e)
def State.enterWatch (s : State) (h tn : Nat) (kind : WatchKind) (g : Get) (who : Agent) (op : Nat) (blks : List Blk := []) : State × Watch :=
  let (p, gen, s) := s.newPlace h 0
  let now := (s.die (h / 8)).cycle.toNat
  let w : Watch := ⟨p, gen, kind, tn, g, who, op, (s.home h).arrSeq, now, if g.deadline = 0 then 0 else now + g.deadline * s.usCycles, blks⟩
  let s := s.modHome h fun v => { v with watches := v.watches ++ [w], arrSeq := v.arrSeq + 1 }
  (s.copyWatch h w, w)
/-- The place in the watch table of a tile registered on a barrier cell under a key (R359). -/
def regGet (k : Key) : Get := ⟨false, .polling, k, BitVec.allOnes 256, 0, [], 0, false, 0, 0, 0, false⟩
/-- The matching tuple of least insertion sequence; cells are invisible to templates (R257). -/
def Home.oldest (v : Home) (tn : Nat) (g : Get) : Option Entry :=
  v.entries.find? fun e => e.tenant == tn && isTup e.cell && keyMatch g.tmpl g.care e.key
/-- The live cell under an exact key (R259). -/
def Home.cellAt (v : Home) (tn : Nat) (k : Key) : Option Entry := v.entries.find? fun e => e.tenant == tn && !isTup e.cell && e.key == k
def Home.modEntry (v : Home) (place : Nat) (f : Entry → Entry) : Home :=
  { v with entries := v.entries.map fun (e : Entry) => if e.place = place then f e else e }
/-- Notifies the tile of a speculation watch; one of another package is to acknowledge it (R339; log 68). -/
def State.notifyWatch (s : State) (h tn : Nat) (w : Watch) : State :=
  let n := s.nextId
  let s := match w.who with
    | .peer c _ => if peerValid (s.peer c) then s.modHome h fun v => { v with notes := v.notes ++ [(n, c)] } else s
    | _ => s
  s.send (.home h) w.who tn 0 (.notify w.get.cid w.get.win n)
/-- Notifies every matching speculation watch of an insertion or removal (R256, R351). -/
def State.notifySpec (s : State) (h tn : Nat) (k : Key) : State :=
  ((s.home h).watches.filter fun w => w.kind == .spec && w.tenant == tn && keyMatch w.get.tmpl w.get.care k).foldl (fun s w => s.notifyWatch h tn w) s
def entryTuple (e : Entry) : Tuple :=
  ⟨e.key, match e.cell with
    | .tuple p => p
    | _ => .inline [], e.fmt, e.shape⟩

/-! Deliveries (R258, R265, R268, R295, R297). -/
/-- Where reading a range under translation stops. -/
inductive Stop where
  | page (va : Nat)
  | refused
  | bad
  deriving DecidableEq, Repr
/-- Reads `n` bytes from `va`, page by page and line by line: the bytes before the first that cannot be read, and why it stopped. -/
def State.readPages (s : State) (d tn asid va n : Nat) : Nat → List Byte × Option Stop × State
  | 0 => ([], none, s)
  | f + 1 =>
    if n = 0 then ([], none, s)
    else match s.xlate d tn asid va pR with
      | (.ok p left, s) =>
        let k := min n left
        let good := (List.range k).takeWhile fun i => !s.badLine (p + i) 1
        if good.length < k then (s.dram.bytes p good.length, some .bad, s)
        else
          let (bs, st, s) := s.readPages d tn asid (va + k) (n - k) f
          (s.dram.bytes p k ++ bs, st, s)
      | (.fault, s) => ([], some (.page va), s)
      | (.refused, s) => ([], some .refused, s)
/-- A frozen handle valid for a tenant now, with its region's base and size (R263, R265). -/
def State.frozenAt (s : State) (tn : Nat) (h : W64) : Option (Nat × Nat) :=
  match s.regionWords tn (tokRegion h) with
  | some (_, w0, w1) =>
    if tokKind h = 1 ∧ tokPkg h = s.pkg.toNat ∧ tokTenant h = tn ∧ rgState w1 = 2 ∧ rgGen w1 = tokGen h then some (rgBase w0, rgSize w1) else none
  | none => none
/-- Sends a delivery to its asker, after the path permits for its streams (R274); one without bytes holds no blocks. -/
def State.sendDelivery (s : State) (h : Nat) (dst : Agent) (tn asid : Nat) (d : Delivery) : State :=
  let s := match dst with
    | .tile x => s.sendPermits (.home h) x tn asid d.op d.bytes.length
    | _ => s
  s.send (.home h) dst tn asid (.deliver (if d.bytes.isEmpty then { d with blks := [] } else d))
/-- The tile name of another package's requester; one that is no tile leaves the name open (R336, log 71). -/
def State.farTile (s : State) (c w : Nat) : BitVec 32 × State :=
  match agentOfNo w with
  | .tile x => (BitVec.ofNat 32 (peerPkg (s.peer c) * 65536 + x / 192 * 256 + x % 192), s)
  | _ => let (v, s) := s.free; (v.truncate 32, s)
/-- Reports a violation by another package at the target: a tuple in its tenant's error space and its error vector (R336). -/
def State.reportRemote (s : State) (h tn : Nat) (tile : BitVec 32) (tok : W64) (cause va : Nat) : State :=
  (s.notice (.home h) tn (keyOf [0x2FFFE, tile.toNat, bitsOf tok 0 32, bitsOf tok 32 32, cause]) (bytesOfNat 8 va)).raiseError tn
/-- A frozen delivery that fails a check ends with its status, one to a requester of another package with REMOTE, reported here too (R265, R336). -/
def State.frozenFails (s : State) (h : Nat) (dst : Agent) (tn asid : Nat) (d : Delivery) (tok : W64) (st cause va : Nat) : State :=
  match dst with
  | .peer c w =>
    let (n, s) := s.farTile c w
    (s.reportRemote h tn n tok cause va).sendDelivery h dst tn asid { d with status := stREMOTE }
  | _ => s.sendDelivery h dst tn asid { d with status := st }
/-- Reads the bytes that a delivery of a frozen reference carries, then sends it: a stale handle gives GRANT, bytes outside the region BOUNDS, either
REMOTE for another package, an uncorrectable line PARITY with the beats before it; an unmapped page waits on the pager (R265, R268, R297). In reduced
service every region operation ends with NOSPACE (R449). -/
def State.sendFrozen (s : State) (h : Nat) (dst : Agent) (tn : Nat) (d : Delivery) (want : Nat) (tok : W64) (off len asid : Nat) : State :=
  if s.service ≠ .full then s.sendDelivery h dst tn asid { d with status := stNOSPACE }
  else match s.frozenAt tn tok with
  | none => s.frozenFails h dst tn asid d tok stGRANT 2 (((s.regionWords tn (tokRegion tok)).elim 0 fun r => rgBase r.2.1) + off)
  | some (base, size) =>
    if off + len > size then s.frozenFails h dst tn asid d tok stBOUNDS 3 (base + max off size)
    else match s.readPages (h / 8) tn asid (base + off) want (want / 65536 + 3) with
      | (bs, none, s) => s.sendDelivery h dst tn asid { d with bytes := bs }
      | (bs, some .bad, s) => s.sendDelivery h dst tn asid { d with bytes := bs.take (bs.length / 64 * 64), status := stPARITY }
      | (_, some .refused, s) => s.sendDelivery h dst tn asid { d with status := stBOUNDS }
      | (_, some (.page va), s) =>
        let s := match dst with
          | .tile x => s.modOp x d.op fun o => { o with stage := .pager }
          | _ => s
        let m : Msg := ⟨0, .home h, dst, tn, asid, 0, 0, false, .deliver d, none⟩
        match s.pageFault (.home h) tn asid va 0 (.delivery m want) with
        | (s, true) => s
        | (s, false) => s.sendDelivery h dst tn asid { d with status := stMISROUTE }
/-- A tuple as a home holds it or is about to: with its error place, its blocks, and its sequence if it has been in the index. -/
structure Held where
  tup : Tuple
  bad : Option Nat := none
  blks : List Blk := []
  seq : Option Nat := none
  deriving DecidableEq, Repr
/-- The agents that acknowledge what their takes receive: tiles and host functions, of this package or another (R277). -/
def acknowledges : Agent → Bool
  | .tile _ | .host _ _ => true
  | .peer _ w => match agentOfNo w with
    | .home _ | .launch _ => false
    | _ => true
  | _ => false
/-- Delivers a tuple to an asker (R258, R293, R295). A removal is recorded until it is acknowledged (R277). -/
def State.deliver (s : State) (h tn : Nat) (who : Agent) (op : Nat) (g : Get) (w : Held) (handle : W64) : State :=
  let t := w.tup
  let pkt := if g.form = .cont then some (g.packet, g.target, handle) else none
  let want := if g.nd then 0 else min g.plen (payLen t.pay)
  let d : Delivery := ⟨op, stOK, some t, [], w.seq.getD 0, g.take, pkt, g.fwd, w.blks⟩
  let s := if g.take && acknowledges who then s.modHome h fun v => { v with removals := v.removals ++ [⟨op, who, tn, w.seq, t, w.bad, w.blks⟩] } else s
  match t.pay with
  | .inline bs | .pool bs =>
    match w.bad with
    | some b =>
      if b < want then
        let s := if g.take then s.modHome h fun v => { v with retired := v.retired ++ w.blks.map fun b => (tn, b) } else s
        s.sendDelivery h who tn 0 { d with bytes := bs.take (b / 64 * 64), status := stPARITY }
      else s.sendDelivery h who tn 0 { d with bytes := bs.take want }
    | none => s.sendDelivery h who tn 0 { d with bytes := bs.take want }
  | .frozen tok off len asid => s.sendFrozen h who tn d want tok off len asid
  | .grant _ => s.sendDelivery h who tn 0 d
/-- A delivery of a status with nothing delivered: an expiry, a cancellation (R294, R303). -/
def State.deliverNone (s : State) (h : Nat) (w : Watch) (st : Nat) (pkt : Bool) : State :=
  let p := if pkt && w.get.form == .cont then some (w.get.packet, w.get.target, watchHandle w (s.homeName h)) else none
  s.send (.home h) w.who w.tenant 0 (.deliver ⟨w.op, st, none, [], 0, w.get.take, p, w.get.fwd, []⟩)
def isReadW (k : WatchKind) : Bool := k == .readWaiter || k == .readCont
def isTakeW (k : WatchKind) : Bool := k == .takeWaiter || k == .takeCont
/-- A tuple is to enter at a home (R256). The notifications go first, so that whatever shows the put or take as performed waits for them (R339). -/
def State.enterTuple (s : State) (h tn : Nat) (v : Held) (ord : Order) : State :=
  let t := v.tup
  let hit := (s.home h).watches.filter fun w => w.tenant == tn && keyMatch w.get.tmpl w.get.care t.key
  let serve := fun (s : State) (w : Watch) =>
    (s.dropWatch h w.place).deliver h tn w.who w.op w.get v (watchHandle w (s.homeName h))
  let s := (hit.filter fun w => isReadW w.kind).foldl serve (s.notifySpec h tn t.key)
  match hit.find? fun w => isTakeW w.kind with
  | some w => serve s w
  | none => (s.insert h tn { key := t.key, cell := .tuple t.pay, fmt := t.fmt, shape := t.shape, bad := v.bad, blks := v.blks } ord).1

/-! Requests at a home: forwarding (R326) and replies. -/
/-- The key or template that a request routes by, or the handle it names. -/
def bodyKey : Body → Option Key
  | .put _ t | .reenter t _ _ => some t.key
  | .get _ g => some g.tmpl
  | .rangeTake k _ _ | .rangeNew _ k _ _ | .accNew _ k _ _ _ _ _ | .accAdd _ k _ _ | .ctrNew _ k _ _ _ _ => some k
  | _ => none
def bodyHandle : Body → Option W64
  | .ctrAdd h _ _ | .cancel _ h | .barReg _ h _ => some h
  | _ => none
def setHandle (h : W64) : Body → Body
  | .ctrAdd _ c w => .ctrAdd h c w
  | .cancel op _ => .cancel op h
  | .barReg op _ n => .barReg op h n
  | b => b
/-- The present handle of an entry that moved here under an old one (R325). -/
def Home.present (v : Home) (hd : W64) : W64 := ((v.moved.find? fun e => e.1 == hd).map Prod.snd).getD hd
/-- The handle by which a forwarding record's target knows an entry that has moved there (R325, R326). -/
def Fwd.newHandle (f : Fwd) (hd : W64) : W64 := ((f.handles.find? fun e => e.1 == hd).map Prod.snd).getD hd
/-- The forwarding record that a request meets. -/
def Home.forwardOf (v : Home) (m : Msg) : Option Fwd :=
  v.forwards.find? fun f => f.tenant == m.tenant && (match bodyKey m.body with
    | some k => keySpace k == f.space && f.lo ≤ routingValue k f.rf && routingValue k f.rf < f.hi
    | none => match bodyHandle m.body with
      | some hd => f.handles.any fun e => e.1 == v.present hd
      | none => false)
/-- A request for the moving half that reaches the target before the cut-over mark is held (R324). -/
def Home.holds (v : Home) (m : Msg) : Bool :=
  match v.inert with
  | none => false
  | some i => i.tenant == m.tenant && (match bodyKey m.body with
    | some k => keySpace k == i.req.space && i.mid ≤ routingValue k i.rf && routingValue k i.rf < i.hi
    | none => match bodyHandle m.body with
      | some hd => m.hops > 0 && v.present hd == hd
      | none => false)
/-- The reply to a request. -/
def replyBody (b : Body) (st : Nat) (val : W64) (count : Nat) (fwd : Bool) : Body :=
  match b with
  | .rangeTake _ _ w => .rangeReply val.toNat count st w fwd
  | .ctrAdd _ _ w => .ctrReply st w fwd
  | .put op _ | .get op _ | .rangeNew op _ _ _ | .accNew op _ _ _ _ _ _ | .accAdd op _ _ _ | .ctrNew op _ _ _ _ _ | .cancel op _ | .barReg op _ _ => .reply op st val fwd
  | _ => .reply 0 st val fwd
/-- Replies to the asker, or at a combining switch to all of them (R273). -/
def State.reply (s : State) (h : Nat) (a : Msg) (st : Nat) (val : W64) (count : Nat := 0) : State :=
  let b := replyBody a.body st val count (a.hops > 0)
  s.post ⟨0, .home h, replyTo b a.src, a.tenant, a.asid, 0, 0, false, b, none⟩
/-- A home's preparation for a put that was still to stream in is over. -/
def Home.unstage (v : Home) (a : Msg) : Home :=
  match a.body with
  | .put op _ => { v with staged := v.staged.filter fun p => !(p.op == op && p.who == a.src) }
  | _ => v
/-- Sends a request on to the target of a forwarding record, at most eight times (R326). -/
def State.forward (s : State) (h : Nat) (a : Msg) (f : Fwd) : State :=
  let s := (s.dropMsg a.id).modHome h fun v => v.unstage a
  if a.hops ≥ 8 then s.reply h a stMISROUTE 0
  else match s.homeAgent (h / 8) a.tenant f.target.toNat with
    | some d =>
      let b := match bodyHandle a.body with
        | some hd => setHandle (f.newHandle ((s.home h).present hd)) a.body
        | none => a.body
      s.post { a with dst := d, hops := a.hops + 1, body := b, via := some (.home h) }
    | none => s.reply h a stMISROUTE 0
/-- Sends a message that concerns every entry of its sender on to all targets of the tenant's forwarding records. -/
def State.passOn (s : State) (h : Nat) (a : Msg) : State :=
  ((s.home h).forwards.filter fun f => f.tenant == a.tenant).foldl (fun s f =>
    if a.hops ≥ 8 then s
    else match s.homeAgent (h / 8) a.tenant f.target.toNat with
      | some d => s.post { a with dst := d, hops := a.hops + 1, via := some (.home h) }
      | none => s) s
/-- A request whose turn it is at its home: held, forwarded, or performed by `f`. -/
def State.homeEvent (s : State) (m : Nat) (sel : Body → Bool) (f : Msg → Nat → State → State) : State :=
  match s.msg m with
  | some a => match a.dst with
    | .home h =>
      if !sel a.body || !s.deliverable a || (s.home h).holds a then s
      else match (s.home h).forwardOf a with
        | some r => s.forward h a r
        | none => f a h (s.dropMsg m)
    | _ => s
  | none => s

/-- A put or contribution whose payload the tile has still to inject (R290). -/
def streamWaits (a : Msg) : Bool :=
  match a.dst, streamOf a with
  | .home _, some (_, _, bs) => a.sent < bs.length
  | _, _ => false
/-- A request whose payload is still to stream in: a put that finds room has it set aside, and its tile receives the permits (R274, R290). -/
def State.admitPayload (s : State) (m : Nat) (sel : Body → Bool) : State :=
  match s.msg m with
  | some a => match a.dst, streamOf a with
    | .home h, some (x, op, bs) =>
      let go := fun (s : State) => (s.modMsg m fun a => { a with perm := true }).sendPermits (.home h) x a.tenant a.asid op bs.length
      if !sel a.body || a.perm || !s.deliverable a || (s.home h).holds a then s
      else match (s.home h).forwardOf a with
        | some r => s.forward h a r
        | none => match a.body with
          | .put _ t =>
            match if (s.home h).indexRoom 1 then s.poolRoom h a.tenant (tupleBlocks t) else none with
            | some bl => go (s.modHome h fun v => { v with staged := v.staged ++ [⟨op, a.src, a.tenant, bl⟩] })
            | none => (s.dropMsg m).reply h a stNOSPACE 0
          | _ => go s
    | _, _ => s
  | none => s
/-- The blocks set aside for a put, or those that it takes now; none for want of room (R290). -/
def State.putRoom (s : State) (h : Nat) (a : Msg) (op : Nat) (t : Tuple) : Option (List Blk) :=
  match (s.home h).staged.find? fun p => p.op == op && p.who == a.src with
  | some p => some p.blks
  | none => if (s.home h).indexRoom 1 then s.poolRoom h a.tenant (tupleBlocks t) else none
def isPutBody : Body → Bool
  | .put _ _ | .reenter _ _ _ => true
  | _ => false
/-- A put (R290): NOSPACE for want of index or pool room, else the tuple enters, once its payload is here. A tuple whose take has been undone comes
back from a home that its range has left (R277). -/
def State.homePut (s : State) (m : Nat) : State :=
  if (s.msg m).any streamWaits then s.admitPayload m isPutBody
  else s.homeEvent m isPutBody fun a h s => match a.body with
    | .put op t => match s.putRoom h a op t with
      | some bl => ((s.modHome h fun v => v.unstage a).enterTuple h a.tenant { tup := t, blks := bl } .fresh).reply h a stOK 0
      | none => s.reply h a stNOSPACE 0
    | .reenter t bad old => s.enterTuple h a.tenant { tup := t, bad := bad, blks := (s.poolRoom h a.tenant (tupleBlocks t)).getD [] } (.moved old)
    | _ => s
/-- Statuses between a home and a tile for a speculative read: nothing matched, and its watch cannot be entered (R253, R311). -/
def stNoMatch : Nat := 0x10000
def stNoWatch : Nat := 0x10001
/-- A target tile name that a continuation or a join cell may carry, in whatever package it is (R14). -/
def targetNameOk (n : BitVec 32) : Bool := tileNameOk n.toNat
/-- A read or take at its home (R257, R293, R311). -/
def State.serveGet (s : State) (h : Nat) (a : Msg) (op : Nat) (g : Get) : State :=
  let tn := a.tenant
  let g := { g with fwd := a.hops > 0 }
  let v := s.home h
  let spec := g.form == .specB || g.form == .specP
  if spec && !v.watchRoom 1 then s.reply h a stNoWatch 0
  else if g.form == .cont && !targetNameOk g.target then s.reply h a stBOUNDS 0
  else
    let s := if spec then (s.enterWatch h tn .spec { g with deadline := 0 } a.src op).1 else s
    match v.oldest tn g with
    | some e =>
      let s := if g.take then (s.dropEntry h e.place).notifySpec h tn e.key else s
      let s := if g.form = .cont then s.reply h a stOK 0 else s
      s.deliver h tn a.src op g { tup := entryTuple e, bad := e.bad, blks := e.blks, seq := some e.seq } 0
    | none =>
      let enter := fun (k : WatchKind) (bl : List Blk) => s.enterWatch h tn k g a.src op bl
      match g.form with
      | .polling | .specP => s.reply h a stMISS 0
      | .specB => s.reply h a stNoMatch 0
      | .blocking =>
        if !v.watchRoom 1 then s.reply h a stNOSPACE 0 else (enter (if g.take then .takeWaiter else .readWaiter) []).1
      | .cont => match if v.watchRoom 1 then s.poolRoom h tn (if g.packet.isEmpty then [] else [recordSize]) else none with
        | none => s.reply h a stNOSPACE 0
        | some bl =>
          let (s, w) := enter (if g.take then .takeCont else .readCont) bl
          s.reply h a stOK (watchHandle w (s.homeName h))
def State.homeGet (s : State) (m : Nat) (take : Bool) : State :=
  s.homeEvent m (fun b => match b with
    | .get _ g => g.take == take
    | _ => false) fun a h s => match a.body with
    | .get op g => s.serveGet h a op g
    | _ => s

/-! Cells (R259 to R262, R298 to R303, R359). -/
/-- A range take (R260, R298). -/
def State.homeRange (s : State) (m : Nat) : State :=
  s.homeEvent m (fun b => match b with
    | .rangeTake _ _ _ => true
    | _ => false) fun a h s => match a.body with
    | .rangeTake k n _ => match (s.home h).cellAt a.tenant k with
      | some e => match e.cell with
        | .range next hi =>
          let c := min n (hi - next)
          let s := if next + c < hi then s.modHome h fun v => v.modEntry e.place fun e => { e with cell := .range (next + c) hi } else s.dropEntry h e.place
          s.reply h a stOK (BitVec.ofNat 64 next) c
        | _ => s.reply h a stMISS 0
      | none => s.reply h a stMISS 0
    | _ => s
/-- Creates a cell, unless a live cell has its key or its parameters are wrong, or room is wanting; the reply carries `val` of the new
entry (R253, R259, R299 to R301). -/
def State.newCell (s : State) (h : Nat) (a : Msg) (w : NewEntry) (bad : Bool) (sizes : List Nat) (val : Entry → W64) : State :=
  if bad || ((s.home h).cellAt a.tenant w.key).isSome then s.reply h a stBOUNDS 0
  else match if (s.home h).indexRoom 1 then s.poolRoom h a.tenant sizes else none with
    | none => s.reply h a stNOSPACE 0
    | some bl =>
      let (s, e) := s.insert h a.tenant { w with blks := bl } .fresh
      s.reply h a stOK (val e)
def State.homeRangeNew (s : State) (m : Nat) : State :=
  s.homeEvent m (fun b => match b with
    | .rangeNew _ _ _ _ => true
    | _ => false) fun a h s => match a.body with
    | .rangeNew _ k lo hi => s.newCell h a { key := k, cell := .range lo hi } (lo ≥ hi) [] fun _ => 0
    | _ => s
def State.homeAccNew (s : State) (m : Nat) : State :=
  s.homeEvent m (fun b => match b with
    | .accNew _ _ _ _ _ _ _ => true
    | _ => false) fun a h s => match a.body with
    | .accNew _ k n pk size fmt shape =>
      s.newCell h a { key := k, cell := .acc n pk size [], fmt := fmt, shape := shape } false ((List.replicate (ceilDiv n 2 + 1) (payBlocks size)).flatten) fun _ => 0
    | _ => s
def State.homeCtrNew (s : State) (m : Nat) : State :=
  s.homeEvent m (fun b => match b with
    | .ctrNew _ _ _ _ _ _ => true
    | _ => false) fun a h s => match a.body with
    | .ctrNew _ k target barrier packet tile =>
      s.newCell h a { key := k, cell := if barrier then .barrier target 0 0 [] else .join target 0 packet tile } (!barrier && !targetNameOk tile)
        (if barrier then [] else [recordSize]) fun e => entryHandle e (s.homeName h)
    | _ => s
/-- Elementwise sum of two payloads in the cell's format: FP32 in RNE, I32 and I64 modulo 2^w (R262). -/
def accSum (fmt : Nat) (x y : List Byte) : List Byte :=
  let w := if fmt = 3 then 8 else 4
  (List.range (x.length / w)).flatMap fun i =>
    let a := natOfBytes ((x.drop (w * i)).take w)
    let b := natOfBytes ((y.drop (w * i)).take w)
    bytesOfNat w (if fmt = 8 then (fArith 8 0 a b 0 0).1 else a + b)
/-- The left-balanced tree over [lo, hi) with leaves `leaf` (R262). -/
def accTree (fmt : Nat) (leaf : Nat → List Byte) : Nat → Nat → Nat → List Byte
  | 0, lo, _ => leaf lo
  | f + 1, lo, hi =>
    if hi - lo ≤ 1 then leaf lo
    else
      let sp := ((List.range 12).map (2 ^ ·)).findRev? (· < hi - lo) |>.getD 1
      accSum fmt (accTree fmt leaf f lo (lo + sp)) (accTree fmt leaf f (lo + sp) hi)
/-- The sealed value of an accumulator cell (R262). -/
def accValue (n pk fmt : Nat) (got : List (Nat × List Byte)) : List Byte :=
  let leaf := fun i => ((got.find? fun e => e.1 == i).map Prod.snd).getD []
  if pk = 1 then accTree fmt leaf 12 0 n else accTree fmt (fun q => accTree fmt leaf 12 (q * (n / pk)) ((q + 1) * (n / pk))) 12 0 pk
def isAccBody : Body → Bool
  | .accAdd _ _ _ _ => true
  | _ => false
/-- A contribution to an accumulator cell, once its payload is here; the last seals it, its pool payload in one of the cell's own buffers (R262,
R300). -/
def State.homeAccAdd (s : State) (m : Nat) : State :=
  if (s.msg m).any streamWaits then s.admitPayload m isAccBody
  else s.homeEvent m isAccBody fun a h s => match a.body with
    | .accAdd _ k i bytes => match (s.home h).cellAt a.tenant k with
      | some e => match e.cell with
        | .acc n pk size got =>
          if i ≥ n ∨ bytes.length ≠ size ∨ got.any (fun g => g.1 == i) then s.reply h a stBOUNDS 0
          else
            let got := got ++ [(i, bytes)]
            if got.length < n then (s.modHome h fun v => v.modEntry e.place fun e => { e with cell := .acc n pk size got }).reply h a stOK 0
            else
              let v := accValue n pk e.fmt got
              let t : Tuple := ⟨k, if size ≤ 64 then .inline v else .pool v, e.fmt, e.shape⟩
              ((s.dropEntry h e.place).enterTuple h a.tenant { tup := t, blks := if size ≤ 64 then [] else e.blks.take 1 } .fresh).reply h a stOK 0
        | _ => s.reply h a stMISS 0
      | none => s.reply h a stMISS 0
    | _ => s
/-- The entry that an index handle names (R254, R255). -/
def Home.byHandle (v : Home) (tn : Nat) (hd : W64) : Option Entry :=
  if hKind hd = 1 then v.entries.find? fun e => e.tenant == tn && e.place == hPlace hd && e.gen == hGen hd else none
/-- How many arrivals of `EXIT` a combined arrival holds. -/
def combExits : Comb → Nat
  | .one _ _ _ exit => exit.toNat
  | .two _ u l => combExits u + combExits l
/-- An arrival at a counter cell (R261, R302); one of `EXIT` that finds nothing puts a fault notice for each thread (R255). -/
def State.homeArrival (s : State) (m : Nat) : State :=
  s.homeEvent m (fun b => match b with
    | .ctrAdd _ _ _ => true
    | _ => false) fun a h s => match a.body with
    | .ctrAdd named c who =>
      let hd := (s.home h).present named
      let nothing (s : State) : State :=
        let s := (List.range (combExits who)).foldl (fun s _ => s.lostNotice (.home h) a.tenant (some named)) s
        s.reply h a stMISS 0
      match (s.home h).byHandle a.tenant hd with
      | some e => match e.cell with
        | .join target count packet tile =>
          if count + c < target then (s.modHome h fun v => v.modEntry e.place fun e => { e with cell := .join target (count + c) packet tile }).reply h a stOK 0
          else ((s.dropEntry h e.place).sendPacket (.home h) a.tenant tile (pktKind packet 4) (some named)).reply h a stOK 0
        | .barrier target count phase tiles =>
          let total := count + c
          let k := total / target
          let s := s.modHome h fun v => v.modEntry e.place fun e => { e with cell := .barrier target (total % target) ((phase + k) % 2 ^ 32) tiles }
          let s := (List.range k).foldl (fun s i => tiles.foldl (fun s r => s.send (.home h) r.1 a.tenant 0 (.release r.2 ((phase + i + 1) % 2 ^ 32))) s) s
          s.reply h a stOK 0
        | _ => nothing s
      | none => nothing s
    | _ => s
/-- A cancellation (R303); and the removal of a context's waiters, continuations and watches when it is discarded or its window ends
(R311, R388); and of a continuation that its agent withdraws (R270). -/
def State.homeCancel (s : State) (m : Nat) : State :=
  s.homeEvent m (fun b => match b with
    | .cancel _ _ | .unwatch _ | .dropWaits _ | .withdraw _ => true
    | _ => false) fun a h s => match a.body with
    | .cancel _ named =>
      let hd := (s.home h).present named
      if hKind hd = 0 then
        match (s.home h).watches.find? fun w => w.tenant == a.tenant && isContW w.kind && w.place == hPlace hd && w.gen == hGen hd with
        | some w => ((s.dropWatch h w.place).deliverNone h w stCANCELLED false).reply h a stOK 0
        | none => s.reply h a stMISS 0
      else match (s.home h).byHandle a.tenant hd with
        | some e => match e.cell with
          | .join _ _ _ _ => (s.dropEntry h e.place).reply h a stOK 0
          | .barrier _ _ _ _ => s.reply h a stBOUNDS 0
          | _ => s.reply h a stMISS 0
        | none => s.reply h a stMISS 0
    | .unwatch cid | .dropWaits cid =>
      let all := match a.body with
        | .dropWaits _ => true
        | _ => false
      let mine := (s.home h).watches.filter fun w => w.tenant == a.tenant && w.who == a.src && w.get.cid == cid && w.kind != .reg && (all || w.kind == .spec)
      (mine.foldl (fun s w =>
        let s := s.dropWatch h w.place
        if w.kind = .spec then s else s.deliverNone h w stCANCELLED false) s).passOn h a
    | .withdraw op => (((s.home h).watches.filter fun w => w.who == a.src && w.op == op).foldl (fun s w => s.dropWatch h w.place) s).passOn h a
    | _ => s
/-- A tile registers on a barrier cell; each registered tile takes a watch-table entry (R359). -/
def State.homeBarReg (s : State) (m : Nat) : State :=
  s.homeEvent m (fun b => match b with
    | .barReg _ _ _ => true
    | _ => false) fun a h s => match a.body with
    | .barReg op hd0 named => match (s.home h).byHandle a.tenant ((s.home h).present hd0) with
      | some e => match e.cell with
        | .barrier target count phase tiles =>
          if tiles.any fun r => r.1 == a.src then s.reply h a stOK (BitVec.ofNat 64 phase)
          else if !(s.home h).watchRoom 1 then s.reply h a stNOSPACE 0
          else
            let s := (s.enterWatch h a.tenant .reg (regGet e.key) a.src op).1
            let s := s.modHome h fun v => v.modEntry e.place fun e => { e with cell := .barrier target count phase (tiles ++ [(a.src, named)]) }
            s.reply h a stOK (BitVec.ofNat 64 phase)
        | .join _ _ _ _ => s.reply h a stBOUNDS 0
        | _ => s.reply h a stMISS 0
      | none => s.reply h a stMISS 0
    | _ => s

/-! Reset, deadlines, acknowledgements (R276, R277, R294). -/
/-- Undoes a take: the tuple re-enters with its original sequence, its error place and its blocks (R277); one of a range that has since moved goes
to its target, to keep its place in the order there. -/
def State.undoTake (s : State) (h : Nat) (r : Removal) : State :=
  let s := s.modHome h fun v => { v with removals := v.removals.filter (· != r), retired := v.retired.filter fun e => !(e.1 == r.tenant && r.blks.contains e.2) }
  let back := fun (s : State) => s.enterTuple h r.tenant ⟨r.tup, r.bad, r.blks, r.seq⟩ (match r.seq with
    | some q => .again q
    | none => .fresh)
  let body := Body.reenter r.tup r.bad (r.seq.getD 0)
  match (s.home h).forwardOf ⟨0, .home h, .home h, r.tenant, 0, 0, 0, false, body, none⟩ with
  | some f => match s.homeAgent (h / 8) r.tenant f.target.toNat with
    | some d => s.send (.home h) d r.tenant (s.afirst r.tenant) body
    | none => back s
  | none => back s
/-- What an operation of a home on its own account is for, if it is a frozen delivery to an agent. -/
def auxFor (who : Agent) : Aux → Bool
  | .faultPut _ _ _ (.delivery m _) | .resolve _ (.delivery m _) _ => m.dst == who
  | _ => false
/-- Withdraws the take continuations by which a home waits for a page on behalf of an agent's frozen deliveries, each at the home where it was sent,
in this package or another (R270). -/
def State.withdraw (s : State) (h tn : Nat) (who : Agent) : State :=
  let gone := (s.home h).aux.filter fun e => auxFor who e.2
  let s := s.modHome h fun v => { v with aux := v.aux.filter fun e => !auxFor who e.2 }
  gone.foldl (fun s e => match e.2 with
    | .resolve _ _ dst => s.send (.home h) dst tn (s.afirst tn) (.withdraw e.1)
    | _ => s) s
/-- The acknowledgement that a tile of another package has received a notification; what has waited for it may go (R339). -/
def State.noted (s : State) (h n : Nat) : State := (s.modHome h fun v => { v with notes := v.notes.filter fun e => e.1 != n }).releaseFar
/-- A reset tile's cancel reaches a home (R276, R277): its waiters, continuations and watches go, what it had still to inject is forgotten, its
permits' links are released, its takes not yet acknowledged are undone. A permit given back releases its links, an acknowledged notification is no longer
awaited. -/
def State.homeResetCancel (s : State) (m : Nat) : State :=
  s.homeEvent m (fun b => match b with
    | .resetCancel | .permitCancel _ | .notified _ => true
    | _ => false) fun a h s => match a.body with
    | .notified n => s.noted h n
    | .permitCancel op => s.modHome h fun v => { v with links := v.links.filter fun l => !(l.1 == a.src && l.2.1 == op) }
    | _ =>
      let mine := (s.home h).watches.filter fun w => w.who == a.src && w.kind != .reg
      let s := (mine.foldl (fun s w => s.dropWatch h w.place) s).withdraw h a.tenant a.src
      let s := s.modHome h fun v => { v with staged := v.staged.filter fun p => p.who != a.src, links := v.links.filter fun l => l.1 != a.src }
      (((s.home h).removals.filter fun r => r.who == a.src).foldl (fun s r => s.undoTake h r) s).passOn h a
/-- A waiter or continuation whose deadline has passed is removed between two operations (R251, R294). -/
def State.expire (s : State) (h place : Nat) : State :=
  match (s.home h).watches.find? fun w => w.place == place with
  | some w =>
    if w.due = 0 ∨ (s.die (h / 8)).cycle.toNat < w.due ∨ w.kind = .spec ∨ w.kind = .reg then s
    else (s.dropWatch h place).deliverNone h w stDEADLINE true
  | none => s
/-- The acknowledgement of a take's last delivery event, or of its refusal (R277, R278). -/
def State.acknowledge (s : State) (m : Nat) : State :=
  s.homeEvent m (fun b => match b with
    | .tookAck _ _ _ => true
    | _ => false) fun a h s => match a.body with
    | .tookAck op _ undo => match (s.home h).removals.find? fun r => r.op == op && r.who == a.src with
      | some r => if undo then s.undoTake h r else s.modHome h fun v => { v with removals := v.removals.filter (· != r) }
      | none => s
    | _ => s

/-! The events. -/
/-- `HOME_PUT` (R256). -/
def execHomePut (m : Nat) (s : State) : Host.Outcome State Fault Refusal := s.event fun s => s.homePut m
/-- `HOME_READ` (R293). -/
def execHomeRead (m : Nat) (s : State) : Host.Outcome State Fault Refusal := s.event fun s => s.homeGet m false
/-- `HOME_TAKE` (R293). -/
def execHomeTake (m : Nat) (s : State) : Host.Outcome State Fault Refusal := s.event fun s => s.homeGet m true
/-- `HOME_RANGE_TAKE` (R260). -/
def execHomeRangeTake (m : Nat) (s : State) : Host.Outcome State Fault Refusal := s.event fun s => s.homeRange m
/-- `HOME_RANGE_CREATE` (R299). -/
def execHomeRangeCreate (m : Nat) (s : State) : Host.Outcome State Fault Refusal := s.event fun s => s.homeRangeNew m
/-- `HOME_ACC_CREATE` (R300). -/
def execHomeAccCreate (m : Nat) (s : State) : Host.Outcome State Fault Refusal := s.event fun s => s.homeAccNew m
/-- `HOME_ACC_CONTRIB` (R262). -/
def execHomeAccContrib (m : Nat) (s : State) : Host.Outcome State Fault Refusal := s.event fun s => s.homeAccAdd m
/-- `HOME_CTR_CREATE` (R301). -/
def execHomeCtrCreate (m : Nat) (s : State) : Host.Outcome State Fault Refusal := s.event fun s => s.homeCtrNew m
/-- `HOME_CTR_ARRIVAL` (R261). -/
def execHomeCtrArrival (m : Nat) (s : State) : Host.Outcome State Fault Refusal := s.event fun s => s.homeArrival m
/-- `HOME_CANCEL` (R303). -/
def execHomeCancel (m : Nat) (s : State) : Host.Outcome State Fault Refusal := s.event fun s => s.homeCancel m
/-- `HOME_BARRIER_REGISTER` (R359). -/
def execHomeBarrierRegister (m : Nat) (s : State) : Host.Outcome State Fault Refusal := s.event fun s => s.homeBarReg m
/-- `HOME_RESET_CANCEL` (R276). -/
def execHomeResetCancel (m : Nat) (s : State) : Host.Outcome State Fault Refusal := s.event fun s => s.homeResetCancel m
/-- `DEADLINE_EXPIRY` (R294). -/
def execDeadlineExpiry (home : Nat) (place : Nat) (s : State) : Host.Outcome State Fault Refusal := s.event fun s => s.expire home place
/-- `DELIVERY_ACKNOWLEDGE` (R277). -/
def execDeliveryAcknowledge (m : Nat) (s : State) : Host.Outcome State Fault Refusal := s.event fun s => s.acknowledge m

end Sys2Proof.Machine
end

