-- ==== Sys2Proof/Machine/Copy.lean ====
section
/-! DEFINITION. The copy engine, bundle fills, freezing, translation invalidation, and the copy agent for other packages (01_machine.md R17 to R19;
08_tuples_homes.md R265 to R270; 09_tuple_instr.md R305 to R309; 10_spanning.md R335, R336; 13_system.md R423). -/
namespace Sys2Proof.Machine

/-- Bytes of a format's block (R266). -/
def copyBlock (fmt : Nat) : Nat :=
  if fmt = 14 then 9 else if fmt = 15 then 17 else ceilDiv (fmtWidth fmt) 8
/-- A copy's cost in half picojoules (R417). -/
def copyCost (o : TOp) : Nat := 300 + 2080 * linesTouched (keyField o.desc.key 0 + keyField o.desc.key 1 % 65536 * 2 ^ 32) o.desc.plen
/-- A copy's region address (R305). -/
def copyVa (o : TOp) : Nat := o.desc.key.toNat % 2 ^ 48
/-- Copies that hold a context of the copy engine (R306). -/
def Tile.copies (t : Tile) : Nat := (t.ops.filter fun o => isCopy o.kind && o.stage != .queued).length
/-- Ends a copy at delivered byte `p`: its result word is the bytes delivered, or the address of the block withheld (R305). -/
def State.endCopy (s : State) (x : Nat) (o : TOp) (st p : Nat) : State :=
  s.modOp x o.id fun o => { o with prog := p, performed := true, stage := .ended st (BitVec.ofNat 64 (if stGood st then p else (copyVa o + p) % 2 ^ 48)) }
/-- What one block does: it is delivered, it ends the copy, or it meets an unmapped page (R267). -/
inductive Block where
  | done (s : State)
  | stop (st : Nat) (s : State)
  | page (s : State)
/-- The physical pieces of [va, va + n), n at most a block: all of it, or why not. -/
def State.pieces (s : State) (d tn asid va n perm : Nat) : Nat → Option (List (Nat × Nat)) × Bool × State
  | 0 => (some [], false, s)
  | f + 1 =>
    if n = 0 then (some [], false, s)
    else match s.xlate d tn asid va perm with
      | (.ok p left, s) =>
        let k := min n left
        match s.pieces d tn asid (va + k) (n - k) perm f with
        | (some l, pf, s) => (some ((p, k) :: l), pf, s)
        | r => r
      | (.fault, s) => (none, true, s)
      | (.refused, s) => (none, false, s)
/-- Moves one block of `n` bytes at offset `p` (R267, R305, R306). -/
def State.copyBlock1 (s : State) (x : Nat) (o : TOp) (p n : Nat) : Block :=
  let t := s.tile x
  let a := o.desc.addr + p
  let into := o.kind == .copyin
  if (t.statIn a n).isSome then .stop stSTAT s
  else match s.pieces (dieOf x) (s.tenantOf x) o.asid (copyVa o + p) n (if into then pR else pW) 3 with
    | (none, true, s) => .page s
    | (none, false, s) => .stop stBOUNDS s
    | (some l, _, s) =>
      if into then
        if l.any fun q => s.badLine q.1 q.2 then .stop stPARITY s
        else if t.partBad a n then .stop stPARITY s
        else .done (s.engineWrite x (some o.cid) a (l.flatMap fun q => s.dram.bytes q.1 q.2))
      else if (t.badIn a n).isSome then .stop stPARITY s
      else .done ((s.scrub x a n).writePhys l ((s.tile x).sp.bytes a n))
/-- The access number of a copy in its fault tuple (R269). -/
def copyAccess (o : TOp) : Nat := if o.kind = .copyin then 0 else 1
/-- Moves the blocks from offset `p` on, until the end, a fault, or a page that the pager must map (R267, R269). -/
def State.moveBlocks (s : State) (x : Nat) (o : TOp) : Nat → Nat → State
  | 0, p => s.endCopy x o stOK p
  | f + 1, p =>
    let n := copyBlock o.desc.fmt
    match s.copyBlock1 x o p n with
    | .done s => s.moveBlocks x o f (p + n)
    | .stop st s => s.endCopy x o st p
    | .page s =>
      let s := s.modOp x o.id fun o => { o with stage := .pager, prog := p }
      match s.pageFault (.tile x) (s.tenantOf x) o.asid (copyVa o + p) (copyAccess o) (.copy o.id) with
      | (s, true) => s
      | (s, false) => s.endCopy x o stMISROUTE p
/-- Why the blocks of a copy may not move now: a stale frozen handle, or a range outside the token's region (R265, R267, R305). -/
def State.copyBad (s : State) (x : Nat) (o : TOp) : Option Nat :=
  let tn := s.tenantOf x
  let va := copyVa o
  let tok := o.desc.token
  if tokKind tok = 1 ∧ (s.frozenAt tn tok).isNone then some stGRANT
  else match s.regionWords tn (tokRegion tok) with
    | some (_, w0, w1) => if rgBase w0 ≤ va ∧ va + o.desc.plen ≤ rgBase w0 + rgSize w1 then none else some stBOUNDS
    | none => some stBOUNDS
/-- Moves a copy's blocks from where it stands, unless the next one meets a grant or bounds failure (R267). -/
def State.resumeCopy (s : State) (x : Nat) (o : TOp) : State :=
  match s.copyBad x o with
  | some st => s.endCopy x o st o.prog
  | none => s.moveBlocks x o ((o.desc.plen - o.prog) / copyBlock o.desc.fmt) o.prog
/-- Judges a copy of this package and moves its blocks (R305). -/
def State.judgeCopy (s : State) (x : Nat) (o : TOp) : State :=
  let n := o.desc.plen
  if n = 0 then s.endCopy x o stOK 0
  else if n % copyBlock o.desc.fmt ≠ 0 then s.endCopy x o stBOUNDS 0
  else if s.service ≠ .full then s.endCopy x o stNOSPACE 0
  else s.resumeCopy x { o with prog := 0 }
/-- Sends a remote copy's request, on the context toward home number 0 of the package (R313, R335; log 22), unless it ends at once. -/
def State.startRemote (s : State) (x : Nat) (o : TOp) : State :=
  let n := o.desc.plen
  if n = 0 then s.endCopy x o stOK 0
  else if n % copyBlock o.desc.fmt ≠ 0 then s.endCopy x o stBOUNDS 0
  else match s.contextTo (dieOf x) (s.tenantOf x) (tokPkg o.desc.token) 0 with
    | none => s.endCopy x o stMISROUTE 0
    | some c =>
      let (w, s) := s.free
      let s := s.modOp x o.id fun o => { o with dest := bitsOf w 0 32 }
      s.send (.tile x) (.peer c 0) (s.tenantOf x) o.asid
        (.remoteCopy o.id ⟨o.desc.token, copyVa o, n, copyBlock o.desc.fmt, o.desc.flag fDir, [], s.tileName x⟩)
/-- The copy engine takes a copy from the request queue once one of its 256 contexts is free and the reserve covers its cost (R306, R416). The permits
and streams of a copy within the package (R274) lie inside this one event (log 56). -/
def State.startCopy (s : State) (x id : Nat) : State :=
  match (s.tile x).op id with
  | none => s
  | some o =>
    if !isCopy o.kind || o.stage != .queued || (s.tile x).copies ≥ Config.copyContexts || !s.covers (dieOf x) (copyCost o) then s
    else
      let s := ((s.debit (dieOf x) (copyCost o)).setEcost x o.cid (copyCost o)).modOp x id fun o => { o with stage := .sent, prog := 0 }
      if o.kind = .copyr then s.startRemote x { o with stage := .sent, prog := 0 } else s.judgeCopy x { o with stage := .sent, prog := 0 }
/-- A copy that has ended writes its words and `gd` (R305, R308). -/
def State.completeCopy (s : State) (x id : Nat) : State :=
  match (s.tile x).op id with
  | some o => match o.stage with
    | .ended st r => if isCopy o.kind then s.finish x o st (some r) (stWord st) else s
    | _ => s
  | none => s

/-! `FREEZE` (R309, R415). -/
def State.freezeNow (s : State) (x id : Nat) : State :=
  let t := s.tile x
  match t.op id with
  | none => s
  | some o =>
    let before := t.ops.takeWhile fun p => p.id != id
    if o.kind ≠ .freeze || before.any (fun p => isCopy p.kind && p.desc.token == o.arg) || !s.covers (dieOf x) 300 then s
    else
      let s := (s.debit (dieOf x) 300).setEcost x o.cid 300
      match s.regionWords (s.tenantOf x) (tokRegion o.arg) with
      | some (p, _, w1) =>
        if tokPkg o.arg = s.pkg.toNat ∧ tokTenant o.arg = s.tenantOf x ∧ rgState w1 = 1 ∧ rgGen w1 = tokGen o.arg then
          (s.writeDram (p + 8) (bytesOfNat 8 (w1.toNat - 2 ^ 32 + 2 ^ 33))).endOp x o (o.arg ||| (1#64 <<< 22))
        else s.endOp x o 0
      | none => s.endOp x o 0

/-! `TLBINV` (R324, R423). -/
/-- A `TLBINV` with address `va` and control word `c` covers the page of `n` bytes at `b` of ASID `a`. -/
def tlbCovers (r : TenantRec) (va : Nat) (c : W64) (a b n : Nat) : Bool :=
  let size := if bitsOf c 14 1 = 1 then 2 ^ 21 else 65536
  let lo := va / size * size
  recHasAsid r a && (bitsOf c 15 1 == 1 || (a == bitsOf c 0 13 && (bitsOf c 13 1 == 1 || overlaps lo (lo + size) b n)))
/-- It completes once no home still holds a translation of a split's route-area words that it covers (R320). -/
def State.tlbDone (s : State) (x id : Nat) : State :=
  match (s.tile x).op id with
  | some o =>
    let tn := s.tenantOf x
    let r := s.tenantRec tn
    let held := s.homes.any fun h => match h.2.splitSrc with
      | some sp => sp.phys.isSome && sp.tenant == tn && tlbCovers r o.prog o.arg (recAfirst r) (recRoute r + 16 * sp.req.space) 16
      | none => false
    if o.kind = .tlbinv ∧ !held then s.endOp x o 0 else s
  | none => s

/-! Bundle fills (R17 to R19, R268). -/
/-- Applies `f` to every resident thread that waits to fetch from a line. -/
def Tile.fetchers (t : Tile) (line : Nat) (f : Thread → Thread) : Tile :=
  { t with slots := t.slots.map fun (q : Slot) => { q with thr := q.thr.map fun th => if th.pc / 64 = line ∧ th.pc % 8 = 0 then f th else th } }
/-- The Running threads that wait to fetch from a line park on the pager, a progress point of each (R378). -/
def Tile.awaitLine (t : Tile) (line now : Nat) : Tile :=
  { t with slots := t.slots.map fun (q : Slot) => match q.thr with
      | some th => if th.pc / 64 = line ∧ th.pc % 8 = 0 ∧ th.wait = .none then { q with wdogCount := 0, thr := some { th with wait := .pager line, outSince := now } } else q
      | none => q }
/-- The next issue of the threads at a line raises BOUNDS. -/
def Thread.refuseFetch (th : Thread) : Thread :=
  if th.wait = .pager (th.pc / 64) then { th.wakeUp with fetchFault := some th.pc } else { th with fetchFault := some th.pc }
def Tile.refuseLine (t : Tile) (line : Nat) : Tile :=
  let f := fun (e : Spilled) => if e.thr.wait = .pager line then { e with thr := e.thr.refuseFetch } else e
  ({ t.fetchers line Thread.refuseFetch with spills := t.spills.map f }).ageSpills
/-- Puts a line of an ASID into the bundle cache of 512 lines, the oldest leaving first (log 6). -/
def Tile.cacheLine (t : Tile) (asid line : Nat) (ws : List W64) : Tile :=
  let c := t.icache.filter fun l => !(l.1 == asid && l.2.1 == line)
  { t with icache := (if c.length < Config.cacheLines then c else c.drop (c.length + 1 - Config.cacheLines)) ++ [(asid, line, ws)] }
/-- Threads that waited on the pager for a line return to the rotation. -/
def Tile.wakeLine (t : Tile) (line : Nat) : Tile :=
  let f : Thread → Thread := fun th => if th.wait = .pager line then th.wakeUp else th
  let t : Tile := { t with slots := t.slots.map fun (q : Slot) => { q with thr := q.thr.map f }, spills := t.spills.map fun (e : Spilled) => { e with thr := f e.thr } }
  t.ageSpills
/-- Fetches a 64-byte line into a tile's bundle cache under the ASID of its issue (R268), or makes the fetch fault (R19). A line with an uncorrectable
error is treated as a refused fetch (log 23). -/
def State.fetchLine (s : State) (x line asid : Nat) : State :=
  let va := line * 64
  let tn := s.tenantOf x
  let refuse (s : State) : State := s.modTile x fun t => t.refuseLine line
  if !s.inFrozen tn va 64 then refuse s
  else match s.xlate (dieOf x) tn asid va pX with
    | (.ok p _, s) =>
      if s.badLine p 64 then refuse s
      else
        let bs := s.dram.bytes p 64
        s.modTile x fun t => (t.cacheLine asid line ((List.range 8).map (wordAt bs))).wakeLine line
    | (.refused, s) => refuse s
    | (.fault, s) => match s.pageFault (.tile x) tn asid va 2 (.fetch line asid) with
      | (s, true) => s.modTile x fun t => t.awaitLine line (s.cycleOf x)
      | (s, false) => refuse s
/-- Some resident thread is Running at a bundle of the line, which is absent. -/
def Tile.wantsLine (t : Tile) (line : Nat) : Bool :=
  (t.bundleAt (line * 64)).isNone && t.slots.toList.any fun q => match q.thr with
    | some th => th.running && th.pc / 64 == line && th.pc % 8 == 0 && th.fetchFault != some th.pc
    | none => false
def State.bundleFill (s : State) (x va : Nat) : State :=
  let t := s.tile x
  if s.service ≠ .full ∨ t.tenant.isNone ∨ !t.wantsLine (va / 64) then s else s.fetchLine x (va / 64) t.asid

/-! The copy agent for other packages (R335, R336). -/
/-- Why an access is a violation (R336): cause 1 grant not valid, 2 stale handle, 3 outside the region, 4 write to a frozen region; with
the first failing region address. -/
def State.violation (s : State) (tn : Nat) (c : RemoteCopy) : Option (Nat × Nat) :=
  match s.regionWords tn (tokRegion c.token) with
  | none => some (if tokKind c.token = 0 then 1 else 2, c.va)
  | some (_, w0, w1) =>
    let mine := tokPkg c.token == s.pkg.toNat && tokTenant c.token == tn && rgGen w1 == tokGen c.token
    if mine && c.write && rgState w1 == 2 then some (4, c.va)
    else if tokKind c.token = 0 && !(mine && rgState w1 == 1) then some (1, c.va)
    else if tokKind c.token ≠ 0 && !(mine && rgState w1 == 2 && tokKind c.token == 1) then some (2, c.va)
    else if c.va < rgBase w0 then some (3, c.va)
    else if c.va + c.len > rgBase w0 + rgSize w1 then some (3, max c.va (rgBase w0 + rgSize w1))
    else none
/-- Reports a violation at the target: a tuple in its tenant's error space and its error vector (R336). -/
def State.reportViolation (s : State) (h tn : Nat) (c : RemoteCopy) (cause va : Nat) : State := s.reportRemote h tn c.tile c.token cause va
/-- Writes whole blocks from offset `p`: how many bytes went in, and the status, or that a page is unmapped. -/
def State.remoteWrite (s : State) (d tn va n : Nat) (bs : List Byte) : Nat → Nat → Nat × Option Nat × State
  | 0, p => (p, some stOK, s)
  | f + 1, p =>
    match s.pieces d tn (s.afirst tn) (va + p) n pW 3 with
    | (some l, _, s) => (s.writePhys l ((bs.drop p).take n)).remoteWrite d tn va n bs f (p + n)
    | (none, true, s) => (p, none, s)
    | (none, false, s) => (p, some stBOUNDS, s)
/-- The die on which the traffic of an agent of another package is debited, its spire port's (R416). -/
def State.farDie (s : State) (who : Agent) (h : Nat) : Nat :=
  match who with
  | .peer c _ => peerPort (s.peer c) / 2
  | _ => h / 8
/-- Half picojoules of the DRAM lines that a remote copy debits when its blocks start to move (R416, R417). -/
def State.remoteCost (s : State) (tn : Nat) (c : RemoteCopy) : Nat :=
  if (s.violation tn c).isSome || s.service ≠ .full || (c.write && c.bytes.isEmpty) then 0 else 2000 * linesTouched c.va c.len
/-- Performs a remote copy from offset `p0`: 0 when its request, or its data, has arrived, later when a page has been mapped. The blocks before a
fault have moved by then, and those sent are on their way (R267, R335). A page fault is the target tenant's pager's, and the requester learns of the
wait. A refusal names the copy's first byte, its report the first failing address (R305, R336). In reduced service no region is served (R449). -/
def State.remoteCopyRun (s : State) (h : Nat) (a : Msg) (op : Nat) (c : RemoteCopy) (p0 : Nat) : State :=
  let tn := a.tenant
  let d := s.farDie a.src h
  let back := fun (s : State) (bs : List Byte) (st n : Nat) => s.send (.home h) a.src tn 0 (.remoteData op bs c.block st n)
  match s.violation tn c with
  | some (cause, va) => back (s.reportViolation h tn c cause va) [] stREMOTE c.va
  | none =>
    let wait := fun (s : State) (va acc p : Nat) => match s.pageFault (.home h) tn (s.afirst tn) va acc (.remote a p) with
      | (s, true) => s.send (.home h) a.src tn 0 (.reply op stPAGEWAIT 1 false)
      | (s, false) => back s [] stMISROUTE (c.va + p)
    if s.service ≠ .full then back s [] stNOSPACE c.va
    else if c.write then
      if c.bytes.isEmpty then s.send (.home h) a.src tn 0 (.reply op stOK 0 false)
      else match s.remoteWrite d tn c.va c.block c.bytes ((c.len - p0) / c.block) p0 with
        | (_, some 0, s) => back s [] stOK 0
        | (p, some st, s) => back s [] st (c.va + p)
        | (p, none, s) => wait s (c.va + p) 1 p
    else match s.readPages d tn (s.afirst tn) (c.va + p0) (c.len - p0) (c.len / 65536 + 3) with
      | (bs, none, s) => back s bs stOK p0
      | (bs, some st, s) =>
        let n := bs.length / c.block * c.block
        let s := if n = 0 then s else back s (bs.take n) stOK p0
        match st with
        | .page _ => wait s (c.va + p0 + n) 0 (p0 + n)
        | .refused => back s [] stBOUNDS (c.va + p0 + n)
        | .bad => back s [] stPARITY (c.va + p0 + n)
/-- `REMOTE_COPY_AGENT`'s work, once the reserve covers the copy's lines (R335, R416). -/
def State.remoteAgent (s : State) (m : Nat) : State :=
  match s.msg m with
  | some a => match a.dst, a.body with
    | .home h, .remoteCopy op c =>
      let cost := s.remoteCost a.tenant c
      let d := s.farDie a.src h
      if s.deliverable a && s.covers d cost then ((s.dropMsg m).debit d cost).remoteCopyRun h a op c 0 else s
    | _, _ => s
  | none => s
/-- Writes whole blocks of `b` bytes at offset `off` of a copy until one meets a stationary bank or an uncorrectable word that it writes in part; the
answer names the status and the offset of that block (R267, R306). -/
def State.landBlocks (s : State) (x : Nat) (o : TOp) (b : Nat) : Nat → Nat → List Byte → State × Option (Nat × Nat)
  | 0, _, _ => (s, none)
  | f + 1, off, bs =>
    let blk := bs.take b
    let a := o.desc.addr + off
    if ((s.tile x).statIn a blk.length).isSome then (s, some (stSTAT, off))
    else if (s.tile x).partBad a blk.length then (s, some (stPARITY, off))
    else (s.engineWrite x (some o.cid) a blk).landBlocks x o b f (off + b) (bs.drop b)
/-- Data of a remote copy at its requester: whole blocks at offset `off` (R332, R335). -/
def State.remoteLand (s : State) (x op off : Nat) (bs : List Byte) : State :=
  match (s.tile x).op op with
  | none => s
  | some o =>
    if o.kind ≠ .copyr || o.stage != .sent && o.stage != .pager then s
    else
      let b := copyBlock o.desc.fmt
      match s.landBlocks x o b (bs.length / b) off bs with
      | (s, some (st, p)) => s.endCopy x o st p
      | (s, none) =>
        let p := o.prog + bs.length
        if p = o.desc.plen then s.endCopy x o stOK p else s.modOp x op fun o => { o with prog := p }

/-! The events. -/
/-- `COPY_START` (R306). -/
def execCopyStart (tile : Nat) (op : Nat) (s : State) : Host.Outcome State Fault Refusal := s.event fun s => s.startCopy tile op
/-- `COPY_COMPLETE` (R305). -/
def execCopyComplete (tile : Nat) (op : Nat) (s : State) : Host.Outcome State Fault Refusal := s.event fun s => s.completeCopy tile op
/-- `FREEZE_EFFECT` (R309). -/
def execFreezeEffect (tile : Nat) (op : Nat) (s : State) : Host.Outcome State Fault Refusal := s.event fun s => s.freezeNow tile op
/-- `TLBINV_COMPLETE` (R423). -/
def execTlbinvComplete (tile : Nat) (op : Nat) (s : State) : Host.Outcome State Fault Refusal := s.event fun s => s.tlbDone tile op
/-- `REMOTE_COPY_AGENT` (R335). -/
def execRemoteCopyAgent (m : Nat) (s : State) : Host.Outcome State Fault Refusal := s.event fun s => s.remoteAgent m

end Sys2Proof.Machine
end

