-- ==== Sys2Proof/Machine/Speculation.lean ====
section
/-! DEFINITION. Barrier release, commit and rollback, and the events that end a thread's waits (11_sync.md R344 to R356; 06_associative.md R208;
09_tuple_instr.md R304, R312; 12_tasks.md R384, R392; 13_system.md R402, R425). -/
namespace Sys2Proof.Machine

/-- Runs `f` with slot `q` of tile `x` as the issuing one. -/
def State.within (s : State) (x q : Nat) (f : State → State) : State := { f { s with cur := (x, q) } with cur := s.cur }
/-! Commit (R355). -/
/-- The pieces in which a buffered line drains: whole words, else single bytes. -/
def linePieces (l : BufLine) : List (Nat × Nat × Nat) :=
  (List.range 8).flatMap fun w =>
    let b := fun (i : Nat) => (l.bytes.find (8 * w + i)).map BitVec.toNat
    if (List.range 8).all fun i => (b i).isSome then
      [(l.line * 64 + 8 * w, 8, natOfBytes ((List.range 8).map fun i => (l.bytes.find (8 * w + i)).getD 0))]
    else (List.range 8).filterMap fun i => (b i).map fun v => (l.line * 64 + 8 * w + i, 1, v)
/-- The drain of a slot that commits on entry `e`: it rolls back with cause 7 a thread of a slot that awaits its commit on that entry and
has read one of its lines (R351). -/
def Tile.drainConflict (t : Tile) (q e : Nat) (ls : List Nat) : Tile :=
  (List.range 8).foldl (fun t r =>
    match (t.slot r).thr with
    | some th => match th.spec with
      | some sp =>
        if r ≠ q ∧ sp.entry = e ∧ th.speculative ∧ ls.any (fun l => sp.reads.contains l) then t.setSlot r { t.slot r with thr := some (th.rollback 7) } else t
      | none => t
    | none => t) t
/-- The cycle in which the drains under way on a tile have ended. -/
def Tile.drained (t : Tile) (now : Nat) : Nat :=
  t.slots.toList.foldl (fun n q => match q.thr.bind Thread.spec with
    | some sp => if sp.st = .committing then max n sp.drainEnd else n
    | none => n) now
/-- The reads of this thread that are still to be performed in this package enter no watch any more: they are ordinary reads (R311, R355; log 38). -/
def State.plainReads (s : State) (x cid : Nat) : State :=
  let s := s.modTile x fun t => { t with ops := t.ops.map fun (o : TOp) => if o.cid = cid then { o with spec := false } else o }
  { s with net := s.net.map fun (m : Msg) => match m.body with
      | .get op g =>
        if m.src = .tile x ∧ g.cid = cid ∧ (g.form = .specP ∨ g.form = .specB) then
          { m with body := .get op { g with form := if g.form = .specP then .polling else .blocking } }
        else m
      | _ => m }
/-- Operation `op` of a tile is a speculative read that no home has performed and that is not on its way to another package. -/
def State.unperformed (s : State) (x op : Nat) : Bool :=
  (s.tile x).ops.any (fun o => o.id == op && o.stage == .queued) ||
    s.net.any fun (m : Msg) => m.src == .tile x && (match m.body with
      | .get p g => p == op && g.form == .specB
      | _ => false)
/-- The V half that a speculative `READ.B` has kept back takes effect once the read has matched: the operation is no longer outstanding (R311). -/
def State.runHeld (s : State) (x q : Nat) : State :=
  match s.thr x q with
  | some th => match th.vheld with
    | some (op, _) => if th.outs.contains op then s else s.enterHeld x q
    | none => s
  | none => s
/-- A slot begins to commit: its buffered lines drain in order of first use, as accesses of its thread, one line in each cycle from the end of the
drains before it (R355 step 1). Since every other access to those lines waits for the end of the drain, the lines are written at once (log 12). Bytes
for a bank that has become stationary meanwhile are dropped (R137, R235; log 12). A `READ.B` that no home has performed yet is an ordinary read from
now on, so the V half beside it takes effect (log 38). -/
def State.commit (s : State) (x q : Nat) : State :=
  let s := s.runHeld x q
  let s := if ((s.thr x q).bind Thread.vheld).any fun h => s.unperformed x h.1 then s.enterHeld x q else s
  match s.thr x q with
  | some th => match th.spec with
    | some sp =>
      let lines := sp.buf.map BufLine.line
      let stop := (s.tile x).drained (s.cycleOf x) + lines.length
      let s := s.modTile x fun t => t.drainConflict q sp.entry lines
      let s := sp.buf.foldl (fun s l => (linePieces l).foldl (fun s p => if (s.tile x).stat (bankOf p.1) then s else s.store x (some th.cid) p.1 p.2.1 p.2.2) s) s
      (s.modThr x q fun th => { th with spec := some { sp with st := .committing, drainEnd := stop, buf := [], reads := (sp.reads ++ lines).eraseDups } }).plainReads x th.cid
    | none => s
  | none => s
/-- The window exchanges the descriptors of the written primaries with those of their shadows (R208), in the order in which they were first written, which
matters where shadows are shared (DESIGN CHOICE, log 75). -/
def Window.exchange (w : Window) (sp : Spec) : Window :=
  sp.written.eraseDups.foldl (fun w n => match shadowOf sp.fld n with
    | some m =>
      let a := w.fds[n]?.getD {}
      let b := w.fds[m]?.getD {}
      { w with fds := (w.fds.setIfInBounds n b).setIfInBounds m a }
    | none => w) { w with ckpt := none }
/-- A watch of a window of a thread's. -/
def isWatchOf (x cid no : Nat) (w : Watch) : Bool := w.kind == .spec && w.who == .tile x && w.get.cid == cid && w.get.win == no
/-- The homes remove the watches of a thread's window (R311, R354, R355): those of this package in this same event, also where a range of theirs has
moved; homes of other packages are told, directly or through a home whose range has moved there. -/
def State.unwatch (s : State) (x : Nat) (cid : Nat) (sp : Spec) : State :=
  let tn := s.tenantOf x
  let mine := isWatchOf x cid sp.no
  let s := s.homes.foldl (fun s e => (e.2.watches.filter mine).foldl (fun s w => s.dropWatch e.1 w.place) s) s
  let s := { s with net := s.net.map fun (m : Msg) => match m.body with
    | .splitMark cells specs => { m with body := .splitMark cells (specs.filter fun w => !mine w) }
    | _ => m }
  let tell := fun (s : State) (a : Agent) => s.post ⟨0, .tile x, a, tn, (s.tile x).asid, 0, 0, false, .unwatch cid, none⟩
  sp.watches.foldl (fun s a => match a with
    | .peer _ _ => tell s a
    | .home h => ((s.home h).forwards.filter fun f => f.tenant == tn).foldl (fun s f => match s.homeAgent (h / 8) tn f.target.toNat with
      | some (.peer c w) => tell s (.peer c w)
      | _ => s) s
    | _ => s) s
/-- A deferred put issues as an ordinary put (R312); a `PUT.G` whose grant has left the table meanwhile ends with GRANT (log 24). -/
def State.deferredPut (s : State) (o : TOp) : State :=
  let id := s.nextId
  let lost := o.kind == .putG && !s.ctile.hasGrant o.desc.token && !s.mintable o.desc.token
  let s := if o.kind = .putG && !lost then s.giveGrant s.tx o.desc.token else s
  let s := s.request o
  if lost then match s.ctile.op id with
    | some o => s.endWith s.tx o stGRANT
    | none => s
  else s
/-- The suspension that waited for a window's end (R354, R386). -/
def Thread.lateSuspend (t : Thread) (sp : Spec) (now : Nat) : Thread := if sp.susp then { t with susp := true, pin := sp.pin, outSince := now } else t
/-- Steps 2 to 5 of R355, once a speculative `READ.B` has ended, the window has finished what was queued and the request queue has room for the
deferred puts. -/
def State.endCommit (s : State) (x q : Nat) : State :=
  match s.thr x q with
  | none => s
  | some th => match th.spec with
    | none => s
    | some sp =>
      let w := (s.tile x).win th.win
      if sp.st ≠ .committing || s.cycleOf x < sp.drainEnd || th.vheld.isSome || (th.compute && !(w.queue.isEmpty && w.busy.isNone)) || (s.tile x).queued + sp.puts.length > Config.requestQueue then s
      else
        let s := if th.compute then s.modTile x fun t => t.setWin th.win (w.exchange sp) else s
        let s := s.unwatch x th.cid sp
        let s := s.modThr x q fun th => { th with spec := none, cmt := min (th.cmt + 1) 255 }
        let s := s.within x q fun s => sp.puts.foldl (fun s o => s.deferredPut o) s
        s.modThr x q fun th => (if th.wait = .spec then { th with wait := .none } else th).lateSuspend sp (s.cycleOf x)

/-! Rollback (R354, R208, R312). -/
/-- Restores `t1` to `t7` from the tag checkpoint (R208). -/
def Window.restoreTags (w : Window) : Window :=
  match w.ckpt with
  | none => w
  | some ck =>
    let rows := (w.rows.map fun e => (e.1, e.2 &&& BitVec.ofNat 264 (2 ^ 256 - 1))).filter fun e => e.2 != 0
    { w with ckpt := none, rows := ck.foldl (fun m e =>
        let r : Row := (m.at 0 e.1) ||| ((e.2.zeroExtend 264 : Row) <<< 256)
        if r = 0 then m.del e.1 else m.put e.1 r) rows }
/-- The registers of R348 as the checkpoint holds them, at the bundle after `BARR`. -/
def Thread.restore (t : Thread) (sp : Spec) : Thread :=
  { t with g := sp.g, p := sp.p, round := sp.round, fmtA := sp.fmtA, fmtW := sp.fmtW, scaleA := sp.scaleA, scaleW := sp.scaleW,
           sparse := sp.sparse, vl := if t.compute then sp.vl else t.vl, specarea := sp.area.truncate 41, specfld := sp.fld,
           pc := sp.resume, mark := false, feTried := false, vheld := none }
/-- A discarded put's completion word (R312). -/
def State.abortPut (s : State) (x : Nat) (o : TOp) (cid : Nat) : State :=
  if hasWord o && !(s.tile x).stat (bankOf o.desc.cw) then s.complete x (some cid) o.desc.cw o.desc.ctag stABORTED else s
/-- Rollback, once the thread's outstanding counter is zero, the V half beside its last `READ.B` has been entered and its window has finished every
queued operation (R208, R354). -/
def State.rollBack (s : State) (x q : Nat) : State :=
  match s.thr x q with
  | none => s
  | some th => match th.spec with
    | none => s
    | some sp =>
      let w := (s.tile x).win th.win
      if sp.st ≠ .rolling || !th.outs.isEmpty || th.vheld.isSome || (th.compute && !(w.queue.isEmpty && w.busy.isNone)) then s
      else
        let s := sp.puts.foldl (fun s o => s.abortPut x o th.cid) s
        let s := if th.compute then s.modTile x fun t => t.setWin th.win { w.restoreTags with fds := sp.fds } else s
        let s := s.unwatch x th.cid sp
        let released := !((s.tile x).bar sp.entry).arr.getLsbD q
        s.modThr x q fun th =>
          let th := { th.restore sp with specCause := BitVec.ofNat 4 sp.cause, rbk := min (th.rbk + 1) 255 }
          let th := if released then { th with spec := none, wait := .none }
            else { th with spec := some { sp with st := .rolledBack, buf := [], puts := [], reads := [], watches := [], holds := [], written := [] },
                           wait := .release sp.entry, outSince := s.cycleOf x }
          th.lateSuspend sp (s.cycleOf x)

/-! Release (R346). -/
/-- Returns a thread parked at `BARW` on the entry, or rolled back on it, to Running at the start of the next cycle. -/
def Thread.released (t : Thread) (e now : Nat) : Thread :=
  if t.wait = .release e then { t.wakeUp with spec := none, readyAt := max t.readyAt (now + 1) } else t
/-- The tile's processing of a release notice. -/
def State.releaseOn (s : State) (x e phase : Nat) : State :=
  let now := s.cycleOf x
  let specOn := fun (s : State) (q : Nat) => match s.thr x q with
    | some th => th.speculative && (match th.spec with
      | some sp => sp.entry == e
      | none => false)
    | none => false
  let s := (List.range 8).foldl (fun s q => if specOn s q then s.commit x q else s) s
  let s := s.imaged x fun s => s.modTile x fun t =>
    let t : Tile := { t with slots := t.slots.map fun (q : Slot) => { q with thr := q.thr.map fun th => th.released e now },
                             spills := t.spills.map fun (v : Spilled) => { v with thr := v.thr.released e now } }
    (t.setBar e { t.bar e with arr := 0, sarr := [], sent := false, phase := phase }).ageSpills
  s.arrivals x
/-- Phase number `p` comes before `q`. -/
def phaseBefore (p q : Nat) : Bool := p != q && (q + 2 ^ 32 - p) % 2 ^ 32 < 2 ^ 31
/-- A notice of an earlier phase for the same tile and handle is still on its way, on the networks or, since the entry's next phase is not yet this one,
elsewhere: the notices of one entry are processed in phase order (R346; log 69). -/
def State.earlierRelease (s : State) (a : Msg) (h : W64) (phase : Nat) : Bool :=
  (s.net.any fun m => m.dst == a.dst && match m.body with
    | .release k p => k == h && phaseBefore p phase
    | _ => false) ||
  match a.dst with
  | .tile x => match (s.tile x).barOf h with
    | some e => ((s.tile x).bar e).pending.isEmpty && phaseBefore ((((s.tile x).bar e).phase + 1) % 2 ^ 32) phase
    | none => false
  | _ => false
def State.releaseAt (s : State) (m : Nat) : State :=
  match s.msg m with
  | some a => match a.dst, a.body with
    | .tile x, .release h phase =>
      if !s.deliverable a || s.earlierRelease a h phase then s
      else
        let s := s.dropMsg m
        match (s.tile x).barOf h with
        | some e => if (s.tile x).tenant = some a.tenant then s.releaseOn x e phase else s
        | none => s
    | _, _ => s
  | none => s
/-- A notification of a speculation watch (R351, cause 2); one that comes after its window has ended finds nothing. -/
def State.notifyAt (s : State) (m : Nat) : State :=
  match s.msg m with
  | some a => match a.dst, a.body with
    | .tile x, .notify cid win _ =>
      if s.deliverable a then
        (((s.dropMsg m).modCid x cid fun th => if th.spec.map Spec.no = some win then th.rollback 2 else th).noteBack a).releaseFar
      else s
    | _, _ => s
  | none => s

/-! Watchdog, timer, sleep (R365, R392, R402). -/
/-- A pending WATCHDOG or TIMER cause is taken at the thread's next issue. -/
def State.pendingTaken (s : State) (x q : Nat) : State :=
  match s.thr x q with
  | some th => if th.running ∧ (th.pwdg.isSome ∨ th.ptim.isSome) then s.within x q State.takePending else s
  | none => s
/-- The slot's count has reached a nonzero limit. -/
def State.watchdog (s : State) (x q : Nat) : State :=
  let sl := s.slot x q
  if sl.wdogLimit ≠ 0 ∧ sl.wdogCount.toNat ≥ sl.wdogLimit.toNat ∧ sl.thr.isSome then
    (s.setSlot x q { sl with wdogCount := 0 }).modThr x q fun th => { th with pwdg := some (sl.wdogLimit.zeroExtend 64) }
  else s
def State.timerFire (s : State) (x : Nat) : State :=
  let t := s.tile x
  let c := t.timecmp
  if c = 0 ∨ s.cycleOf x < c.toNat then s
  else
    let s := s.setTile x { t with timecmp := 0 }
    match s.thr x t.timSlot.toNat with
    | some th => (s.modThr x t.timSlot.toNat fun th => { th with ptim := some c }).wakeBit x th.cid
    | none => s
def State.sleepExpire (s : State) (x cid : Nat) : State :=
  match (s.tile x).thread cid with
  | some th => match th.wait with
    | .sleep _ (some due) => if due ≤ s.cycleOf x then s.endSleep x cid 0 else s
    | _ => s
  | none => s

/-- `PENDING_TRAP_TAKEN` (R59). -/
def execPendingTrapTaken (tile : Nat) (slot : Nat) (s : State) : Host.Outcome State Fault Refusal := s.event fun s => s.pendingTaken tile slot
/-- `WATCHDOG_EXPIRY` (R402). -/
def execWatchdogExpiry (tile : Nat) (slot : Nat) (s : State) : Host.Outcome State Fault Refusal := s.event fun s => s.watchdog tile slot
/-- `TIMER_FIRE` (R392). -/
def execTimerFire (tile : Nat) (s : State) : Host.Outcome State Fault Refusal := s.event fun s => s.timerFire tile
/-- `SLEEP_TIMEOUT` (R365). -/
def execSleepTimeout (tile : Nat) (cid : Nat) (s : State) : Host.Outcome State Fault Refusal := s.event fun s => s.sleepExpire tile cid
/-- `WATCH_NOTIFY` (R351). -/
def execWatchNotify (m : Nat) (s : State) : Host.Outcome State Fault Refusal := s.event fun s => s.notifyAt m
/-- `SPEC_ROLLBACK` (R354). -/
def execSpecRollback (tile : Nat) (slot : Nat) (s : State) : Host.Outcome State Fault Refusal := s.event fun s => s.rollBack tile slot
/-- `RELEASE_NOTICE` (R346). -/
def execReleaseNotice (m : Nat) (s : State) : Host.Outcome State Fault Refusal := s.event fun s => s.releaseAt m
/-- `COMMIT_DRAIN_END` (R355). -/
def execCommitDrainEnd (tile : Nat) (slot : Nat) (s : State) : Host.Outcome State Fault Refusal := s.event fun s => s.endCommit tile slot
/-- `BARRIER_ARRIVAL` (R345). -/
def execBarrierArrival (tile : Nat) (cid : Nat) (s : State) : Host.Outcome State Fault Refusal := s.event fun s => s.tryArrive tile cid
/-- `TFENCE_COMPLETE` (R304). -/
def execTfenceComplete (tile : Nat) (cid : Nat) (s : State) : Host.Outcome State Fault Refusal := s.event fun s => s.tryTfence tile cid
/-- `FENCE_COMPLETE` (R363). -/
def execFenceComplete (tile : Nat) (cid : Nat) (s : State) : Host.Outcome State Fault Refusal := s.event fun s => s.tryFence tile cid
/-- `EXIT_COMPLETE` (R384). -/
def execExitComplete (tile : Nat) (cid : Nat) (s : State) : Host.Outcome State Fault Refusal := s.event fun s => s.tryExit tile cid
/-- `NOTIFY_SEND` (R425). -/
def execNotifySend (tile : Nat) (cid : Nat) (s : State) : Host.Outcome State Fault Refusal := s.event fun s => s.tryNotify tile cid

end Sys2Proof.Machine
end

