-- ==== Sys2Proof/Machine/Sched.lean ====
section
/-! DEFINITION. Binding, spill and refill, fills, and the energy refill (12_tasks.md R374 to R377; 13_system.md R403 to R408, R416; 01_machine.md R18,
R33, R35). -/
namespace Sys2Proof.Machine

/-! Binding (R33, R375, R376). -/
/-- An entry that may bind: a packet, or a spilled context that is a refill candidate. -/
inductive Cand where
  | packet (r : Ready)
  | refill (e : Spilled) (seq : Nat)
  deriving DecidableEq, Repr
def Cand.prio : Cand → Nat
  | .packet r => pktPrio r.words
  | .refill e _ => e.thr.prio.toNat
def Cand.compute : Cand → Bool
  | .packet r => pktCompute r.words
  | .refill e _ => e.thr.compute
/-- The order of R376: by the cycle in which each has come, a refill candidate before a packet of the same cycle (R375). -/
def Cand.before (a b : Cand) : Bool :=
  let age : Cand → Nat × Nat := fun c => match c with
    | .packet r => (2 * r.at_ + 1, r.seq)
    | .refill _ n => (2 * n, 0)
  a.prio > b.prio || (a.prio == b.prio && ((age a).1 < (age b).1 || ((age a).1 == (age b).1 && (age a).2 < (age b).2)))
def Tile.cands (t : Tile) : List Cand :=
  t.ready.map Cand.packet ++ t.spills.filterMap fun e => e.ready.map fun n => Cand.refill e n
def firstCand (l : List Cand) : Option Cand :=
  l.foldl (fun b c => match b with
    | none => some c
    | some q => if c.before q then some c else some q) none
def Tile.bindable (t : Tile) (c : Cand) : Bool := t.freeSlot.isSome && (!c.compute || t.freeWin.isSome)
/-- A candidate that may bind in the present cycle: no window is bound while a patch is taken (R444), and a refill waits until the reserve covers its
image (R416), so that it keeps back no other candidate (R33). -/
def State.bindable (s : State) (x : Nat) (c : Cand) : Bool :=
  let t := s.tile x
  t.bindable c && !(c.compute && s.swapping x) &&
    match c with
    | .packet _ => true
    | .refill e _ => s.covers (dieOf x) (s.imageCost x e.thr e.place e.cplace)
/-- The bytes of a control part as words. -/
def imageWords (bs : List Byte) : List W64 := (List.range (bs.length / 8)).map (wordAt bs)
/-- A spilled context as both parts of its image give it (R405 to R407). -/
def Spilled.fromImage (e : Spilled) (ctl cmp : List Byte) : Spilled :=
  let ws := imageWords ctl
  let th := e.thr.fromImage ws
  let bits := fun (i lo : Nat) => (List.range 16).filter fun b => (ws.getD i 0).getLsbD (lo + b)
  let e := { e with thr := th, breg := bits 0 8, barr := bits 33 48 }
  if !e.thr.compute then e
  else
    let w := fun (off : Nat) => BitVec.ofNat 64 (natOfBytes ((cmp.drop off).take 8))
    let row := fun (r : Nat) => (cmp.drop (0x600 + 33 * r)).take 33
    let tags := fun (r : Nat) => ((row r).getD 32 0).toNat
    { e with
      thr := { th with vl := (w 0x500).toNat, specfld := w 0x508, werr := (w 0x510).truncate 32 }
      fds := Vector.ofFn fun (i : Fin 32) => ⟨bitsOf (w (8 * i.val)) 0 8, bitsOf (w (8 * i.val)) 8 9⟩
      ucode := Vector.ofFn fun (i : Fin 128) => w (0x100 + 8 * i.val)
      rows := (List.range 4096).filterMap fun r =>
        let v : Row := BitVec.ofNat 264 (natOfBytes ((row r).take 32) + tags r / 2 * 2 * 2 ^ 256)
        if v = 0 then none else some (r, v)
      badPar := (List.range 4096).filter fun r => tags r % 2 == 1 }
/-- An abandoned spill or refill: the notice of R401 with `k3` 2 and the faulting address (R408); an unmapped page puts its fault tuple too
(R269). -/
def State.abandonSpill (s : State) (x : Nat) (th : Thread) (va : Nat) (page : Bool) (acc : Nat) : State :=
  let tn := s.tenantOf x
  let key := keyOf [0x5FFFE, (s.tileName x).toNat, th.cid, 2, va % 2 ^ 32, th.pc % 2 ^ 32, th.pc / 2 ^ 32 % 2 ^ 16, 0]
  let s := (s.notice (.tile x) tn key []).raiseError tn
  if page then (s.pageFault (.tile x) tn (s.afirst tn) va acc .spill).1 else s
/-- Binds a refill candidate: its context returns to a slot, and a compute context to a window, with the barrier bits of its image (R343, R405). -/
def Tile.refill (t : Tile) (e : Spilled) (q : Nat) : Tile :=
  let th := e.thr
  let w := (t.freeWin).getD 0
  let th := { th with win := if th.compute then w else 0, ecost := 0, issOwn := 0, issLent := 0, parked := 0, passes := 0, requests := 0, stalls := 0 }
  let t := if th.compute then
      t.setWin w { t.win w with owner := some th.cid, rows := e.rows, fds := e.fds, ucode := e.ucode, ckpt := none,
                                badPar := e.badPar.flatMap fun r => (List.range 9).map fun g => (r, g) }
    else t
  let t := (List.range 16).foldl (fun t b =>
    let v := t.bar b
    t.setBar b { v with sreg := v.sreg.filter (· != th.cid), sarr := v.sarr.filter (· != th.cid)
                        reg := if e.breg.contains b then v.reg ||| bit8 q else v.reg, arr := if e.barr.contains b then v.arr ||| bit8 q else v.arr }) t
  let t := t.setSlot q { t.slot q with wdogCount := 0, thr := some th }
  { t with spills := t.spills.filter fun v => v.thr.cid != th.cid, refilling := t.refilling ++ [th.cid] }
/-- The tile's one binding at the end of a cycle (R376). A refill reads its image back (R405), once the reserve covers its lines (R416); one whose
image cannot be read is abandoned (R408). -/
def State.bindOne (s : State) (x : Nat) : State :=
  let t := s.tile x
  if t.bound then s
  else match firstCand (t.cands.filter (s.bindable x)), t.freeSlot with
    | some (.packet r), some q =>
      let now := s.cycleOf x
      s.setTile x (({ (t.bind r.words q now (recWdog (s.curTenantRec x))) with ready := t.ready.filter (· != r), bound := true }).unyield r.seq)
    | some (.refill e _), some q =>
      let cost := s.imageCost x e.thr e.place e.cplace
      if !s.covers (dieOf x) cost then s
      else
        let (im, s) := s.imagePieces x e.thr e.place e.cplace pR
        let s := s.modTile x fun t => { t with bound := true }
        match im with
        | .ok (l, m) => (s.debit (dieOf x) cost).modTile x fun t => t.refill (e.fromImage (s.readPhys l) (s.readPhys m)) q
        | .error (va, page) => s.abandonSpill x e.thr va page 0
    | _, _ => s
/-- A refilled context's image has arrived: it is ready eight cycles later (R405). -/
def State.refillArrived (s : State) (x cid : Nat) : State :=
  if (s.tile x).refilling.contains cid then
    (s.modTile x fun t => { t with refilling := t.refilling.filter (· != cid) }).modCid x cid fun th => { th with readyAt := s.cycleOf x + 8 }
  else s

/-! Spilling (R403, R404, R406 to R408). -/
/-- The compute part (R407). -/
def computeImage (t : Thread) (w : Window) : List Byte :=
  (w.fds.toList.flatMap fun f => bytesOfNat 8 f.word.toNat) ++ (w.ucode.toList.flatMap fun u => bytesOfNat 8 u.toNat) ++
  bytesOfNat 8 t.vl ++ bytesOfNat 8 t.specfld.toNat ++ bytesOfNat 8 t.werr.toNat ++ bytesOfNat 0xE8 0 ++
  (List.range 4096).flatMap fun r =>
    let v := w.rows.at 0 r
    bytesOfNat 32 (v.toNat % 2 ^ 256) ++ bytesOfNat 1 (v.toNat / 2 ^ 256 / 2 * 2 + (if w.badPar.any fun p => p.1 == r then 1 else 0))
/-- The packet that would bind next, when nothing can bind (R403). -/
def Tile.wantsRoom (t : Tile) : Option Ready :=
  if t.cands.any t.bindable then none
  else t.ready.foldl (fun b r => match b with
    | none => some r
    | some q => if r.before q then some r else some q) none
/-- Compute places in use. -/
def Tile.cplaces (t : Tile) : List Nat := (t.spills.filter fun e => e.thr.compute).map Spilled.cplace
/-- The thread's window is being rolled back or committed. -/
def Thread.ending (t : Thread) : Bool := match t.spec with
  | some sp => sp.st == .rolling || sp.st == .committing
  | none => false
/-- A context that may be a victim for a packet (R403, R408). -/
def Tile.victimOk (t : Tile) (r : Ready) (th : Thread) : Bool :=
  (th.susp || th.wait != .none) && !th.pin && th.prio.toNat ≤ pktPrio r.words && (!pktCompute r.words || th.compute) && !th.spillBan &&
  (!th.compute || t.cplaces.length < Config.computePlaces) && !t.refilling.contains th.cid && !th.ending
/-- Non-speculative before speculative, lowest priority, longest out of the rotation, lowest slot (R403). -/
def victimBefore (a b : Thread) : Bool :=
  let k := fun (t : Thread) => (if t.speculative then 1 else 0, t.prio.toNat, t.outSince)
  let x := k a
  let y := k b
  x.1 < y.1 || (x.1 == y.1 && (x.2.1 < y.2.1 || (x.2.1 == y.2.1 && x.2.2 < y.2.2)))
def Tile.victim (t : Tile) (r : Ready) : Option Thread :=
  (t.slots.toList.filterMap Slot.thr).foldl (fun b th =>
    if !t.victimOk r th then b
    else match b with
      | none => some th
      | some v => if victimBefore th v then some th else b) none
/-- The spill engine picks a victim and begins; a speculative victim rolls back first (R351, R403). -/
def State.spillStart (s : State) (x : Nat) : State :=
  let t := s.tile x
  if t.spilling.isSome || t.spills.length ≥ Config.spillPlaces then s
  else match t.wantsRoom with
    | none => s
    | some r => match t.victim r with
      | none => s
      | some th =>
        if th.speculative then s.modCid x th.cid fun th => th.rollback 4
        else s.setTile x { t with spilling := some th.cid }
/-- The lowest number that a list does not hold. -/
def lowestFree (l : List Nat) : Nat := ((List.range (l.length + 1)).find? fun i => !l.contains i).getD 0
/-- The spill ends: the image stands in the spill area, the slot is free, the table records the context (R343, R404). -/
def Tile.spillOut (t : Tile) (q : Nat) (th : Thread) (place cplace : Nat) : Tile :=
  let w := t.win th.win
  let on := fun (f : BarEntry → BitVec 8) => (List.range 16).filter fun e => (f (t.bar e)).getLsbD q
  let th' := if (match th.wait with
    | .yielded _ => true
    | _ => false) then { th with wait := .none } else th
  let rec_ : Spilled := ⟨th', if th.compute then w.rows else [], if th.compute then w.fds else Vector.replicate 32 {}, if th.compute then w.ucode else Vector.replicate 128 0,
    if th.compute then (w.badPar.map Prod.fst).eraseDups else [], on BarEntry.reg, on BarEntry.arr, place, cplace, none⟩
  let t := (List.range 16).foldl (fun t e =>
    let v := t.bar e
    let m : BitVec 8 := ~~~(bit8 q)
    t.setBar e { v with reg := v.reg &&& m, arr := v.arr &&& m, sreg := if v.reg.getLsbD q then v.sreg ++ [th.cid] else v.sreg,
                        sarr := if v.arr.getLsbD q then v.sarr ++ [th.cid] else v.sarr }) t
  let t := t.release q
  ({ t with spills := t.spills ++ [rec_], spilling := none }).ageSpills
/-- The image is written and the slot freed, once the victim's window has finished its queue and the reserve covers the lines; a victim that is
speculative by now rolls back first (R351, R404, R416). -/
def State.spillDone (s : State) (x : Nat) : State :=
  let t := s.tile x
  match t.spilling with
  | none => s
  | some cid => match t.slotOf cid with
    | none => s.setTile x { t with spilling := none }
    | some q => match (t.slot q).thr with
      | none => s
      | some th =>
        let w := t.win th.win
        let place := lowestFree (t.spills.map Spilled.place)
        let cplace := lowestFree t.cplaces
        let cost := s.imageCost x th place cplace
        if th.speculative then s.modCid x cid fun th => th.rollback 4
        else if th.ending || (th.compute && !(w.queue.isEmpty && w.busy.isNone)) || !s.covers (dieOf x) cost then s
        else
          let (im, s) := s.imagePieces x th place cplace pW
          match im with
          | .error (va, page) =>
            let s := s.modTile x fun t => { t with spilling := none }
            (s.abandonSpill x th va page 1).modCid x cid fun th => { th with spillBan := th.susp || th.wait != .none }
          | .ok (l, m) =>
            let on := fun (f : BarEntry → BitVec 8) => (List.range 16).filter fun e => (f (t.bar e)).getLsbD q
            let s := (s.debit (dieOf x) cost).writePhys l ((controlImage th (on BarEntry.reg) (on BarEntry.arr)).flatMap fun v => bytesOfNat 8 v.toNat)
            let s := if th.compute then s.writePhys m (computeImage th w) else s
            (s.modTile x fun t => t.spillOut q th place cplace).arrivals x

/-! The microcode patch of a roll-out (R444, R445). -/
/-- Tiles that hold the newest patch. -/
def State.patchedTiles (s : State) : Nat := if s.belfry.patchNo = 0 then Config.tiles else (s.tiles.filter fun e => e.1 < Config.tiles && e.2.patch == s.belfry.patchNo).length
/-- A roll-out ends; tiles not yet patched stay pending. -/
def State.endRollout (s : State) : State := if s.belfry.update = .rolling then s.modBelfry fun b => { b with update := .done } else s
def State.rolloutDone (s : State) : State :=
  if s.patchedTiles = Config.tiles ∧ s.dies.toList.all (fun d => d.launch.tables == s.belfry.patchNo) then s.endRollout else s
/-- A tile without a compute thread takes the newest patch; no window is bound in that cycle. -/
def State.tilePatch (s : State) (x : Nat) : State :=
  let t := s.tile x
  if x ≥ Config.tiles ∨ t.patch = s.belfry.patchNo ∨ t.hasCompute = true then s
  else (s.setTile x { t with patch := s.belfry.patchNo, swapped := true }).rolloutDone

/-- The die's share for a microsecond, up to the capacity (R416). -/
def State.energyRefill (s : State) (d : Nat) : State :=
  let v := s.die d
  if v.cycle.toNat < v.refillAt then s
  else s.setDie d { v with reserve := min Config.reserveCap (v.reserve + (v.share * 1000000 : Nat)), refillAt := v.refillAt + s.usCycles }

/-- `BUNDLE_FILL` (R18). -/
def execBundleFill (tile : Nat) (va : Nat) (s : State) : Host.Outcome State Fault Refusal := s.event fun s => s.bundleFill tile va
/-- `PACKET_BIND` (R376): after the issue of the tile's present cycle. -/
def execPacketBind (tile : Nat) (s : State) : Host.Outcome State Fault Refusal := s.event fun s => if (s.tile tile).acted then s.bindOne tile else s
/-- `REFILL_IMAGE_ARRIVED` (R405). -/
def execRefillImageArrived (tile : Nat) (cid : Nat) (s : State) : Host.Outcome State Fault Refusal := s.event fun s => s.refillArrived tile cid
/-- `SPILL_START` (R403). -/
def execSpillStart (tile : Nat) (s : State) : Host.Outcome State Fault Refusal := s.event fun s => s.spillStart tile
/-- `SPILL_DONE` (R404). -/
def execSpillDone (tile : Nat) (s : State) : Host.Outcome State Fault Refusal := s.event fun s => s.spillDone tile

end Sys2Proof.Machine
end

