-- ==== Sys2Proof/Machine/Split.lean ====
section
/-! DEFINITION. Splitting a routing range (10_spanning.md R320 to R326; 13_system.md R423). -/
namespace Sys2Proof.Machine

/-- The end of a split at its source, reported to the tile that issued it (R321, R324). -/
def State.splitEnd (s : State) (h : Nat) (tile : Agent) (tn op moved mid st : Nat) : State :=
  s.send (.home h) tile tn (s.afirst tn) (.splitDone op moved mid st)
/-- The range table with entry `lo` cut at `m`, the upper half naming the target (R320). -/
def cutTable (t : List (Nat × BitVec 32)) (lo m : Nat) (target : BitVec 32) : List (Nat × BitVec 32) :=
  t.flatMap fun e => if e.1 = lo then [e, (m, target)] else [e]
/-- The bound after `lo` in a table (R320). -/
def boundAfter (t : List (Nat × BitVec 32)) (lo : Nat) : Nat := ((t.map Prod.fst).find? fun b => lo < b).getD (2 ^ 32)
def State.tableAt (s : State) (d tn va n : Nat) : Option (List (Nat × BitVec 32)) × State :=
  match s.readVa d tn (s.afirst tn) va (8 * n) 3 with
  | (none, s) => (none, s)
  | (some ts, s) => (some ((List.range n).map fun i => (natOfBytes ((ts.drop (8 * i)).take 4), BitVec.ofNat 32 (natOfBytes ((ts.drop (8 * i + 4)).take 4)))), s)
/-- Why a split is refused before its target is asked, or its bounds and routing-field mask (R320). -/
def State.judgeSplit (s : State) (h tn : Nat) (r : SplitReq) : Except Nat (Nat × Nat × Nat) × State :=
  let d := h / 8
  let (rt, s) := s.fetchRoute d tn (s.afirst tn) r.space
  if !rt.ok || (s.homeAgent d tn r.target.toNat).isNone then (.error stMISROUTE, s)
  else
    let hi := boundAfter rt.table r.lo
    let m := r.lo + (hi - r.lo) / 2
    match rt.table.find? fun e => e.1 == r.lo with
    | none => (.error stBOUNDS, s)
    | some e =>
      if e.2 ≠ s.homeName h ∨ hi - r.lo < 2 ∨ r.target = s.homeName h then (.error stBOUNDS, s)
      else match s.tableAt d tn r.ntbase (r.nentm + 1) with
        | (some t, s) =>
          if t ≠ cutTable rt.table r.lo m r.target then (.error stBOUNDS, s)
          else if (s.home h).splitSrc.isSome || (s.home h).inert.isSome || (s.home h).forwards.length ≥ Config.forwardPlaces then (.error stNOSPACE, s)
          else (.ok (m, hi, rt.rfmask), s)
        | (none, s) => (.error stBOUNDS, s)
/-- Asks the target to reserve what the moving half holds now (R320, R321). -/
def State.askTarget (s : State) (h : Nat) (sp : SplitSrc) : State :=
  s.toTarget h sp (.splitAsk sp.req sp.mid sp.hi sp.rf ((s.home h).splitRoom sp))
/-- Translates the space's route-area words for writing, the split being in Prepare meanwhile; then asks the target (R320). -/
def State.prepareSplit (s : State) (h : Nat) (sp : SplitSrc) : State :=
  let refuse (s : State) (st : Nat) : State :=
    (s.modHome h fun v => { v with splitSrc := none }).splitEnd h sp.tile sp.tenant sp.req.op 0 0 st
  let va := recRoute (s.tenantRec sp.tenant) + 16 * sp.req.space
  match s.xlate (h / 8) sp.tenant (s.afirst sp.tenant) va pW with
  | (.ok p _, s) =>
    let sp := { sp with phys := some p }
    (s.modHome h fun v => { v with splitSrc := some sp }).askTarget h sp
  | (.refused, s) => refuse s stBOUNDS
  | (.fault, s) => match s.pageFault (.home h) sp.tenant (s.afirst sp.tenant) va 1 .split with
    | (s, true) => s.modHome h fun v => { v with splitSrc := some sp }
    | (s, false) => refuse s stMISROUTE
/-- The source home accepts or refuses a split (R320). -/
def State.splitRequest (s : State) (m : Nat) : State :=
  match s.msg m with
  | some a => match a.dst, a.body with
    | .home h, .split r =>
      if !s.deliverable a then s
      else
        let s := s.dropMsg m
        match s.judgeSplit h a.tenant r with
        | (.error st, s) => s.splitEnd h a.src a.tenant r.op 0 0 st
        | (.ok (mid, hi, rf), s) => s.prepareSplit h ⟨r, a.src, a.tenant, mid, hi, rf, false, [], [], none, 0⟩
    | _, _ => s
  | none => s
/-- A split is abandoned: the target discards its copies and reservations (R321). -/
def State.abandonSplit (s : State) (h st : Nat) : State :=
  match (s.home h).splitSrc with
  | some sp =>
    let s := s.toTarget h sp (.splitAnswer false)
    (s.modHome h fun v => { v with splitSrc := none }).splitEnd h sp.tile sp.tenant sp.req.op 0 0 st
  | none => s
/-- The target of a split at its acceptance: it reserves the places and blocks of the moving half (R320), if it takes part in no other split. -/
def State.reserveHalf (s : State) (h : Nat) (a : Msg) (r : SplitReq) (mid hi rf : Nat) (n : SplitRoom) : Option State :=
  let v := s.home h
  if v.splitSrc.isSome || v.inert.isSome || !v.indexRoom (n.tuples + n.cells) || !v.watchRoom (n.waits + n.watches) then none
  else (s.poolRoom h a.tenant (n.blks ++ n.cblks)).map fun bl =>
    let i : Inert := ⟨a.tenant, r, mid, hi, rf, a.src, [], [], n.tuples, n.cells, n.waits, n.watches, bl.take n.blks.length, bl.drop n.blks.length⟩
    s.modHome h fun v => { v with inert := some i }
/-- The source begins to copy: first it asks room for what has come since its request and moves only at cut-over, then it sends the copies in
order (R321, R322). -/
def State.startCopying (s : State) (h : Nat) (sp : SplitSrc) : State :=
  let s := s.modHome h fun v => { v with splitSrc := some { sp with copying := true } }
  let v := s.home h
  let n := v.splitRoom sp
  let s := if n.cells + n.watches = 0 then s else s.askMore h { sp with copying := true }
  let s := (v.movingE sp).foldl (fun s e => if isTup e.cell then s.copyEntry h e else s) s
  (v.movingW sp).foldl (fun s w => s.copyWatch h w) s
/-- The new handles that a target has given to what has moved to it (R325, R326). -/
def Fwd.learn (f : Fwd) (maps : List (W64 × W64)) : Fwd :=
  { f with handles := f.handles.map fun e => match maps.find? fun p => p.1 == e.1 with
      | some p => p
      | none => e }
/-- The messages between the two homes that answer: a request for room, its acceptance or refusal, the acknowledgement of a copy, the handles given
at cut-over; a target told to abandon discards (R321, R325). -/
def State.splitAnswered (s : State) (m : Nat) : State :=
  match s.msg m with
  | some a => match a.dst with
    | .home h =>
      if !s.deliverable a then s
      else
        let src := (s.home h).splitSrc.filter fun sp => s.splitTarget h sp == some a.src
        match a.body with
        | .splitAsk r mid hi rf n =>
          let s := s.dropMsg m
          match s.reserveHalf h a r mid hi rf n with
          | some u => u.send (.home h) a.src a.tenant (u.afirst a.tenant) (.splitAnswer true)
          | none => s.send (.home h) a.src a.tenant (s.afirst a.tenant) (.splitAnswer false)
        | .splitAnswer ok =>
          let s := s.dropMsg m
          match src with
          | some sp =>
            if sp.copying then s
            else if ok then s.startCopying h sp
            else (s.modHome h fun v => { v with splitSrc := none }).splitEnd h sp.tile sp.tenant sp.req.op 0 0 stNOSPACE
          | none =>
            if ok then s.send (.home h) a.src a.tenant a.asid (.splitAnswer false)
            else s.modHome h fun v => if (v.inert.map Inert.src) = some a.src then { v with inert := none } else v
        | .splitAck =>
          let s := s.dropMsg m
          match src with
          | some sp => if sp.copying then s.modHome h fun v => { v with splitSrc := some { sp with unacked := sp.unacked - 1 } } else s
          | none => s
        | .splitMap maps => (s.dropMsg m).modHome h fun v => { v with forwards := v.forwards.map fun f => f.learn maps }
        | _ => s
    | _ => s
  | none => s
/-- The name of the home that an agent's messages come from. -/
def State.homeOfAgent (s : State) (a : Agent) : BitVec 32 :=
  match a with
  | .home h => s.homeName h
  | .peer c w => BitVec.ofNat 32 (peerPkg (s.peer c) * 65536 + w)
  | _ => 0
/-- Blocks of the sizes asked for out of `pool`: those found, the sizes still wanted, the blocks left. -/
def takeBlks : List Nat → List Blk → List Blk × List Nat × List Blk
  | [], pool => ([], [], pool)
  | n :: ns, pool => match pool.find? fun b => b.size == n with
    | some b => let r := takeBlks ns (pool.erase b); (b :: r.1, r.2)
    | none => let r := takeBlks ns pool; (r.1, n :: r.2.1, r.2.2)
/-- Blocks of the sizes asked for at a target: the reserved ones first, then new ones; with the reserved ones left (R321). -/
def State.inertRoom (s : State) (h tn : Nat) (sizes : List Nat) (kept : List Blk) : Option (List Blk × List Blk) :=
  let (have_, want, left) := takeBlks sizes kept
  (s.poolRoom h tn want).map fun bl => (have_ ++ bl, left)
/-- What the target of a split does with a copy, or with a request for more room; none where its room is exhausted. A copy stands under the target's
own next sequence (R322). -/
def State.takeCopy (s : State) (h : Nat) (i : Inert) (src : Agent) (b : Body) : Option State :=
  let v := s.home h
  let keep := fun (s : State) (i : Inert) => s.modHome h fun v => { v with inert := some i }
  match b with
  | .splitEntry e =>
    if !(i.entries.length < i.room || v.indexRoom 1) then none
    else (s.inertRoom h i.tenant (e.blks.map Blk.size) i.blks).map fun (bl, left) =>
      let (p, g, s) := s.newPlace h 1
      let e' : Entry := { e with place := p, gen := g, tenant := i.tenant, seq := (s.home h).insSeq, blks := bl, old := some e.seq }
      (keep s { i with entries := i.entries ++ [(e.place, e')], blks := left }).modHome h fun v => { v with insSeq := (v.insSeq + 1) % 2 ^ 64 }
  | .splitWatch w left =>
    if !(i.watches.length < i.wroom || v.watchRoom 1) then none
    else (s.inertRoom h i.tenant (w.blks.map Blk.size) i.blks).map fun (bl, rest) =>
      let (p, g, s) := s.newPlace h 0
      let due := if left = 0 then 0 else (s.die (h / 8)).cycle.toNat + left
      let w' : Watch := { w with place := p, gen := g, tenant := i.tenant, arr := (s.home h).arrSeq, due := due, blks := bl }
      (keep s { i with watches := i.watches ++ [(watchHandle w (s.homeOfAgent src), w')], blks := rest }).modHome h fun v => { v with arrSeq := v.arrSeq + 1 }
  | .splitMore n =>
    let cells := max i.croom n.cells
    let watches := max i.rroom n.watches
    if !v.indexRoom (cells - i.croom) || !v.watchRoom (watches - i.rroom) then none
    else (s.poolRoom h i.tenant (takeBlks n.cblks i.cblks).2.1).map fun bl => keep s { i with croom := cells, rroom := watches, cblks := i.cblks ++ bl }
  | _ => none
def isCopyBody : Body → Bool
  | .splitEntry _ | .splitWatch _ _ | .splitMore _ => true
  | _ => false
/-- The target stores an inert copy, or sets more room aside, and acknowledges it, or reports that its room is exhausted; what belongs to a split
that has ended is dropped (R321, R322). -/
def State.splitCopy (s : State) (m : Nat) : State :=
  match s.msg m with
  | some a => match a.dst with
    | .home h =>
      if !isCopyBody a.body || !s.deliverable a then s
      else
        let s := s.dropMsg m
        match (s.home h).inert.filter fun i => i.src == a.src with
        | some i => match s.takeCopy h i a.src a.body with
          | some u => u.send (.home h) a.src a.tenant a.asid .splitAck
          | none => s.send (.home h) a.src a.tenant a.asid (.splitFull stNOSPACE)
        | none => s
    | _ => s
  | none => s
/-- The target discards a copy that the source has invalidated (R323). -/
def State.splitInvalid (s : State) (m : Nat) : State :=
  match s.msg m with
  | some a => match a.dst, a.body with
    | .home h, .splitInval index place =>
      if !s.deliverable a then s
      else (s.dropMsg m).modHome h fun v => { v with inert := v.inert.map fun (i : Inert) =>
        if index then { i with entries := i.entries.filter fun e => e.1 != place } else { i with watches := i.watches.filter fun w => hPlace w.1 != place } }
    | _, _ => s
  | none => s
/-- Cut-over, once the target has acknowledged every copy: one operation of the source home (R321, R324). -/
def State.cutOver (s : State) (h : Nat) : State :=
  match (s.home h).splitSrc with
  | none => s
  | some sp => match sp.phys with
    | none => s
    | some p =>
      if !sp.copying || sp.unacked ≠ 0 || (s.splitTarget h sp).isNone then s
      else
        let v := s.home h
        let name := s.homeName h
        let es := v.movingE sp
        let cells := es.filter fun e => !isTup e.cell
        let specs := (v.movingLate sp).filter fun w => w.kind == .spec
        let hs := ((v.movingW sp).filter fun w => isContW w.kind).map (watchHandle · name) ++ cells.map (entryHandle · name)
        let rec_ : Fwd := ⟨sp.tenant, sp.req.space, sp.rf, sp.mid, sp.hi, sp.req.target, hs.map fun x => (x, x)⟩
        let es' := v.entries.filter fun e => !moving sp e.tenant e.key
        let ws' := v.watches.filter fun w => !moving sp w.tenant w.get.tmpl
        let s := s.modHome h fun v => { v with entries := es', watches := ws', forwards := v.forwards ++ [rec_], splitSrc := none }
        let s := s.toTarget h sp (.splitMark cells specs)
        let s := s.writeDram (p + 8) (bytesOfNat 8 sp.req.ntbase)
        let w0 := s.dramWord p
        let s := s.writeDram p (bytesOfNat 8 (w0 / 2 ^ 46 * 2 ^ 46 + sp.req.nentm * 2 ^ 40 + w0 % 2 ^ 40))
        let tiles := (s.tiles.filter fun e => e.2.tenant == some sp.tenant).map Prod.fst
        let inval := fun (s : State) (d : Agent) => s.send (.home h) d sp.tenant (s.afirst sp.tenant) (.routeInval sp.req.space)
        let s := tiles.foldl (fun s x => inval s (.tile x)) s
        let s := inval s (.host (recPort (s.tenantRec sp.tenant)) sp.tenant)
        s.splitEnd h sp.tile sp.tenant sp.req.op es.length sp.mid stOK
/-- A cell comes to its new home, with the places of the tiles registered on it; the answer names its old and its new handle. -/
def State.installCell (s : State) (h tn : Nat) (c : Entry) (old : BitVec 32) (blks : List Blk) : State × (W64 × W64) :=
  let (s, e) := s.insert h tn { key := c.key, cell := c.cell, fmt := c.fmt, shape := c.shape, bad := c.bad, blks := blks } .fresh
  let s := match c.cell with
    | .barrier _ _ _ tiles => tiles.foldl (fun s r => (s.enterWatch h tn .reg (regGet c.key) r.1 0).1) s
    | _ => s
  (s, (entryHandle c old, entryHandle e (s.homeName h)))
/-- A watch comes to its new home, with what is left of its deadline. -/
def State.installWatch (s : State) (h tn : Nat) (w : Watch) (left : Nat) (blks : List Blk) : State × Watch :=
  let (s, w') := s.enterWatch h tn w.kind { w.get with deadline := 0 } w.who w.op blks
  let due := if left = 0 then 0 else (s.die (h / 8)).cycle.toNat + left
  (s.modHome h fun v => { v with watches := v.watches.map fun (x : Watch) => if x.place = w'.place then { x with get := w.get, due := due } else x }, w')
/-- What a bring-up home of another package has moved here is installed, and that home told the new handle (R325, R450). -/
def State.installMoved (s : State) (h : Nat) (a : Msg) : State :=
  let room := fun (l : List Blk) => (s.poolRoom h a.tenant (l.map Blk.size)).getD []
  let told := fun (s : State) (p : W64 × W64) => s.send (.home h) a.src a.tenant a.asid (.splitMap [p])
  match a.body with
  | .moveEntry e =>
    let (s, p) := s.installCell h a.tenant e (s.homeOfAgent a.src) (room e.blks)
    if isTup e.cell then s else told s p
  | .moveWatch w left =>
    let (s, w') := s.installWatch h a.tenant w left (room w.blks)
    told s (watchHandle w (s.homeOfAgent a.src), watchHandle w' (s.homeName h))
  | _ => s
/-- On the cut-over mark the target makes its copies live, installs the cells and watches in the room reserved for them, and tells the source the new
handles (R324, R325). -/
def State.splitMarked (s : State) (m : Nat) : State :=
  match s.msg m with
  | some a => match a.dst, a.body with
    | .home h, .splitMark cells specs =>
      if !s.deliverable a then s
      else
        let s := s.dropMsg m
        match (s.home h).inert.filter fun i => i.src == a.src with
        | some i =>
          let old := s.homeOfAgent a.src
          let maps := (i.watches.filter fun w => isContW w.2.kind).map fun w => (w.1, watchHandle w.2 (s.homeName h))
          let s := s.modHome h fun v => { v with inert := none, entries := i.entries.foldl (fun l e => insertEntry l e.2) v.entries,
                                                 watches := v.watches ++ i.watches.map Prod.snd }
          let (s, maps, _) := cells.foldl (fun (s, l, kept) (c : Entry) =>
            let (bl, _, left) := takeBlks (c.blks.map Blk.size) kept
            let (s, p) := s.installCell h i.tenant c old bl
            (s, l ++ [p], left)) (s, maps, i.cblks)
          let s := specs.foldl (fun s (w : Watch) => (s.enterWatch h i.tenant .spec w.get w.who w.op).1) s
          (s.modHome h fun v => { v with moved := v.moved ++ maps }).send (.home h) a.src a.tenant a.asid (.splitMap maps)
        | none => s
    | .home h, .moveEntry _ | .home h, .moveWatch _ _ => if s.deliverable a then (s.dropMsg m).installMoved h a else s
    | _, _ => s
  | none => s
/-- The target's room is exhausted, or the target has been reset: the source abandons the split (R321, R448). -/
def State.splitFullAt (s : State) (m : Nat) : State :=
  match s.msg m with
  | some a => match a.dst, a.body with
    | .home h, .splitFull st =>
      if !s.deliverable a then s
      else
        let s := s.dropMsg m
        if (s.home h).splitSrc.any fun sp => sp.copying && s.splitTarget h sp == some a.src then s.abandonSplit h st else s
    | _, _ => s
  | none => s

/-! The events. -/
/-- `HOME_SPLIT_REQUEST` (R320). -/
def execHomeSplitRequest (m : Nat) (s : State) : Host.Outcome State Fault Refusal := s.event fun s => s.splitRequest m
/-- `SPLIT_TARGET_REPLY` (R321). -/
def execSplitTargetReply (m : Nat) (s : State) : Host.Outcome State Fault Refusal := s.event fun s => s.splitAnswered m
/-- `SPLIT_COPY_RX` (R322). -/
def execSplitCopyRx (m : Nat) (s : State) : Host.Outcome State Fault Refusal := s.event fun s => s.splitCopy m
/-- `SPLIT_INVALIDATE_RX` (R323). -/
def execSplitInvalidateRx (m : Nat) (s : State) : Host.Outcome State Fault Refusal := s.event fun s => s.splitInvalid m
/-- `CUT_OVER` (R324). -/
def execCutOver (home : Nat) (s : State) : Host.Outcome State Fault Refusal := s.event fun s => s.cutOver home
/-- `SPLIT_CUTOVER_MARK` (R324). -/
def execSplitCutoverMark (m : Nat) (s : State) : Host.Outcome State Fault Refusal := s.event fun s => s.splitMarked m
/-- `TARGET_ROOM_EXHAUSTED` (R321). -/
def execTargetRoomExhausted (m : Nat) (s : State) : Host.Outcome State Fault Refusal := s.event fun s => s.splitFullAt m

end Sys2Proof.Machine
end

