-- ==== Sys2Proof/Machine/Launch.lean ====
section
/-! DEFINITION. Launch units (12_tasks.md R366 to R373). -/
namespace Sys2Proof.Machine

/-! Waiters (R368). -/
/-- Tiles of a tenant in ascending order of name (R369, R409). -/
def State.tileList (s : State) (tn : Nat) : List Nat := (s.tiles.filter fun e => e.2.tenant == some tn).map Prod.fst
def State.hasTiles (s : State) (d tn : Nat) : Bool := (s.tileList tn).any fun x => dieOf x == d
def State.modLaunch (s : State) (d : Nat) (f : LaunchUnit → LaunchUnit) : State := s.modDie d fun v => { v with launch := f v.launch }
/-- The template of a launch unit: launch space, user bits 0, `k1` = die; `k2` to `k7` open. -/
def State.launchGet (s : State) (d tn : Nat) : Get :=
  ⟨true, .blocking, keyOf [recLspace (s.tenantRec tn), d], keyOf [0xFFFFFFFF, 0xFFFFFFFF], 0, [], 0, false, 2 ^ 24, 0, 0, false⟩
/-- A waiter that could not be entered is tried again 10 µs later. -/
def State.waiterFailed (s : State) (d tn : Nat) : State :=
  s.modLaunch d fun l => { l with waiters := l.waiters.del tn, failed := tn :: l.failed.filter (· != tn), retryAt := (s.die d).cycle.toNat + 10 * s.usCycles }
/-- Sends the take of a launch unit's waiter. -/
def State.enterWaiter (s : State) (d tn : Nat) : State :=
  let g := s.launchGet d tn
  match s.routeKey d tn (s.afirst tn) g.tmpl g.care with
  | (none, s) => s.waiterFailed d tn
  | (some dst, s) =>
    let op := s.nextId
    let s := s.bump.modLaunch d fun l => { l with waiters := l.waiters.put tn op, failed := l.failed.filter (· != tn) }
    s.send (.launch d) dst tn (s.afirst tn) (.get op g)
/-- A launch unit that holds no waiter for a tenant of its die tries to enter one. -/
def State.retryWaiter (s : State) (d tn : Nat) : State :=
  let l := (s.die d).launch
  if s.service ≠ .full ∨ !s.hasTiles d tn ∨ (l.waiters.find tn).isSome ∨ l.failed.contains tn ∧ (s.die d).cycle.toNat < l.retryAt then s
  else s.enterWaiter d tn

/-! The check (R372). -/
/-- Width w_j of a launch header. -/
def launchWidth (w : W64) (j : Nat) : Nat := bitsOf w (7 * j) 7
/-- The leading nonzero widths. -/
def launchWidths (w : W64) : List Nat := ((List.range 6).map (launchWidth w)).takeWhile (· != 0)
/-- Tiles [tfirst, tfirst + tcount) of the tenant's list. -/
def State.launchSet (s : State) (tn : Nat) (w3 : W64) : List Nat := ((s.tileList tn).drop (bitsOf w3 32 16)).take (bitsOf w3 48 16)
/-- Some check of R372 refuses the launch. -/
def State.launchBad (s : State) (d tn : Nat) (key : Key) (bs : List Byte) : Bool :=
  let w := wordAt bs
  let ws := launchWidths (w 2)
  let total := ws.sum
  let set := s.launchSet tn (w 3)
  bs.length != 64 + 8 * pktLen [w 8] || !pktOk (w 8) ||
  bitsOf (w 2) 42 22 != 0 || bitsOf (w 3) 0 16 != 0 || bitsOf (w 4) 32 32 != 0 || bitsOf (w 5) 32 32 != 0 || bitsOf (w 6) 48 16 != 0 || w 7 != 0 ||
  (List.range 6).any (fun j => launchWidth (w 2) j > 64 || (launchWidth (w 2) j != 0 && j ≥ ws.length)) || total > 64 ||
  (w 0).toNat > (w 1).toNat || (total < 64 && (w 1).toNat > 2 ^ total) ||
  bitsOf (w 3) 24 8 > 1 || bitsOf (w 3) 16 8 == 0 || bitsOf (w 3) 48 16 == 0 || set.length != bitsOf (w 3) 48 16 ||
  (match set with
    | x :: _ => keyField key 1 != dieOf x
    | [] => true) ||
  (pktCompute [w 8] && set.any fun x => (s.tile x).allDead) || keyField key 1 != d
/-- Refuses a launch with a status: a fault-notice packet to ntile, or a tuple into the error space (R372). A payload too short to hold the
header's words for the notice names no tile (log 25). -/
def State.refuseLaunch (s : State) (d tn : Nat) (key : Key) (bs : List Byte) (st : Nat) : State :=
  let n := bitsOf (wordAt bs 5) 0 32
  let told := if bs.length < 0x38 then none else match s.tileOf n with
    | some x => if (s.tile x).tenant = some tn then some x else none
    | none => none
  match told with
  | some x =>
    let w0 := BitVec.ofNat 64 (bitsOf (wordAt bs 6) 0 48 * 65536 + 3 * 2048 + 3 * 64 + 4)
    s.send (.launch d) (.tile x) tn (s.afirst tn) (.packet [w0, BitVec.ofNat 64 (keyField key 2), BitVec.ofNat 64 st, 0] none none)
  | none => s.notice (.launch d) tn (keyOf [0x4FFFE, keyField key 2, st]) []

/-! Performing launches (R371, R373). -/
/-- The copies of the template, kind 2, in the order of delivery. -/
def State.launchCopies (s : State) (tn : Nat) (bs : List Byte) : List (Nat × Packet) :=
  let w := wordAt bs
  let set := s.launchSet tn (w 3)
  let ppt := bitsOf (w 3) 16 8
  let p := pktKind ((List.range (pktLen [w 8])).map fun i => w (8 + i)) 2
  if bitsOf (w 3) 24 8 = 0 then set.flatMap fun x => List.replicate ppt (x, p)
  else (List.range ppt).map fun i => (set.getD (i % set.length) 0, p)
/-- Checks the launch at the head of the queue and begins it, or refuses it and goes on. -/
def State.nextLaunch (s : State) (d : Nat) : Nat → State
  | 0 => s
  | f + 1 =>
    let l := (s.die d).launch
    match l.cur, l.queue with
    | none, (tn, t) :: rest =>
      let bs := tupleBytes t
      let s := s.modLaunch d fun l => { l with queue := rest }
      if s.launchBad d tn t.key bs then (s.refuseLaunch d tn t.key bs stBOUNDS).nextLaunch d f
      else s.modLaunch d fun l => { l with cur := some ⟨tn, t.key, bs, none, false, s.launchCopies tn bs⟩ }
    | _, _ => s
def State.startLaunches (s : State) (d : Nat) : State := s.nextLaunch d ((s.die d).launch.queue.length + 1)
/-- The launch unit's waiter is served: it enters the waiter again, and the launch takes its turn (R368, R371). -/
def State.launchTake (s : State) (m : Nat) : State :=
  match s.msg m with
  | some a => match a.dst, a.body with
    | .launch d, .deliver v =>
      if !s.deliverable a || (s.die d).launch.waiters.find a.tenant != some v.op then s
      else
        let s := s.dropMsg m
        let tn := a.tenant
        match v.tup with
        | none => s.waiterFailed d tn
        | some t =>
          let s := s.enterWaiter d tn
          if stGood v.status then
            (s.modLaunch d fun l => { l with queue := l.queue ++ [(tn, { t with pay := .inline v.bytes })] }).startLaunches d
          else s.refuseLaunch d tn t.key v.bytes v.status
    | _, _ => s
  | none => s
/-- Sends the copies of the launch being performed; a target's full ready queue holds back the later copies to that tile alone (R373, R374). -/
def State.sendCopies (s : State) (d : Nat) (c : Launching) : State :=
  let s := s.modLaunch d fun l => { l with cur := some { c with started := true, cell := none, copies := [] } }
  c.copies.foldl (fun s p => s.send (.launch d) (.tile p.1) c.tenant (s.afirst c.tenant) (.packet p.2 none none)) s
/-- The launch being performed is admitted once the reserve holds its estimate; its range cell is created, or its packets go at once. A
launch whose copies have all joined gives way to the next (R371, R373). -/
def State.launchAdmit (s : State) (d : Nat) : State :=
  match (s.die d).launch.cur with
  | none => s.startLaunches d
  | some c =>
    if c.started then
      if s.net.any fun x => x.src == .launch d && bodyIsPacket x.body then s else (s.modLaunch d fun l => { l with cur := none }).startLaunches d
    else if c.cell.isSome ∨ !s.covers d (bitsOf (wordAt c.payload 4) 0 32 * 2000000) then s
    else
      let lo := (wordAt c.payload 0).toNat
      let hi := (wordAt c.payload 1).toNat
      if lo < hi then
        let key := c.key ||| (1#256 <<< 16)
        match s.routeKey d c.tenant (s.afirst c.tenant) key (BitVec.allOnes 256) with
        | (none, s) => ((s.modLaunch d fun l => { l with cur := none }).refuseLaunch d c.tenant c.key c.payload stMISROUTE).startLaunches d
        | (some dst, s) =>
          let op := s.nextId
          (s.bump.modLaunch d fun l => { l with cur := some { c with cell := some op } }).send (.launch d) dst c.tenant (s.afirst c.tenant) (.rangeNew op key lo hi)
      else s.sendCopies d c
/-- A reply to a launch unit: of a cell creation, of a waiter that could not be entered, or of a notice. -/
def State.launchReply (s : State) (d tn op st : Nat) : State :=
  let l := (s.die d).launch
  match l.cur with
  | some c =>
    if c.cell = some op then
      if stGood st then s.sendCopies d c
      else ((s.modLaunch d fun l => { l with cur := none }).refuseLaunch d c.tenant c.key c.payload st).startLaunches d
    else if l.waiters.find tn = some op then s.waiterFailed d tn
    else s
  | none => if l.waiters.find tn = some op then s.waiterFailed d tn else s

/-! The events. -/
/-- `LAUNCH_TAKE` (R371). -/
def execLaunchTake (m : Nat) (s : State) : Host.Outcome State Fault Refusal := s.event fun s => s.launchTake m
/-- `LAUNCH_ADMIT` (R371). -/
def execLaunchAdmit (die : Nat) (s : State) : Host.Outcome State Fault Refusal := s.event fun s => s.launchAdmit die
/-- `LAUNCH_WAITER_RETRY` (R368). -/
def execLaunchWaiterRetry (die : Nat) (tenant : Nat) (s : State) : Host.Outcome State Fault Refusal := s.event fun s => s.retryWaiter die tenant

end Sys2Proof.Machine
end

