-- ==== Sys2Proof/Machine/HostPort.lean ====
section
/-! DEFINITION. Host ports: put and take windows, their records' way to the homes, completions by DMA (14_device.md R429 to R434; 10_spanning.md R327;
08_tuples_homes.md R264, R268). -/
namespace Sys2Proof.Machine

/-- A virtual function is enabled only while its tenant exists with this port in its record (R429). -/
def State.fnOn (s : State) (p n : Nat) : Bool := n < 256 && recValid (s.tenantRec n) && recPort (s.tenantRec n) == p
def portDie (p : Nat) : Nat := if p = 0 then 0 else 3

/-! Records (R431, R432). -/
/-- Word `i` of a host record. -/
def hostWord (o : HostOp) (i : Nat) : W64 := o.bytes.extractLsb' (64 * i) 64
def hostKey (o : HostOp) (i : Nat) : Key := o.bytes.extractLsb' (256 * i) 256
/-- The word that holds go, op and plen. -/
def hostGo (o : HostOp) : W64 := hostWord o (if o.put then 4 else 8)
def hostOpNo (o : HostOp) : Nat := bitsOf (hostGo o) 56 2
def hostLen (o : HostOp) : Nat := bitsOf (hostGo o) 0 32
def hostCare (o : HostOp) : Key := if o.put then BitVec.allOnes 256 else hostKey o 1
def hostBytes (o : HostOp) (i n : Nat) : List Byte := (List.range n).map fun j => o.bytes.extractLsb' (8 * (i + j)) 8
/-- The tuple of a put record (R431); a frozen reference records the tenant's first ASID (R268). -/
def State.hostTuple (s : State) (tn : Nat) (o : HostOp) : Tuple :=
  let n := hostLen o
  let pay : Payload :=
    if hostOpNo o = 1 then .frozen (hostWord o 8) (hostWord o 9).toNat n (s.afirst tn)
    else if n ≤ 64 then .inline (hostBytes o 64 n) else .pool o.payload
  ⟨hostKey o 0, pay, bitsOf (hostGo o) 32 5, o.bytes.extractLsb' 384 128⟩
/-- The request of a take record (R432). -/
def hostGet (o : HostOp) : Get :=
  let k := hostOpNo o
  ⟨decide (k ≥ 2), if k % 2 = 1 then .blocking else .polling, hostKey o 0, hostKey o 1, bitsOf (hostWord o 12) 0 24, [], 0,
    bitsOf (hostGo o) 42 1 == 1, hostLen o, o.slot, 0, false⟩
/-- A put record that is no put: a reserved op, or a payload above 2^24 bytes; it ends with BOUNDS (log 25). -/
def hostBad (o : HostOp) : Bool := o.put && (hostOpNo o ≥ 2 || hostLen o > 2 ^ 24)

/-! Release and completion (R433, R434). -/
/-- The first put of a function that ends otherwise than OK or NOTHOME is reported (R434). -/
def State.putEnds (s : State) (p n slot st : Nat) : State :=
  let f := (s.port p).fn n
  if stGood st || f.perr then s
  else (s.modFn p n fun f => { f with perr := true, pslot := BitVec.ofNat 6 slot, pstat := BitVec.ofNat 16 st }).raiseError n
def HostFn.drop (f : HostFn) (id : Nat) : HostFn := { f with ops := f.ops.filter fun o => o.id != id }
def HostFn.releasePut (f : HostFn) (slot : Nat) : HostFn := { f with busyPut := f.busyPut.filter (· != slot), pdone := f.pdone + 1 }
def HostFn.releaseTake (f : HostFn) (slot : Nat) : HostFn := { f with busyTake := f.busyTake.filter (· != slot), tdone := f.tdone + 1 }
/-- The DMA writes of a take's completion, in order: payload, result block with the completion word last; then the vector (R432, R433). -/
def State.takeEnds (s : State) (p n : Nat) (o : HostOp) (st : Nat) (d : Option Delivery) : State :=
  let go := hostGo o
  let raddr := hostWord o 10
  let c := hostWord o 11
  let blk : List (W64 × List Byte) := match d with
    | none => []
    | some v => match v.tup with
      | none => []
      | some t =>
        (if v.bytes.isEmpty then [] else [(hostWord o 9, v.bytes)]) ++ (if bitsOf go 40 1 = 1 then [(raddr, bytesOfNat 32 t.key.toNat)] else []) ++
        (if bitsOf go 41 1 = 1 then [(raddr + 0x20, bytesOfNat 16 t.shape.toNat)] else []) ++
        [(raddr + 0x30, bytesOfNat 8 (deliveryWord t (hostLen o)).toNat)]
  let fin : List (W64 × List Byte) := [(raddr + 0x38, bytesOfNat 8 (bitsOf c 16 48 * 65536 + st))]
  let s := s.modPort p fun h => { h with dma := h.dma ++ blk ++ fin }
  let s := s.modFn p n fun f => (f.drop o.id).releaseTake o.slot
  if bitsOf c 11 1 = 1 then s.raiseVector n (bitsOf c 0 11) else s

/-! Records on their way (R23, R327, R433, R450). -/
/-- New records on the space wait for earlier ones routed under a dropped table. -/
def HostPort.held (h : HostPort) (n sp : Nat) : Bool :=
  h.waitRoutes.any fun w => w.1 == n * 65536 + sp && w.2.any fun id => (h.fn n).ops.any fun o => o.id == id
/-- Drops the cached route of a tenant's space. -/
def HostPort.dropRoute (h : HostPort) (n sp : Nat) : HostPort :=
  let ids := ((h.fn n).ops.filter fun o => o.sent && keySpace (hostKey o 0) == sp).map HostOp.id
  let key := n * 65536 + sp
  { h with routes := h.routes.filter fun r => !(r.tenant == n && r.space == sp), waitRoutes := (h.waitRoutes.filter fun w => w.1 != key) ++ [(key, ids)] }
/-- Where a record goes. -/
def State.hostDest (s : State) (p n : Nat) (o : HostOp) : Dest :=
  let go := fun (name : Nat) => match s.homeAgent (portDie p) n name with
    | some a => Dest.goes a name
    | none => .fail stMISROUTE
  if hostBad o then .fail stBOUNDS
  else match s.reducedHome n with
    | some name => if keySpace (hostCare o) = 0xFFFF then go name.toNat else .fail stMISROUTE
    | none =>
      let sp := keySpace (hostKey o 0)
      let h := s.port p
      if h.held n sp then .wait
      else match h.routes.find? fun r => r.tenant == n && r.space == sp with
        | none => .wait
        | some r => match r.homeOf (hostKey o 0) (hostCare o) with
          | some name => go name.toNat
          | none => .fail stMISROUTE
/-- Half picojoules of a record that leaves for its home: the request, and a put's payload by beat and, for the pool, by line (R416, R417). -/
def hostCost (o : HostOp) : Nat :=
  300 + if !o.put || hostOpNo o = 1 then 0 else beatsOf (hostLen o) * if hostLen o ≤ 64 then 80 else 2080
/-- Sends one record, on the reserve of the port's die; a put slot is released then. -/
def State.hostSend (s : State) (p n : Nat) (o : HostOp) (dst : Agent) : State :=
  let b : Body := if o.put then .put o.id (s.hostTuple n o) else .get o.id (hostGet o)
  let s := s.modFn p n fun f =>
    let f := { f with ops := f.ops.map fun (q : HostOp) => if q.id = o.id then { q with sent := true } else q }
    if o.put then f.releasePut o.slot else f
  (s.debit (portDie p) (hostCost o)).send (.host p n) dst n (s.afirst n) b
/-- A record that reaches no home ends with a status. -/
def State.hostFail (s : State) (p n : Nat) (o : HostOp) (st : Nat) : State :=
  if o.put then (s.modFn p n fun f => (f.drop o.id).releasePut o.slot).putEnds p n o.slot st else s.takeEnds p n o st none
/-- Sends the records of an enabled function that may go, in the order of their go writes: none passes an earlier one of its home that is still to
be sent, nor one whose home is not yet known, but for one that R327 holds, for which other spaces do not wait. -/
def State.hostFlush (s : State) (p n : Nat) : State :=
  if !s.fnOn p n then s else
  (((s.port p).fn n).ops.foldl (fun (a : State × List Agent × Bool) o =>
    let (s, held, stop) := a
    if o.sent || stop then a
    else match s.hostDest p n o with
      | .wait => (s, held, !((s.port p).waitRoutes.any fun w => w.1 == n * 65536 + keySpace (hostKey o 0)))
      | .fail st => if o.pulling && !hostBad o then a else (s.hostFail p n o st, held, stop)
      | .goes dst _ =>
        if o.pulling || held.contains dst || !s.covers (portDie p) (hostCost o) then (s, held ++ [dst], stop) else (s.hostSend p n o dst, held, stop))
    (s, [], false)).1
/-- What waits at the ports of a die goes when the reserve covers it again (R416). -/
def State.portFlush (s : State) (d : Nat) : State :=
  (List.range 2).foldl (fun s p => if portDie p = d then (s.port p).fns.foldl (fun s f => s.hostFlush p f.1) s else s) s
/-- A word of a slot is written, if the slot is released (R433). -/
def State.slotWrite (s : State) (p n i : Nat) (word : W64) (put : Bool) : State :=
  s.modFn p n fun f =>
    if put then (if f.busyPut.contains (i / 16) then f else { f with putWords := f.putWords.put i word })
    else if f.busyTake.contains (i / 16) then f else { f with takeWords := f.takeWords.put i word }
/-- A go bit is written: the slot is read at that moment, which moves the window's ring position past it; one not released drops the go. A payload
above 64 bytes is asked of the host at the record's `haddr` (R431, R433; log 59). -/
def State.hostGoWrite (s : State) (p n slot : Nat) (word : W64) (put : Bool) : State :=
  if !s.fnOn p n || slot ≥ 64 then s
  else if (if put then ((s.port p).fn n).busyPut else ((s.port p).fn n).busyTake).contains slot then
    if bitsOf word 63 1 = 0 then s else s.modFn p n fun f => { f with ovf := true }
  else
    let s := s.slotWrite p n (16 * slot + if put then 4 else 8) word put
    if bitsOf word 63 1 = 0 then s
    else
      let f := (s.port p).fn n
      let words := if put then f.putWords else f.takeWords
      let bytes := BitVec.ofNat 1024 ((List.range 16).foldr (fun j acc => (words.at 0 (16 * slot + j)).toNat + acc * 2 ^ 64) 0)
      let o : HostOp := ⟨s.nextId, slot, put, bytes, false, false, []⟩
      let o : HostOp := { o with pulling := put && hostOpNo o == 0 && hostLen o > 64 && !hostBad o }
      let s := s.bump.modFn p n fun f =>
        if put then { f with ops := f.ops ++ [o], busyPut := f.busyPut ++ [slot], putPos := (slot + 1) % 64 }
        else { f with ops := f.ops ++ [o], busyTake := f.busyTake ++ [slot], takePos := (slot + 1) % 64 }
      let s := if o.pulling then s.modPort p fun h => { h with pulls := h.pulls ++ [(n, slot, hostWord o 5, hostLen o)] } else s
      s.hostFlush p n
/-- The port's read of a put's payload from host memory is answered. -/
def State.hostPulled (s : State) (p n slot : Nat) (bs : List Byte) : State :=
  match ((s.port p).fn n).ops.find? fun o => o.put && o.slot == slot && o.pulling with
  | some o =>
    if bs.length ≠ hostLen o ∨ s.fnOn p n = false ∨ !(s.port p).pulls.contains (n, slot, hostWord o 5, hostLen o) then s
    else
      let s := s.modPort p fun h => { h with pulls := h.pulls.erase (n, slot, hostWord o 5, hostLen o) }
      let s := s.modFn p n fun f => { f with ops := f.ops.map fun (q : HostOp) => if q.id = o.id then { q with pulling := false, payload := bs } else q }
      s.hostFlush p n
  | none => s
/-- The route of a space that a record waits for arrives at the port (R248, R327). -/
def State.hostFetch (s : State) (p n space : Nat) : State :=
  let h := s.port p
  let wants := (h.fn n).ops.any fun o => !o.sent && keySpace (hostKey o 0) == space
  if !wants || s.service ≠ .full || h.held n space || (h.routes.any fun r => r.tenant == n && r.space == space) then s
  else
    let (r, s) := s.fetchRoute (portDie p) n (s.afirst n) space
    let s := s.modPort p fun h => { h with routes := addRoute h.routes r, waitRoutes := h.waitRoutes.filter fun w => w.1 != n * 65536 + space }
    let s := s.hostFlush p n
    s.modPort p fun h => { h with routes := h.routes.filter fun q => q.ok || q.tenant != n || q.space != space }

/-! Replies and deliveries at a host port. -/
/-- After a reply: a forwarded one drops the route of its space; a held record may now go. -/
def State.hostAfter (s : State) (p n : Nat) (o : HostOp) (fwd : Bool) : State :=
  (if fwd then s.modPort p fun h => h.dropRoute n (keySpace (hostKey o 0)) else s).hostFlush p n
/-- The reply to a put, or to a grant put back, which goes again where it found no room (R264, R434). -/
def State.hostPutReply (s : State) (m : Nat) : State :=
  match s.msg m with
  | some a => match a.dst, a.body with
    | .host p n, .reply op st _ fwd =>
      if !s.deliverable a then s
      else
        let f := (s.port p).fn n
        match f.ops.find? fun o => o.id == op, f.putBacks.find op with
        | some o, _ =>
          if !o.put then s
          else (((s.dropMsg m).modFn p n fun f => f.drop op).putEnds p n o.slot (fwdStatus fwd st)).hostAfter p n o fwd
        | none, some t =>
          let s := (s.dropMsg m).modFn p n fun f => { f with putBacks := f.putBacks.del op }
          if stGood st then s
          else
            let id := s.nextId
            (s.bump.modFn p n fun f => { f with putBacks := f.putBacks.put id t }).send (.host p n) a.src n a.asid (.put id t)
        | none, none => s.dropMsg m
    | _, _ => s
  | none => s
/-- Half picojoules of a delivery's payload at a port (R416, R417). -/
def hostReceiveCost (a : Msg) : Nat :=
  match a.body with
  | .deliver d => if isPeer a.src then 0 else receiveCost d d.bytes.length
  | _ => 0
/-- A take's delivery or reply reaches the port: the DMA writes of its completion; a grant goes back and the take ends with GRANT (R432). The port's
die pays for the payload, once its reserve covers it (R416). A function that its tenant has left does no DMA, and the tuple of its take goes back
(R429). -/
def State.hostTakeComplete (s : State) (m : Nat) : State :=
  match s.msg m with
  | some a => match a.dst with
    | .host p n =>
      let opOf : Body → Option Nat := fun b => match b with
        | .deliver d => some d.op
        | .reply op _ _ _ => some op
        | _ => none
      match (opOf a.body).bind fun op => ((s.port p).fn n).ops.find? fun o => o.id == op && !o.put with
      | none => match a.body with
        | .deliver _ => if s.deliverable a then s.dropMsg m else s
        | _ => s
      | some o =>
        if !s.deliverable a then s
        else if !s.fnOn p n then
          let s := (s.dropMsg m).modFn p n fun f => f.drop o.id
          match a.body with
          | .deliver d => if d.take && d.tup.isSome then s.send (.host p n) a.src n a.asid (.tookAck d.op d.seq true) else s
          | _ => s
        else if !s.covers (portDie p) (hostReceiveCost a) then s
        else
          let s := (s.dropMsg m).debit (portDie p) (hostReceiveCost a)
          match a.body with
          | .deliver d =>
            let grant := match d.tup with
              | some t => match t.pay with
                | .grant _ => d.take
                | _ => false
              | none => false
            let s := if grant then
                let id := s.nextId
                match d.tup with
                | some t => (s.bump.modFn p n fun f => { f with putBacks := f.putBacks.put id t }).send (.host p n) a.src n a.asid (.put id t)
                | none => s
              else s
            let s := s.takeEnds p n o (if grant then stGRANT else fwdStatus d.fwd d.status) (some d)
            let s := if d.take && d.tup.isSome then s.send (.host p n) a.src n a.asid (.tookAck d.op d.seq false) else s
            s.hostAfter p n o d.fwd
          | .reply _ st _ fwd => (s.takeEnds p n o (fwdStatus fwd st) none).hostAfter p n o fwd
          | _ => s
    | _ => s
  | none => s

/-! Links and ATS (R429). -/
/-- A port trains its link to a width and a rate of R429. -/
def State.hostLinkUp (s : State) (p width rate : Nat) : State :=
  if (width = 16 ∨ width = 8 ∨ width = 4) ∧ (rate = 64 ∨ rate = 32 ∨ rate = 16) ∧ p < 2 then s.modPort p fun h => { h with up := true, width := width, rate := rate }
  else s
/-- An address-translation invalidation of the host: the port holds no translation across events, so it only completes it. -/
def State.atsInvalidate (s : State) (p n addr : Nat) : State := s.modPort p fun h => { h with atsDone := h.atsDone ++ [(n, addr)] }

/-! The events. -/
/-- `HOST_PUT_GO` (R433). -/
def execHostPutGo (port : Nat) (fn : Nat) (slot : Nat) (word : W64) (s : State) : Host.Outcome State Fault Refusal := s.event fun s => s.hostGoWrite port fn slot word true
/-- `HOST_TAKE_GO` (R433). -/
def execHostTakeGo (port : Nat) (fn : Nat) (slot : Nat) (word : W64) (s : State) : Host.Outcome State Fault Refusal := s.event fun s => s.hostGoWrite port fn slot word false
/-- `HOST_PAYLOAD_PULLED` (R433). -/
def execHostPayloadPulled (port : Nat) (fn : Nat) (slot : Nat) (bytes : List Byte) (s : State) : Host.Outcome State Fault Refusal := s.event fun s => s.hostPulled port fn slot bytes
/-- `HOST_PUT_REPLY` (R434). -/
def execHostPutReply (m : Nat) (s : State) : Host.Outcome State Fault Refusal := s.event fun s => s.hostPutReply m
/-- `HOST_TAKE_COMPLETE` (R433). -/
def execHostTakeComplete (m : Nat) (s : State) : Host.Outcome State Fault Refusal := s.event fun s => s.hostTakeComplete m
/-- `HOST_PORT_LINK_UP` (R429). -/
def execHostPortLinkUp (port : Nat) (width : Nat) (rate : Nat) (s : State) : Host.Outcome State Fault Refusal := s.event fun s => s.hostLinkUp port width rate
/-- `ATS_INVALIDATE` (R429). -/
def execAtsInvalidate (port : Nat) (fn : Nat) (addr : Nat) (s : State) : Host.Outcome State Fault Refusal := s.event fun s => s.atsInvalidate port fn addr

end Sys2Proof.Machine
end

