-- ==== Sys2Proof/Machine/Reply.lean ====
section
/-! DEFINITION. Replies at their askers, the pager's resolutions, fetched and invalidated routes (09_tuple_instr.md R282, R287 to R307; 08_tuples_homes.md R264,
R269, R270; 10_spanning.md R324, R327, R335; 11_sync.md R351, R359). -/
namespace Sys2Proof.Machine

/-! Remote copies at their requester (R335). -/
/-- After the target's acceptance the requester sends its data: the whole blocks before the first that cannot be read (R267). How many bytes it has
sent, and why it stopped there, stand in `arg`; none is delivered before the target's report. -/
def State.sendRemote (s : State) (x : Nat) (o : TOp) : State :=
  let t := s.tile x
  let n := o.desc.plen
  let b := copyBlock o.desc.fmt
  let stop := match t.statIn o.desc.addr n, t.badIn o.desc.addr n with
    | some a, some c => some (min a c)
    | some a, none | none, some a => some a
    | none, none => none
  let p := match stop with
    | some a => (max a o.desc.addr - o.desc.addr) / b * b
    | none => n
  let why := if (t.statIn o.desc.addr (min n (p + b))).isSome then stSTAT else stPARITY
  if p = 0 then s.endCopy x o why 0
  else match s.contextTo (dieOf x) (s.tenantOf x) (tokPkg o.desc.token) 0 with
    | none => s.endCopy x o stMISROUTE 0
    | some c =>
      ((s.scrub x o.desc.addr p).modOp x o.id fun o => { o with arg := BitVec.ofNat 64 (why * 2 ^ 48 + p) }).send (.tile x) (.peer c 0) (s.tenantOf x) o.asid
        (.remoteCopy o.id ⟨o.desc.token, copyVa o, p, b, true, t.sp.bytes o.desc.addr p, s.tileName x⟩)
/-- A copy that has not ended; what comes for one that has, finds nothing (R305, R307). -/
def TOp.copying (o : TOp) : Bool := o.stage == .sent || o.stage == .pager
/-- The target's report: every block is in DRAM, or the address of the block that failed. -/
def State.remoteReport (s : State) (x : Nat) (o : TOp) (st fault : Nat) : State :=
  let sent := bitsOf o.arg 0 48
  if !o.copying then s
  else if st ≠ stOK then s.endCopy x o st (fault - copyVa o)
  else if o.desc.flag fDir && sent < o.desc.plen then s.endCopy x o (bitsOf o.arg 48 16) sent
  else s.endCopy x o stOK o.desc.plen
/-- A reply to a remote copy: the target waits on its pager, or has ended that wait (R335), or accepts the data, or refuses the copy. -/
def State.remoteReplied (s : State) (x : Nat) (o : TOp) (st : Nat) (val : W64) : State :=
  if !o.copying then s
  else if st = stPAGEWAIT then s.modOp x o.id fun o => { o with stage := if val = 0 then .sent else .pager }
  else if stGood st then s.sendRemote x o
  else s.endCopy x o st 0

/-! Speculative reads (R253, R311). -/
/-- The bundle of a speculative read counts as not issued: no pending bit, no count, and for `READ.B` the thread stands at it, neither half performed,
its speculation ended (R311). -/
def Thread.undoRead (t : Thread) (op : Nat) (back : Bool) : Thread :=
  let t := { t with pend := t.pend.filter (·.2 != op), outs := t.outs.filter (· != op) }
  if back then
    let t := { t with pc := (t.pc + 2 ^ 64 - 8) % 2 ^ 64, mark := false, vheld := none, wait := if t.spec.isSome then .spec else .none }
    if t.speculative then { t with spec := t.spec.map fun (sp : Spec) => { sp with st := .ended } } else t
  else t
/-- A speculative read that matched nothing (`READ.B`), or whose watch could not be entered: then the thread rolls back with cause 6. A
`READ.P` whose window has meanwhile committed ends with NOSPACE (R253). -/
def State.specReply (s : State) (x : Nat) (o : TOp) (full : Bool) : State :=
  let live := match (s.tile x).thread o.cid with
    | some th => th.spec.isSome
    | none => false
  if o.kind = .readP ∧ !live then s.endWith x o stNOSPACE
  else
    let s := s.modTile x fun t => { t with ops := t.ops.filter fun p => p.id != o.id }
    let s := s.modCid x o.cid fun th => th.undoRead o.id (o.kind == .readB)
    let s := if full then s.modCid x o.cid fun th => th.rollback 6 else s
    s.modTile x Tile.ageSpills

/-! Barrier registration (R359). -/
/-- The home's answer to a registration: every `BARS` that waits for it receives the status; OK registers their threads, anything else frees
the entry. -/
def State.barReply (s : State) (x op st : Nat) (val : W64) : State :=
  let t := s.tile x
  match (List.range 16).find? fun e => (t.bar e).pending.any fun p => p.1 == op with
  | none => s
  | some e =>
    let who := (t.bar e).pending
    let s := s.imaged x fun s => s.modTile x fun t =>
      if stGood st then who.foldl (fun t p => t.register e p.2.1) (t.setBar e { t.bar e with phase := val.toNat, pending := [] })
      else t.setBar e {}
    let s := who.foldl (fun s p => match (s.tile x).op p.1 with
      | some o => s.endOp x o (stWord st)
      | none => s) s
    s.arrivals x

/-! Replies at a tile (R282). -/
/-- A `.C` form has been registered, or matched at once: `gd` is written and its count dropped; its completion word comes with the delivery. -/
def State.contReply (s : State) (x : Nat) (o : TOp) (val : W64) : State :=
  let s := s.modOp x o.id fun o => { o with stage := if val = 0 then o.stage else .registered, performed := true, gdDone := true, arg := val }
  s.land x o.cid o.id o.rd val
/-- What the reply with status `st` and value `val` does to its operation. -/
def State.opReply (s : State) (x : Nat) (o : TOp) (st : Nat) (val : W64) (count : Nat) : State :=
  match o.kind with
  | .readC | .takeC => if stGood st then s.contReply x o val else s.endWith x o st
  | .takeN => if stGood st then s.finish x o st (some (BitVec.ofNat 64 count)) val else s.endWith x o st
  | .ctrO => s.finish x o st none (if stGood st then val else 0)
  | .bars => s.barReply x o.id st val
  | .putG => (s.settleGrant x o.desc.token (stGood st)).endWith x o st
  | .readB | .readP => if st = stNoMatch then s.specReply x o false else if st = stNoWatch then s.specReply x o true else s.endWith x o st
  | .copyr => s.remoteReplied x o st val
  | _ => s.endWith x o st
/-- After a forwarded reply the route of the operation's space is dropped (R327). -/
def State.afterReply (s : State) (x : Nat) (o : TOp) (fwd : Bool) : State :=
  match o.space with
  | some sp => if fwd then s.modTile x fun t => t.dropRoute sp else s
  | none => s
/-- A split's end at the tile that issued it: word 0x28, completion word, `gd` (R318, R324). -/
def State.splitReport (s : State) (x : Nat) (o : TOp) (moved mid st : Nat) : State :=
  let a := o.dAddr + 0x28
  let shut := (s.tile x).stat (bankOf a)
  let s := if st = stOK ∧ !shut then s.engineWrite x (some o.cid) a (bytesOfNat 8 (moved * 2 ^ 32 + mid)) else s
  let st := if st = stOK ∧ shut then stSTAT else st
  (s.modTile x fun t => { t with splits := t.splits.filter fun e => e.1 != o.id }).finish x o st none (stWord st)

/-! Agents' own operations (R264, R269, R270, R467). -/
/-- An access of another package ends at the block at offset `p`, those before it having moved (R335). -/
def State.remoteFail (s : State) (h : Nat) (a : Msg) (op : Nat) (c : RemoteCopy) (st p : Nat) : State :=
  s.send (.home h) a.src a.tenant 0 (.remoteData op [] c.block st (c.va + p))
/-- The operation that waits on the pager ends with a status. -/
def State.endFault (s : State) (who : Agent) (_ : Nat) (why : PagerFor) (st : Nat) : State :=
  match who, why with
  | .tile x, .fetch line _ => s.modTile x fun t => t.refuseLine line
  | .tile x, .copy op => match (s.tile x).op op with
    | some o => if o.stage = .pager then s.endCopy x o st o.prog else s
    | none => s
  | .home h, .delivery m _ => match m.body with
    | .deliver d => s.sendDelivery h m.dst m.tenant m.asid { d with status := st }
    | _ => s
  | .home h, .split => match (s.home h).splitSrc with
    | some sp => (s.modHome h fun v => { v with splitSrc := none }).splitEnd h sp.tile sp.tenant sp.req.op 0 0 st
    | none => s
  | .home h, .remote m p => match m.body with
    | .remoteCopy op c => s.remoteFail h m op c st p
    | _ => s
  | _, _ => s
/-- The operation resumes after the page has been mapped (R270). -/
def State.resumeFault (s : State) (who : Agent) (why : PagerFor) : State :=
  match who, why with
  | .tile x, .fetch line asid => s.fetchLine x line asid
  | .tile x, .copy op => match (s.tile x).op op with
    | some o => if o.stage = .pager then (s.modOp x op fun o => { o with stage := .sent }).resumeCopy x { o with stage := .sent } else s
    | none => s
  | .home h, .delivery m want => match m.body with
    | .deliver d =>
      let s := match m.dst with
        | .tile x => s.modOp x d.op fun o => if o.stage = .pager then { o with stage := .sent } else o
        | _ => s
      match d.tup with
      | some t => match t.pay with
        | .frozen tok off len asid => s.sendFrozen h m.dst m.tenant d want tok off len asid
        | _ => s
      | none => s
    | _ => s
  | .home h, .split => match (s.home h).splitSrc with
    | some sp => s.prepareSplit h sp
    | none => s
  | .home h, .remote m p => match m.body with
    | .remoteCopy op c => (s.send (.home h) m.src m.tenant 0 (.reply op stPAGEWAIT 0 false)).remoteCopyRun h m op c p
    | _ => s
  | _, _ => s
/-- A reply to an operation that an agent made on its own account. -/
def State.auxReply (s : State) (who : Agent) (a : Msg) (op st : Nat) (x : Aux) : State :=
  match x with
  | .notice => let s := s.dropAux who op; if stGood st then s else s.dropNotice
  | .faultPut f va asid why =>
    let s := s.dropAux who op
    if stGood st then match s.takeResolution who a.tenant f va asid why with
      | (s, true) => s
      | (s, false) => s.endFault who va why stMISROUTE
    else s.endFault who va why st
  | .resolve va why _ => if stGood st then s else (s.dropAux who op).endFault who va why st
  | .putBack t =>
    let s := s.dropAux who op
    if stGood st then s
    else
      let id := s.nextId
      (s.bump.addAux who id (.putBack t)).send who a.src a.tenant a.asid (.put id t)

/-- The operation number, status, value, count and forwarded mark of a reply for one asker. -/
def replyParts : Body → Option (Nat × Nat × W64 × Nat × Bool)
  | .reply op st val fwd => some (op, st, val, 0, fwd)
  | .rangeReply b c st (.one _ op _ _) fwd => some (op, st, BitVec.ofNat 64 b, c, fwd)
  | .ctrReply st (.one _ op _ _) fwd => some (op, st, 0, 0, fwd)
  | .splitDone op _ _ st => some (op, st, 0, 0, false)
  | .remoteData op _ _ st _ => some (op, st, 0, 0, false)
  | _ => none
/-- A reply whose turn it is at a tile, a home or a launch unit (R282). -/
def State.tupleReply (s : State) (m : Nat) : State :=
  match s.msg m with
  | none => s
  | some a => match replyParts a.body with
    | none => s
    | some (op, st, val, count, fwd) =>
      if !s.deliverable a then s
      else match s.auxOf a.dst op with
        | some x => (s.dropMsg m).auxReply a.dst a op st x
        | none => match a.dst with
          | .tile x =>
            let s := s.dropMsg m
            match (s.tile x).op op with
            | none => s
            | some o => match a.body with
              | .splitDone _ moved mid st => s.splitReport x o moved mid st
              | .remoteData _ bs _ st fault => if bs.isEmpty then s.remoteReport x o st fault else s.remoteLand x op o.prog bs
              | _ => (s.opReply x o (fwdStatus fwd st) val count).afterReply x o fwd
          | .launch d => (s.dropMsg m).launchReply d a.tenant op st
          | .home _ => s.dropMsg m
          | _ => s
/-- The pager's resolution of a fault: 0 lets the operation resume, anything else ends it with BOUNDS (R270). A take that ends otherwise ends
the operation with its status; what comes for one withdrawn is dropped. -/
def State.faultResolved (s : State) (m : Nat) : State :=
  match s.msg m with
  | some a => match a.body with
    | .deliver d => match s.auxOf a.dst d.op with
      | some (.resolve va why _) =>
        let tile := match a.dst with
          | .tile _ => true
          | _ => false
        if !s.deliverable a || tile && a.sent < d.bytes.length then s
        else
          let s := (s.dropMsg m).dropAux a.dst d.op
          let s := if tile && d.take && d.tup.isSome then s.send a.dst a.src a.tenant a.asid (.tookAck d.op d.seq false) else s
          if d.tup.isNone || !stGood d.status then s.endFault a.dst va why d.status
          else if natOfBytes (d.bytes.take 8) = 0 then s.resumeFault a.dst why
          else s.endFault a.dst va why stBOUNDS
      | _ => match a.dst with
        | .home _ => if s.deliverable a then s.dropMsg m else s
        | _ => s
    | _ => s
  | none => s
/-- A route that an interface or host port has asked for arrives (R248). -/
def State.routeFetched (s : State) (who : Agent) (tenant space : Nat) : State :=
  match who with
  | .tile x => if (s.tile x).tenant = some tenant then s.tileFetch x space else s
  | .host p n => if n = tenant then s.hostFetch p n space else s
  | _ => s
/-- An interface or host port receives the invalidation of a cut-over (R324, R327). -/
def State.routeInvalid (s : State) (m : Nat) : State :=
  match s.msg m with
  | some a => match a.body with
    | .routeInval sp =>
      if !s.deliverable a then s
      else
        let s := s.dropMsg m
        match a.dst with
        | .tile x => if (s.tile x).tenant = some a.tenant then s.modTile x fun t => t.dropRoute sp else s
        | .host p n => s.modPort p fun h => h.dropRoute n sp
        | _ => s
    | _ => s
  | none => s

/-! The events. -/
/-- `TUPLE_REPLY` (R282). -/
def execTupleReply (m : Nat) (s : State) : Host.Outcome State Fault Refusal := s.event fun s => s.tupleReply m
/-- `PAGE_FAULT_RESOLVED` (R270). -/
def execPageFaultResolved (m : Nat) (s : State) : Host.Outcome State Fault Refusal := s.event fun s => s.faultResolved m
/-- `ROUTE_FETCH_DONE` (R248). -/
def execRouteFetchDone (who : Agent) (tenant : Nat) (space : Nat) (s : State) : Host.Outcome State Fault Refusal := s.event fun s => s.routeFetched who tenant space
/-- `ROUTE_INVALIDATE` (R327). -/
def execRouteInvalidate (m : Nat) (s : State) : Host.Outcome State Fault Refusal := s.event fun s => s.routeInvalid m

end Sys2Proof.Machine
end

