-- ==== Sys2Proof/Machine/Spire.lean ====
section
/-! DEFINITION. The spire link: receiving, acknowledging, retransmission, failure and caching of peer contexts (10_spanning.md R314, R315, R328 to
R334). -/
namespace Sys2Proof.Machine

/-- The cycle count that a context's timers run by: that of its port's die. -/
def State.peerNow (s : State) (c : Nat) : Nat := (s.die (peerPort (s.peer c) / 2)).cycle.toNat
def State.modPeer (s : State) (c : Nat) (f : Peer → Peer) : State := s.setPeer c (f (s.peer c))
/-- Packet number `a` comes before `b`. -/
def psnBefore (a b : Nat) : Bool := let d := (b + 2 ^ 32 - a) % 2 ^ 32; 0 < d && d < 2 ^ 31

/-! Acknowledgement (R333). -/
/-- Sends the ack of a context, once the reserve covers its bytes: the next expected number, and bit j for packet number next + 1 + j received. -/
def State.sendAck (s : State) (c : Nat) : State :=
  let p := s.peer c
  let bits := (List.range 256).foldl (fun (n : BitVec 256) j => if p.rxSeen.contains ((p.rxNext + 1 + j) % 2 ^ 32) then n ||| (1#256 <<< j) else n) 0
  let k : SpirePacket := ⟨1, .ack, p.rxNext, Config.theirCtx c, c, 0, 0, 0, 0, bits, false, [], none, {}, 0⟩
  let k := s.frame p k
  if !s.covers (packetDie p k) (packetCost k) then s
  else ((s.setPeer c { p with ackDue := none, ackCount := 0 }).debit (packetDie p k) (packetCost k)).wire (peerPort p) k
/-- An ack is due: 16 packets have come since the last, or the 2 µs after the first unacknowledged one have passed. -/
def State.ackIsDue (s : State) (c : Nat) : Bool :=
  decide ((s.peer c).ackCount ≥ 16) || match (s.peer c).ackDue with
    | some t => decide (t ≤ s.peerNow c)
    | none => false
def State.ackTimer (s : State) (c : Nat) : State := if s.ackIsDue c then s.sendAck c else s
/-- An ack at the sender: what it marks leaves the window; a packet that it marks missing while it marks one at least 4 numbers later is sent
again. -/
def State.takeAck (s : State) (c : Nat) (k : SpirePacket) : State :=
  let p := s.peer c
  let got := fun (n : Nat) => psnBefore n k.psn || (let j := (n + 2 ^ 32 - k.psn - 1) % 2 ^ 32; j < 256 && k.acks.getLsbD j)
  let lost := fun (n : Nat) => (List.range 256).any fun j => k.acks.getLsbD j && (let q := (k.psn + 1 + j) % 2 ^ 32; psnBefore n q && (q + 2 ^ 32 - n) % 2 ^ 32 ≥ 4)
  let left := p.window.filter fun u => !got u.pkt.psn
  let left := left.map fun (u : Unacked) => if lost u.pkt.psn then { u with again := true } else u
  ((s.setPeer c { p with window := left }).spireFlush c).releaseFar

/-! Receiving (R315, R331, R332). -/
/-- The packets of message `n` that have come, and whether every byte of it is present. -/
def Peer.message (p : Peer) (n : Nat) : List SpirePacket := (p.parts.filter fun e => e.1 == n).map Prod.snd
def wholeMessage (l : List SpirePacket) : Bool :=
  match l with
  | [] => false
  | k :: _ => (l.map SpirePacket.plen).sum == k.mlen
/-- The data bytes of a message, by offset. -/
def messageBytes (l : List SpirePacket) (n : Nat) : List Byte :=
  (List.range n).map fun i => match l.find? fun k => k.off ≤ i && i < k.off + k.plen with
    | some k => k.data.getD (i - k.off) 0
    | none => 0
/-- An agent of a message from another package, whose end of the context is `cs`, as this package names it: one of this package by its own name, any
other by its number on the context (R314; log 47). -/
def farAgent (cs c : Nat) (a : Agent) : Agent :=
  match a with
  | .peer k w => if k = cs then agentOfNo w else .peer c (agentNo a)
  | _ => .peer c (agentNo a)
def farComb (cs c : Nat) : Comb → Comb
  | .one a op n e => .one (farAgent cs c a) op n e
  | .two sw u l => .two sw (farComb cs c u) (farComb cs c l)
def farWatch (cs c : Nat) (w : Watch) : Watch := { w with who := farAgent cs c w.who }
def farEntry (cs c : Nat) (e : Entry) : Entry :=
  { e with cell := match e.cell with
      | .barrier target n phase tiles => .barrier target n phase (tiles.map fun r => (farAgent cs c r.1, r.2))
      | x => x }
/-- The agents that a message body names, as this package names them: the askers of a combined request, the waiters and registered tiles of a moving
half (R273, R322, R324, R325). -/
def farBody (cs c : Nat) : Body → Body
  | .rangeTake k n w => .rangeTake k n (farComb cs c w)
  | .ctrAdd h n w => .ctrAdd h n (farComb cs c w)
  | .rangeReply b n st w fwd => .rangeReply b n st (farComb cs c w) fwd
  | .ctrReply st w fwd => .ctrReply st (farComb cs c w) fwd
  | .splitEntry e => .splitEntry (farEntry cs c e)
  | .splitWatch w left => .splitWatch (farWatch cs c w) left
  | .moveEntry e => .moveEntry (farEntry cs c e)
  | .moveWatch w left => .moveWatch (farWatch cs c w) left
  | .splitMark cells specs => .splitMark (cells.map (farEntry cs c)) (specs.map (farWatch cs c))
  | b => b
/-- The operations whose answer a request of an agent's asks for. -/
def askOps (e : Agent × Body) : List (Agent × Nat) :=
  match e.2 with
  | .put op _ | .get op _ | .rangeNew op _ _ _ | .accNew op _ _ _ _ _ _ | .accAdd op _ _ _ | .ctrNew op _ _ _ _ _ | .cancel op _ | .barReg op _ _ | .remoteCopy op _ => [(e.1, op)]
  | .split r => [(e.1, r.op)]
  | .rangeTake _ _ w | .ctrAdd _ _ w => combOps w
  | _ => []
/-- A message answers a request of an agent's: its last answer, for a request whose end a peer context may have to report (R334). -/
def endsAsk (m : Msg) (e : Agent × Body) : Bool :=
  let ops := askOps e
  match m.body with
  | .reply op st _ _ => st != stPAGEWAIT && ops.contains (m.dst, op)
  | .deliver d => ops.contains (m.dst, d.op)
  | .rangeReply _ _ _ w _ | .ctrReply _ w _ => combOps w == ops
  | .splitDone op _ _ _ | .remoteData op _ _ _ _ => ops.contains (m.dst, op)
  | _ => false
/-- Half picojoules of the traffic that a port receives: the beats of a payload, and the DRAM lines of a pool payload (R416, R417; log 60). -/
def farCost (b : Body) : Nat := match b with
  | .put _ ⟨_, .pool bs, _, _⟩ | .reenter ⟨_, .pool bs, _, _⟩ _ _ | .splitEntry ⟨_, _, _, _, _, .tuple (.pool bs), _, _, _, _, _⟩ => 2080 * beatsOf bs.length
  | .remoteCopy _ _ | .remoteData _ _ _ _ _ => 0
  | b => 80 * beatsOf (bodyBytes b).length
/-- A complete message is handed to the package's networks in the name of the context's tenant (R314, R315); one for another package goes on to it (log
47). Data of a remote copy has been placed already. -/
def State.handOn (s : State) (c : Nat) (l : List SpirePacket) : State :=
  match l.findSome? fun k => k.body.map fun m => (k.sctx, m) with
  | none => s
  | some (cs, m) =>
    let p := s.peer c
    let tn := peerTenant p
    let body := match m.body with
      | .remoteCopy op r => Body.remoteCopy op (if r.bytes.isEmpty then r else { r with bytes := messageBytes l r.len })
      | b => farBody cs c b
    let m : Msg := { m with src := .peer c (agentNo m.src), tenant := tn, asid := s.afirst tn, sent := 0, perm := false, body := body, via := m.via.map (farAgent cs c) }
    let s := (s.setPeer c { p with asked := p.asked.eraseP fun e => endsAsk m (e.1, e.2.1) }).debit (peerPort p / 2) (farCost body)
    match body, m.dst with
    | .remoteData _ (_ :: _) _ _ _, _ => s
    | .deliver d, .tile x => (s.sendPermits m.src x tn m.asid d.op d.bytes.length).post m
    | _, _ => s.post m
/-- Hands on every complete message in message order, each once the reserve of the port's die covers it. -/
def State.handOnAll (s : State) (c : Nat) : Nat → State
  | 0 => s
  | f + 1 =>
    let p := s.peer c
    let l := p.message p.rxMsn
    let cost := ((l.findSome? SpirePacket.body).map fun m => farCost m.body).getD 0
    if wholeMessage l && s.covers (peerPort p / 2) cost then
      ((s.setPeer c { p with parts := p.parts.filter fun e => e.1 != p.rxMsn, rxMsn := (p.rxMsn + 1) % 2 ^ 32 }).handOn c l).handOnAll c f
    else s
/-- The next expected number, once every earlier packet has come. -/
def Peer.advance (p : Peer) : Nat → Peer
  | 0 => p
  | f + 1 => if p.rxSeen.contains p.rxNext then Peer.advance { p with rxSeen := p.rxSeen.filter (· != p.rxNext), rxNext := (p.rxNext + 1) % 2 ^ 32 } f else p
/-- A packet of a cached context, which arrived in cycle `at_`, is placed; one already received is discarded. The 2 µs before an ack run from the
arrival (R333). -/
def State.placePacket (s : State) (c at_ : Nat) (k : SpirePacket) : State :=
  let p := s.peer c
  if psnBefore k.psn p.rxNext || p.rxSeen.contains k.psn then s
  else
    let p := { p with rxSeen := p.rxSeen ++ [k.psn], parts := p.parts ++ [(k.msn, k)], ackCount := p.ackCount + 1,
                      ackDue := some (p.ackDue.getD (at_ + 2 * s.usCycles)) }
    let p := p.advance (p.rxSeen.length + 1)
    let s := s.setPeer c p
    let s := match k.type, k.body with
      | .data, some m => match m.body, m.dst with
        | .remoteData op _ _ _ base, .tile x => s.remoteLand x op (base + k.off) k.data
        | _, _ => s
      | _, _ => s
    let s := s.handOnAll c (p.parts.length + 1)
    if (s.peer c).ackCount ≥ 16 then s.sendAck c else s
/-- Processes a packet of a context that is on chip, which is a use of the context (R330). -/
def State.processPacket (s : State) (c at_ : Nat) (k : SpirePacket) : State :=
  let s := s.usePeer c
  if k.type = .ack then s.takeAck c k else s.placePacket c at_ k
/-- A frame is for this port's transport, with a correct UDP checksum (R328; what becomes of any other, log 57). -/
def SpirePort.accepts (v : SpirePort) (k : SpirePacket) : Bool :=
  let n := k.net
  n.dstMac == v.mac && n.dstIp == v.ipv6 && n.dstPort == v.udp.toNat && n.vlan == (if v.opts.getLsbD 12 then some (v.opts.toNat % 4096) else none) &&
    n.sum == udpChecksum n (spireWire k)
/-- A packet arrives at a port: dropped, staged until its context is on chip, or processed (R328, R329, R331). -/
def State.spireRx (s : State) (port : Nat) (k : SpirePacket) : State :=
  let v := s.spirePort port
  if !v.up then s
  else if k.bad then s.modBelfry fun b => { b with fragmentDrops := b.fragmentDrops + 1 }
  else if k.ver ≠ 1 ∨ k.type = .other ∨ v.accepts k = false then s
  else
    let c := k.rctx
    let p := s.peer c
    if !peerValid p ∨ peerPort p ≠ port then s
    else if p.cached then s.processPacket c (s.peerNow c) k
    else if s.staging ≥ 512 then s.modBelfry fun b => { b with stagingDrops := b.stagingDrops + 1 }
    else { s.setPeer c { p with waiting := p.waiting ++ [(s.peerNow c, k)] } with staging := s.staging + 1 }

/-! The context cache (R330, R331). -/
/-- Makes room for one context: the least recently used one with no packet in process is written back. The answer says whether there is room. -/
def State.evict (s : State) : State × Bool :=
  let on := s.peers.filter fun e => peerValid e.2 && e.2.cached
  if on.length < 4096 then (s, true)
  else
    let idle := on.filter fun e => e.2.window.isEmpty && e.2.txq.isEmpty && e.2.waiting.isEmpty
    match idle.foldl (fun (b : Option (Nat × Peer)) e => match b with
      | none => some e
      | some q => if e.2.used < q.2.used then some e else some q) none with
    | some (c, p) => (s.setPeer c { p with cached := false }, true)
    | none => (s, false)
/-- A context comes on chip; the packets that waited for it are processed in arrival order. -/
def State.contextFetched (s : State) (c : Nat) : State :=
  if !peerValid (s.peer c) || (s.peer c).cached then s
  else match s.evict with
    | (s, false) => s
    | (s, true) =>
      let w := (s.peer c).waiting
      let s := { s.modPeer c fun p => { p with cached := true, waiting := [] } with staging := s.staging - w.length }
      (w.foldl (fun s e => s.processPacket c e.1 e.2) (s.usePeer c)).spireFlush c

/-! Failure of a context (R334). -/
/-- A remote operation of a tile ends with CANCELLED. -/
def State.cancelRemote (s : State) (x : Nat) (o : TOp) : State :=
  match o.kind with
  | .copyr => s.endCopy x o stCANCELLED o.prog
  | .split => s.splitReport x o 0 0 stCANCELLED
  | .bars => s.barReply x o.id stCANCELLED 0
  | .putG => (s.settleGrant x o.desc.token false).endWith x o stCANCELLED
  | _ => s.endWith x o stCANCELLED
/-- An operation of tile `x` that travels on the context and has not ended. -/
def State.travelsOn (s : State) (c x : Nat) (o : TOp) : Bool :=
  let via := fun (pkg home : Nat) => s.contextTo (dieOf x) (s.tenantOf x) pkg home == some c
  match o.stage with
  | .queued | .ended _ _ => false
  | _ =>
    if isCopy o.kind then o.kind == .copyr && via (tokPkg o.desc.token) 0
    else !(o.kind == .send || o.kind == .tlbinv || o.kind == .crget || o.kind == .tstat || o.kind == .sleep || o.kind == .freeze) && !s.isLocal o.dest && via (o.dest / 65536 % 65536) (o.dest % 32)
/-- The splits between homes of this package and others that run over a failed context end: a source abandons, a target discards its copies and tells
the source, each at the context's next use (R321, R334; log 22). -/
def State.failSplits (s : State) (c : Nat) : State :=
  let onContext := fun (a : Option Agent) => match a with
    | some (.peer k _) => k == c
    | _ => false
  s.homes.foldl (fun s e =>
    let h := e.1
    if (s.home h).splitSrc.any fun sp => onContext (s.splitTarget h sp) then s.abandonSplit h stCANCELLED
    else match (s.home h).inert with
      | some i => if onContext (some i.src) then (s.modHome h fun v => { v with inert := none }).send (.home h) i.src i.tenant (s.afirst i.tenant) (.splitFull stCANCELLED) else s
      | none => s) s
/-- The context fails: every request sent on it that awaits its answer completes at its requester with CANCELLED, a notice tells the tenant, and the
context restarts from number 0 at its next use. The notice goes out in the name of the launch unit of the port's die. -/
def State.failContext (s : State) (c : Nat) : State :=
  let p := s.peer c
  let tn := peerTenant p
  let stays := fun (m : Msg) => match m.dst with
    | .peer k _ => k == c
    | _ => false
  let out := (p.asked.map fun e => (e.1, e.2.1)) ++ ((s.net.filter stays).filter fun m => bodyAsks m.body).map fun m => (m.src, m.body)
  let victims := (s.tileList tn).flatMap fun x => ((s.tile x).ops.filter fun o => s.travelsOn c x o).map fun o => (x, o)
  let ended := fun (e : Agent × Body) => (askOps e).all fun a => victims.any fun v => a == (.tile v.1, v.2.id)
  let s := { s with net := s.net.filter fun m => !stays m,
                    homes := s.homes.map fun (e : Nat × Home) => (e.1, { e.2 with notes := e.2.notes.filter fun n => n.2 != c }) }
  let s := { s.setPeer c { words := p.words, cached := p.cached, used := p.used, failed := true } with staging := s.staging - p.waiting.length }
  let s := victims.foldl (fun s v => s.cancelRemote v.1 v.2) s
  let s := (out.filter fun e => !ended e).foldl (fun s e =>
    let b := replyBody e.2 stCANCELLED 0 0 false
    s.post ⟨0, .peer c 0, replyTo b e.1, tn, s.afirst tn, 0, 0, false, b, none⟩) s
  ((s.failSplits c).notice (.launch (peerPort p / 2)) tn (keyOf [0x3FFFE, peerPkg p, c]) []).releaseFar
/-- The retransmit timer of a packet expires: it is sent again under a doubled timer, or after 16 expiries the context fails (R333, R334). -/
def State.retxTimeout (s : State) (c psn : Nat) : State :=
  let p := s.peer c
  match p.window.find? fun u => u.pkt.psn == psn with
  | none => s
  | some u =>
    if s.peerNow c < u.due then s
    else if u.expiries + 1 ≥ 16 then s.failContext c
    else
      let u' : Unacked := ⟨u.pkt, u.expiries + 1, s.peerNow c + retxCycles (u.expiries + 1) s.usCycles, true⟩
      (s.setPeer c { p with window := p.window.map fun v => if v.pkt.psn = psn then u' else v }).spireFlush c
/-- A port brings up its link while the configuration in force enables it and names a UDP port (R328, R440). -/
def State.spireLinkUp (s : State) (port : Nat) : State :=
  let v := s.spirePort port
  if v.en && v.udp != 0 then s.setSpirePort port { v with up := true } else s

/-- What waited for a die's energy: messages and acks to leave on a context, messages to be handed on from it (R416). -/
def State.linkFlush (s : State) (d : Nat) : State :=
  s.peers.foldl (fun s e =>
    let s := (s.spireFlush e.1).ackTimer e.1
    if peerPort e.2 / 2 = d then s.handOnAll e.1 (e.2.parts.length + 1) else s) s
/-- A die's share for a microsecond arrives, and what waited for it at the ports goes (R416). -/
def State.energyArrives (s : State) (d : Nat) : State :=
  if (s.die d).cycle.toNat < (s.die d).refillAt then s else ((s.energyRefill d).portFlush d).linkFlush d

/-! The events. -/
/-- `ENERGY_REFILL` (R416). -/
def execEnergyRefill (die : Nat) (s : State) : Host.Outcome State Fault Refusal := s.event fun s => s.energyArrives die
/-- `SPIRE_PACKET_RX` (R332). -/
def execSpirePacketRx (port : Nat) (pkt : SpirePacket) (s : State) : Host.Outcome State Fault Refusal := s.event fun s => s.spireRx port pkt
/-- `SPIRE_ACK_RX` (R333). -/
def execSpireAckRx (port : Nat) (pkt : SpirePacket) (s : State) : Host.Outcome State Fault Refusal := s.event fun s => s.spireRx port pkt
/-- `SPIRE_CONTEXT_FETCHED` (R331). -/
def execSpireContextFetched (ctx : Nat) (s : State) : Host.Outcome State Fault Refusal := s.event fun s => s.contextFetched ctx
/-- `SPIRE_ACK_TIMER` (R333). -/
def execSpireAckTimer (ctx : Nat) (s : State) : Host.Outcome State Fault Refusal := s.event fun s => s.ackTimer ctx
/-- `SPIRE_RETX_TIMEOUT` (R333). -/
def execSpireRetxTimeout (ctx : Nat) (psn : Nat) (s : State) : Host.Outcome State Fault Refusal := s.event fun s => s.retxTimeout ctx psn
/-- `SPIRE_LINK_UP` (R440). -/
def execSpireLinkUp (port : Nat) (s : State) : Host.Outcome State Fault Refusal := s.event fun s => s.spireLinkUp port

end Sys2Proof.Machine
end

