-- ==== Sys2Proof/Machine/Telemetry.lean ====
section
/-! DEFINITION. The belfry's Skeloz records and the telemetry mirror, and the contents of the fatal-state dump (14_device.md R437, R438, R441, R452). The
places of the fields inside a record, and of the items inside a section of the dump, are the model's choice (log 61). -/
namespace Sys2Proof.Machine

/-! The records of a sample (R437). -/
def Belfry.active (b : Belfry) : Bank := if b.active1 then b.bank1 else b.bank0
def Belfry.inactive (b : Belfry) : Bank := if b.active1 then b.bank0 else b.bank1
def updateNo : UpdateSt → Int
  | .idle => 0
  | .verified => 1
  | .failed => 2
  | .rolling => 3
  | .selfTestFailed => 4
  | .done => 5
def kindNo : WatchKind → Nat
  | .readWaiter => 0
  | .takeWaiter => 1
  | .readCont => 2
  | .takeCont => 3
  | .spec => 4
  | .reg => 5
/-- A field that does not apply reads all ones (R438). -/
def absent : Int := -1
/-- The first `n` readings of a list; what it does not hold does not apply. -/
def reading (l : List Nat) (n : Nat) : List Int := (List.range n).map fun i => ((l[i]?).map Int.ofNat).getD absent
/-- Some die share is held down by the planner (R454). -/
def State.heldDown (s : State) : Bool := s.dies.toList.any fun d => d.share < Config.fullShare
/-- The training state of a stack: 0 trained, 1 failed, 2 not yet trained (R437). -/
def State.training (s : State) (i : Nat) : Nat := if s.failedStacks.contains i then 1 else if s.trained.contains i then 0 else 2
/-- The fields of record 8 for one watch entry: home, tenant, kind, the key and care mask of its template, requester name, arrival sequence, age in µs. -/
def State.watchFields (s : State) (h : Nat) (w : Watch) : List Int :=
  let word := fun (k : Key) (i : Nat) => ((k.toNat / 2 ^ (64 * i) % 2 ^ 64 : Nat) : Int)
  [((s.homeName h).toNat : Int), (w.tenant : Int), (kindNo w.kind : Int)] ++ (List.range 4).map (word w.get.tmpl) ++ (List.range 4).map (word w.get.care) ++
    [((s.agentName w.who).toNat : Int), (w.arr : Int), (((s.die (h / 8)).cycle.toNat - w.entered) / s.usCycles : Nat)]
/-- The fields of one watch entry in record 8. -/
def watchStride : Nat := 14
/-- The records of a sample. Shares are in half microjoules, reserves in half picojoules. A link that is down has no speed or width, a stack
that is not trained no error counts. -/
def State.records (s : State) (r : Sensors) : Map (List Int) :=
  let b := s.belfry
  let dies := List.range 4
  let n := fun (m : Map Nat) => dies.map fun d => (m.at 0 d : Int)
  let up := fun (l : List Nat) => ((reading l 8).zip (List.range 8)).map fun e => if s.training e.2 = 0 then e.1 else absent
  let dead := s.tiles.flatMap fun e =>
    let m := ((List.range 4).map fun w => if (e.2.win w).dead then 2 ^ w else 0).sum
    if m = 0 then [] else [(e.1 : Int), (m : Int)]
  [(1, [(Config.partNumber : Int), (Config.serialNumber : Int), (b.fuseVersion : Int), (b.bank0.secver : Int), (b.bank0.code.toNat : Int), (b.bank1.secver : Int),
      (b.bank1.code.toNat : Int), (b.active1.toNat : Int)]),
    (2, [(r.power : Int)] ++ dies.flatMap (fun d => [((s.die d).share : Int), (s.die d).reserve]) ++ [(s.heldDown.toNat : Int)]),
    (3, r.die ++ r.cupola ++ r.stack ++ [r.inlet, r.outlet]),
    (4, n b.spCorrected ++ n b.winParity ++ n b.statParity ++ up r.stackCorrected ++ up r.stackUncorrected ++
      (List.range 8).map (fun i => (s.training i : Int)) ++ [(b.notices : Int)] ++ dead),
    (5, ((s.ports.toList.zip (reading r.aer 2)).flatMap fun p =>
        [if p.1.up then (p.1.rate : Int) else absent, if p.1.up then (p.1.width : Int) else absent, p.2]) ++ (s.spire.toList.map fun v => (v.up.toNat : Int)) ++
      (((reading r.fec 8).zip s.spire.toList).map fun e => if e.2.up then e.1 else absent) ++ [(b.stagingDrops : Int), (b.fragmentDrops : Int)]),
    (6, ((List.range 32).flatMap fun h =>
      let v := s.home h
      [(v.entries.length : Int), (v.watches.length : Int), (((List.range 256).map fun t => v.poolUse t).sum : Int), (v.dropped : Int)]) ++ [(b.rateDrops : Int)]),
    (7, [updateNo b.update, (s.patchedTiles : Int), (b.selfTestFailures : Int)]),
    (8, s.homes.flatMap fun h => h.2.watches.flatMap (s.watchFields h.1))]

/-! The mirror (R438). -/
/-- A signed number as a 64-bit field. -/
def field64 (v : Int) : Nat := (BitVec.ofInt 64 v).toNat
/-- A record as its words: id, version and length in bytes, then its fields, one word each. -/
def recordWords (id : Nat) (fields : List Int) : List W64 :=
  BitVec.ofNat 64 (id % 2 ^ 16 + Config.recordVersion id % 2 ^ 16 * 2 ^ 16 + (8 + 8 * fields.length) % 2 ^ 32 * 2 ^ 32) :: fields.map (BitVec.ofInt 64)
/-- The entries of record 8 that are a tenant's. -/
def ownWatches (tn : Nat) : Nat → List Int → List Int
  | 0, _ => []
  | f + 1, l => if l.isEmpty then [] else (if l.getD 1 0 = tn then l.take watchStride else []) ++ ownWatches tn f (l.drop watchStride)
/-- What a function's mirror shows: PF0 (number 256) every record, a virtual function records 1, 2 and 5 whole and its own part of record 8. -/
def Telemetry.view (t : Telemetry) (fn : Nat) : Map (List Int) :=
  if fn = 256 then t.records
  else (t.records.filter fun e => e.1 == 1 || e.1 == 2 || e.1 == 5 || e.1 == 8).map fun e => (e.1, if e.1 = 8 then ownWatches fn e.2.length e.2 else e.2)
/-- The mirror of a function: the stamp of the sample, then its records in ascending order. -/
def Telemetry.mirror (t : Telemetry) (fn : Nat) : List W64 := BitVec.ofNat 64 t.stamp :: (t.view fn).flatMap fun e => recordWords e.1 e.2

/-! The fatal-state dump (R441, R452). -/
/-- The dump region. -/
def dumpBase : Nat := 720896 * 65536
def dumpSize : Nat := 65536 * 65536
/-- The sections: id, offset, length in units of 64 KiB. -/
def dumpSections : List (Nat × Nat × Nat) :=
  [(1, 0x100000, 1536), (2, 0x6200000, 12288), (3, 0x36200000, 192), (4, 0x37000000, 6528), (5, 0x51000000, 20480), (6, 0xA1000000, 256)]
/-- Words of a part of the dump. -/
def wordBytes (l : List W64) : List Byte := l.flatMap fun w => bytesOfNat 8 w.toNat
def State.dumpWords (s : State) (off : Nat) (l : List W64) : State := s.writeDram (dumpBase + off) (wordBytes l)
/-- State that cannot be read: `n` words of all ones. -/
def unreadable (n : Nat) : List W64 := List.replicate n (BitVec.allOnes 64)
def num (n : Nat) : W64 := BitVec.ofNat 64 n
/-- A barrier-table entry as eight words. -/
def barWords (b : BarEntry) : List W64 :=
  [num (b.used.toNat + b.sent.toNat * 2 + b.reg.toNat * 256 + b.arr.toNat * 65536), b.handle, num b.phase, num b.sreg.length, num b.sarr.length, num b.pending.length, 0, 0]
def stageNo : Stage → Nat
  | .queued => 0
  | .sent => 1
  | .registered => 2
  | .pager => 3
  | .ended _ _ => 4
/-- A request-queue record as eight words. -/
def opWords (o : TOp) : List W64 :=
  [num o.id, num o.cid, num (stageNo o.stage), num o.dest, num o.dAddr, num o.rd.toNat, o.arg, num o.prog]
/-- Tile `x`'s part of the tile section: control parts, ready queue, barrier table, grant table, request-queue records, region status words, key
directory. -/
def State.dumpControl (s : State) (x : Nat) (t : Tile) : State :=
  let at_ := 0x100000 + 131072 * x
  let on := fun (q : Nat) (f : BarEntry → BitVec 8) => (List.range 16).filter fun e => (f (t.bar e)).getLsbD q
  let s := (List.range 8).foldl (fun s q => match (t.slot q).thr with
    | some th => s.dumpWords (at_ + 512 * q) (controlImage th (on q BarEntry.reg) (on q BarEntry.arr))
    | none => s) s
  let s := (List.range 4).foldl (fun s pr => ((t.ready.filter fun r => pktPrio r.words == pr).zip (List.range 64)).foldl (fun s r =>
    s.dumpWords (at_ + 4096 + (64 * pr + r.2) * 256) r.1.words) s) s
  let s := (List.range 16).foldl (fun s e => s.dumpWords (at_ + 0x11000 + 64 * e) (barWords (t.bar e))) s
  let s := s.dumpWords (at_ + 0x11400) (t.grants.flatMap fun g => [g.1, num g.2.toNat])
  let s := s.dumpWords (at_ + 0x11800) ((t.ops.take 64).flatMap opWords)
  let s := s.dumpWords (at_ + 0x12800) ((List.range 8).map fun r => (t.region r).word)
  s.dumpWords (at_ + 0x13000) (t.dir.flatMap fun e => if t.badDir.contains e.1 then unreadable 2 else [e.1, num e.2.toNat])
/-- Tile `x`'s scratchpad, full/empty bits and windows. A word with an uncorrectable error cannot be read. -/
def State.dumpData (s : State) (x : Nat) (t : Tile) : State :=
  let s := t.sp.foldl (fun s c => { s with dram := s.dram.write (dumpBase + 0x6200000 + x * 0x100000 + c.1) c.2 }) s
  let s := t.bad.foldl (fun s w => s.dumpWords (0x6200000 + x * 0x100000 + 8 * w) (unreadable 1)) s
  let s := t.full.foldl (fun s w =>
    let a := dumpBase + 0x36200000 + x * 16384 + w / 8
    { s with dram := s.dram.write a (s.dram.read a ||| (1#8 <<< (w % 8))) }) s
  (List.range 4).foldl (fun s w =>
    let v := t.win w
    let th := match v.owner with
      | some c => (t.thread c).getD {}
      | none => {}
    s.writeDram (dumpBase + 0x37000000 + 139264 * (4 * x + w)) (computeImage th v)) s
/-- The kind of an index entry (R250) and the 64 bytes of its payload item. -/
def cellKind : Cell → Nat
  | .tuple _ => 0
  | .range _ _ => 1
  | .join _ _ _ _ | .barrier _ _ _ _ => 2
  | .acc _ _ _ _ => 3
def cellWords (e : Entry) : List W64 :=
  match e.cell with
  | .tuple (.inline bs) => (List.range 8).map fun i => num (natOfBytes ((bs.drop (8 * i)).take 8))
  | .tuple (.pool bs) => [num ((e.blks.head?.map Blk.off).getD 0), num bs.length, 0, 0, 0, 0, 0, 0]
  | .tuple (.frozen h off len asid) => [h, num off, num len, num asid, 0, 0, 0, 0]
  | .tuple (.grant tok) => [tok, 0, 0, 0, 0, 0, 0, 0]
  | .range next hi => [num next, num hi, 0, 0, 0, 0, 0, 0]
  | .join target count _ tile => [num target, num count, tile.zeroExtend 64, 0, 0, 0, 0, 0]
  | .barrier target count phase tiles => [num target, num count, num phase, num tiles.length, 0, 0, 0, 0]
  | .acc n pk size got => [num n, num pk, num size, num got.length, 0, 0, 0, 0]
/-- An inline payload that cannot be read. -/
def unreadEntry (e : Entry) : Bool := e.bad.isSome && (match e.cell with
  | .tuple (.inline _) => true
  | _ => false)
def keyWords (k : Key) : List W64 := (List.range 4).map fun i => k.extractLsb' (64 * i) 64
/-- An index entry as 128 bytes. -/
def entryWords (e : Entry) : List W64 :=
  [num (e.tenant % 256 + cellKind e.cell * 256 + e.fmt % 32 * 65536)] ++ keyWords e.key ++ [num e.seq] ++ (if unreadEntry e then unreadable 8 else cellWords e) ++
    [e.shape.extractLsb' 0 64, e.shape.extractLsb' 64 64]
/-- A watch entry as 128 bytes. -/
def State.watchWords (s : State) (w : Watch) : List W64 :=
  [num (w.tenant % 256 + kindNo w.kind * 256)] ++ keyWords w.get.tmpl ++ keyWords w.get.care ++ [num (s.agentName w.who).toNat, num w.arr, 0, 0, 0, 0, 0]
/-- Home `h`'s index and watch table. -/
def State.dumpHome (s : State) (h : Nat) (v : Home) : State :=
  let at_ := 0x51000000 + 41943040 * h
  let s := v.entries.foldl (fun s e => s.dumpWords (at_ + 128 * e.place) (entryWords e)) s
  v.watches.foldl (fun s w => s.dumpWords (at_ + 128 * (Config.indexPlaces + w.place)) (s.watchWords w)) s
/-- Network and link counters, then the Skeloz records of the last sample. -/
def State.dumpCounters (s : State) : State :=
  let b := s.belfry
  let s := s.dumpWords 0xA1000000 [num b.notices, num b.stagingDrops, num b.fragmentDrops, num b.rateDrops]
  s.dumpWords 0xA1001000 (b.tele.mirror 256)
/-- The section directory: flag bit 0 for a section written whole, bit 1 for one with a part that could not be read. -/
def State.dumpDirectory (s : State) : List W64 :=
  let torn := fun (id : Nat) =>
    if id = 1 then s.tiles.any fun t => !t.2.badDir.isEmpty
    else if id = 2 then s.tiles.any fun t => !t.2.bad.isEmpty
    else id == 5 && s.homes.any fun h => h.2.entries.any unreadEntry
  dumpSections.flatMap fun e => [num (e.1 + (if torn e.1 then 2 else 1) * 2 ^ 16 + e.2.2 * 2 ^ 32), num e.2.1]
/-- Writes the dump, the header last (R452). -/
def State.writeDump (s : State) (cause : Nat) : State :=
  let s := { s with dram := s.dram.clear dumpBase (dumpBase + dumpSize) }
  let s := s.tiles.foldl (fun s e => (s.dumpControl e.1 e.2).dumpData e.1 e.2) s
  let s := (s.homes.foldl (fun s e => s.dumpHome e.1 e.2) s).dumpCounters
  let s := s.dumpWords 0x40 s.dumpDirectory
  s.dumpWords 0 [num (0x53545544 + Config.dumpVersion % 2 ^ 32 * 2 ^ 32), num 0xA2000000, num cause, num s.belfry.us]

end Sys2Proof.Machine
end

