-- ==== Sys2Proof/Machine/Reset.lean ====
section
/-! DEFINITION. The resource manager's records and commands, and the resets (13_system.md R409, R411; 14_device.md R430, R435, R440, R441, R446 to R452;
01_machine.md R39; 08_tuples_homes.md R276, R277; 11_sync.md R356). -/
namespace Sys2Proof.Machine

/-! Tile reset (R39, R276, R277). -/
/-- A combined request without the parts of one agent. -/
def combDrop (a : Agent) : Comb → Option Comb
  | .one b op n exit => if b = a then none else some (.one b op n exit)
  | .two sw u l => match combDrop a u, combDrop a l with
    | some u, some l => some (.two sw u l)
    | some u, none => some u
    | none, l => l
/-- What is left of a message when agent `a` is reset: its requests not yet performed go, but for the operations that `keep` names; its answers,
acknowledgements and withdrawals stand. -/
def dropSource (a : Agent) (keep : List Nat) (m : Msg) : Option Msg :=
  if m.dst = a then none
  else match m.body with
    | .rangeTake k _ w => (combDrop a w).map fun w => { m with src := headAgent w, body := .rangeTake k (askOf w) w }
    | .ctrAdd h _ w => (combDrop a w).map fun w => { m with src := headAgent w, body := .ctrAdd h (askOf w) w }
    | .put op _ => if m.src = a ∧ !keep.contains op then none else some m
    | .packet _ _ _ => if m.src = a ∧ m.sent = 1 then none else some m
    | b => if m.src = a ∧ bodyAsks b then none else some m
/-- A home holds something of an agent's: a waiter or continuation, a removal not acknowledged, a put that still streams in, reserved links, a frozen
delivery that waits on the pager. -/
def Home.keepsFor (v : Home) (a : Agent) : Bool :=
  v.watches.any (fun w => w.who == a && w.kind != .reg) || v.removals.any (fun r => r.who == a) || v.staged.any (fun p => p.who == a) ||
    v.links.any (fun l => l.1 == a) || v.aux.any fun e => auxFor a e.2
/-- A cancel to every home of the package that still holds something of an agent's (R276, R277). -/
def State.cancelAt (s : State) (a : Agent) (tn : Nat) : State :=
  ((List.range 32).filter fun h => (s.home h).keepsFor a).foldl (fun s h => s.send a (.home h) tn (s.afirst tn) .resetCancel) s
/-- A cancel to the homes of other packages, on every peer context of a tenant: whatever of an agent's stands there, whoever has sent it on, goes (R276,
R277). -/
def State.cancelFar (s : State) (a : Agent) (tn : Nat) : State :=
  s.peers.foldl (fun s e => if peerValid e.2 && peerTenant e.2 == tn then
      (List.range 32).foldl (fun s h => s.send a (.peer e.1 h) tn (s.afirst tn) .resetCancel) s
    else s) s
/-- A tile may have something at a home of another package: an operation that has left its queue, a take of a pager's resolution, a watch. -/
def Tile.abroad (t : Tile) : Bool :=
  t.ops.any (fun o => o.stage != .queued && !isCopy o.kind) ||
  t.aux.any (fun e => match e.2 with
    | .resolve _ _ dst => isPeer dst
    | _ => false) ||
  t.slots.toList.any (fun q => match q.thr.bind Thread.spec with
    | some sp => sp.watches.any isPeer
    | none => false)
/-- What was on its way to a tile that has been reset is discarded. For a packet a fault notice goes out, and a `SEND` ends with CANCELLED (R39, R255,
R383); a notification from another package counts as received (R339). -/
def State.discardFor (s : State) (m : Msg) : State :=
  match m.body with
  | .packet _ sender handle => (s.lostNotice m.src m.tenant handle).sendReply m sender stCANCELLED
  | _ => s.noteBack m
/-- The returns of grants and the notices that an agent has under way, which outlast it (R264, R467). -/
def standing (aux : Map Aux) : Map Aux := aux.filter fun e => match e.2 with
  | .putBack _ | .notice => true
  | _ => false
/-- A tile reset to a tenant, or to none. Each permit not yet used goes back to its home (R276); a grant on its way back to its home, and a notice, stay so
(R264, R467). -/
def State.resetTile (s : State) (x : Nat) (tn : Option Nat) : State :=
  let t := s.tile x
  let a := Agent.tile x
  let old := t.tenant.getD 0
  let lost := s.net.filter fun m => m.dst == a
  let s := { s with net := s.net.filterMap (dropSource a ((standing t.aux).map Prod.fst)) }
  let s := t.permits.foldl (fun s p => s.send a p.2.2 old (s.afirst old) (.permitCancel p.1)) s
  let s := s.cancelAt a old
  let s := if t.abroad then s.cancelFar a old else s
  let s := lost.foldl (fun s m => s.discardFor m) s
  let asid := match tn with
    | some n => s.afirst n
    | none => 0
  let tvec := match tn with
    | some n => recTvec (s.tenantRec n)
    | none => 0
  (s.setTile x { tenant := tn, asid := asid, tvec := tvec, wins := t.wins.map fun w => { dead := w.dead }, patch := t.patch, aux := standing (s.tile x).aux,
                     acted := t.acted, bound := t.bound, swapped := t.swapped }).releaseFar

/-! Slot, window, region and copy-engine resets (R447). -/
/-- The slot's context ends as by `FREE`; a speculative one is discarded without rollback (R356, R388). -/
def State.resetSlot (s : State) (x q : Nat) : State :=
  match s.thr x q with
  | none => s
  | some th =>
    let s := match th.spec with
      | some sp => s.unwatch x th.cid sp
      | none => s
    s.discard x th.cid
/-- A resource command register holds this command, still running (R435). -/
def commandRuns (w : W64) (op idx tile : Nat) : Bool := bitsOf w 63 1 == 1 && bitsOf w 56 3 == op && bitsOf w 40 3 == idx && bitsOf w 0 32 == tile
/-- A window may be reset: no owner, nothing queued. -/
def Window.idle (w : Window) : Bool := w.owner.isNone && w.queue.isEmpty && w.busy.isNone
def Window.clear (w : Window) : Window :=
  { w with rows := (w.rows.map fun e => (e.1, e.2 &&& (BitVec.ofNat 264 255 <<< 256))).filter fun e => e.2 != 0,
           ucode := Vector.replicate 128 0, badPar := [], resetDue := false }
/-- A forced `MUNSTAT`: the region's matrix instructions end with BOUNDS, those not started when their turn comes (R236, R447). -/
def Tile.resetRegion (t : Tile) (r : Nat) : Tile :=
  let end_ := fun (o : MxOp) =>
    if t.mxRegion o = r ∧ (o.started ∨ o.kind = .mstat) then { o with started := true, region := r, status := stBOUNDS, gd := BitVec.ofNat 64 stBOUNDS, banks := 0 } else o
  let t := t.unstat r
  ({ t with mxq := t.mxq.map end_ }).setRegion r {}
/-- Copies in flight end with CANCELLED after their delivered blocks. -/
def State.resetCopies (s : State) (x : Nat) : State :=
  ((s.tile x).ops.filter fun o => isCopy o.kind && (o.stage == .sent || o.stage == .pager)).foldl (fun s o => s.endCopy x o stCANCELLED o.prog) s

/-! The resource command register (R435). -/
def commandWord (busy st op idx tn : Nat) (tile : BitVec 32) : W64 :=
  BitVec.ofNat 64 (busy * 2 ^ 63 + op % 8 * 2 ^ 56 + st * 2 ^ 48 + idx % 8 * 2 ^ 40 + tn % 256 * 2 ^ 32 + tile.toNat)
/-- Carries out a resource command of port `p`. A window reset waits, busy, until its window is free. -/
def State.command (s : State) (p op idx tn : Nat) (tile : BitVec 32) : State :=
  let answer := fun (s : State) (busy st : Nat) => s.modPort p fun h => { h with command := commandWord busy st op idx tn tile }
  let again := commandWord 1 0 op idx tn tile
  if bitsOf (s.port p).command 63 1 = 1 ∧ (s.port p).command ≠ again then s
  else match s.tileOf tile.toNat with
    | none => answer s 0 1
    | some x =>
      let mine := match (s.tile x).tenant with
        | none => true
        | some t => recPort (s.tenantRec t) == p
      if op > 5 ∨ idx > 7 ∨ (op = 3 ∧ idx > 3) then answer s 0 1
      else if !mine ∨ (op = 0 ∧ !s.fnOn p tn) then answer s 0 2
      else match op with
        | 0 => answer (s.resetTile x (some tn)) 0 0
        | 1 => answer (s.resetTile x none) 0 0
        | 2 => answer (s.resetSlot x idx) 0 0
        | 3 =>
          let w := (s.tile x).win idx
          if w.idle then answer (s.modTile x fun t => t.setWin idx w.clear) 0 0
          else answer (s.modTile x fun t => t.setWin idx { w with resetDue := true }) 1 0
        | 4 => answer (s.modTile x fun t => t.resetRegion idx) 0 0
        | _ => answer (s.resetCopies x) 0 0

/-! Tenant records, peer records, package configuration (R409, R411, R430, R440, R441). -/
/-- The reserved DRAM ranges (R441): stack, base and size in bytes. -/
def reservedRanges : List (Nat × Nat × Nat) := [(0, 720896 * 65536, 65536 * 65536), (1, 785920 * 65536, 512 * 65536)]
/-- A valid DRAM window word, or the valid pool word of stack `i`, overlaps a reserved range. -/
def windowClash (w : W64) : Bool :=
  bitsOf w 63 1 == 1 && reservedRanges.any fun r =>
    r.1 == bitsOf w 40 3 && (let b := bitsOf w 0 20 * 65536; b < r.2.1 + r.2.2 && r.2.1 < b + bitsOf w 20 20 * 65536)
def poolClash (i : Nat) (w : W64) : Bool :=
  bitsOf w 63 1 == 1 && reservedRanges.any fun r =>
    r.1 == i && (let b := bitsOf w 0 24 * 4096; b < r.2.1 + r.2.2 && r.2.1 < b + bitsOf w 24 24 * 4096)
/-- Word `i` of a tenant record is a window or pool that overlaps a reserved range. -/
def wordClash (i : Nat) (w : W64) : Bool := (8 ≤ i && i < 24 && windowClash w) || (24 ≤ i && i < 32 && poolClash (i - 24) w)
/-- The unsupported-request status of PF0 of a port (R430). -/
def State.unsupported (s : State) (p : Nat) : State := s.modFn p 256 fun f => { f with aerUR := true }
/-- The bits of word `i` of a tenant record that are not reserved (R5, R409, R410). -/
def tenantMask (i : Nat) : W64 :=
  if i = 0 then 0x800000FFFFFFFFFF
  else if i ≤ 2 then 0x0000FFFFFFFFFFF0
  else if i = 3 then 0x0000FFFFFFFF0000
  else if i = 4 then 0x3FFF1FFF
  else if i ≤ 6 then 0x0000FFFFFFFFFFF8
  else if i = 7 then 0xFFFFFFFF
  else if i < 24 then 0x800007FFFFFFFFFF
  else 0x8000FFFFFFFFFFFF
/-- The bits of word `i` of a peer record that are not reserved (R5, R411). -/
def peerMask (i : Nat) : W64 :=
  if i = 0 then 0xFFFFFFFF00070001 else if i = 1 then 0x0000FFFFFFFFFFFF else if i ≤ 3 then BitVec.allOnes 64 else 0
/-- A write to a tenant record; reserved bits stay zero (R409, R430, R441). A tenant that leaves takes its forwarding records with it (R326). -/
def State.tenantWrite (s : State) (p tn off : Nat) (val : W64) : State :=
  let r := s.tenantRec tn
  let i := off / 8
  let val := val &&& tenantMask i
  let put := fun (s : State) (v : W64) => { s with tenants := s.tenants.put tn (r.setIfInBounds i v) }
  if tn ≥ 256 ∨ off ≥ 256 ∨ off % 8 ≠ 0 then s
  else if recValid r ∧ recPort r ≠ p then s.unsupported p
  else if i = 0 then
    if bitsOf val 63 1 = 1 then
      if (List.range 32).any fun j => wordClash j (recWord r j) then (put s (val &&& BitVec.ofNat 64 (2 ^ 63 - 1))).unsupported p
      else { put s val with lock := true }
    else
      let s := put s val
      if recValid r then { s with homes := s.homes.map fun h => (h.1, { h.2 with forwards := h.2.forwards.filter fun f => f.tenant != tn }) } else s
  else if recValid r && wordClash i val then s.unsupported p
  else put s val
/-- A write to the peer table, by the port of the tenants that the record names before and after it; reserved bits stay zero (R411, R430). -/
def State.peerWrite (s : State) (p c word : Nat) (val : W64) : State :=
  let v := s.peer c
  let val := val &&& peerMask word
  let new := v.words.setIfInBounds word val
  let tn := bitsOf (if word = 0 then val else peerWord v 0) 32 8
  let put := fun (s : State) => s.modPeer c fun q => { q with words := new }
  if c ≥ 65536 ∨ word ≥ 8 then s
  else if !s.fnOn p tn || peerValid v && !s.fnOn p (peerTenant v) then s.unsupported p
  else if word ≠ 0 then put s
  else if val.getLsbD 0 then
    let (s, room) := if v.cached && peerValid v then (s, true) else s.evict
    { (s.setPeer c { words := new, cached := room, asked := v.asked }).usePeer c with staging := s.staging - v.waiting.length }
  else put (if peerValid v then s.failContext c else s)
/-- Word `off` of the package configuration record (R440, R441). -/
def State.cfgWord (s : State) (off : Nat) : W64 :=
  if off = 0 then BitVec.ofNat 64 (s.lock.toNat * 2 ^ 17 + s.pkg.toNat)
  else if off = 8 then s.rollout.zeroExtend 64
  else if 0x40 ≤ off ∧ off < 0x240 then
    let c := s.portCfg[off / 64 - 1]?.getD {}
    match off % 64 with
    | 0 => c.word0
    | 8 => c.word1
    | 16 => c.ip0
    | 24 => c.ip1
    | _ => 0
  else if off = 0x300 then BitVec.ofNat 64 (2 ^ 63 + 65536 * 2 ^ 20 + 720896)
  else if off = 0x308 then BitVec.ofNat 64 (2 ^ 63 + 2 ^ 40 + 512 * 2 ^ 20 + 785920)
  else 0
/-- Writes a word of the package configuration record: the pkg lock, reserved bits read zero. -/
def State.cfgWrite (s : State) (off : Nat) (val : W64) : State :=
  if off = 0 then if s.lock ∨ bitsOf val 0 16 = 0xFFFF then s else { s with pkg := val.truncate 16 }
  else if off = 8 then { s with rollout := val.truncate 32 }
  else if 0x40 ≤ off ∧ off < 0x240 then
    let i := off / 64 - 1
    let c := s.portCfg[i]?.getD {}
    let set := fun (c : PortCfg) => { s with portCfg := s.portCfg.setIfInBounds i c }
    match off % 64 with
    | 0 => set { c with word0 := val &&& 0x8000FFFFFFFFFFFF }
    | 8 => set { c with word1 := val &&& 0xFFFF003F00001FFF }
    | 16 => set { c with ip0 := val }
    | 24 => set { c with ip1 := val }
    | _ => s
  else s
/-- Writes bytes of the package configuration record, word by word. -/
def State.cfgBytes (s : State) (off : Nat) (bs : List Byte) : State :=
  if bs.isEmpty then s
  else
    (List.range ((off + bs.length - 1) / 8 - off / 8 + 1)).foldl (fun s i =>
      let w := (off / 8 + i) * 8
      let old := bytesOfNat 8 (s.cfgWord w).toNat
      s.cfgWrite w (BitVec.ofNat 64 (natOfBytes ((List.range 8).map fun j =>
        if off ≤ w + j ∧ w + j < off + bs.length then bs.getD (w + j - off) 0 else old.getD j 0)))) s

/-! Function, host-port and spire-port resets (R447). -/
/-- A function's slots: takes not yet completed are withdrawn, records not yet sent are dropped, its registers return to reset; puts already
sent, and grants on their way back, stand. -/
def State.resetFn (s : State) (p n : Nat) : State :=
  let a := Agent.host p n
  let takes := (((s.port p).fn n).ops.filter fun o => !o.put).map HostOp.id
  let gone := fun (m : Msg) => match m.body with
    | .get op _ => m.src == a && takes.contains op
    | .deliver d => m.dst == a && takes.contains d.op
    | _ => false
  let s := { s with net := s.net.filter fun m => !gone m }
  let s := if takes.isEmpty then s else (s.cancelAt a n).cancelFar a n
  (s.modFn p n fun f => { putBacks := f.putBacks }).modPort p fun h => { h with pulls := h.pulls.filter fun q => q.1 != n }
/-- Every function of a port; a window reset that its command register still waits for goes with it, unless the other port waits for it too. -/
def State.resetHostPort (s : State) (p : Nat) : State :=
  let s := ((s.port p).fns.map Prod.fst).foldl (fun s n => s.resetFn p n) s
  let w := (s.port p).command
  let idx := bitsOf w 40 3
  let s := (s.resetFn p 256).modPort p fun h => { h with up := false, width := 0, rate := 0, command := 0, routes := [], waitRoutes := [] }
  let waits := fun (w : W64) => commandRuns w 3 idx (bitsOf w 0 32)
  match s.tileOf (bitsOf w 0 32) with
  | some x => if waits w && !(List.range 2).any fun q => commandRuns (s.port q).command 3 idx (bitsOf w 0 32) then
      s.modTile x fun t => t.setWin idx { t.win idx with resetDue := false }
    else s
  | none => s
/-- A spire port: its contexts fail; its configuration takes effect (R440, R447). -/
def State.resetSpirePort (s : State) (q : Nat) : State :=
  let mine := (s.peers.filter fun e => peerValid e.2 && peerPort e.2 == q).map Prod.fst
  let s := s.setSpirePort q { s.spirePort q with up := false }
  let s := mine.foldl (fun s c => s.failContext c) s
  let c := s.portCfg[q]?.getD {}
  if q < 8 then s.setSpirePort q { s.spirePort q with en := bitsOf c.word0 63 1 == 1, mac := c.word0.truncate 48, udp := c.word1.extractLsb' 48 16,
                                                      opts := c.word1.truncate 48, ipv6 := ipv6Of c.ip0 c.ip1 }
  else s

/-! Home reset (R447, R448). -/
/-- The tenants that a home serves: those with anything at it (log 26). -/
def Home.served (v : Home) : List Nat := (v.entries.map Entry.tenant ++ v.watches.map Watch.tenant ++ v.removals.map Removal.tenant ++ v.staged.map Staged.tenant).eraseDups
/-- A request that a home will not perform ends with CANCELLED. -/
def State.cancelRequest (s : State) (h : Nat) (m : Msg) : State :=
  let s := s.dropMsg m.id
  match m.body with
  | .split r => s.splitEnd h m.src m.tenant r.op 0 0 stCANCELLED
  | .remoteCopy op c => s.send (.home h) m.src m.tenant m.asid (.remoteData op [] c.block stCANCELLED c.va)
  | _ => s.reply h m stCANCELLED 0
/-- The requests that a home has sent on to other packages and that await their answers end with CANCELLED (R448). -/
def State.cancelSentOn (s : State) (h : Nat) : State :=
  s.peers.foldl (fun s e =>
    let mine := e.2.asked.filter fun r => r.2.2 == some (.home h)
    let tn := peerTenant e.2
    mine.foldl (fun s r =>
      let b := replyBody r.2.1 stCANCELLED 0 0 true
      s.post ⟨0, .home h, replyTo b r.1, tn, s.afirst tn, 0, 0, false, b, none⟩)
      (s.modPeer e.1 fun p => { p with asked := p.asked.filter fun r => r.2.2 != some (.home h) })) s
/-- Resets a home. `keep` says that its forwarding records survive. A put that still streams in ends with CANCELLED, and the permits for it are gone. -/
def State.resetHome (s : State) (h : Nat) (keep : Bool) : State :=
  let v := s.home h
  let served := v.served
  let s := match v.splitSrc with
    | some _ => s.abandonSplit h stCANCELLED
    | none => s
  let s := match v.inert with
    | some i => match i.src with
      | .home g => s.abandonSplit g stCANCELLED
      | a => s.send (.home h) a i.tenant (s.afirst i.tenant) (.splitFull stCANCELLED)
    | none => s
  let s := (v.watches.filter fun w => w.kind != .spec && w.kind != .reg).foldl (fun s w => s.deliverNone h w stCANCELLED false) s
  let s := v.aux.foldl (fun s e => match e.2 with
    | .faultPut _ va _ why => s.endFault (.home h) va why stCANCELLED
    | .resolve va why _ => s.endFault (.home h) va why stCANCELLED
    | _ => s) s
  let out := s.net.filter fun (m : Msg) => (m.via == some (.home h) && bodyAsks m.body) || (m.dst == Agent.home h && m.perm)
  let s := (out.foldl (fun s m => s.cancelRequest h m) s).cancelSentOn h
  let gone := fun (p : Nat × Nat × Agent) => p.2.2 == Agent.home h && out.any fun m => (streamOf m).any fun e => e.2.1 == p.1
  let s := { s with tiles := s.tiles.map fun (e : Nat × Tile) => (e.1, { e.2 with permits := e.2.permits.filter fun p => !gone p }),
                    net := s.net.map fun (m : Msg) => if m.src = Agent.home h then { m with body := streamedOut m.body } else m }
  let s := s.modHome h fun v => { gens := v.gens, forwards := if keep then v.forwards else [], moved := if keep then v.moved else [], dropped := v.dropped }
  served.foldl (fun s tn => s.notice (.home h) tn (keyOf [0x6FFFE, (s.homeName h).toNat]) []) s

/-! Die and package reset, bring-up (R447, R449, R450). -/
/-- A launch unit: what it has on the networks goes, and its waiters at the homes. -/
def State.resetLaunch (s : State) (d : Nat) : State :=
  let a := Agent.launch d
  let tenants := (s.die d).launch.waiters.map Prod.fst
  let s := { s with net := s.net.filterMap (dropSource a (s.die d).launch.notices) }
  (tenants.foldl (fun s tn => (s.cancelAt a tn).cancelFar a tn) s).modDie d fun v => { v with launch := { notices := v.launch.notices, tables := v.launch.tables } }
/-- A die: its tiles, launch unit, networks, spire ports and the homes of its two cupolas; its cycle count starts again (R396). The requests of others to
those homes complete with CANCELLED. -/
def State.resetDie (s : State) (d : Nat) : State :=
  let mine := fun (h : Nat) => h / 8 == d
  let tiles := (s.tiles.map Prod.fst).filter fun x => dieOf x == d
  let s := (tiles.foldl (fun s x => s.resetTile x none) s).resetLaunch d
  let s := s.net.foldl (fun s m => match m.dst with
    | .home h => if mine h && bodyAsks m.body then s.cancelRequest h m else s
    | _ => s) s
  let s := ((List.range 32).filter mine).foldl (fun s h => s.resetHome h false) s
  let s := (s.resetSpirePort (2 * d)).resetSpirePort (2 * d + 1)
  s.modDie d fun v => { v with cycle := 0, refillAt := 0, reserve := Config.reserveCap }
/-- Package reset: reduced service, nothing but the fuses, the firmware banks, the dump region and the power signals is preserved. `dead` lists
the windows that fail their self-test, as tile and window (R447, R449). -/
def State.packageReset (s : State) (dead : List (Nat × Nat)) : State :=
  let b := s.belfry
  let fresh : State := {}
  let s' : State := { fresh with
    dram := s.dram.filter fun c => decide (dumpBase ≤ c.1) && decide (c.1 < dumpBase + dumpSize), dump := s.dump, power := s.power
    belfry := { bank0 := b.bank0, bank1 := b.bank1, active1 := b.active1, fuseVersion := b.fuseVersion, sent := b.sent, fetched := b.sent.length }
    cur := s.cur, turn := s.turn, script := s.script, nextId := s.nextId, freeCtr := s.freeCtr }
  dead.foldl (fun s e => s.modTile e.1 fun t => t.setWin e.2 { t.win e.2 with dead := true }) s'
/-- A bring-up home forwards what names a handle that has moved to another home (R325, R326): one record for each target. -/
def State.learnMove (s : State) (h tn : Nat) (target : BitVec 32) (old new : W64) : State :=
  s.modHome h fun v =>
    let mine := fun (f : Fwd) => f.tenant == tn && f.space == 0x10000 && f.target == target
    if v.forwards.any mine then { v with forwards := v.forwards.map fun (f : Fwd) => if mine f then { f with handles := f.handles ++ [(old, new)] } else f }
    else { v with forwards := v.forwards ++ [⟨tn, 0x10000, 0, 0, 0, target, [(old, new)]⟩] }
/-- Moves one index entry of a bring-up home to its routed home, its payload where it is; the handle map of moved cells goes with it (R325, R449, R450). -/
def State.moveEntry (s : State) (h : Nat) (e : Entry) : State :=
  match s.routeKey (h / 8) e.tenant (s.afirst e.tenant) e.key (BitVec.allOnes 256) with
  | (none, s) =>
    let s := s.dropEntry h e.place
    (s.modHome h fun v => { v with dropped := v.dropped + 1 }).modBelfry fun b => { b with rateDrops := b.rateDrops + 1 }
  | (some (.home g), s) =>
    if g = h then s
    else
      let old := entryHandle e (s.homeName h)
      let (s, e') := (s.dropEntry h e.place).insert g e.tenant { key := e.key, cell := e.cell, fmt := e.fmt, shape := e.shape, bad := e.bad, blks := e.blks } .fresh
      if isTup e.cell then s
      else
        let new := entryHandle e' (s.homeName g)
        (s.modHome g fun v => { v with moved := v.moved ++ [(old, new)] }).learnMove h e.tenant (s.homeName g) old new
  | (some dst, s) =>
    let old := entryHandle e (s.homeName h)
    let s := (s.dropEntry h e.place).send (.home h) dst e.tenant (s.afirst e.tenant) (.moveEntry e)
    if isTup e.cell then s else s.learnMove h e.tenant (s.homeOfAgent dst) old old
/-- Moves one watch entry; a waiter whose route fails completes with MISROUTE. -/
def State.moveWatch (s : State) (h : Nat) (w : Watch) : State :=
  match s.routeKey (h / 8) w.tenant (s.afirst w.tenant) w.get.tmpl w.get.care with
  | (none, s) => (s.dropWatch h w.place).deliverNone h w stMISROUTE false
  | (some (.home g), s) =>
    if g = h then s
    else
      let (s, w') := (s.dropWatch h w.place).installWatch g w.tenant w (s.watchLeft h w) w.blks
      let old := watchHandle w (s.homeName h)
      let new := watchHandle w' (s.homeName g)
      (s.modHome g fun v => { v with moved := v.moved ++ [(old, new)] }).learnMove h w.tenant (s.homeName g) old new
  | (some dst, s) =>
    let old := watchHandle w (s.homeName h)
    let left := s.watchLeft h w
    let s := s.dropWatch h w.place
    if w.kind = .reg then s
    else (s.send (.home h) dst w.tenant (s.afirst w.tenant) (.moveWatch w left)).learnMove h w.tenant (s.homeOfAgent dst) old old
/-- The change to full rate: a stack that fails training leaves the package in reduced service; else every bring-up home moves what it holds, and
the launch units enter their waiters (R449, R450). -/
def State.fullRate (s : State) (failed : List Nat) : State :=
  let failed := failed.filter (· < 8)
  if s.service ≠ .reduced then s
  else
    let s := { s with trained := (List.range 8).filter fun i => !failed.contains i, failedStacks := failed }
    if !failed.isEmpty then s
    else
      let s := { s with service := .full }
      let s := (List.range 32).foldl (fun s h =>
        let s := ((s.home h).entries.filter fun e => e.tenant % 32 == h).foldl (fun s e => s.moveEntry h e) s
        ((s.home h).watches.filter fun w => w.tenant % 32 == h).foldl (fun s w => s.moveWatch h w) s) s
      (List.range 4).foldl (fun s d => ((List.range 256).filter fun tn => recValid (s.tenantRec tn)).foldl (fun s tn => s.retryWaiter d tn) s) s

/-! The fatal state (R451, R452). -/
/-- The package stops: tiles, host ports and spire ports; the belfry writes the dump. -/
def State.fatalEntry (s : State) (cause : Nat) : State := { s.writeDump cause with service := .fatal, fatalCause := cause, dump := some cause }

/-! The events. -/
/-- `TILE_RESET_TO_TENANT` (R39). -/
def execTileResetToTenant (port : Nat) (tile : BitVec 32) (tenant : Nat) (s : State) : Host.Outcome State Fault Refusal := s.event fun s => s.command port 0 0 tenant tile
/-- `TILE_RESET_NO_TENANT` (R39). -/
def execTileResetNoTenant (port : Nat) (tile : BitVec 32) (s : State) : Host.Outcome State Fault Refusal := s.event fun s => s.command port 1 0 0 tile
/-- `COPY_ENGINE_RESET` (R447). -/
def execCopyEngineReset (port : Nat) (tile : BitVec 32) (s : State) : Host.Outcome State Fault Refusal := s.event fun s => s.command port 5 0 0 tile
/-- `SLOT_RESET` (R447). -/
def execSlotReset (port : Nat) (tile : BitVec 32) (idx : Nat) (s : State) : Host.Outcome State Fault Refusal := s.event fun s => s.command port 2 idx 0 tile
/-- `WINDOW_RESET` (R447). -/
def execWindowReset (port : Nat) (tile : BitVec 32) (idx : Nat) (s : State) : Host.Outcome State Fault Refusal := s.event fun s => s.command port 3 idx 0 tile
/-- `REGION_RESET` (R447). -/
def execRegionReset (port : Nat) (tile : BitVec 32) (idx : Nat) (s : State) : Host.Outcome State Fault Refusal := s.event fun s => s.command port 4 idx 0 tile
/-- `TENANT_RECORD_WRITE` (R409). -/
def execTenantRecordWrite (port : Nat) (tenant : Nat) (off : Nat) (val : W64) (s : State) : Host.Outcome State Fault Refusal := s.event fun s => s.tenantWrite port tenant off val
/-- `PEER_RECORD_WRITE` (R411). -/
def execPeerRecordWrite (port : Nat) (ctx : Nat) (word : Nat) (val : W64) (s : State) : Host.Outcome State Fault Refusal := s.event fun s => s.peerWrite port ctx word val
/-- `PKG_CONFIG_WRITE` (R440). -/
def execPkgConfigWrite (_port : Nat) (off : Nat) (val : W64) (s : State) : Host.Outcome State Fault Refusal := s.event fun s => s.cfgWrite off val
/-- `DIE_RESET` (R447). -/
def execDieReset (die : Nat) (s : State) : Host.Outcome State Fault Refusal := s.event fun s => if die < 4 then s.resetDie die else s
/-- `HOME_RESET` (R447). -/
def execHomeReset (home : Nat) (s : State) : Host.Outcome State Fault Refusal := s.event fun s => if home < 32 then s.resetHome home true else s
/-- `TILE_RESET_MCTP` (R447). -/
def execTileResetMctp (tile : Nat) (s : State) : Host.Outcome State Fault Refusal := s.event fun s => if tile < Config.tiles then s.resetTile tile none else s
/-- `SPIRE_PORT_RESET` (R447). -/
def execSpirePortReset (port : Nat) (s : State) : Host.Outcome State Fault Refusal := s.event fun s => s.resetSpirePort port
/-- `HOST_PORT_RESET` (R447). -/
def execHostPortReset (port : Nat) (s : State) : Host.Outcome State Fault Refusal := s.event fun s => s.resetHostPort port
/-- `FUNCTION_RESET` (R447). -/
def execFunctionReset (port : Nat) (fn : Nat) (s : State) : Host.Outcome State Fault Refusal := s.event fun s => s.resetFn port fn
/-- `FULL_RATE_SWITCH` (R450). -/
def execFullRateSwitch (failed : List Nat) (s : State) : Host.Outcome State Fault Refusal := s.event fun s => s.fullRate failed
/-- `FATAL_ENTRY` (R451). -/
def execFatalEntry (cause : Nat) (s : State) : Host.Outcome State Fault Refusal := s.event fun s => s.fatalEntry cause
/-- `PACKAGE_RESET` (R447): also out of the fatal state (R452); nothing happens without power. -/
def execPackageReset (badWins : List (Nat × Nat)) (s : State) : Host.Outcome State Fault Refusal :=
  .next (if s.service = .off then s else s.packageReset badWins)

end Sys2Proof.Machine
end

