-- ==== Sys2Proof/Machine/Belfry.lean ====
section
/-! DEFINITION. The belfry: management protocols, telemetry, firmware update, the energy planner; power and cooling (14_device.md R436 to R445, R453
to R457). Command numbers are those of the named standards (PRESUMED, log 28). -/
namespace Sys2Proof.Machine

/-- A belfry event: nothing happens without power; in the fatal state the belfry runs on (R452). -/
def State.manage (s : State) (f : State → State) : Host.Outcome State Fault Refusal := .next (if s.service = .off then s else f s)
/-- Sends a reply of protocol `proto`: 0 MCTP control, 0x100 + type PLDM, 5 SPDM. -/
def State.answer (s : State) (proto cmd : Nat) (data : List Nat) : State := s.modBelfry fun b => { b with sent := b.sent ++ [⟨proto, cmd, data⟩] }
/-- A reply of one number that the manual leaves open. -/
def State.answerFree (s : State) (proto cmd : Nat) : State := (s.answer proto cmd [Config.freeNumber s.freeCtr]).draw

/-! MCTP and PLDM (R436, R437, R440). -/
/-- MCTP control: 1 Set Endpoint ID, 2 Get Endpoint ID; 0 and 255 are no endpoint. -/
def State.mctpControl (s : State) (cmd arg : Nat) : State :=
  if cmd = 1 then
    let s := if 0 < arg ∧ arg < 255 then s.modBelfry fun b => { b with eid := arg } else s
    s.answer 0 cmd [s.belfry.eid]
  else if cmd = 2 then s.answer 0 cmd [s.belfry.eid]
  else s.answerFree 0 cmd
/-- PLDM for Base: 4 GetPLDMTypes answers types 0, 2 and 5. -/
def State.pldmBase (s : State) (cmd : Nat) : State := if cmd = 4 then s.answer 0x100 cmd [0, 2, 5] else s.answerFree 0x100 cmd
/-- The numeric sensors, numbered from 1: module input power, the die, cupola and stack temperatures, inlet and outlet, of the last sample. -/
def Belfry.numeric (b : Belfry) : List Int := match b.sensors with
  | some r => [(r.power : Int)] ++ r.die ++ r.cupola ++ r.stack ++ [r.inlet, r.outlet]
  | none => []
def serviceNo : Service → Nat
  | .off => 0
  | .reduced => 1
  | .full => 2
  | .fatal => 3
/-- The state sensors, numbered from 64: service, update, the links of the host ports and of the spire ports, the training of the stacks. -/
def State.stateSensors (s : State) : List Nat :=
  [serviceNo s.service, (updateNo s.belfry.update).toNat] ++ (s.ports.toList.map fun p => p.up.toNat) ++ (s.spire.toList.map fun v => v.up.toNat) ++
    (List.range 8).map s.training
/-- The PDR repository: for each sensor its record's type, 2 numeric or 4 state, and its number; record handles count from 1. -/
def State.pdrs (s : State) : List (Nat × Nat) :=
  ((List.range s.belfry.numeric.length).map fun i => (2, i + 1)) ++ (List.range s.stateSensors.length).map fun i => (4, i + 64)
/-- 64 bytes of the fatal-state dump (R452). -/
def State.dumpBytes (s : State) (off : Nat) : List Nat := (s.dram.bytes (dumpBase + off) 64).map BitVec.toNat
/-- PLDM type 2: 0x11 GetSensorReading, 0x21 GetStateSensorReadings, 0x50 GetPDRRepositoryInfo, 0x51 GetPDR, and of the vendor's own 0xF0 the Skeloz
record that `arg` names, from the last sample, and 0xF1 the dump file from offset `arg` (log 28). -/
def State.pldmPlatform (s : State) (cmd arg : Nat) : State :=
  let give := fun (v : Option (List Nat)) => match v with
    | some l => s.answer 0x102 cmd l
    | none => s.answerFree 0x102 cmd
  match cmd with
  | 0x11 => give (if arg = 0 then none else (s.belfry.numeric[arg - 1]?).map fun v => [field64 v])
  | 0x21 => give (if arg < 64 then none else (s.stateSensors[arg - 64]?).map fun v => [v])
  | 0x50 => give (some [s.pdrs.length])
  | 0x51 => give (if arg = 0 then none else (s.pdrs[arg - 1]?).map fun r => [arg, r.1, r.2])
  | 0xF0 => give ((s.belfry.tele.records.find arg).map fun r => s.belfry.tele.stamp :: (recordWords arg r).map BitVec.toNat)
  | 0xF1 => give (if arg + 64 ≤ dumpSize then some (s.dumpBytes arg) else none)
  | _ => give none
def State.getConfig (s : State) (off len : Nat) : State :=
  s.answer 0x103 0 ((List.range len).map fun i => (s.cfgWord ((off + i) / 8 * 8)).toNat / 2 ^ (8 * ((off + i) % 8)) % 256)
def State.setConfig (s : State) (off : Nat) (bs : List Byte) : State := (s.cfgBytes off bs).answer 0x103 1 []

/-! Telemetry (R437, R438). -/
/-- The 1 ms sample replaces the mirror, and by then the bus owner has fetched the replies made before (log 70); new code that has run for 10 s has
passed its self-test and may raise the fuse version (R437, R443). -/
def State.sample (s : State) (r : Sensors) : State :=
  let recs := s.records r
  s.modBelfry fun b =>
    let b := { b with us := b.us + 1000, tele := ⟨b.us + 1000, recs⟩, sensors := some r, fetched := b.sent.length }
    if b.raise && b.us ≥ b.activatedAt + 10000000 then { b with raise := false, fuseVersion := max b.fuseVersion b.active.secver } else b

/-! SPDM (R439). -/
/-- RSASSA-3072 is bit 2 of the signature algorithms, SHA-256 bit 0 of the hash algorithms. -/
def State.negotiate (s : State) (asym hash : Nat) : State :=
  let ok := asym / 4 % 2 == 1 && hash % 2 == 1
  (s.modBelfry fun b => { b with negotiated := b.negotiated || ok }).answer 5 0xE3 (if ok then [4, 1] else [0, 0])
def chain (off len : Nat) : List Nat := (List.range (min len (Config.certLength - off))).map fun i => (Config.certByte (off + i)).toNat
/-- A request that needs agreed algorithms is refused before they are. -/
def State.agreed (s : State) (cmd : Nat) (data : State → List Nat) : State :=
  if s.belfry.negotiated then (s.answer 5 cmd (data s)).draw else s.answer 5 0x7F []
def State.digests (s : State) : State := s.agreed 0x01 fun _ => [Config.hash (chain 0 Config.certLength)]
def State.certificate (s : State) (slot off len : Nat) : State := s.agreed 0x02 fun _ => if slot = 0 then chain off len else []
/-- The signature covers the nonces of both sides. -/
def State.challenge (s : State) (slot : Nat) (nonce : Key) : State :=
  s.agreed 0x03 fun s =>
    let m := [Config.hash (chain 0 Config.certLength), nonce.toNat, Config.freeNumber s.freeCtr]
    if slot = 0 then m ++ [Config.sign m] else []
/-- Measurement 1 the active code, 2 the patch in force, 3 the launch-unit tables, 4 the fuse security version; index 0 or 0xFF asks for the
number or for all. -/
def State.measurement (s : State) (i : Nat) : List Nat :=
  let a := s.belfry.active
  match i with
  | 1 => [Config.hash [a.code.toNat]]
  | 2 => [Config.hash [a.patch.toNat]]
  | 3 => [Config.hash [a.tables.toNat]]
  | 4 => [s.belfry.fuseVersion]
  | _ => []
def State.measurements (s : State) (i : Nat) (nonce : Key) : State :=
  s.agreed 0x60 fun s =>
    let m := (if i = 0 then [4] else if i = 0xFF then (List.range 5).flatMap s.measurement else s.measurement i) ++ [nonce.toNat, Config.freeNumber s.freeCtr]
    m ++ [Config.sign m]

/-! Firmware (R442 to R445). -/
/-- An image comes into the inactive bank and is verified, with the outcome in ApplyComplete (0x18); RequestUpdate (0x10) is refused while a roll-out is
in progress. -/
def State.transfer (s : State) (secver : Nat) (code patch tables : W64) : State :=
  let b := s.belfry
  if b.update = .rolling then s.answer 0x105 0x10 [1]
  else
    let ok := Config.signatureOk code patch tables secver && decide (secver ≥ b.fuseVersion)
    let k : Bank := ⟨secver, code, patch, tables, ok⟩
    let b := { b with update := if ok then .verified else .failed, fallback := false }
    ({ s with belfry := if b.active1 then { b with bank0 := k } else { b with bank1 := k } }).answer 0x105 0x18 [if ok then 0 else 1]
/-- The belfry switches banks and starts the roll-out. -/
def State.activate (s : State) (raise : Bool) : State :=
  let b := s.belfry
  if b.update = .verified ∧ b.inactive.verified then
    { s with belfry := { b with active1 := !b.active1, update := .rolling, patchNo := b.patchNo + 1, activatedAt := b.us, raise := raise, fallback := true } }
  else s
/-- New code that fails its self-test within 10 s gives way to the previous bank; where a transfer has overwritten that meanwhile, the failure is
only reported (log 62). -/
def State.selfTestFail (s : State) : State :=
  let b := s.belfry
  if b.patchNo = 0 ∨ b.activatedAt + 10000000 ≤ b.us ∨ b.update = .selfTestFailed then s
  else
    let b := { b with raise := false, selfTestFailures := b.selfTestFailures + 1 }
    { s with belfry := if b.fallback then { b with active1 := !b.active1, update := .selfTestFailed, fallback := false } else b }
/-- The roll-out limit has passed since activation; a limit of 0 is none (R445). -/
def State.rolloutLimit (s : State) : State :=
  if s.rollout = 0 ∨ s.belfry.us < s.belfry.activatedAt + s.rollout.toNat * 1000 then s else s.endRollout
/-- A launch unit between two launches takes the new tables. -/
def State.tableSwap (s : State) (d : Nat) : State :=
  if (s.die d).launch.cur.isSome then s else (s.modLaunch d fun l => { l with tables := s.belfry.patchNo }).rolloutDone

/-! The energy planner (R454, R457). -/
/-- Every 100 µs, by the last sample: the shares fall by a step above 1,800 W or at a die at 95 °C, and rise again below 1,700 W. -/
def State.planner (s : State) : State :=
  match s.belfry.sensors with
  | none => s
  | some r =>
    let hot := r.power > 1800000 || r.die.any fun t => t ≥ 950
    let set := fun (f : Nat → Nat) => { s with dies := s.dies.map fun d => { d with share := f d.share } }
    if hot then set fun v => max Config.shareFloor (v - Config.shareStep)
    else if r.power < 1700000 then set fun v => min Config.fullShare (v + Config.shareStep)
    else s

/-! Power (R455 to R457). -/
/-- Power leaves the package, with no dump: the DRAM contents are lost. -/
def State.powerDown (s : State) (p : Power) : State := { s.packageReset [] with dram := [], dump := none, service := .off, power := { p with pwrgd := false } }
/-- The host asserts EN: with the input in range and no thermal trip latched the rails come up, package reset ends, and bring-up finds which windows fail
their self-test, an open value (R449, R455, log 63). -/
def State.enAssert (s : State) : State :=
  let p := { s.power with en := true }
  if p.inRange ∧ !p.thermtrip ∧ s.service = .off then
    let dead := (Config.failedWindows s.freeCtr).filter fun e => e.1 < Config.tiles && e.2 < 4
    { s.draw.packageReset dead with power := { p with pwrgd := true } }
  else { s with power := p }
def State.enDeassert (s : State) : State := s.powerDown { s.power with en := false, thermtrip := false }
def State.inputFault (s : State) : State := s.powerDown { s.power with inRange := false, pwrfail := true }
def State.inputInRange (s : State) : State := { s with power := { s.power with inRange := true, pwrfail := false } }
def State.thermTrip (s : State) : State := s.powerDown { s.power with thermtrip := true }
/-- A sample, and the thermal trip at a die of 110 °C (R457). -/
def State.sampled (s : State) (r : Sensors) : State :=
  let s := s.sample r
  if r.die.any fun t => t ≥ 1100 then s.thermTrip else s
/-- The output signals of the management connector as asserted or not (R456). SMB_ALERT# is asserted while a reply waits for the bus owner
(log 70). -/
structure Pins where
  smbAlert : Bool
  pwrgd : Bool
  pwrfail : Bool
  thermtrip : Bool
  fatal : Bool
  present : Bool
  deriving DecidableEq, Repr
def State.pins (s : State) : Pins :=
  ⟨decide (s.belfry.fetched < s.belfry.sent.length), s.power.pwrgd, s.power.pwrfail, s.power.thermtrip, s.service == .fatal, true⟩
/-- MGMT_RST# resets the belfry alone; the data path runs on (R456). -/
def State.mgmtReset (s : State) : State := s.modBelfry fun b => { b with eid := 0, negotiated := false, fetched := b.sent.length }

/-! The events. -/
/-- `MCTP_CONTROL` (R436). -/
def execMctpControl (cmd : Nat) (arg : Nat) (s : State) : Host.Outcome State Fault Refusal := s.manage fun s => s.mctpControl cmd arg
/-- `PLDM_BASE` (R436). -/
def execPldmBase (cmd : Nat) (s : State) : Host.Outcome State Fault Refusal := s.manage fun s => s.pldmBase cmd
/-- `PLDM_PLATFORM` (R437). -/
def execPldmPlatform (cmd : Nat) (arg : Nat) (s : State) : Host.Outcome State Fault Refusal := s.manage fun s => s.pldmPlatform cmd arg
/-- `GET_PACKAGE_CONFIG` (R440). -/
def execGetPackageConfig (off : Nat) (len : Nat) (s : State) : Host.Outcome State Fault Refusal := s.manage fun s => s.getConfig off len
/-- `SET_PACKAGE_CONFIG` (R440). -/
def execSetPackageConfig (off : Nat) (bytes : List Byte) (s : State) : Host.Outcome State Fault Refusal := s.manage fun s => s.setConfig off bytes
/-- `FIRMWARE_TRANSFER` (R442). -/
def execFirmwareTransfer (secver : Nat) (code : W64) (patch : W64) (tables : W64) (s : State) : Host.Outcome State Fault Refusal := s.manage fun s => s.transfer secver code patch tables
/-- `FIRMWARE_ACTIVATE` (R443). -/
def execFirmwareActivate (raise : Bool) (s : State) : Host.Outcome State Fault Refusal := s.manage fun s => s.activate raise
/-- `SELF_TEST_FAIL` (R443). -/
def execSelfTestFail (s : State) : Host.Outcome State Fault Refusal := s.manage fun s => s.selfTestFail
/-- `CANCEL_UPDATE` (R445). -/
def execCancelUpdate (s : State) : Host.Outcome State Fault Refusal := s.manage fun s => s.endRollout
/-- `ROLLOUT_LIMIT` (R445). -/
def execRolloutLimit (s : State) : Host.Outcome State Fault Refusal := s.manage fun s => s.rolloutLimit
/-- `TILE_PATCH` (R444). -/
def execTilePatch (tile : Nat) (s : State) : Host.Outcome State Fault Refusal := s.manage fun s => s.tilePatch tile
/-- `LAUNCH_TABLE_SWAP` (R444). -/
def execLaunchTableSwap (die : Nat) (s : State) : Host.Outcome State Fault Refusal := s.manage fun s => s.tableSwap die
/-- `GET_VERSION` (R439). -/
def execGetVersion (s : State) : Host.Outcome State Fault Refusal := s.manage fun s => s.answer 5 0x04 [0x12]
/-- `GET_CAPABILITIES` (R439). -/
def execGetCapabilities (s : State) : Host.Outcome State Fault Refusal := s.manage fun s => s.answerFree 5 0x61
/-- `NEGOTIATE_ALGORITHMS` (R439). -/
def execNegotiateAlgorithms (asym : Nat) (hash : Nat) (s : State) : Host.Outcome State Fault Refusal := s.manage fun s => s.negotiate asym hash
/-- `GET_DIGESTS` (R439). -/
def execGetDigests (s : State) : Host.Outcome State Fault Refusal := s.manage fun s => s.digests
/-- `GET_CERTIFICATE` (R439). -/
def execGetCertificate (slot : Nat) (off : Nat) (len : Nat) (s : State) : Host.Outcome State Fault Refusal := s.manage fun s => s.certificate slot off len
/-- `CHALLENGE` (R439). -/
def execChallenge (slot : Nat) (nonce : Key) (s : State) : Host.Outcome State Fault Refusal := s.manage fun s => s.challenge slot nonce
/-- `GET_MEASUREMENTS` (R439). -/
def execGetMeasurements (index : Nat) (nonce : Key) (s : State) : Host.Outcome State Fault Refusal := s.manage fun s => s.measurements index nonce
/-- `TELEMETRY_SAMPLE` (R437). -/
def execTelemetrySample (r : Sensors) (s : State) : Host.Outcome State Fault Refusal := s.manage fun s => s.sampled r
/-- `ENERGY_PLANNER_STEP` (R454). -/
def execEnergyPlannerStep (s : State) : Host.Outcome State Fault Refusal := s.manage fun s => s.planner
/-- `MGMT_RESET` (R456). -/
def execMgmtReset (s : State) : Host.Outcome State Fault Refusal := s.manage fun s => s.mgmtReset
/-- `THERMTRIP` (R457). -/
def execThermtrip (s : State) : Host.Outcome State Fault Refusal := s.manage fun s => s.thermTrip
/-- `EN_ASSERT` (R455). -/
def execEnAssert (s : State) : Host.Outcome State Fault Refusal := .next s.enAssert
/-- `EN_DEASSERT` (R455). -/
def execEnDeassert (s : State) : Host.Outcome State Fault Refusal := .next s.enDeassert
/-- `INPUT_FAULT` (R455). -/
def execInputFault (s : State) : Host.Outcome State Fault Refusal := .next s.inputFault
/-- `INPUT_IN_RANGE` (R455). -/
def execInputInRange (s : State) : Host.Outcome State Fault Refusal := .next s.inputInRange

end Sys2Proof.Machine
end

