-- ==== Sys2Proof/Machine/Register.lean ====
section
/-! DEFINITION. Writes and reads by a host of the functions' registers, by their access codes (00_scope.md R4, R5; 14_device.md R430 to R435, R438, R451,
R452). -/
namespace Sys2Proof.Machine

/-- Writes word `i` of a function's MSI-X table of `n` vectors; a vector that is unmasked while pending sends its message (R425). -/
def State.msixWrite (s : State) (p fn i n : Nat) (val : W64) : State :=
  if i ≥ 2 * n then s
  else
    let v := i / 2
    let s := s.modFn p fn fun f => { f with msixTable := f.msixTable.put i val }
    if i % 2 = 1 ∧ bitsOf val 32 1 = 0 ∧ ((s.port p).fn fn).pba.contains v then
      (s.modFn p fn fun f => { f with pba := f.pba.filter (· != v) }).modPort p fun h => { h with msix := h.msix ++ [(fn, v)] }
    else s
/-- A virtual function's window registers: ovf and perr are cleared by writing 1 (R434). -/
def HostFn.clearBits (f : HostFn) (val : W64) : HostFn := { f with ovf := f.ovf && !val.getLsbD 39, perr := f.perr && !val.getLsbD 38 }
/-- A 64-bit write to BAR `bar` of function `fn` (256: PF0) of port `p` (R430). Writes elsewhere, and to read-only words, are dropped. -/
def State.registerWrite (s : State) (p fn bar off : Nat) (val : W64) : State :=
  if off % 8 ≠ 0 ∨ p ≥ 2 then s
  else if fn = 256 then
    if bar = 0 then
      if off < 0x10000 then s.tenantWrite p (off / 256) (off % 256) val
      else if off = 0x10000 then s.command p (bitsOf val 56 3) (bitsOf val 40 3) (bitsOf val 32 8) (val.truncate 32)
      else if 0x20000 ≤ off ∧ off < 0x21000 then s.cfgWrite (off - 0x20000) val
      else if 0x400000 ≤ off ∧ off < 0x800000 then s.peerWrite p ((off - 0x400000) / 64) (off % 64 / 8) val
      else s
    else if bar = 2 then s.msixWrite p 256 (off / 8) 32 val
    else s
  else if !s.fnOn p fn then s
  else if bar = 0 then
    if off < 0x2000 then
      if off % 128 = 0x20 then s.hostGoWrite p fn (off / 128) val true
      else s.slotWrite p fn (off / 8) val true
    else if off < 0x4000 then
      if off % 128 = 0x40 then s.hostGoWrite p fn ((off - 0x2000) / 128) val false
      else s.slotWrite p fn ((off - 0x2000) / 8) val false
    else if off = 0x4008 then s.modFn p fn fun f => f.clearBits val
    else s
  else if bar = 2 then s.msixWrite p fn (off / 8) (recVcount (s.tenantRec fn)) val
  else s

/-! Reads. -/
/-- The window registers of a virtual function (R434). -/
def HostFn.windowWord (f : HostFn) (off : Nat) : W64 :=
  if off = 0x4000 then f.tdone ++ f.pdone
  else if off = 0x4008 then BitVec.ofNat 64 (f.ovf.toNat * 2 ^ 39 + f.perr.toNat * 2 ^ 38 + f.pslot.toNat * 2 ^ 32 + f.pstat.toNat)
  else 0
/-- Word `i` of an MSI-X table of `n` vectors; from 0x8000 on the pending bits (R425, R430). -/
def HostFn.msixWord (f : HostFn) (i n : Nat) : W64 :=
  if i < 2 * n then f.msixTable.at (if i % 2 = 1 then 0x100000000 else 0) i
  else if 0x1000 ≤ i then (f.pba.filter fun v => v < n && v / 64 == i - 0x1000).foldl (fun (w : W64) v => w ||| (1#64 <<< (v % 64))) 0
  else 0
/-- What a host's 64-bit read of a register answers: its word, a completer abort, or nothing, for want of a function there. -/
inductive HostRead where
  | word (w : W64)
  | abort
  | unsupported
  deriving DecidableEq, Repr
/-- The word at an offset of BAR `bar` of function `fn` (256: PF0) of port `p` (R430). Write-only slots and reserved offsets read zero (R4, R5). -/
def State.registerWord (s : State) (p fn bar off : Nat) : W64 :=
  let f := (s.port p).fn fn
  if off % 8 ≠ 0 then 0
  else if fn = 256 then
    if bar = 0 then
      if off < 0x10000 then recWord (s.tenantRec (off / 256)) (off % 256 / 8)
      else if off = 0x10000 then (s.port p).command
      else if 0x20000 ≤ off ∧ off < 0x21000 then s.cfgWord (off - 0x20000)
      else if 0x400000 ≤ off ∧ off < 0x800000 then peerWord (s.peer ((off - 0x400000) / 64)) (off % 64 / 8)
      else 0
    else if bar = 2 then (if off < 0x8000 then f.msixWord (off / 8) 32 else 0)
    else if bar = 4 then
      if off < 0x40000000 then (s.belfry.tele.mirror 256).getD (off / 8) 0
      else if off < 0x40000000 + dumpSize then BitVec.ofNat 64 (natOfBytes (s.dram.bytes (dumpBase + (off - 0x40000000)) 8))
      else 0
    else 0
  else if bar = 0 then f.windowWord off
  else if bar = 2 then (if off < 0x10000 then f.msixWord (off / 8) (recVcount (s.tenantRec fn)) else 0)
  else if bar = 4 then (if off < 0x1000000 then (s.belfry.tele.mirror fn).getD (off / 8) 0 else 0)
  else 0
/-- A host's 64-bit read (R430). In the fatal state the ports answer with completer aborts, except on BAR4 of PF0 (R451). A read changes nothing. -/
def State.registerRead (s : State) (p fn bar off : Nat) : HostRead :=
  if s.service = .off ∨ p ≥ 2 ∨ (fn ≠ 256 ∧ s.fnOn p fn = false) then .unsupported
  else if s.service = .fatal ∧ ¬ (fn = 256 ∧ bar = 4) then .abort
  else .word (s.registerWord p fn bar off)

/-! The events. -/
/-- `REGISTER_WRITE` (R4). -/
def execRegisterWrite (port : Nat) (fn : Nat) (bar : Nat) (off : Nat) (val : W64) (s : State) : Host.Outcome State Fault Refusal := s.event fun s => s.registerWrite port fn bar off val

end Sys2Proof.Machine
end

