-- ==== Sys2Proof/Machine/Dispatch.lean ====
section
/-! DEFINITION. One arm per instruction and event row of the opcode table, each a call of its meaning. -/
namespace Sys2Proof.Machine
open Sys2Proof

/-- What each row of the opcode table does. -/
def exec (i : Instr) (s : State) : Host.Outcome State Fault Refusal :=
  match i with
  | .nop => Sys2Proof.Machine.execNop s
  | .add rd ra rb => Sys2Proof.Machine.execAdd rd ra rb s
  | .addSl rd ra imm => Sys2Proof.Machine.execAddSl rd ra imm s
  | .sub rd ra rb => Sys2Proof.Machine.execSub rd ra rb s
  | .subSl rd ra imm => Sys2Proof.Machine.execSubSl rd ra imm s
  | .and rd ra rb => Sys2Proof.Machine.execAnd rd ra rb s
  | .andSl rd ra imm => Sys2Proof.Machine.execAndSl rd ra imm s
  | .or rd ra rb => Sys2Proof.Machine.execOr rd ra rb s
  | .orSl rd ra imm => Sys2Proof.Machine.execOrSl rd ra imm s
  | .xor rd ra rb => Sys2Proof.Machine.execXor rd ra rb s
  | .xorSl rd ra imm => Sys2Proof.Machine.execXorSl rd ra imm s
  | .andn rd ra rb => Sys2Proof.Machine.execAndn rd ra rb s
  | .andnSl rd ra imm => Sys2Proof.Machine.execAndnSl rd ra imm s
  | .orn rd ra rb => Sys2Proof.Machine.execOrn rd ra rb s
  | .ornSl rd ra imm => Sys2Proof.Machine.execOrnSl rd ra imm s
  | .xnor rd ra rb => Sys2Proof.Machine.execXnor rd ra rb s
  | .xnorSl rd ra imm => Sys2Proof.Machine.execXnorSl rd ra imm s
  | .sll rd ra rb => Sys2Proof.Machine.execSll rd ra rb s
  | .sllSl rd ra imm => Sys2Proof.Machine.execSllSl rd ra imm s
  | .srl rd ra rb => Sys2Proof.Machine.execSrl rd ra rb s
  | .srlSl rd ra imm => Sys2Proof.Machine.execSrlSl rd ra imm s
  | .sra rd ra rb => Sys2Proof.Machine.execSra rd ra rb s
  | .sraSl rd ra imm => Sys2Proof.Machine.execSraSl rd ra imm s
  | .ror rd ra rb => Sys2Proof.Machine.execRor rd ra rb s
  | .rorSl rd ra imm => Sys2Proof.Machine.execRorSl rd ra imm s
  | .min rd ra rb => Sys2Proof.Machine.execMin rd ra rb s
  | .minSl rd ra imm => Sys2Proof.Machine.execMinSl rd ra imm s
  | .max rd ra rb => Sys2Proof.Machine.execMax rd ra rb s
  | .maxSl rd ra imm => Sys2Proof.Machine.execMaxSl rd ra imm s
  | .minz rd ra rb => Sys2Proof.Machine.execMinz rd ra rb s
  | .minzSl rd ra imm => Sys2Proof.Machine.execMinzSl rd ra imm s
  | .maxz rd ra rb => Sys2Proof.Machine.execMaxz rd ra rb s
  | .maxzSl rd ra imm => Sys2Proof.Machine.execMaxzSl rd ra imm s
  | .addi rd ra imm => Sys2Proof.Machine.execAddi rd ra imm s
  | .mul rd ra rb => Sys2Proof.Machine.execMul rd ra rb s
  | .mulSl rd ra imm => Sys2Proof.Machine.execMulSl rd ra imm s
  | .mulh rd ra rb => Sys2Proof.Machine.execMulh rd ra rb s
  | .mulhSl rd ra imm => Sys2Proof.Machine.execMulhSl rd ra imm s
  | .mulhz rd ra rb => Sys2Proof.Machine.execMulhz rd ra rb s
  | .mulhzSl rd ra imm => Sys2Proof.Machine.execMulhzSl rd ra imm s
  | .mulhsz rd ra rb => Sys2Proof.Machine.execMulhsz rd ra rb s
  | .mulhszSl rd ra imm => Sys2Proof.Machine.execMulhszSl rd ra imm s
  | .div rd ra rb => Sys2Proof.Machine.execDiv rd ra rb s
  | .divSl rd ra imm => Sys2Proof.Machine.execDivSl rd ra imm s
  | .divz rd ra rb => Sys2Proof.Machine.execDivz rd ra rb s
  | .divzSl rd ra imm => Sys2Proof.Machine.execDivzSl rd ra imm s
  | .rem rd ra rb => Sys2Proof.Machine.execRem rd ra rb s
  | .remSl rd ra imm => Sys2Proof.Machine.execRemSl rd ra imm s
  | .remz rd ra rb => Sys2Proof.Machine.execRemz rd ra rb s
  | .remzSl rd ra imm => Sys2Proof.Machine.execRemzSl rd ra imm s
  | .clz rd ra => Sys2Proof.Machine.execClz rd ra s
  | .ctz rd ra => Sys2Proof.Machine.execCtz rd ra s
  | .popc rd ra => Sys2Proof.Machine.execPopc rd ra s
  | .sxb rd ra => Sys2Proof.Machine.execSxb rd ra s
  | .sxh rd ra => Sys2Proof.Machine.execSxh rd ra s
  | .sxw rd ra => Sys2Proof.Machine.execSxw rd ra s
  | .zxb rd ra => Sys2Proof.Machine.execZxb rd ra s
  | .zxh rd ra => Sys2Proof.Machine.execZxh rd ra s
  | .zxw rd ra => Sys2Proof.Machine.execZxw rd ra s
  | .sel rd pn ra rb => Sys2Proof.Machine.execSel rd pn ra rb s
  | .selSl rd pn ra imm => Sys2Proof.Machine.execSelSl rd pn ra imm s
  | .addx rd ra rb sc => Sys2Proof.Machine.execAddx rd ra rb sc s
  | .addxSl rd ra imm sc => Sys2Proof.Machine.execAddxSl rd ra imm sc s
  | .bfx rd ra pos width => Sys2Proof.Machine.execBfx rd ra pos width s
  | .bfxz rd ra pos width => Sys2Proof.Machine.execBfxz rd ra pos width s
  | .bfi rd ra pos width => Sys2Proof.Machine.execBfi rd ra pos width s
  | .li rd imm => Sys2Proof.Machine.execLi rd imm s
  | .liz rd imm => Sys2Proof.Machine.execLiz rd imm s
  | .lih rd imm => Sys2Proof.Machine.execLih rd imm s
  | .pand pd pa pb => Sys2Proof.Machine.execPand pd pa pb s
  | .por pd pa pb => Sys2Proof.Machine.execPor pd pa pb s
  | .pxor pd pa pb => Sys2Proof.Machine.execPxor pd pa pb s
  | .pandn pd pa pb => Sys2Proof.Machine.execPandn pd pa pb s
  | .porn pd pa pb => Sys2Proof.Machine.execPorn pd pa pb s
  | .pnor pd pa pb => Sys2Proof.Machine.execPnor pd pa pb s
  | .pget rd => Sys2Proof.Machine.execPget rd s
  | .pput ra => Sys2Proof.Machine.execPput ra s
  | .cmpEq pt pf ra rb => Sys2Proof.Machine.execCmpEq pt pf ra rb s
  | .cmpEqSl pt pf ra imm => Sys2Proof.Machine.execCmpEqSl pt pf ra imm s
  | .cmpLt pt pf ra rb => Sys2Proof.Machine.execCmpLt pt pf ra rb s
  | .cmpLtSl pt pf ra imm => Sys2Proof.Machine.execCmpLtSl pt pf ra imm s
  | .cmpLe pt pf ra rb => Sys2Proof.Machine.execCmpLe pt pf ra rb s
  | .cmpLeSl pt pf ra imm => Sys2Proof.Machine.execCmpLeSl pt pf ra imm s
  | .cmpLtz pt pf ra rb => Sys2Proof.Machine.execCmpLtz pt pf ra rb s
  | .cmpLtzSl pt pf ra imm => Sys2Proof.Machine.execCmpLtzSl pt pf ra imm s
  | .cmpLez pt pf ra rb => Sys2Proof.Machine.execCmpLez pt pf ra rb s
  | .cmpLezSl pt pf ra imm => Sys2Proof.Machine.execCmpLezSl pt pf ra imm s
  | .ldb rd ra imm => Sys2Proof.Machine.execLdb rd ra imm s
  | .ldbz rd ra imm => Sys2Proof.Machine.execLdbz rd ra imm s
  | .ldh rd ra imm => Sys2Proof.Machine.execLdh rd ra imm s
  | .ldhz rd ra imm => Sys2Proof.Machine.execLdhz rd ra imm s
  | .ldw rd ra imm => Sys2Proof.Machine.execLdw rd ra imm s
  | .ldwz rd ra imm => Sys2Proof.Machine.execLdwz rd ra imm s
  | .ldd rd ra imm => Sys2Proof.Machine.execLdd rd ra imm s
  | .stb rd ra imm => Sys2Proof.Machine.execStb rd ra imm s
  | .sth rd ra imm => Sys2Proof.Machine.execSth rd ra imm s
  | .stw rd ra imm => Sys2Proof.Machine.execStw rd ra imm s
  | .std rd ra imm => Sys2Proof.Machine.execStd rd ra imm s
  | .ldx sz zx scaled rd ra rb => Sys2Proof.Machine.execLdx sz zx scaled rd ra rb s
  | .stx sz scaled rd ra rb => Sys2Proof.Machine.execStx sz scaled rd ra rb s
  | .ldf rd ra imm => Sys2Proof.Machine.execLdf rd ra imm s
  | .lde rd ra imm => Sys2Proof.Machine.execLde rd ra imm s
  | .stf rd ra imm => Sys2Proof.Machine.execStf rd ra imm s
  | .ste rd ra imm => Sys2Proof.Machine.execSte rd ra imm s
  | .waitf ra imm => Sys2Proof.Machine.execWaitf ra imm s
  | .amoadd wide noret rd ra rb => Sys2Proof.Machine.execAmoadd wide noret rd ra rb s
  | .amomax wide noret rd ra rb => Sys2Proof.Machine.execAmomax wide noret rd ra rb s
  | .amomin wide noret rd ra rb => Sys2Proof.Machine.execAmomin wide noret rd ra rb s
  | .amomaxz wide noret rd ra rb => Sys2Proof.Machine.execAmomaxz wide noret rd ra rb s
  | .amominz wide noret rd ra rb => Sys2Proof.Machine.execAmominz wide noret rd ra rb s
  | .amoand wide noret rd ra rb => Sys2Proof.Machine.execAmoand wide noret rd ra rb s
  | .amoor wide noret rd ra rb => Sys2Proof.Machine.execAmoor wide noret rd ra rb s
  | .amoxor wide noret rd ra rb => Sys2Proof.Machine.execAmoxor wide noret rd ra rb s
  | .amoswap wide noret rd ra rb => Sys2Proof.Machine.execAmoswap wide noret rd ra rb s
  | .amocas wide noret rd ra rb => Sys2Proof.Machine.execAmocas wide noret rd ra rb s
  | .amofadd half noret rd ra rb => Sys2Proof.Machine.execAmofadd half noret rd ra rb s
  | .amofmax half noret rd ra rb => Sys2Proof.Machine.execAmofmax half noret rd ra rb s
  | .amofmin half noret rd ra rb => Sys2Proof.Machine.execAmofmin half noret rd ra rb s
  | .dlook rd ra => Sys2Proof.Machine.execDlook rd ra s
  | .dins rd ra rb => Sys2Proof.Machine.execDins rd ra rb s
  | .ddel rd ra => Sys2Proof.Machine.execDdel rd ra s
  | .fadd fmt rd ra rb => Sys2Proof.Machine.execFadd fmt rd ra rb s
  | .fsub fmt rd ra rb => Sys2Proof.Machine.execFsub fmt rd ra rb s
  | .fmul fmt rd ra rb => Sys2Proof.Machine.execFmul fmt rd ra rb s
  | .fma fmt rd ra rb => Sys2Proof.Machine.execFma fmt rd ra rb s
  | .fmin fmt rd ra rb => Sys2Proof.Machine.execFmin fmt rd ra rb s
  | .fmax fmt rd ra rb => Sys2Proof.Machine.execFmax fmt rd ra rb s
  | .fclass fmt rd ra => Sys2Proof.Machine.execFclass fmt rd ra s
  | .fcmpEq fmt pt pf ra rb => Sys2Proof.Machine.execFcmpEq fmt pt pf ra rb s
  | .fcmpLt fmt pt pf ra rb => Sys2Proof.Machine.execFcmpLt fmt pt pf ra rb s
  | .fcmpLe fmt pt pf ra rb => Sys2Proof.Machine.execFcmpLe fmt pt pf ra rb s
  | .fcmpUn fmt pt pf ra rb => Sys2Proof.Machine.execFcmpUn fmt pt pf ra rb s
  | .qbsE2m1 rd ra rb => Sys2Proof.Machine.execQbsE2m1 rd ra rb s
  | .qbsE4m3 rd ra rb => Sys2Proof.Machine.execQbsE4m3 rd ra rb s
  | .dqbsE2m1 rd ra rb => Sys2Proof.Machine.execDqbsE2m1 rd ra rb s
  | .dqbsE4m3 rd ra rb => Sys2Proof.Machine.execDqbsE4m3 rd ra rb s
  | .nisplit rd ra => Sys2Proof.Machine.execNisplit rd ra s
  | .nijoin rd ra rb => Sys2Proof.Machine.execNijoin rd ra rb s
  | .cvt dst src rd ra => Sys2Proof.Machine.execCvt dst src rd ra s
  | .br disp => Sys2Proof.Machine.execBr disp s
  | .brl disp => Sys2Proof.Machine.execBrl disp s
  | .loop rc disp => Sys2Proof.Machine.execLoop rc disp s
  | .bz rc disp => Sys2Proof.Machine.execBz rc disp s
  | .bnz rc disp => Sys2Proof.Machine.execBnz rc disp s
  | .jr ra => Sys2Proof.Machine.execJr ra s
  | .jrl rd ra => Sys2Proof.Machine.execJrl rd ra s
  | .mstat rd ra rb => Sys2Proof.Machine.execMstat rd ra rb s
  | .munstat rd ra => Sys2Proof.Machine.execMunstat rd ra s
  | .mma ra => Sys2Proof.Machine.execMma ra s
  | .macc rd ra => Sys2Proof.Machine.execMacc rd ra s
  | .mrd ra => Sys2Proof.Machine.execMrd ra s
  | .mrdv ra => Sys2Proof.Machine.execMrdv ra s
  | .mstatus rd ra => Sys2Proof.Machine.execMstatus rd ra s
  | .put rd ra => Sys2Proof.Machine.execPut rd ra s
  | .putI rd ra => Sys2Proof.Machine.execPutI rd ra s
  | .putR rd ra => Sys2Proof.Machine.execPutR rd ra s
  | .putG rd ra => Sys2Proof.Machine.execPutG rd ra s
  | .readB rd ra => Sys2Proof.Machine.execReadB rd ra s
  | .readP rd ra => Sys2Proof.Machine.execReadP rd ra s
  | .readC rd ra => Sys2Proof.Machine.execReadC rd ra s
  | .takeB rd ra => Sys2Proof.Machine.execTakeB rd ra s
  | .takeP rd ra => Sys2Proof.Machine.execTakeP rd ra s
  | .takeC rd ra => Sys2Proof.Machine.execTakeC rd ra s
  | .takeN rd ra rb => Sys2Proof.Machine.execTakeN rd ra rb s
  | .range rd ra => Sys2Proof.Machine.execRange rd ra s
  | .accO rd ra => Sys2Proof.Machine.execAccO rd ra s
  | .accA rd ra rb => Sys2Proof.Machine.execAccA rd ra rb s
  | .ctrO rd ra => Sys2Proof.Machine.execCtrO rd ra s
  | .ctrA rd ra rb => Sys2Proof.Machine.execCtrA rd ra rb s
  | .tcancel rd ra => Sys2Proof.Machine.execTcancel rd ra s
  | .tfence => Sys2Proof.Machine.execTfence s
  | .copyin rd ra => Sys2Proof.Machine.execCopyin rd ra s
  | .copyout rd ra => Sys2Proof.Machine.execCopyout rd ra s
  | .copyr rd ra => Sys2Proof.Machine.execCopyr rd ra s
  | .freeze rd ra => Sys2Proof.Machine.execFreeze rd ra s
  | .split rd ra => Sys2Proof.Machine.execSplit rd ra s
  | .tstat rd ra => Sys2Proof.Machine.execTstat rd ra s
  | .bars rd ra => Sys2Proof.Machine.execBars rd ra s
  | .barr ra => Sys2Proof.Machine.execBarr ra s
  | .barw ra => Sys2Proof.Machine.execBarw ra s
  | .spend => Sys2Proof.Machine.execSpend s
  | .spst rd => Sys2Proof.Machine.execSpst rd s
  | .fence ra => Sys2Proof.Machine.execFence ra s
  | .yield => Sys2Proof.Machine.execYield s
  | .sleep rd ra => Sys2Proof.Machine.execSleep rd ra s
  | .wake ra => Sys2Proof.Machine.execWake ra s
  | .spawn rd ra rb => Sys2Proof.Machine.execSpawn rd ra rb s
  | .send rd ra rb => Sys2Proof.Machine.execSend rd ra rb s
  | .exit => Sys2Proof.Machine.execExit s
  | .prio ra => Sys2Proof.Machine.execPrio ra s
  | .susp rd ra rb => Sys2Proof.Machine.execSusp rd ra rb s
  | .resume rd ra => Sys2Proof.Machine.execResume rd ra s
  | .free rd ra => Sys2Proof.Machine.execFree rd ra s
  | .rdctx rd ra rb => Sys2Proof.Machine.execRdctx rd ra rb s
  | .wrctx rd ra rb => Sys2Proof.Machine.execWrctx rd ra rb s
  | .lend ra => Sys2Proof.Machine.execLend ra s
  | .timer ra rb => Sys2Proof.Machine.execTimer ra rb s
  | .crget rd rb => Sys2Proof.Machine.execCrget rd rb s
  | .crgetSl rd num => Sys2Proof.Machine.execCrgetSl rd num s
  | .crset ra rb => Sys2Proof.Machine.execCrset ra rb s
  | .crsetSl ra num => Sys2Proof.Machine.execCrsetSl ra num s
  | .trap ra rb => Sys2Proof.Machine.execTrap ra rb s
  | .rft => Sys2Proof.Machine.execRft s
  | .svc ra => Sys2Proof.Machine.execSvc ra s
  | .brk ra => Sys2Proof.Machine.execBrk ra s
  | .tlbinv rd ra rb => Sys2Proof.Machine.execTlbinv rd ra rb s
  | .asid ra => Sys2Proof.Machine.execAsid ra s
  | .notify ra => Sys2Proof.Machine.execNotify ra s
  | .perf rd ra => Sys2Proof.Machine.execPerf rd ra s
  | .wdog ra => Sys2Proof.Machine.execWdog ra s
  | .halt ra => Sys2Proof.Machine.execHalt ra s
  | .illegalEncoding w => Sys2Proof.Machine.execIllegalEncoding w s
  | .vnop => Sys2Proof.Machine.execVnop s
  | .vfld d a => Sys2Proof.Machine.execVfld d a s
  | .vfldi d start width => Sys2Proof.Machine.execVfldi d start width s
  | .vfcpy d a => Sys2Proof.Machine.execVfcpy d a s
  | .vvl a => Sys2Proof.Machine.execVvl a s
  | .vvli rows => Sys2Proof.Machine.execVvli rows s
  | .vfrd d a => Sys2Proof.Machine.execVfrd d a s
  | .vld d a t tn m => Sys2Proof.Machine.execVld d a t tn m s
  | .vst d a t tn m => Sys2Proof.Machine.execVst d a t tn m s
  | .vlds d a b t tn m => Sys2Proof.Machine.execVlds d a b t tn m s
  | .vsts d a b t tn m => Sys2Proof.Machine.execVsts d a b t tn m s
  | .vldr d a b t tn m => Sys2Proof.Machine.execVldr d a b t tn m s
  | .vstr d a b t tn m => Sys2Proof.Machine.execVstr d a b t tn m s
  | .vget d a b t tn m => Sys2Proof.Machine.execVget d a b t tn m s
  | .vput d a b t tn m => Sys2Proof.Machine.execVput d a b t tn m s
  | .vbc d a t tn m => Sys2Proof.Machine.execVbc d a t tn m s
  | .vbci d t tn m imm => Sys2Proof.Machine.execVbci d t tn m imm s
  | .vcopy d a t tn => Sys2Proof.Machine.execVcopy d a t tn s
  | .vtand d a b t tn => Sys2Proof.Machine.execVtand d a b t tn s
  | .vtor d a b t tn => Sys2Proof.Machine.execVtor d a b t tn s
  | .vtxor d a b t tn => Sys2Proof.Machine.execVtxor d a b t tn s
  | .vtandn d a b t tn => Sys2Proof.Machine.execVtandn d a b t tn s
  | .vtset d t tn => Sys2Proof.Machine.execVtset d t tn s
  | .vtclr d t tn => Sys2Proof.Machine.execVtclr d t tn s
  | .vtfirst d t tn => Sys2Proof.Machine.execVtfirst d t tn s
  | .vtcount d t tn => Sys2Proof.Machine.execVtcount d t tn s
  | .vtany d t tn => Sys2Proof.Machine.execVtany d t tn s
  | .vceq d a b t tn m => Sys2Proof.Machine.execVceq d a b t tn m s
  | .vclt d a b t tn m => Sys2Proof.Machine.execVclt d a b t tn m s
  | .vcle d a b t tn m => Sys2Proof.Machine.execVcle d a b t tn m s
  | .vadd d a b t tn m => Sys2Proof.Machine.execVadd d a b t tn m s
  | .vsub d a b t tn m => Sys2Proof.Machine.execVsub d a b t tn m s
  | .vneg d a t tn m => Sys2Proof.Machine.execVneg d a t tn m s
  | .vabs d a t tn m => Sys2Proof.Machine.execVabs d a t tn m s
  | .vmin d a b t tn m => Sys2Proof.Machine.execVmin d a b t tn m s
  | .vmax d a b t tn m => Sys2Proof.Machine.execVmax d a b t tn m s
  | .vmul d a b t tn m => Sys2Proof.Machine.execVmul d a b t tn m s
  | .vand d a b t tn m => Sys2Proof.Machine.execVand d a b t tn m s
  | .vor d a b t tn m => Sys2Proof.Machine.execVor d a b t tn m s
  | .vxor d a b t tn m => Sys2Proof.Machine.execVxor d a b t tn m s
  | .vnot d a t tn m => Sys2Proof.Machine.execVnot d a t tn m s
  | .vshl d a b t tn m => Sys2Proof.Machine.execVshl d a b t tn m s
  | .vshr d a b t tn m => Sys2Proof.Machine.execVshr d a b t tn m s
  | .vsel d a b t tn m => Sys2Proof.Machine.execVsel d a b t tn m s
  | .vfadd d a b t tn m => Sys2Proof.Machine.execVfadd d a b t tn m s
  | .vfsub d a b t tn m => Sys2Proof.Machine.execVfsub d a b t tn m s
  | .vfmul d a b t tn m => Sys2Proof.Machine.execVfmul d a b t tn m s
  | .vfmin d a b t tn m => Sys2Proof.Machine.execVfmin d a b t tn m s
  | .vfmax d a b t tn m => Sys2Proof.Machine.execVfmax d a b t tn m s
  | .vfceq d a b t tn m => Sys2Proof.Machine.execVfceq d a b t tn m s
  | .vfclt d a b t tn m => Sys2Proof.Machine.execVfclt d a b t tn m s
  | .vfcle d a b t tn m => Sys2Proof.Machine.execVfcle d a b t tn m s
  | .vlut8 d a t tn m => Sys2Proof.Machine.execVlut8 d a t tn m s
  | .vlut16 d a t tn m => Sys2Proof.Machine.execVlut16 d a t tn m s
  | .vsfn d a b t tn m => Sys2Proof.Machine.execVsfn d a b t tn m s
  | .vcvt d a b t tn m => Sys2Proof.Machine.execVcvt d a b t tn m s
  | .vrmax d a t tn m => Sys2Proof.Machine.execVrmax d a t tn m s
  | .vrmin d a t tn m => Sys2Proof.Machine.execVrmin d a t tn m s
  | .vrsum d a t tn m => Sys2Proof.Machine.execVrsum d a t tn m s
  | .vrfsum d a t tn m => Sys2Proof.Machine.execVrfsum d a t tn m s
  | .vqbs d a b t tn m => Sys2Proof.Machine.execVqbs d a b t tn m s
  | .vdqbs d a b t tn m => Sys2Proof.Machine.execVdqbs d a b t tn m s
  | .voutl d a b t tn m => Sys2Proof.Machine.execVoutl d a b t tn m s
  | .vpass lo x => Sys2Proof.Machine.execVpass lo x s
  | .vseq first cnt => Sys2Proof.Machine.execVseq first cnt s
  | .vucload a t tn => Sys2Proof.Machine.execVucload a t tn s
  | .pendingTrapTaken tile slot => Sys2Proof.Machine.execPendingTrapTaken tile slot s
  | .watchdogExpiry tile slot => Sys2Proof.Machine.execWatchdogExpiry tile slot s
  | .timerFire tile => Sys2Proof.Machine.execTimerFire tile s
  | .sleepTimeout tile cid => Sys2Proof.Machine.execSleepTimeout tile cid s
  | .bundleFill tile va => Sys2Proof.Machine.execBundleFill tile va s
  | .packetBind tile => Sys2Proof.Machine.execPacketBind tile s
  | .refillImageArrived tile cid => Sys2Proof.Machine.execRefillImageArrived tile cid s
  | .spillStart tile => Sys2Proof.Machine.execSpillStart tile s
  | .spillDone tile => Sys2Proof.Machine.execSpillDone tile s
  | .energyRefill die => Sys2Proof.Machine.execEnergyRefill die s
  | .vopStart tile win => Sys2Proof.Machine.execVopStart tile win s
  | .transferStart tile win => Sys2Proof.Machine.execTransferStart tile win s
  | .vopComplete tile win => Sys2Proof.Machine.execVopComplete tile win s
  | .mxStart tile op => Sys2Proof.Machine.execMxStart tile op s
  | .mxComplete tile op => Sys2Proof.Machine.execMxComplete tile op s
  | .requestRoute tile op => Sys2Proof.Machine.execRequestRoute tile op s
  | .routeFetchDone who tenant space => Sys2Proof.Machine.execRouteFetchDone who tenant space s
  | .switchCombine m1 m2 => Sys2Proof.Machine.execSwitchCombine m1 m2 s
  | .replySplit m => Sys2Proof.Machine.execReplySplit m s
  | .homePut m => Sys2Proof.Machine.execHomePut m s
  | .homeRead m => Sys2Proof.Machine.execHomeRead m s
  | .homeTake m => Sys2Proof.Machine.execHomeTake m s
  | .homeRangeTake m => Sys2Proof.Machine.execHomeRangeTake m s
  | .homeRangeCreate m => Sys2Proof.Machine.execHomeRangeCreate m s
  | .homeAccCreate m => Sys2Proof.Machine.execHomeAccCreate m s
  | .homeAccContrib m => Sys2Proof.Machine.execHomeAccContrib m s
  | .homeCtrCreate m => Sys2Proof.Machine.execHomeCtrCreate m s
  | .homeCtrArrival m => Sys2Proof.Machine.execHomeCtrArrival m s
  | .homeCancel m => Sys2Proof.Machine.execHomeCancel m s
  | .homeBarrierRegister m => Sys2Proof.Machine.execHomeBarrierRegister m s
  | .homeResetCancel m => Sys2Proof.Machine.execHomeResetCancel m s
  | .deadlineExpiry home place => Sys2Proof.Machine.execDeadlineExpiry home place s
  | .pathPermit m => Sys2Proof.Machine.execPathPermit m s
  | .payloadStream m => Sys2Proof.Machine.execPayloadStream m s
  | .tileDelivery m => Sys2Proof.Machine.execTileDelivery m s
  | .tupleReply m => Sys2Proof.Machine.execTupleReply m s
  | .readyQueueArrival m => Sys2Proof.Machine.execReadyQueueArrival m s
  | .heldPacketSend m => Sys2Proof.Machine.execHeldPacketSend m s
  | .watchNotify m => Sys2Proof.Machine.execWatchNotify m s
  | .specRollback tile slot => Sys2Proof.Machine.execSpecRollback tile slot s
  | .releaseNotice m => Sys2Proof.Machine.execReleaseNotice m s
  | .commitDrainEnd tile slot => Sys2Proof.Machine.execCommitDrainEnd tile slot s
  | .barrierArrival tile cid => Sys2Proof.Machine.execBarrierArrival tile cid s
  | .tfenceComplete tile cid => Sys2Proof.Machine.execTfenceComplete tile cid s
  | .fenceComplete tile cid => Sys2Proof.Machine.execFenceComplete tile cid s
  | .exitComplete tile cid => Sys2Proof.Machine.execExitComplete tile cid s
  | .notifySend tile cid => Sys2Proof.Machine.execNotifySend tile cid s
  | .launchTake m => Sys2Proof.Machine.execLaunchTake m s
  | .launchAdmit die => Sys2Proof.Machine.execLaunchAdmit die s
  | .launchWaiterRetry die tenant => Sys2Proof.Machine.execLaunchWaiterRetry die tenant s
  | .copyStart tile op => Sys2Proof.Machine.execCopyStart tile op s
  | .pageFaultResolved m => Sys2Proof.Machine.execPageFaultResolved m s
  | .copyComplete tile op => Sys2Proof.Machine.execCopyComplete tile op s
  | .freezeEffect tile op => Sys2Proof.Machine.execFreezeEffect tile op s
  | .tlbinvComplete tile op => Sys2Proof.Machine.execTlbinvComplete tile op s
  | .homeSplitRequest m => Sys2Proof.Machine.execHomeSplitRequest m s
  | .splitTargetReply m => Sys2Proof.Machine.execSplitTargetReply m s
  | .splitCopyRx m => Sys2Proof.Machine.execSplitCopyRx m s
  | .splitInvalidateRx m => Sys2Proof.Machine.execSplitInvalidateRx m s
  | .cutOver home => Sys2Proof.Machine.execCutOver home s
  | .splitCutoverMark m => Sys2Proof.Machine.execSplitCutoverMark m s
  | .routeInvalidate m => Sys2Proof.Machine.execRouteInvalidate m s
  | .spirePacketRx port pkt => Sys2Proof.Machine.execSpirePacketRx port pkt s
  | .spireContextFetched ctx => Sys2Proof.Machine.execSpireContextFetched ctx s
  | .spireAckTimer ctx => Sys2Proof.Machine.execSpireAckTimer ctx s
  | .spireAckRx port pkt => Sys2Proof.Machine.execSpireAckRx port pkt s
  | .spireRetxTimeout ctx psn => Sys2Proof.Machine.execSpireRetxTimeout ctx psn s
  | .remoteCopyAgent m => Sys2Proof.Machine.execRemoteCopyAgent m s
  | .hostPutGo port fn slot word => Sys2Proof.Machine.execHostPutGo port fn slot word s
  | .hostTakeGo port fn slot word => Sys2Proof.Machine.execHostTakeGo port fn slot word s
  | .hostTakeComplete m => Sys2Proof.Machine.execHostTakeComplete m s
  | .tileResetToTenant port tile tenant => Sys2Proof.Machine.execTileResetToTenant port tile tenant s
  | .tileResetNoTenant port tile => Sys2Proof.Machine.execTileResetNoTenant port tile s
  | .slotReset port tile idx => Sys2Proof.Machine.execSlotReset port tile idx s
  | .windowReset port tile idx => Sys2Proof.Machine.execWindowReset port tile idx s
  | .regionReset port tile idx => Sys2Proof.Machine.execRegionReset port tile idx s
  | .copyEngineReset port tile => Sys2Proof.Machine.execCopyEngineReset port tile s
  | .tenantRecordWrite port tenant off val => Sys2Proof.Machine.execTenantRecordWrite port tenant off val s
  | .peerRecordWrite port ctx word val => Sys2Proof.Machine.execPeerRecordWrite port ctx word val s
  | .pkgConfigWrite port off val => Sys2Proof.Machine.execPkgConfigWrite port off val s
  | .registerWrite port fn bar off val => Sys2Proof.Machine.execRegisterWrite port fn bar off val s
  | .mctpControl cmd arg => Sys2Proof.Machine.execMctpControl cmd arg s
  | .pldmBase cmd => Sys2Proof.Machine.execPldmBase cmd s
  | .pldmPlatform cmd arg => Sys2Proof.Machine.execPldmPlatform cmd arg s
  | .getPackageConfig off len => Sys2Proof.Machine.execGetPackageConfig off len s
  | .setPackageConfig off bytes => Sys2Proof.Machine.execSetPackageConfig off bytes s
  | .firmwareTransfer secver code patch tables => Sys2Proof.Machine.execFirmwareTransfer secver code patch tables s
  | .firmwareActivate raise => Sys2Proof.Machine.execFirmwareActivate raise s
  | .selfTestFail => Sys2Proof.Machine.execSelfTestFail s
  | .cancelUpdate => Sys2Proof.Machine.execCancelUpdate s
  | .rolloutLimit => Sys2Proof.Machine.execRolloutLimit s
  | .tilePatch tile => Sys2Proof.Machine.execTilePatch tile s
  | .launchTableSwap die => Sys2Proof.Machine.execLaunchTableSwap die s
  | .getVersion => Sys2Proof.Machine.execGetVersion s
  | .getCapabilities => Sys2Proof.Machine.execGetCapabilities s
  | .negotiateAlgorithms asym hash => Sys2Proof.Machine.execNegotiateAlgorithms asym hash s
  | .getDigests => Sys2Proof.Machine.execGetDigests s
  | .getCertificate slot off len => Sys2Proof.Machine.execGetCertificate slot off len s
  | .challenge slot nonce => Sys2Proof.Machine.execChallenge slot nonce s
  | .getMeasurements index nonce => Sys2Proof.Machine.execGetMeasurements index nonce s
  | .telemetrySample r => Sys2Proof.Machine.execTelemetrySample r s
  | .energyPlannerStep => Sys2Proof.Machine.execEnergyPlannerStep s
  | .packageReset badWins => Sys2Proof.Machine.execPackageReset badWins s
  | .fullRateSwitch failed => Sys2Proof.Machine.execFullRateSwitch failed s
  | .dieReset die => Sys2Proof.Machine.execDieReset die s
  | .homeReset home => Sys2Proof.Machine.execHomeReset home s
  | .tileResetMctp tile => Sys2Proof.Machine.execTileResetMctp tile s
  | .spirePortReset port => Sys2Proof.Machine.execSpirePortReset port s
  | .hostPortReset port => Sys2Proof.Machine.execHostPortReset port s
  | .functionReset port fn => Sys2Proof.Machine.execFunctionReset port fn s
  | .mgmtReset => Sys2Proof.Machine.execMgmtReset s
  | .fatalEntry cause => Sys2Proof.Machine.execFatalEntry cause s
  | .enAssert => Sys2Proof.Machine.execEnAssert s
  | .enDeassert => Sys2Proof.Machine.execEnDeassert s
  | .inputFault => Sys2Proof.Machine.execInputFault s
  | .thermtrip => Sys2Proof.Machine.execThermtrip s
  | .hostPayloadPulled port fn slot bytes => Sys2Proof.Machine.execHostPayloadPulled port fn slot bytes s
  | .hostPutReply m => Sys2Proof.Machine.execHostPutReply m s
  | .deliveryAcknowledge m => Sys2Proof.Machine.execDeliveryAcknowledge m s
  | .targetRoomExhausted m => Sys2Proof.Machine.execTargetRoomExhausted m s
  | .spireLinkUp port => Sys2Proof.Machine.execSpireLinkUp port s
  | .hostPortLinkUp port width rate => Sys2Proof.Machine.execHostPortLinkUp port width rate s
  | .inputInRange => Sys2Proof.Machine.execInputInRange s
  | .atsInvalidate port fn addr => Sys2Proof.Machine.execAtsInvalidate port fn addr s

end Sys2Proof.Machine
end

