-- ==== Sys2Proof/Machine/Bundle.lean ====
section
/-! DEFINITION. Bundles (02_encoding.md R43 to R59): the half of each S operation, and the issue of a decoded bundle by the current thread. -/
namespace Sys2Proof.Machine

/-- The half of an S operation; a row that is no S operation has none. -/
def halfOf : Instr → Half
  | .nop => Half.none
  | .add rd ra rb => halfAdd rd ra rb
  | .addSl rd ra imm => halfAddSl rd ra imm
  | .sub rd ra rb => halfSub rd ra rb
  | .subSl rd ra imm => halfSubSl rd ra imm
  | .and rd ra rb => halfAnd rd ra rb
  | .andSl rd ra imm => halfAndSl rd ra imm
  | .or rd ra rb => halfOr rd ra rb
  | .orSl rd ra imm => halfOrSl rd ra imm
  | .xor rd ra rb => halfXor rd ra rb
  | .xorSl rd ra imm => halfXorSl rd ra imm
  | .andn rd ra rb => halfAndn rd ra rb
  | .andnSl rd ra imm => halfAndnSl rd ra imm
  | .orn rd ra rb => halfOrn rd ra rb
  | .ornSl rd ra imm => halfOrnSl rd ra imm
  | .xnor rd ra rb => halfXnor rd ra rb
  | .xnorSl rd ra imm => halfXnorSl rd ra imm
  | .sll rd ra rb => halfSll rd ra rb
  | .sllSl rd ra imm => halfSllSl rd ra imm
  | .srl rd ra rb => halfSrl rd ra rb
  | .srlSl rd ra imm => halfSrlSl rd ra imm
  | .sra rd ra rb => halfSra rd ra rb
  | .sraSl rd ra imm => halfSraSl rd ra imm
  | .ror rd ra rb => halfRor rd ra rb
  | .rorSl rd ra imm => halfRorSl rd ra imm
  | .min rd ra rb => halfMin rd ra rb
  | .minSl rd ra imm => halfMinSl rd ra imm
  | .max rd ra rb => halfMax rd ra rb
  | .maxSl rd ra imm => halfMaxSl rd ra imm
  | .minz rd ra rb => halfMinz rd ra rb
  | .minzSl rd ra imm => halfMinzSl rd ra imm
  | .maxz rd ra rb => halfMaxz rd ra rb
  | .maxzSl rd ra imm => halfMaxzSl rd ra imm
  | .addi rd ra imm => halfAddi rd ra imm
  | .mul rd ra rb => halfMul rd ra rb
  | .mulSl rd ra imm => halfMulSl rd ra imm
  | .mulh rd ra rb => halfMulh rd ra rb
  | .mulhSl rd ra imm => halfMulhSl rd ra imm
  | .mulhz rd ra rb => halfMulhz rd ra rb
  | .mulhzSl rd ra imm => halfMulhzSl rd ra imm
  | .mulhsz rd ra rb => halfMulhsz rd ra rb
  | .mulhszSl rd ra imm => halfMulhszSl rd ra imm
  | .div rd ra rb => halfDiv rd ra rb
  | .divSl rd ra imm => halfDivSl rd ra imm
  | .divz rd ra rb => halfDivz rd ra rb
  | .divzSl rd ra imm => halfDivzSl rd ra imm
  | .rem rd ra rb => halfRem rd ra rb
  | .remSl rd ra imm => halfRemSl rd ra imm
  | .remz rd ra rb => halfRemz rd ra rb
  | .remzSl rd ra imm => halfRemzSl rd ra imm
  | .clz rd ra => halfClz rd ra
  | .ctz rd ra => halfCtz rd ra
  | .popc rd ra => halfPopc rd ra
  | .sxb rd ra => halfSxb rd ra
  | .sxh rd ra => halfSxh rd ra
  | .sxw rd ra => halfSxw rd ra
  | .zxb rd ra => halfZxb rd ra
  | .zxh rd ra => halfZxh rd ra
  | .zxw rd ra => halfZxw rd ra
  | .sel rd pn ra rb => halfSel rd pn ra rb
  | .selSl rd pn ra imm => halfSelSl rd pn ra imm
  | .addx rd ra rb sc => halfAddx rd ra rb sc
  | .addxSl rd ra imm sc => halfAddxSl rd ra imm sc
  | .bfx rd ra pos width => halfBfx rd ra pos width
  | .bfxz rd ra pos width => halfBfxz rd ra pos width
  | .bfi rd ra pos width => halfBfi rd ra pos width
  | .li rd imm => halfLi rd imm
  | .liz rd imm => halfLiz rd imm
  | .lih rd imm => halfLih rd imm
  | .pand pd pa pb => halfPand pd pa pb
  | .por pd pa pb => halfPor pd pa pb
  | .pxor pd pa pb => halfPxor pd pa pb
  | .pandn pd pa pb => halfPandn pd pa pb
  | .porn pd pa pb => halfPorn pd pa pb
  | .pnor pd pa pb => halfPnor pd pa pb
  | .pget rd => halfPget rd
  | .pput ra => halfPput ra
  | .cmpEq pt pf ra rb => halfCmpEq pt pf ra rb
  | .cmpEqSl pt pf ra imm => halfCmpEqSl pt pf ra imm
  | .cmpLt pt pf ra rb => halfCmpLt pt pf ra rb
  | .cmpLtSl pt pf ra imm => halfCmpLtSl pt pf ra imm
  | .cmpLe pt pf ra rb => halfCmpLe pt pf ra rb
  | .cmpLeSl pt pf ra imm => halfCmpLeSl pt pf ra imm
  | .cmpLtz pt pf ra rb => halfCmpLtz pt pf ra rb
  | .cmpLtzSl pt pf ra imm => halfCmpLtzSl pt pf ra imm
  | .cmpLez pt pf ra rb => halfCmpLez pt pf ra rb
  | .cmpLezSl pt pf ra imm => halfCmpLezSl pt pf ra imm
  | .ldb rd ra imm => halfLdb rd ra imm
  | .ldbz rd ra imm => halfLdbz rd ra imm
  | .ldh rd ra imm => halfLdh rd ra imm
  | .ldhz rd ra imm => halfLdhz rd ra imm
  | .ldw rd ra imm => halfLdw rd ra imm
  | .ldwz rd ra imm => halfLdwz rd ra imm
  | .ldd rd ra imm => halfLdd rd ra imm
  | .stb rd ra imm => halfStb rd ra imm
  | .sth rd ra imm => halfSth rd ra imm
  | .stw rd ra imm => halfStw rd ra imm
  | .std rd ra imm => halfStd rd ra imm
  | .ldx sz zx scaled rd ra rb => halfLdx sz zx scaled rd ra rb
  | .stx sz scaled rd ra rb => halfStx sz scaled rd ra rb
  | .ldf rd ra imm => halfLdf rd ra imm
  | .lde rd ra imm => halfLde rd ra imm
  | .stf rd ra imm => halfStf rd ra imm
  | .ste rd ra imm => halfSte rd ra imm
  | .waitf ra imm => halfWaitf ra imm
  | .amoadd wide noret rd ra rb => halfAmoadd wide noret rd ra rb
  | .amomax wide noret rd ra rb => halfAmomax wide noret rd ra rb
  | .amomin wide noret rd ra rb => halfAmomin wide noret rd ra rb
  | .amomaxz wide noret rd ra rb => halfAmomaxz wide noret rd ra rb
  | .amominz wide noret rd ra rb => halfAmominz wide noret rd ra rb
  | .amoand wide noret rd ra rb => halfAmoand wide noret rd ra rb
  | .amoor wide noret rd ra rb => halfAmoor wide noret rd ra rb
  | .amoxor wide noret rd ra rb => halfAmoxor wide noret rd ra rb
  | .amoswap wide noret rd ra rb => halfAmoswap wide noret rd ra rb
  | .amocas wide noret rd ra rb => halfAmocas wide noret rd ra rb
  | .amofadd half noret rd ra rb => halfAmofadd half noret rd ra rb
  | .amofmax half noret rd ra rb => halfAmofmax half noret rd ra rb
  | .amofmin half noret rd ra rb => halfAmofmin half noret rd ra rb
  | .dlook rd ra => halfDlook rd ra
  | .dins rd ra rb => halfDins rd ra rb
  | .ddel rd ra => halfDdel rd ra
  | .fadd fmt rd ra rb => halfFadd fmt rd ra rb
  | .fsub fmt rd ra rb => halfFsub fmt rd ra rb
  | .fmul fmt rd ra rb => halfFmul fmt rd ra rb
  | .fma fmt rd ra rb => halfFma fmt rd ra rb
  | .fmin fmt rd ra rb => halfFmin fmt rd ra rb
  | .fmax fmt rd ra rb => halfFmax fmt rd ra rb
  | .fclass fmt rd ra => halfFclass fmt rd ra
  | .fcmpEq fmt pt pf ra rb => halfFcmpEq fmt pt pf ra rb
  | .fcmpLt fmt pt pf ra rb => halfFcmpLt fmt pt pf ra rb
  | .fcmpLe fmt pt pf ra rb => halfFcmpLe fmt pt pf ra rb
  | .fcmpUn fmt pt pf ra rb => halfFcmpUn fmt pt pf ra rb
  | .qbsE2m1 rd ra rb => halfQbsE2m1 rd ra rb
  | .qbsE4m3 rd ra rb => halfQbsE4m3 rd ra rb
  | .dqbsE2m1 rd ra rb => halfDqbsE2m1 rd ra rb
  | .dqbsE4m3 rd ra rb => halfDqbsE4m3 rd ra rb
  | .nisplit rd ra => halfNisplit rd ra
  | .nijoin rd ra rb => halfNijoin rd ra rb
  | .cvt dst src rd ra => halfCvt dst src rd ra
  | .br disp => halfBr disp
  | .brl disp => halfBrl disp
  | .loop rc disp => halfLoop rc disp
  | .bz rc disp => halfBz rc disp
  | .bnz rc disp => halfBnz rc disp
  | .jr ra => halfJr ra
  | .jrl rd ra => halfJrl rd ra
  | .mstat rd ra rb => halfMstat rd ra rb
  | .munstat rd ra => halfMunstat rd ra
  | .mma ra => halfMma ra
  | .macc rd ra => halfMacc rd ra
  | .mrd ra => halfMrd ra
  | .mrdv ra => halfMrdv ra
  | .mstatus rd ra => halfMstatus rd ra
  | .put rd ra => halfPut rd ra
  | .putI rd ra => halfPutI rd ra
  | .putR rd ra => halfPutR rd ra
  | .putG rd ra => halfPutG rd ra
  | .readB rd ra => halfReadB rd ra
  | .readP rd ra => halfReadP rd ra
  | .readC rd ra => halfReadC rd ra
  | .takeB rd ra => halfTakeB rd ra
  | .takeP rd ra => halfTakeP rd ra
  | .takeC rd ra => halfTakeC rd ra
  | .takeN rd ra rb => halfTakeN rd ra rb
  | .range rd ra => halfRange rd ra
  | .accO rd ra => halfAccO rd ra
  | .accA rd ra rb => halfAccA rd ra rb
  | .ctrO rd ra => halfCtrO rd ra
  | .ctrA rd ra rb => halfCtrA rd ra rb
  | .tcancel rd ra => halfTcancel rd ra
  | .tfence => halfTfence
  | .copyin rd ra => halfCopyin rd ra
  | .copyout rd ra => halfCopyout rd ra
  | .copyr rd ra => halfCopyr rd ra
  | .freeze rd ra => halfFreeze rd ra
  | .split rd ra => halfSplit rd ra
  | .tstat rd ra => halfTstat rd ra
  | .bars rd ra => halfBars rd ra
  | .barr ra => halfBarr ra
  | .barw ra => halfBarw ra
  | .spend => halfSpend
  | .spst rd => halfSpst rd
  | .fence ra => halfFence ra
  | .yield => halfYield
  | .sleep rd ra => halfSleep rd ra
  | .wake ra => halfWake ra
  | .spawn rd ra rb => halfSpawn rd ra rb
  | .send rd ra rb => halfSend rd ra rb
  | .exit => halfExit
  | .prio ra => halfPrio ra
  | .susp rd ra rb => halfSusp rd ra rb
  | .resume rd ra => halfResume rd ra
  | .free rd ra => halfFree rd ra
  | .rdctx rd ra rb => halfRdctx rd ra rb
  | .wrctx rd ra rb => halfWrctx rd ra rb
  | .lend ra => halfLend ra
  | .timer ra rb => halfTimer ra rb
  | .crget rd rb => halfCrget rd rb
  | .crgetSl rd num => halfCrgetSl rd num
  | .crset ra rb => halfCrset ra rb
  | .crsetSl ra num => halfCrsetSl ra num
  | .trap ra rb => halfTrap ra rb
  | .rft => halfRft
  | .svc ra => halfSvc ra
  | .brk ra => halfBrk ra
  | .tlbinv rd ra rb => halfTlbinv rd ra rb
  | .asid ra => halfAsid ra
  | .notify ra => halfNotify ra
  | .perf rd ra => halfPerf rd ra
  | .wdog ra => halfWdog ra
  | .halt ra => halfHalt ra
  | _ => Half.none

/-- The value of the S guard (R47, R57). -/
def guardHolds (t : Thread) (b : Bundle) : Bool := t.pr b.guard != b.neg
/-- Issues the bundle that a word holds, or takes ILLOP (R45, R63). -/
def State.issueWord (s : State) (lent : Bool) (w : W64) : State :=
  match decode w with
  | .error _ => s.issueIllegal lent w
  | .ok b => s.issue lent w b.wait (guardHolds s.cthr b) (halfOf b.s) (halfV b.v)

end Sys2Proof.Machine
end

