-- ==== Sys2Proof/Machine/Rotation.lean ====
section
/-! DEFINITION. The barrel: readiness, lending, one tile's issue of a cycle, the end of a cycle on a die (01_machine.md R34; 04_scalar.md R104 to
R107; 12_tasks.md R376; 13_system.md R392, R402, R416, R426). -/
namespace Sys2Proof.Machine

/-! Readiness (R104). -/
/-- The long-latency operations of the next bundle, and whether it needs a place in the request queue. -/
def Bundle.longs (b : Bundle) (s : State) : Nat :=
  (if guardHolds s.cthr b && (halfOf b.s).long s then 1 else 0) + (if (halfV b.v).long s then 1 else 0)
def Bundle.queues (b : Bundle) (s : State) : Bool := (guardHolds s.cthr b && (halfOf b.s).queue) || (halfV b.v).queue
/-- The lines that the bundle reads or writes in its issue cycle (R355). -/
def Bundle.lines (b : Bundle) (s : State) : List Nat :=
  ((if guardHolds s.cthr b then (halfOf b.s).touches s else []) ++ (halfV b.v).touches s).flatMap fun p => linesOf p.1 p.2
/-- The lines in the read sets and buffers of other slots whose commit is still draining (R355); a commit keeps both in `reads`. -/
def State.draining (s : State) (x q : Nat) : List Nat :=
  (List.range 8).flatMap fun r => match (s.thr x r).bind Thread.spec with
    | some sp => if r ≠ q ∧ sp.st = .committing ∧ s.cycleOf x < sp.drainEnd then sp.reads else []
    | none => []
/-- The bundle `w`, decoded as `b`, traps at its issue by the current thread. -/
def State.willTrap (s : State) (w : W64) (b : Bundle) : Bool :=
  !s.cthr.tact && (s.cthr.pwdg.isSome || s.cthr.ptim.isSome) ||
    (firstTrap (bundleTraps w (guardHolds s.cthr b) (halfOf b.s) (halfV b.v) s)).isSome
/-- The bundle's operations leave it waiting: for the request queue, the outstanding counter, a draining commit (R104). A bundle that will trap
waits for none of them (DEDUCED, log 50). -/
def State.heldBack (s : State) (x q : Nat) (w : W64) (b : Bundle) : Bool :=
  ((Bundle.queues b s && (s.tile x).queued ≥ Config.requestQueue) || decide (s.cthr.outs.length + Bundle.longs b s > 255) ||
    (let ls := s.draining x q; !ls.isEmpty && (Bundle.lines b s).any ls.contains)) && !s.willTrap w b
/-- The thread in slot `q` is ready. A bundle address that is misaligned or whose fetch was refused issues and traps (R19). -/
def State.ready (s : State) (x q : Nat) : Bool :=
  let l := s.tile x
  match (l.slot q).thr with
  | none => false
  | some t =>
    t.running && t.vheld.isNone && !l.refilling.contains t.cid && l.spilling != some t.cid && t.readyAt ≤ s.cycleOf x && (!t.mark || t.outs.isEmpty) &&
    (match t.spec with
      | some sp => sp.st != .committing
      | none => true) &&
    (t.pc % 8 != 0 || t.fetchFault == some t.pc || match l.bundleAt t.pc with
      | none => false
      | some w => match decode w with
        | .error _ => true
        | .ok b => !State.heldBack { s with cur := (x, q) } x q w b)

/-! The issue of a cycle (R106). -/
/-- A fetch that traps at the thread's first issue from its address (R19), behind a pending rank-1 cause (R59). -/
def State.issueFetch (s : State) (lent : Bool) (rank cause : Nat) : State :=
  let t := s.cthr
  if !t.tact && (t.pwdg.isSome || t.ptim.isSome) then s.takePending
  else ((s.countIssue lent).modCur fun t => { t with fetchFault := none }).takeTrap ⟨rank, cause, BitVec.ofNat 64 t.pc⟩
/-- The current thread issues its next bundle. -/
def State.issueNext (s : State) (lent : Bool) : State :=
  let t := s.cthr
  if t.pc % 8 ≠ 0 then s.issueFetch lent 5 cALIGN
  else if t.fetchFault = some t.pc then s.issueFetch lent 6 cBOUNDS
  else match s.ctile.bundleAt t.pc with
    | some w => s.issueWord lent w
    | none => s
/-- The slot that issues in the present cycle of tile `x`, and whether in a lent cycle; none where the cycle idles. -/
def State.chosen (s : State) (x : Nat) : Option (Nat × Bool) :=
  let q := s.cycleOf x % 8
  let l := (s.slot x q).lend.toNat
  if s.ready x q then some (q, false)
  else if l ≠ q ∧ s.ready x l then some (l, true)
  else none
/-- The issuing slot's thread is the same and no issue of its has been counted: its bundle has failed its full/empty condition, even where it then takes
FERETRY (R148, R150), or its speculation ended, paused or is being undone. A pending rank-1 cause that is taken is no such cycle. -/
def State.idled (pre s : State) : Bool :=
  match pre.thr s.tx s.sx, s.thr s.tx s.sx with
  | some a, some b => b.wait == .spec || (a.cid == b.cid && a.issOwn == b.issOwn && a.issLent == b.issLent && a.pwdg.isNone && a.ptim.isNone)
  | _, _ => false
/-- The tile's issue of the present cycle, at most once in a cycle; a cycle whose bundle does not issue idles (R148, R426). -/
def State.runCycle (s : State) (x : Nat) : State :=
  if s.service = .off ∨ s.service = .fatal ∨ (s.tile x).acted = true then s
  else match s.chosen x with
    | some (q, lent) =>
      let s := { s.modTile x fun t => { t with acted := true } with cur := (x, q) }
      let u := s.issueNext lent
      if s.idled u then u.modTile x fun t => { t with perfIdle := t.perfIdle + 1 } else u
    | none => s.modTile x fun t => { t with acted := true, perfIdle := t.perfIdle + 1 }

/-! The end of a cycle. -/
/-- The operations whose value is due: `TSTAT`, `BARS`, `CRGET` and the like write it some cycles after their issue (R282, R359, R420). -/
def State.dueOps (s : State) (x : Nat) : State :=
  ((s.tile x).ops.filter fun o => match o.kind, o.stage with
    | .tstat, .ended _ _ | .bars, .ended _ _ | .sleep, .ended _ _ | .crget, .ended _ _ => o.prog ≤ s.cycleOf x
    | _, _ => false).foldl (fun s o => match o.stage with
      | .ended _ v => s.endOp x o v
      | _ => s) s
/-- A thread's engine operation stands at the head of a queue and only the energy reserve holds it back (R416, R426). -/
def State.starved (s : State) (x cid : Nat) : Bool :=
  let t := s.tile x
  let short := fun (n : Nat) => !s.covers (dieOf x) n
  t.wins.toList.any (fun w => match w.queue, w.busy with
    | e :: _, none => e.cid == cid && e.mx.isNone && short e.cost
    | _, _ => false) ||
  t.mxq.any (fun o => o.cid == cid && !o.started && t.mxReady o && short (s.mxRun x o).1.cost) ||
  t.ops.any fun o => o.cid == cid && o.stage == .queued &&
    (if isCopy o.kind then t.copies < Config.copyContexts && short (copyCost o) else t.mayRoute o && short (s.requestCost x o))
/-- Counts a cycle for a tile's matrix sequencer, which is busy, and for its resident threads: parked, and waiting on the reserve (R426). -/
def State.countCycle (s : State) (x : Nat) : State :=
  let s := if s.cycleOf x < (s.tile x).mxUntil then s.modTile x fun t => { t with perfMx := t.perfMx + 1 } else s
  (List.range 8).foldl (fun s q => match s.thr x q with
    | none => s
    | some t =>
      let p := if t.stateNo = 2 then 1 else 0
      let w := if s.starved x t.cid then 1 else 0
      s.modThr x q fun t => { t with parked := t.parked + p, stalls := t.stalls + w }) s
/-- What comes due on a tile when a new cycle begins. -/
def State.newCycle (s : State) (x : Nat) : State :=
  let s := (s.modTile x fun t => { t with acted := false, bound := false, swapped := false, age := t.age + 1 }).dueOps x
  let s := (List.range 8).foldl (fun s q => s.watchdog x q) s
  let s := (List.range 8).foldl (fun s q => s.runHeld x q) (s.timerFire x)
  let cids := ((s.tile x).slots.toList.filterMap Slot.thr ++ (s.tile x).spills.map Spilled.thr).map Thread.cid
  cids.foldl (fun s c => s.sleepExpire x c) s
/-- The tiles of a die. -/
def tilesOf (d : Nat) : List Nat := (List.range Config.dieTiles).map (d * Config.dieTiles + ·)
/-- The end of the present cycle on die `d`: tiles that have not issued do so, each tile takes a microcode patch that waits for a cycle without
compute threads (R444) and makes its binding (R376), and the next cycle begins. -/
def State.endCycle (s : State) (d : Nat) : State :=
  if s.service = .off ∨ s.service = .fatal ∨ d ≥ 4 then s
  else
    let xs := tilesOf d
    let s := xs.foldl (fun s x => s.runCycle x) s
    let s := xs.foldl (fun s x => ((s.countCycle x).tilePatch x).bindOne x) s
    let s := s.modDie d fun v => { v with cycle := v.cycle + 1 }
    let s := xs.foldl (fun s x => s.newCycle x) s
    s.energyArrives d

end Sys2Proof.Machine
end

