-- ==== Sys2Proof/Machine/Policy.lean ====
section
/-! DEFINITION. The order in which the package's agents act while the script is empty (log 3): cycles of the dies and turns of the agents
alternate, each agent in its turn performing every event of its own that is enabled. Every event that is not enabled does nothing. -/
namespace Sys2Proof.Machine

/-- The event rows of the opcode table: what the parts of the machine, the host, the link and the power supply do of themselves. -/
def isEvent : Instr → Bool
  | .pendingTrapTaken _ _ | .watchdogExpiry _ _ | .timerFire _ | .sleepTimeout _ _ | .bundleFill _ _ | .packetBind _
  | .refillImageArrived _ _ | .spillStart _ | .spillDone _ | .energyRefill _ | .vopStart _ _ | .transferStart _ _
  | .vopComplete _ _ | .mxStart _ _ | .mxComplete _ _ | .requestRoute _ _ | .routeFetchDone _ _ _ | .switchCombine _ _
  | .replySplit _ | .homePut _ | .homeRead _ | .homeTake _ | .homeRangeTake _ | .homeRangeCreate _ | .homeAccCreate _
  | .homeAccContrib _ | .homeCtrCreate _ | .homeCtrArrival _ | .homeCancel _ | .homeBarrierRegister _ | .homeResetCancel _
  | .deadlineExpiry _ _ | .pathPermit _ | .payloadStream _ | .tileDelivery _ | .tupleReply _ | .readyQueueArrival _
  | .heldPacketSend _ | .watchNotify _ | .specRollback _ _ | .releaseNotice _ | .commitDrainEnd _ _ | .barrierArrival _ _
  | .tfenceComplete _ _ | .fenceComplete _ _ | .exitComplete _ _ | .notifySend _ _ | .launchTake _ | .launchAdmit _
  | .launchWaiterRetry _ _ | .copyStart _ _ | .pageFaultResolved _ | .copyComplete _ _ | .freezeEffect _ _
  | .tlbinvComplete _ _ | .homeSplitRequest _ | .splitTargetReply _ | .splitCopyRx _ | .splitInvalidateRx _ | .cutOver _
  | .splitCutoverMark _ | .routeInvalidate _ | .spirePacketRx _ _ | .spireContextFetched _ | .spireAckTimer _
  | .spireAckRx _ _ | .spireRetxTimeout _ _ | .remoteCopyAgent _ | .hostPutGo _ _ _ _ | .hostTakeGo _ _ _ _
  | .hostTakeComplete _ | .tileResetToTenant _ _ _ | .tileResetNoTenant _ _ | .slotReset _ _ _ | .windowReset _ _ _
  | .regionReset _ _ _ | .copyEngineReset _ _ | .tenantRecordWrite _ _ _ _ | .peerRecordWrite _ _ _ _
  | .pkgConfigWrite _ _ _ | .registerWrite _ _ _ _ _ | .mctpControl _ _ | .pldmBase _ | .pldmPlatform _ _
  | .getPackageConfig _ _ | .setPackageConfig _ _ | .firmwareTransfer _ _ _ _ | .firmwareActivate _ | .selfTestFail
  | .cancelUpdate | .rolloutLimit | .tilePatch _ | .launchTableSwap _ | .getVersion | .getCapabilities
  | .negotiateAlgorithms _ _ | .getDigests | .getCertificate _ _ _ | .challenge _ _ | .getMeasurements _ _
  | .telemetrySample _ | .energyPlannerStep | .packageReset _ | .fullRateSwitch _ | .dieReset _ | .homeReset _
  | .tileResetMctp _ | .spirePortReset _ | .hostPortReset _ | .functionReset _ _ | .mgmtReset | .fatalEntry _ | .enAssert
  | .enDeassert | .inputFault | .thermtrip | .hostPayloadPulled _ _ _ _ | .hostPutReply _ | .deliveryAcknowledge _
  | .targetRoomExhausted _ | .spireLinkUp _ | .hostPortLinkUp _ _ _ | .inputInRange | .atsInvalidate _ _ _ => true
  | _ => false

/-- A turn of a message: the event that its arrival is. -/
def State.serveMsg (m : Nat) (s : State) : State :=
  [State.homePut, (State.homeGet · · false), (State.homeGet · · true), State.homeRange, State.homeRangeNew, State.homeAccNew, State.homeAccAdd,
    State.homeCtrNew, State.homeArrival, State.homeCancel, State.homeBarReg, State.homeResetCancel, State.acknowledge,
    State.splitReplyAt, State.permitAt, State.faultResolved, State.stream, State.deliveryAt, (State.packetEvent · · true),
    (State.packetEvent · · false), State.launchTake, State.remoteAgent, State.splitRequest, State.splitAnswered, State.splitCopy,
    State.splitInvalid, State.splitMarked, State.splitFullAt, State.hostPutReply, State.hostTakeComplete, State.routeInvalid, State.tupleReply,
    State.notifyAt, State.releaseAt].foldl (fun s f => f s m) s
/-- A turn of a tile's engines, interface and threads. -/
def State.serveTile (x : Nat) (s : State) : State :=
  let ops := (s.tile x).ops
  let s := ops.foldl (fun s o => match o.space with
    | some sp => s.tileFetch x sp
    | none => s) s
  let s := ops.foldl (fun s o => (((((s.routeRequest x o.id).startCopy x o.id).completeCopy x o.id).freezeNow x o.id).tlbDone x o.id)) s
  let s := (s.tile x).mxq.foldl (fun s o => (s.mxComplete x o.id).mxStart x o.id) s
  let s := (List.range 4).foldl (fun s w => ((s.vopComplete x w).vopStart x w).transferStart x w) s
  let thr := (s.tile x).slots.toList.filterMap Slot.thr ++ (s.tile x).spills.map Spilled.thr
  let s := thr.foldl (fun s t => ((((s.tryArrive x t.cid).tryTfence x t.cid).tryFence x t.cid).tryExit x t.cid).tryNotify x t.cid) s
  let s := (List.range 8).foldl (fun s q => (s.rollBack x q).endCommit x q) s
  let s := thr.foldl (fun s t => s.bundleFill x t.pc) s
  let s := (s.tile x).refilling.foldl (fun s c => s.refillArrived x c) s
  let s := (s.spillDone x).spillStart x
  if (s.tile x).patch = s.belfry.patchNo then s else s.tilePatch x
/-- A turn of a home. -/
def State.serveHome (h : Nat) (s : State) : State :=
  ((s.home h).watches.foldl (fun s w => s.expire h w.place) s).cutOver h
/-- A turn of a die's launch unit. -/
def State.serveDie (d : Nat) (s : State) : State :=
  let s := s.launchAdmit d
  let s := s.tenants.foldl (fun s t => s.retryWaiter d t.1) s
  if (s.die d).launch.tables = s.belfry.patchNo then s else s.tableSwap d
/-- A turn of a peer context. -/
def State.servePeer (c : Nat) (s : State) : State :=
  let p := s.peer c
  let s := if !p.cached && !(p.waiting.isEmpty && p.txq.isEmpty) then s.contextFetched c else s
  p.window.foldl (fun s u => s.retxTimeout c u.pkt.psn) (s.ackTimer c)
/-- A turn of a host port: the routes that its records wait for, and a busy resource command. -/
def State.servePort (p : Nat) (s : State) : State :=
  let h := s.port p
  let s := h.fns.foldl (fun s f => f.2.ops.foldl (fun s o => s.hostFetch p f.1 (keySpace (hostKey o 0))) s) s
  let w := h.command
  if bitsOf w 63 1 = 1 then s.command p (bitsOf w 56 3) (bitsOf w 40 3) (bitsOf w 32 8) (BitVec.ofNat 32 w.toNat) else s
/-- The agents that have a turn. -/
def State.agents (s : State) : List (State → State) :=
  s.net.map (fun m => State.serveMsg m.id) ++ s.tiles.map (fun t => State.serveTile t.1) ++ s.homes.map (fun h => State.serveHome h.1) ++
  (List.range 4).map State.serveDie ++ s.peers.map (fun c => State.servePeer c.1) ++ (List.range 2).map State.servePort
/-- One turn while the script is empty: on even turns a die ends its cycle, on odd ones an agent acts. -/
def State.ownTurn (s : State) : State :=
  let n := s.turn
  let s := { s with turn := n + 1 }
  if n % 2 = 0 then s.endCycle (n / 2 % 4)
  else
    let l := s.agents
    (l.getD (n / 2 % l.length) id) s

end Sys2Proof.Machine
end

