-- ==== Sys2Proof/Machine/Step.lean ====
section
/-! DEFINITION. One step of the package. The script names what happens next where the manual leaves the order to the machine and its surroundings:
an event, a tile's issue of the present cycle, the end of a die's cycle. With an empty script the order is the model's own (log 3). -/
namespace Sys2Proof.Machine

/-- One step. An instruction issues only by a tile's cycle, from the bundle at its thread's pc; the script holds events. -/
def step (s : State) : Host.Outcome State Fault Refusal :=
  match s.script with
  | [] => match s.service with
    | .off => .fault .noPower
    | .fatal => .fault .fatalState
    | .reduced | .full => .next s.ownTurn
  | .act i :: r => if isEvent i then exec i { s with script := r } else .next { s with script := r }
  | .cycle x :: r => .next ({ s with script := r }.runCycle x)
  | .tick d :: r => .next ({ s with script := r }.endCycle d)

/-- The thread that `withFetchWord` places: freshly bound, with a window. -/
def fetchThread : Thread := { compute := true, vl := Config.rows }
/-- The bundle whose bits are `w` stands at address 0 of tile 0, whose slot 0 holds a freshly bound compute thread at that address, and tile
0 issues next. With 32 bits or fewer `w` is a V syllable beside an S half `NOP`. -/
def State.withFetchWord (s : State) (_nbits w : Nat) : State :=
  let t := s.tile 0
  let t : Tile := { t with
    tenant := some 0, acted := false, spilling := none, refilling := []
    icache := [(t.asid, 0, [BitVec.ofNat 64 w])]
    wins := t.wins.setIfInBounds 0 { t.win 0 with owner := some 0 }
    slots := t.slots.setIfInBounds 0 { t.slot 0 with thr := some fetchThread } }
  { s.setTile 0 t with service := .full, script := [.cycle 0], dies := s.dies.setIfInBounds 0 { s.die 0 with cycle := 0 } }

end Sys2Proof.Machine
end

