-- ==== Sys2Proof/Safety.lean ====
section
/-! DEFINITION. What counts as a safe run, the invariants of the machine, and the conditions on an issue in whose terms statements are made. -/
namespace Sys2Proof.Machine

/-- A step is safe if it goes on: it ends neither in a fault nor in a refusal. -/
def State.Safe (s : State) : Prop := ∃ t, step s = .next t

/-- The package is stopped: no power (R455), or the fatal state (R451). -/
def State.stopped (s : State) : Bool := s.service == .off || s.service == .fatal

/-- Byte memory in canonical form: DRAM and every scratchpad. -/
def State.canonical (s : State) : Bool := s.dram.wf && s.tiles.all fun t => t.2.sp.wf

/-! Issue. -/
/-- Thread `t` stands in the issuing slot, and no pending WATCHDOG or TIMER cause is to be taken before its bundle issues (R59 rank 1). -/
def State.Issues (s : State) (t : Thread) : Prop :=
  s.thr s.tx s.sx = some t ∧ (t.tact = false → t.pwdg = none ∧ t.ptim = none)
/-- None of these registers is pending (R56). -/
def Thread.Clear (t : Thread) (rs : List Reg) : Prop := ∀ r ∈ rs, t.pending r = false
/-- The thread after an issue of its own that traps nowhere, before the bundle's effects: the counts of R426, the pc, the marks of R46
and R149. -/
def Thread.stepped (t : Thread) : Thread := { t with issOwn := t.issOwn + 1, pc := (t.pc + 8) % 2 ^ 64, mark := false, feTried := false }
/-- The package in which the issuing slot holds thread `t` and its watchdog has counted one more issue (R402); all else as in `s`. -/
def State.issued (s : State) (t : Thread) : State :=
  s.setSlot s.tx s.sx { s.slot s.tx s.sx with thr := some t, wdogCount := (s.slot s.tx s.sx).wdogCount + 1 }
/-- The issue in which `tr` is taken: counted, with the trap entry of R97 and nothing else of the bundle (R59). -/
def State.trapped (s : State) (tr : Trap) : State := (s.countIssue false).takeTrap tr
/-- The thread after its operation `op` with destination `d` has been counted and marked pending (R56, R282). -/
def Thread.counted (t : Thread) (d : Reg) (op : Nat) : Thread :=
  { t with outs := t.outs ++ [op], pend := if d = 0 then t.pend else t.pend ++ [(d, op)] }
/-- The package after an issue that leaves thread `t` in the slot and enters `op` in the records of the tile's network interface. -/
def State.requested (s : State) (t : Thread) (op : TOp) : State :=
  { (s.issued t).setTile s.tx { (s.issued t).ctile with ops := s.ctile.ops ++ [op] } with nextId := s.nextId + 1 }

end Sys2Proof.Machine
end

