-- ==== Sys2Proof/Rules.lean ====
section
/-! DEFINITION. The manual's tables of results, written from the rules and apart from the meanings, over integers and naturals. The
statements compare the meanings with them. -/
namespace Sys2Proof.Machine

/-! Integers (R94, R115 to R122). -/
/-- A 64-bit word with this value modulo 2^64. -/
def wrapI (z : Int) : W64 := BitVec.ofInt 64 z
def wrapN (n : Nat) : W64 := BitVec.ofNat 64 n
/-- `sext(x, n)` and `zext(x, n)` of R94: the value of the low `n` bits, in two's complement or unsigned. -/
def ruleSext (x n : Nat) : W64 := wrapI (Int.bmod (x : Int) (2 ^ n))
def ruleZext (x n : Nat) : W64 := wrapN (x % 2 ^ n)
/-- An `imm32` as a Z-marked SL twin takes it, and as the others do (R115, R117, R123). -/
def ruleZ (imm : BitVec 32) : W64 := wrapN imm.toNat
def ruleS (imm : BitVec 32) : W64 := ruleSext imm.toNat 32

/-- A row of the tables of R115 to R117: y from a and b. -/
inductive Binary where
  | add | sub | and | or | xor | andn | orn | xnor | sll | srl | sra | ror | min | max | minz | maxz
  | mul | mulh | mulhz | mulhsz | div | divz | rem | remz
  deriving DecidableEq, Repr
/-- The operations that zero-extend `imm32` (R115, R117). -/
def Binary.zMarked : Binary → Bool
  | .minz | .maxz | .mulhz | .mulhsz | .divz | .remz => true
  | _ => false
/-- The column y of R115 and R117, with the borderline cases of R118. -/
def Binary.y (k : Binary) (a b : W64) : W64 :=
  let n := b.toNat % 64
  let quot := if b = 0 then wrapI (-1) else wrapI (a.toInt.tdiv b.toInt)
  let quotZ := if b = 0 then wrapI (-1) else wrapN (a.toNat / b.toNat)
  match k with
  | .add => wrapN (a.toNat + b.toNat)
  | .sub => wrapI (a.toNat - b.toNat)
  | .and => a &&& b
  | .or => a ||| b
  | .xor => a ^^^ b
  | .andn => a &&& ~~~b
  | .orn => a ||| ~~~b
  | .xnor => ~~~(a ^^^ b)
  | .sll => wrapN (a.toNat * 2 ^ n)
  | .srl => wrapN (a.toNat / 2 ^ n)
  | .sra => wrapI (a.toInt / 2 ^ n)
  | .ror => wrapN (a.toNat / 2 ^ n + a.toNat * 2 ^ (64 - n))
  | .min => if a.toInt ≤ b.toInt then a else b
  | .max => if a.toInt ≤ b.toInt then b else a
  | .minz => if a.toNat ≤ b.toNat then a else b
  | .maxz => if a.toNat ≤ b.toNat then b else a
  | .mul => wrapI (a.toInt * b.toInt)
  | .mulh => wrapI (a.toInt * b.toInt / 2 ^ 64)
  | .mulhz => wrapN (a.toNat * b.toNat / 2 ^ 64)
  | .mulhsz => wrapI (a.toInt * (b.toNat : Int) / 2 ^ 64)
  | .div => quot
  | .divz => quotZ
  | .rem => wrapI (a.toInt - b.toInt * quot.toInt)
  | .remz => wrapI (a.toNat - b.toNat * quotZ.toNat)
/-- The instructions of these rows: destination, operand a, operand b as a register or an `imm32`. -/
def Binary.of : Instr → Option (Binary × Reg × Reg × (Reg ⊕ BitVec 32))
  | .add d a b => some (.add, d, a, .inl b)
  | .addSl d a i => some (.add, d, a, .inr i)
  | .sub d a b => some (.sub, d, a, .inl b)
  | .subSl d a i => some (.sub, d, a, .inr i)
  | .and d a b => some (.and, d, a, .inl b)
  | .andSl d a i => some (.and, d, a, .inr i)
  | .or d a b => some (.or, d, a, .inl b)
  | .orSl d a i => some (.or, d, a, .inr i)
  | .xor d a b => some (.xor, d, a, .inl b)
  | .xorSl d a i => some (.xor, d, a, .inr i)
  | .andn d a b => some (.andn, d, a, .inl b)
  | .andnSl d a i => some (.andn, d, a, .inr i)
  | .orn d a b => some (.orn, d, a, .inl b)
  | .ornSl d a i => some (.orn, d, a, .inr i)
  | .xnor d a b => some (.xnor, d, a, .inl b)
  | .xnorSl d a i => some (.xnor, d, a, .inr i)
  | .sll d a b => some (.sll, d, a, .inl b)
  | .sllSl d a i => some (.sll, d, a, .inr i)
  | .srl d a b => some (.srl, d, a, .inl b)
  | .srlSl d a i => some (.srl, d, a, .inr i)
  | .sra d a b => some (.sra, d, a, .inl b)
  | .sraSl d a i => some (.sra, d, a, .inr i)
  | .ror d a b => some (.ror, d, a, .inl b)
  | .rorSl d a i => some (.ror, d, a, .inr i)
  | .min d a b => some (.min, d, a, .inl b)
  | .minSl d a i => some (.min, d, a, .inr i)
  | .max d a b => some (.max, d, a, .inl b)
  | .maxSl d a i => some (.max, d, a, .inr i)
  | .minz d a b => some (.minz, d, a, .inl b)
  | .minzSl d a i => some (.minz, d, a, .inr i)
  | .maxz d a b => some (.maxz, d, a, .inl b)
  | .maxzSl d a i => some (.maxz, d, a, .inr i)
  | .mul d a b => some (.mul, d, a, .inl b)
  | .mulSl d a i => some (.mul, d, a, .inr i)
  | .mulh d a b => some (.mulh, d, a, .inl b)
  | .mulhSl d a i => some (.mulh, d, a, .inr i)
  | .mulhz d a b => some (.mulhz, d, a, .inl b)
  | .mulhzSl d a i => some (.mulhz, d, a, .inr i)
  | .mulhsz d a b => some (.mulhsz, d, a, .inl b)
  | .mulhszSl d a i => some (.mulhsz, d, a, .inr i)
  | .div d a b => some (.div, d, a, .inl b)
  | .divSl d a i => some (.div, d, a, .inr i)
  | .divz d a b => some (.divz, d, a, .inl b)
  | .divzSl d a i => some (.divz, d, a, .inr i)
  | .rem d a b => some (.rem, d, a, .inl b)
  | .remSl d a i => some (.rem, d, a, .inr i)
  | .remz d a b => some (.remz, d, a, .inl b)
  | .remzSl d a i => some (.remz, d, a, .inr i)
  | _ => none
/-- The registers that operand b reads, and its value (R112). -/
def operandRegs : Reg ⊕ BitVec 32 → List Reg
  | .inl b => [b]
  | .inr _ => []
def Binary.b (k : Binary) (t : Thread) : Reg ⊕ BitVec 32 → W64
  | .inl b => t.rd b
  | .inr i => if k.zMarked then ruleZ i else ruleS i

/-- The other instructions that write one register and nothing else (R102, R116, R117, R119, R120, R122, R124): the registers they read, the
destination, the value. -/
def registerRule : Instr → Option (List Reg × Reg × (Thread → W64))
  | .addi d a imm => some ([a], d, fun t => wrapI ((t.rd a).toNat + Int.bmod (imm.toNat : Int) 512))
  | .clz d a => some ([a], d, fun t => wrapN ((List.range 64).filter fun i => (t.rd a).toNat < 2 ^ i).length)
  | .ctz d a => some ([a], d, fun t => wrapN ((List.range 64).filter fun i => (t.rd a).toNat % 2 ^ (i + 1) = 0).length)
  | .popc d a => some ([a], d, fun t => wrapN ((List.range 64).map fun i => (t.rd a).toNat / 2 ^ i % 2).sum)
  | .sxb d a => some ([a], d, fun t => ruleSext (t.rd a).toNat 8)
  | .sxh d a => some ([a], d, fun t => ruleSext (t.rd a).toNat 16)
  | .sxw d a => some ([a], d, fun t => ruleSext (t.rd a).toNat 32)
  | .zxb d a => some ([a], d, fun t => ruleZext (t.rd a).toNat 8)
  | .zxh d a => some ([a], d, fun t => ruleZext (t.rd a).toNat 16)
  | .zxw d a => some ([a], d, fun t => ruleZext (t.rd a).toNat 32)
  | .sel d n a b => some ([a, b], d, fun t => if t.pr n then t.rd a else t.rd b)
  | .selSl d n a i => some ([a], d, fun t => if t.pr n then t.rd a else ruleS i)
  | .addx d a b s => some ([a, b], d, fun t => wrapN ((t.rd a).toNat + (t.rd b).toNat * 2 ^ s.toNat))
  | .addxSl d a i s => some ([a], d, fun t => wrapN ((t.rd a).toNat + (ruleS i).toNat * 2 ^ s.toNat))
  | .li d i => some ([], d, fun _ => ruleS i)
  | .liz d i => some ([], d, fun _ => ruleZ i)
  | .lih d i => some ([d], d, fun t => wrapN (i.toNat * 2 ^ 32 + (t.rd d).toNat % 2 ^ 32))
  | .nisplit d a => some ([a], d, fun t => wrapN ((List.range 64).map fun i => (t.rd a).toNat / 2 ^ (8 * (i % 8) + 7 - i / 8) % 2 * 2 ^ i).sum)
  | .nijoin d a b => some ([a, b], d, fun t =>
      let k := min (t.rd b).toNat 8
      let plane : Nat → Nat := fun j => ((List.range k).map fun p => (t.rd a).toNat / 2 ^ (8 * p + j) % 2 * 2 ^ (k - 1 - p)).sum
      wrapN ((List.range 8).map fun j => (Int.bmod (plane j : Nat) (2 ^ k) % 256).toNat * 2 ^ (8 * j)).sum)
  | .pget d => some ([], d, fun t => wrapN ((List.range 8).map fun n => if t.pr (BitVec.ofNat 3 n) then 2 ^ n else 0).sum)
  | _ => none

/-- The width in effect of a bit field (R66 row 10, R121). -/
def ruleWidth (pos w : Nat) : Nat := if pos + w > 64 then 64 - pos else w
/-- `BFX`, `BFXZ`, `BFI` (R121): source and destination, position, width as encoded, and the result from a, the old `gd` and the width in
effect. -/
def fieldRule : Instr → Option (Reg × Reg × Nat × Nat × (Nat → Nat → Nat → W64))
  | .bfx d a pos w => some (a, d, pos.toNat, w.toNat, fun x _ n => ruleSext (x / 2 ^ pos.toNat) n)
  | .bfxz d a pos w => some (a, d, pos.toNat, w.toNat, fun x _ n => ruleZext (x / 2 ^ pos.toNat) n)
  | .bfi d a pos w => some (a, d, pos.toNat, w.toNat, fun x old n =>
      wrapN (old / 2 ^ (pos.toNat + n) * 2 ^ (pos.toNat + n) + x % 2 ^ n * 2 ^ pos.toNat + old % 2 ^ pos.toNat))
  | _ => none

/-! Predicates (R123, R124). -/
/-- `PAND` to `PNOR`: the destination and its value from `p`[pa] and `p`[pb]. -/
def predicateRule : Instr → Option (Pred × Pred × Pred × (Bool → Bool → Bool))
  | .pand d a b => some (d, a, b, fun x y => x && y)
  | .por d a b => some (d, a, b, fun x y => x || y)
  | .pxor d a b => some (d, a, b, fun x y => x ^^ y)
  | .pandn d a b => some (d, a, b, fun x y => x && !y)
  | .porn d a b => some (d, a, b, fun x y => x || !y)
  | .pnor d a b => some (d, a, b, fun x y => !(x || y))
  | _ => none
/-- The compares: `pt`, `pf`, operand a, operand b, whether `imm32` is zero-extended, and the column c. -/
def compareRule : Instr → Option (Pred × Pred × Reg × (Reg ⊕ BitVec 32) × Bool × (W64 → W64 → Bool))
  | .cmpEq p q a b => some (p, q, a, .inl b, false, fun x y => decide (x.toNat = y.toNat))
  | .cmpEqSl p q a i => some (p, q, a, .inr i, false, fun x y => decide (x.toNat = y.toNat))
  | .cmpLt p q a b => some (p, q, a, .inl b, false, fun x y => decide (x.toInt < y.toInt))
  | .cmpLtSl p q a i => some (p, q, a, .inr i, false, fun x y => decide (x.toInt < y.toInt))
  | .cmpLe p q a b => some (p, q, a, .inl b, false, fun x y => decide (x.toInt ≤ y.toInt))
  | .cmpLeSl p q a i => some (p, q, a, .inr i, false, fun x y => decide (x.toInt ≤ y.toInt))
  | .cmpLtz p q a b => some (p, q, a, .inl b, true, fun x y => decide (x.toNat < y.toNat))
  | .cmpLtzSl p q a i => some (p, q, a, .inr i, true, fun x y => decide (x.toNat < y.toNat))
  | .cmpLez p q a b => some (p, q, a, .inl b, true, fun x y => decide (x.toNat ≤ y.toNat))
  | .cmpLezSl p q a i => some (p, q, a, .inr i, true, fun x y => decide (x.toNat ≤ y.toNat))
  | _ => none
def compareB (z : Bool) (t : Thread) : Reg ⊕ BitVec 32 → W64
  | .inl b => t.rd b
  | .inr i => if z then ruleZ i else ruleS i

/-! Branches (R131 to R133). -/
/-- `next` at a displacement of `d` bundles, a signed field of `n` bits, from the branch at address `a`. -/
def ruleTarget (a d n : Nat) : Nat := (((a : Int) + 8 * Int.bmod (d : Int) (2 ^ n)) % 2 ^ 64).toNat
/-- The branches: the registers read, the register written with its value, the next pc. -/
def branchRule : Instr → Option (List Reg × (Thread → Option (Reg × W64)) × (Thread → Nat))
  | .br disp => some ([], fun _ => none, fun t => ruleTarget t.pc disp.toNat 19)
  | .brl disp => some ([31], fun t => some (31, wrapN (t.pc + 8)), fun t => ruleTarget t.pc disp.toNat 19)
  | .loop c disp => some ([c], fun t => some (c, wrapI ((t.rd c).toNat - 1)),
      fun t => if (t.rd c).toNat = 1 then (t.pc + 8) % 2 ^ 64 else ruleTarget t.pc disp.toNat 14)
  | .bz c disp => some ([c], fun _ => none, fun t => if (t.rd c).toNat = 0 then ruleTarget t.pc disp.toNat 14 else (t.pc + 8) % 2 ^ 64)
  | .bnz c disp => some ([c], fun _ => none, fun t => if (t.rd c).toNat = 0 then (t.pc + 8) % 2 ^ 64 else ruleTarget t.pc disp.toNat 14)
  | .jr a => some ([a], fun _ => none, fun t => (t.rd a).toNat)
  | .jrl d a => some ([a, d], fun t => some (d, wrapN (t.pc + 8)), fun t => (t.rd a).toNat)
  | _ => none

/-! Scratchpad accesses (R139, R144 to R157). -/
/-- The address at displacement `imm` × `n` from a base, and at an index scaled by 2^k (R145, R146). -/
def ruleDisp (base : W64) (imm : BitVec 9) (n : Nat) : Nat := (wrapI (base.toNat + Int.bmod (imm.toNat : Int) 512 * (n : Int))).toNat
def ruleIndex (base idx : W64) (k : Nat) : Nat := (wrapN (base.toNat + idx.toNat * 2 ^ k)).toNat
/-- An access: the registers it reads, its address and size, and whether an uncorrectable word traps. -/
structure Access where
  regs : List Reg
  addr : Thread → Nat
  n : Nat
  ecc : Bool := true
/-- Loads (R145, R146): access, destination, extension, the bits of `cr.warn` that it sets. -/
def loadRule : Instr → Option (Access × Reg × (Nat → W64) × BitVec 9)
  | .ldb d a i => some (⟨[a], fun t => ruleDisp (t.rd a) i 1, 1, true⟩, d, fun v => ruleSext v 8, 0)
  | .ldbz d a i => some (⟨[a], fun t => ruleDisp (t.rd a) i 1, 1, true⟩, d, fun v => ruleZext v 8, 0)
  | .ldh d a i => some (⟨[a], fun t => ruleDisp (t.rd a) i 2, 2, true⟩, d, fun v => ruleSext v 16, 0)
  | .ldhz d a i => some (⟨[a], fun t => ruleDisp (t.rd a) i 2, 2, true⟩, d, fun v => ruleZext v 16, 0)
  | .ldw d a i => some (⟨[a], fun t => ruleDisp (t.rd a) i 4, 4, true⟩, d, fun v => ruleSext v 32, 0)
  | .ldwz d a i => some (⟨[a], fun t => ruleDisp (t.rd a) i 4, 4, true⟩, d, fun v => ruleZext v 32, 0)
  | .ldd d a i => some (⟨[a], fun t => ruleDisp (t.rd a) i 8, 8, true⟩, d, fun v => wrapN v, 0)
  | .ldx sz zx scaled d a b => some (⟨[a, b], fun t => ruleIndex (t.rd a) (t.rd b) (if scaled then sz.toNat else 0), 2 ^ sz.toNat, true⟩, d,
      fun v => if zx then ruleZext v (8 * 2 ^ sz.toNat) else ruleSext v (8 * 2 ^ sz.toNat), if zx ∧ sz = 3 then 0x080 else 0)
  | _ => none
/-- Stores (R145, R146, R139): access and data register. -/
def storeRule : Instr → Option (Access × Reg)
  | .stb d a i => some (⟨[a], fun t => ruleDisp (t.rd a) i 1, 1, true⟩, d)
  | .sth d a i => some (⟨[a], fun t => ruleDisp (t.rd a) i 2, 2, true⟩, d)
  | .stw d a i => some (⟨[a], fun t => ruleDisp (t.rd a) i 4, 4, true⟩, d)
  | .std d a i => some (⟨[a], fun t => ruleDisp (t.rd a) i 8, 8, false⟩, d)
  | .stx sz scaled d a b => some (⟨[a, b], fun t => ruleIndex (t.rd a) (t.rd b) (if scaled then sz.toNat else 0), 2 ^ sz.toNat, sz.toNat ≠ 3⟩, d)
  | _ => none
/-- Full/empty instructions (R147): access, whether the word must be full or empty, the register written, the register stored, the
state that the word is left in. -/
def fullEmptyRule : Instr → Option (Access × Option Bool × Option Reg × Option Reg × Option Bool)
  | .ldf d a i => some (⟨[a], fun t => ruleDisp (t.rd a) i 8, 8, true⟩, some true, some d, none, none)
  | .lde d a i => some (⟨[a], fun t => ruleDisp (t.rd a) i 8, 8, true⟩, some true, some d, none, some false)
  | .stf d a i => some (⟨[a], fun t => ruleDisp (t.rd a) i 8, 8, true⟩, none, none, some d, some true)
  | .ste d a i => some (⟨[a], fun t => ruleDisp (t.rd a) i 8, 8, true⟩, some false, none, some d, some true)
  | .waitf a i => some (⟨[a], fun t => ruleDisp (t.rd a) i 8, 8, true⟩, some true, none, none, none)
  | _ => none
/-- The column new of R151, from the old word, b and the low bits of `gd`, all of `w` bits; none where nothing is written. -/
def atomicNew (w : Nat) : Instr → Nat → Nat → Nat → Option Nat
  | .amoadd .., o, b, _ => some ((o + b) % 2 ^ w)
  | .amomax .., o, b, _ => some (if Int.bmod (o : Int) (2 ^ w) < Int.bmod (b : Int) (2 ^ w) then b else o)
  | .amomin .., o, b, _ => some (if Int.bmod (b : Int) (2 ^ w) < Int.bmod (o : Int) (2 ^ w) then b else o)
  | .amomaxz .., o, b, _ => some (if o < b then b else o)
  | .amominz .., o, b, _ => some (if b < o then b else o)
  | .amoand .., o, b, _ => some (o &&& b)
  | .amoor .., o, b, _ => some (o ||| b)
  | .amoxor .., o, b, _ => some (o ^^^ b)
  | .amoswap .., _, b, _ => some b
  | .amocas .., o, b, d => if o = d ∧ b ≠ o then some b else none
  | _, _, _, _ => none
/-- Integer atomics (R151): 64 bits wide, no return, destination, address, operand, whether `gd` is read, whether the old word is
zero-extended. -/
def atomicRule : Instr → Option (Bool × Bool × Reg × Reg × Reg × Bool × Bool)
  | .amoadd w n d a b => some (w, n, d, a, b, false, false)
  | .amomax w n d a b => some (w, n, d, a, b, false, false)
  | .amomin w n d a b => some (w, n, d, a, b, false, false)
  | .amomaxz w n d a b => some (w, n, d, a, b, false, true)
  | .amominz w n d a b => some (w, n, d, a, b, false, true)
  | .amoand w n d a b => some (w, n, d, a, b, false, false)
  | .amoor w n d a b => some (w, n, d, a, b, false, false)
  | .amoxor w n d a b => some (w, n, d, a, b, false, false)
  | .amoswap w n d a b => some (w, n, d, a, b, false, false)
  | .amocas w n d a b => some (w, n, d, a, b, true, false)
  | _ => none
/-- The trap of R144 that an access at `a` takes, the lowest rank first. -/
def accessTrap (t : Tile) (a n : Nat) (ecc : Bool) : Option Trap :=
  if a % n ≠ 0 then some ⟨5, 3, wrapN a⟩
  else if Config.spSize ≤ a then some ⟨6, 4, wrapN a⟩
  else if t.stat (a / 8192) then some ⟨7, 5, wrapN a⟩
  else if ecc ∧ a / 8 ∈ t.bad then some ⟨10, 10, wrapN (a / 8 * 8)⟩
  else none
/-- The bytes that thread `t` sees at `a`: its own buffered stores first (R157); as a little-endian number (R3). -/
def State.seen (s : State) (t : Thread) (a : Nat) : Byte :=
  match t.spec with
  | some sp => (sp.byte a).getD (s.ctile.sp.read a)
  | none => s.ctile.sp.read a
def State.seenN (s : State) (t : Thread) (a n : Nat) : Nat := ((List.range n).map fun k => (s.seen t (a + k)).toNat * 2 ^ (8 * k)).sum
/-- In `u` the issuing tile's scratchpad holds the low `n` bytes of `v` at `a`, every other byte as in `s`; other tiles are as they were, and of
the package nothing else changed but the count of corrected errors (R138). Of the tile, a thread in another slot that holds no
speculation and does not wait on the word at `a` stands as it was. -/
def State.Stored (s u : State) (a n v : Nat) : Prop :=
  (∀ x, u.ctile.sp.read x = if a ≤ x ∧ x < a + n then BitVec.ofNat 8 (v / 2 ^ (8 * (x - a))) else s.ctile.sp.read x) ∧
  (∀ y, y ≠ s.tx → u.tile y = s.tile y) ∧
  { u with tiles := s.tiles, belfry := s.belfry } = s ∧
  (∀ q, q ≠ s.sx → (∀ th, s.thr s.tx q = some th → th.spec = none ∧ ∀ f, th.wait ≠ .fe (a / 8 * 8) f) → u.slot s.tx q = s.slot s.tx q) ∧
  { u.ctile with sp := s.ctile.sp, full := s.ctile.full, bad := s.ctile.bad, soft := s.ctile.soft, slots := s.ctile.slots,
                 spills := s.ctile.spills, readySeq := s.ctile.readySeq } = s.ctile

/-! Floating point (03_numbers.md R77 to R90, R98; 04_scalar.md R125 to R129), over the rationals. -/
/-- The rational that a finite value is. -/
def Val.rat : Val → Rat
  | .fin s n d e => (if s then -1 else 1) * ((n : Rat) / (d : Rat)) * (2 : Rat) ^ e
  | _ => 0
def Val.isInf : Val → Bool
  | .inf _ => true
  | _ => false
def Val.isFin : Val → Bool
  | .fin _ _ _ _ => true
  | _ => false
/-- The floating formats of R77: code, exponent bits, significand bits, bias, whether there is a sign, the largest finite magnitude's code. -/
structure FloatFormat where
  code : Nat
  e : Nat
  m : Nat
  bias : Int
  signed : Bool
  max : Nat
  deriving DecidableEq, Repr
def floatFormats : List FloatFormat :=
  [⟨8, 8, 23, 127, true, 0x7F7FFFFF⟩, ⟨9, 5, 10, 15, true, 0x7BFF⟩, ⟨10, 8, 7, 127, true, 0x7F7F⟩, ⟨11, 4, 3, 7, true, 0x7E⟩,
   ⟨12, 5, 2, 15, true, 0x7B⟩, ⟨13, 2, 1, 1, true, 0x7⟩, ⟨24, 5, 3, 15, false, 0xFE⟩]
/-- Fields S, e and m of an encoding. -/
def FloatFormat.S (f : FloatFormat) (b : Nat) : Bool := f.signed && b / 2 ^ (f.e + f.m) % 2 == 1
def FloatFormat.expo (f : FloatFormat) (b : Nat) : Nat := b / 2 ^ f.m % 2 ^ f.e
def FloatFormat.frac (f : FloatFormat) (b : Nat) : Nat := b % 2 ^ f.m
/-- The columns Infinity and NaN of R77. -/
def FloatFormat.isInf (f : FloatFormat) (b : Nat) : Bool :=
  (f.code == 8 || f.code == 9 || f.code == 10 || f.code == 12) && f.expo b == 2 ^ f.e - 1 && f.frac b == 0
def FloatFormat.isNan (f : FloatFormat) (b : Nat) : Bool :=
  f.expo b == 2 ^ f.e - 1 &&
    (if f.code == 13 then false else if f.code == 11 || f.code == 24 then f.frac b == 7 else f.frac b != 0)
/-- Signalling (R78): the top bit of m is clear. -/
def FloatFormat.isSignalling (f : FloatFormat) (b : Nat) : Bool := f.isNan b && f.frac b / 2 ^ (f.m - 1) == 0
/-- A finite encoding's value (R77). -/
def FloatFormat.value (f : FloatFormat) (b : Nat) : Rat :=
  let x : Rat := (f.frac b : Rat) / (2 : Rat) ^ f.m
  (if f.S b then -1 else 1) * (if f.expo b = 0 then (2 : Rat) ^ (1 - f.bias) * x else (2 : Rat) ^ ((f.expo b : Int) - f.bias) * (1 + x))
/-- A magnitude's code with a sign. -/
def FloatFormat.withSign (f : FloatFormat) (neg : Bool) (m : Nat) : Nat := if neg then 2 ^ (f.e + f.m) + m else m
/-- The table of R78, and +∞. -/
def canonicalNan : Nat → Option Nat
  | 8 => some 0x7FC00000
  | 9 => some 0x7E00
  | 10 => some 0x7FC0
  | 11 => some 0x7F
  | 12 => some 0x7E
  | 24 => some 0xFF
  | _ => none
def positiveInf : Nat → Option Nat
  | 8 => some 0x7F800000
  | 9 => some 0x7C00
  | 10 => some 0x7F80
  | 12 => some 0x7C
  | _ => none
/-- `FADD`, `FSUB`, `FMUL`, `FMA` (R125): 0 to 3, format, destination, operands. -/
def farRule : Instr → Option (Nat × FFmt × Reg × Reg × Reg)
  | .fadd f d a b => some (0, f, d, a, b)
  | .fsub f d a b => some (1, f, d, a, b)
  | .fmul f d a b => some (2, f, d, a, b)
  | .fma f d a b => some (3, f, d, a, b)
  | _ => none
/-- The exact result z of R125. -/
def farExact (op : Nat) (x y z : Rat) : Rat :=
  match op with
  | 0 => x + y
  | 1 => x - y
  | 2 => x * y
  | _ => x * y + z
/-- The rows of R126 with a NaN or an infinity: the canonical NaN (none) or an infinity of a sign, and the flags. -/
def farSpecial (op : Nat) (x y z : Val) : Option (Option Bool × FFlags) :=
  let nans := x.isNan || y.isNan || (op == 3 && z.isNan)
  let sig := x.nv ||| y.nv ||| (if op = 3 then z.nv else 0)
  let bad := 2 ≤ op && ((x.isZero && y.isInf) || (x.isInf && y.isZero))
  let prod := x.sign != y.sign
  let sum : Bool → Bool → Bool → Bool → Option (Option Bool × FFlags) := fun i s j t =>
    if i && j then (if s = t then some (some s, 0) else some (none, NV)) else if i then some (some s, 0) else if j then some (some t, 0) else none
  if nans || bad then some (none, sig ||| if bad then NV else 0)
  else match op with
    | 0 => sum x.isInf x.sign y.isInf y.sign
    | 1 => sum x.isInf x.sign y.isInf (!y.sign)
    | 2 => sum (x.isInf || y.isInf) prod false false
    | _ => sum (x.isInf || y.isInf) prod z.isInf z.sign
/-- The order of numbers, zeros equal, false with a NaN. -/
def ruleLess : Val → Val → Bool
  | .inf s, .inf t => s && !t
  | .inf s, .fin _ _ _ _ => s
  | .fin _ _ _ _, .inf t => !t
  | .fin s n d e, .fin s' n' d' e' => decide (Val.rat (.fin s n d e) < Val.rat (.fin s' n' d' e'))
  | _, _ => false
def ruleEqual : Val → Val → Bool
  | .inf s, .inf t => s == t
  | .fin s n d e, .fin s' n' d' e' => decide (Val.rat (.fin s n d e) = Val.rat (.fin s' n' d' e'))
  | _, _ => false
/-- x stands below y: smaller, or −0 beside +0 (R127, R153, R197). -/
def ruleUnder (x y : Val) : Bool := ruleLess x y || (x.isZero && y.isZero && x.sign && !y.sign)
/-- The lesser or greater of two encodings, bit for bit, a number before a NaN; NV for a signalling NaN (R127). -/
def ruleMinMax (c : Nat) (isMax : Bool) (a b : Nat) : Nat × FFlags :=
  let x := val c a
  let y := val c b
  let m := 2 ^ fmtWidth c
  (if x.isNan ∧ y.isNan then (canonicalNan c).getD 0 else if x.isNan then b % m else if y.isNan then a % m
    else if ruleUnder x y = isMax then b % m else a % m, x.nv ||| y.nv)
/-- The column of `AMOFMAX` and `AMOFMIN` in R153, row by row: a NaN wins over a number, NV for a signalling one; else the greater or lesser
operand bit for bit, an infinity like any other, −0 below +0. -/
def atomicExtreme (c : Nat) (isMax : Bool) (o v : Nat) : Nat × FFlags :=
  let x := val c o
  let y := val c v
  if x.isNan || y.isNan then ((canonicalNan c).getD 0, x.nv ||| y.nv) else (if ruleUnder x y = isMax then v else o, 0)
/-- The exact value of an arithmetic result, with the sign that R126 gives a zero. -/
def FarResult (op : Nat) (x y z : Val) (mode : Nat) (sg : Bool) (n den : Nat) (e : Int) : Prop :=
  0 < den ∧ Val.rat (.fin sg n den e) = farExact op x.rat y.rat z.rat ∧
  (n = 0 → op = 0 → sg = if x.isZero ∧ y.isZero ∧ x.sign = y.sign then x.sign else mode == 2) ∧
  (n = 0 → op = 1 → sg = if x.isZero ∧ y.isZero ∧ x.sign ≠ y.sign then x.sign else mode == 2) ∧
  (n = 0 → op = 2 → sg = (x.sign != y.sign)) ∧
  (n = 0 → op = 3 → sg = if (x.isZero ∨ y.isZero) ∧ z.isZero ∧ (x.sign != y.sign) = z.sign then z.sign else mode == 2)
/-- The encoding that a row of R126 names. -/
def specialCode (c : Nat) (r : Option Bool) : Nat :=
  match r with
  | none => (canonicalNan c).getD 0
  | some neg => (positiveInf c).getD 0 + if neg then 2 ^ (fmtWidth c - 1) else 0
/-- Floating-point atomics (R152): FP16, no return, destination, address, operand, and the new word with its flags (R153). -/
def atomicFloatRule : Instr → Option (Bool × Bool × Reg × Reg × Reg × (Nat → Nat → Nat × FFlags))
  | .amofadd h n d a b => some (h, n, d, a, b, fun o v => fArith (if h then 9 else 8) 0 o v 0 0)
  | .amofmax h n d a b => some (h, n, d, a, b, fun o v => atomicExtreme (if h then 9 else 8) true o v)
  | .amofmin h n d a b => some (h, n, d, a, b, fun o v => atomicExtreme (if h then 9 else 8) false o v)
  | _ => none
/-- The value of one block element under its scale code, in FP32 (R88, R90): NaN where either is one, else the exact product. -/
def Dequantised (ef sc el y : Nat) : Prop :=
  let s := val 24 sc
  let x := val ef el
  (s.isNan = true ∨ x.isNan = true → y = 0x7FC00000) ∧
  (s.isNan = false → x.isNan = false → y < 2 ^ 32 ∧ (val 8 y).isFin = true ∧ (val 8 y).rat = x.rat * s.rat ∧ (val 8 y).sign = x.sign)
/-- q compares as the square root of v does with every rational of at most 60 significant bits, thus with every number of a floating format
and with every midpoint between two. -/
def RootLike (q v : Rat) : Prop :=
  ∀ (k : Nat) (j : Int), k < 2 ^ 60 → let g : Rat := k * (2 : Rat) ^ j; (g < q ↔ g ^ 2 < v) ∧ (q < g ↔ v < g ^ 2)
/-- The rows of R195 that name their result: NaN operands, infinities, zeros, negative operands, and e^0, 2^0 and the like. -/
def specialRule (fn : Nat) (x : Val) : Option (Val × FFlags) :=
  let zero (s : Bool) : Val := .fin s 0 1 0
  let one (s : Bool) : Val := .fin s 1 1 0
  match x with
  | .nan _ => some (.nan false, x.nv)
  | .inf s => match fn, s with
    | 0, _ => some (zero s, 0)
    | 1, false => some (zero false, 0)
    | 2, false | 3, false | 4, false | 5, false => some (.inf false, 0)
    | 3, true | 5, true | 7, true => some (zero false, 0)
    | 6, _ => some (one s, 0)
    | 7, false => some (one false, 0)
    | _, _ => some (.nan false, NV)
  | .fin s n _ _ =>
    if n = 0 then match fn with
      | 0 | 1 => some (.inf s, DZ)
      | 2 | 6 => some (zero s, 0)
      | 3 | 5 => some (one false, 0)
      | 4 => some (.inf true, DZ)
      | _ => some (.fin false 1 2 0, 0)
    else if s ∧ (fn = 1 ∨ fn = 2 ∨ fn = 4) then some (.nan false, NV) else none
/-- `VSFN` of R195: the named results; 1/x, √x and 1/√x correctly rounded; 2 to an integer and the logarithm of a power of two. -/
def SpecialFunction (c fn a mode : Nat) (y : Nat × FFlags) : Prop :=
  let x := val c a
  let rounded (p : Rat → Prop) : Prop := ∃ s n d e, 0 < n ∧ 0 < d ∧ p (Val.rat (.fin s n d e)) ∧ y = roundVal c (.fin s n d e) mode
  (∀ r fl, specialRule fn x = some (r, fl) → y = ((roundVal c r mode).1, fl)) ∧
  (specialRule fn x = none →
    (fn = 0 → rounded fun q => q = 1 / x.rat) ∧
    (fn = 1 → rounded fun q => RootLike q (1 / x.rat)) ∧
    (fn = 2 → rounded fun q => RootLike q x.rat) ∧
    (fn = 3 → ∀ k : Int, x.rat = k → -1024 < k → k < 1024 → rounded fun q => q = (2 : Rat) ^ k) ∧
    (fn = 4 → ∀ k : Int, x.rat = (2 : Rat) ^ k → k ≠ 0 → rounded fun q => q = k) ∧
    (fn = 4 → x.rat = 1 → y = (0, 0)))
/-- `FMIN` and `FMAX` (R127). -/
def minMaxRule : Instr → Option (Bool × FFmt × Reg × Reg × Reg)
  | .fmin f d a b => some (false, f, d, a, b)
  | .fmax f d a b => some (true, f, d, a, b)
  | _ => none
/-- The compares of R129: c, and whether any NaN raises NV. -/
def floatCompareRule : Instr → Option (FFmt × Pred × Pred × Reg × Reg × (Val → Val → Bool) × Bool)
  | .fcmpEq f p q a b => some (f, p, q, a, b, ruleEqual, false)
  | .fcmpLt f p q a b => some (f, p, q, a, b, ruleLess, true)
  | .fcmpLe f p q a b => some (f, p, q, a, b, fun x y => ruleLess x y || ruleEqual x y, true)
  | .fcmpUn f p q a b => some (f, p, q, a, b, fun x y => x.isNan || y.isNan, false)
  | _ => none
/-- The class of R128. -/
def ruleClass (f : FloatFormat) (b : Nat) : Nat :=
  if f.isNan b then (if f.isSignalling b then 8 else 9)
  else if f.isInf b then (if f.S b then 0 else 7)
  else if f.expo b = 0 then (if f.frac b = 0 then (if f.S b then 3 else 4) else if f.S b then 2 else 5)
  else if f.S b then 1 else 6
/-- Rounding to an integer (R81). -/
def ruleRoundInt (mode : Nat) (q : Rat) : Int :=
  match mode with
  | 0 => let f := q.floor; let r := q - f; if r < 1 / 2 then f else if 1 / 2 < r then f + 1 else if f % 2 = 0 then f else f + 1
  | 1 => if 0 ≤ q then q.floor else q.ceil
  | 2 => q.floor
  | _ => q.ceil
/-- The range of an integer format (R76). -/
def intMin (c : Nat) : Int := if c < 4 then -(2 ^ (fmtWidth c - 1)) else 0
def intMax (c : Nat) : Int := if c < 4 then 2 ^ (fmtWidth c - 1) - 1 else 2 ^ fmtWidth c - 1
def clampTo (c : Nat) (x : Int) : Int := max (intMin c) (min x (intMax c))
def codeOf (c : Nat) (x : Int) : Nat := (x % 2 ^ fmtWidth c).toNat
/-- A conversion (R98, R86): the code and the flags; into a floating format a finite value is rounded by `roundVal`, of which another
statement speaks. -/
def ruleConvert (dst src b mode : Nat) : Nat × FFlags :=
  if src = dst then (b % 2 ^ fmtWidth src, 0)
  else if src < 8 then
    let u : Int := (b % 2 ^ fmtWidth src : Nat)
    let x : Int := if src < 4 then Int.bmod u (2 ^ fmtWidth src) else u
    if dst < 8 then (codeOf dst (clampTo dst x), if clampTo dst x = x then 0 else OF) else roundVal dst (Val.ofInt x) mode
  else match val src b with
    | .nan sig => if dst < 8 then (0, NV) else match canonicalNan dst with
      | some q => (q, if sig then NV else 0)
      | none => (0, NV)
    | .inf s =>
      if dst < 8 then (codeOf dst (if s then intMin dst else intMax dst), NV)
      else match positiveInf dst with
        | some i => (if s then i + 2 ^ (fmtWidth dst - 1) else i, 0)
        | none => match dst with
          | 11 => (if s then 0xFE else 0x7E, OF)
          | 13 => (if s then 0xF else 0x7, OF)
          | _ => if s then (0, NV) else (0xFE, OF)
    | .fin s n d e =>
      let q := Val.rat (.fin s n d e)
      if dst < 8 then
        let r := ruleRoundInt mode q
        (codeOf dst (clampTo dst r), if clampTo dst r = r then (if q = r then 0 else NX) else NV)
      else roundVal dst (.fin s n d e) mode

/-! Tuple, copy and matrix operations at issue (R233, R280 to R285). -/
/-- Operations with a descriptor: kind, destination, the register of its address, a second operand register. -/
def descriptorRule : Instr → Option (TKind × Reg × Reg × Option Reg)
  | .put d a => some (.put, d, a, none)
  | .putI d a => some (.putI, d, a, none)
  | .putR d a => some (.putR, d, a, none)
  | .putG d a => some (.putG, d, a, none)
  | .readB d a => some (.readB, d, a, none)
  | .readP d a => some (.readP, d, a, none)
  | .readC d a => some (.readC, d, a, none)
  | .takeB d a => some (.takeB, d, a, none)
  | .takeP d a => some (.takeP, d, a, none)
  | .takeC d a => some (.takeC, d, a, none)
  | .takeN d a b => some (.takeN, d, a, some b)
  | .range d a => some (.range, d, a, none)
  | .accO d a => some (.accO, d, a, none)
  | .accA d a b => some (.accA, d, a, some b)
  | .ctrO d a => some (.ctrO, d, a, none)
  | .copyin d a => some (.copyin, d, a, none)
  | .copyout d a => some (.copyout, d, a, none)
  | .copyr d a => some (.copyr, d, a, none)
  | _ => none
/-- Word `i` of a descriptor at `a` as thread `t` sees it, bits [lo + n - 1 : lo]. -/
def State.descField (s : State) (t : Thread) (a i lo n : Nat) : Nat := s.seenN t (a + 8 * i) 8 / 2 ^ lo % 2 ^ n
/-- The matrix instructions without descriptor: kind, destination, the register operands. -/
def matrixRule : Instr → Option (MxKind × Reg × Reg)
  | .munstat d a => some (.munstat, d, a)
  | .macc d a => some (.macc, d, a)
  | .mstatus d a => some (.mstatus, d, a)
  | _ => none
/-- Those with a descriptor at the address in a register. -/
def matrixDescRule : Instr → Option (MxKind × Reg)
  | .mma a => some (.mma, a)
  | .mrd a => some (.mrd, a)
  | .mrdv a => some (.mrdv, a)
  | _ => none
/-- A matrix instruction of thread `t` as it stands in the queue: what it captured at issue (R215, R234). -/
def MxOp.captured (o : MxOp) (k : MxKind) (t : Thread) : Prop :=
  o.kind = k ∧ o.cid = t.cid ∧ o.started = false ∧ o.fmtA = t.fmtA.toNat ∧ o.fmtW = t.fmtW.toNat ∧ o.scaleA = t.scaleA ∧ o.scaleW = t.scaleW ∧
  o.sparse = t.sparse.toNat ∧ o.win = t.win

/-! Windows (R160, R161, R165 to R168, R181 to R202). -/
/-- A descriptor from its two fields (R160). -/
def ruleField (start width : Nat) : FieldDesc := if 1 ≤ width ∧ start + width ≤ 256 then ⟨start, width⟩ else ⟨start, 256 - start⟩
/-- The number that an encoding of an integer format stands for (R76). -/
def ruleInt (m a : Nat) : Int := if m < 4 then Int.bmod (a : Int) (2 ^ fmtWidth m) else a
/-- The order of R197 among the encodings of a format, and the encodings that take part. -/
def ruleCounts (m a : Nat) : Bool := m < 8 || !(val m a).isNan
def ruleBelow (m a b : Nat) : Bool :=
  if m < 8 then decide (ruleInt m a < ruleInt m b)
  else ruleUnder (val m a) (val m b)
/-- Operations that write `fd` in the selected rows (R188, R190, R191, R193 to R196, R201): the width of the result (`none`: that of `fa`),
the widths of the sources, whether the result is signed, and the value with its flags, from the count or code n, the rounding mode, the
microcode RAM as bytes, and the sources. -/
def windowRule (k : VKind) (m n : Nat) : Option (Option Nat × Option Nat × Nat × Bool × (Nat → (Nat → Nat) → Nat → Nat → Nat × FFlags)) :=
  let w := fmtWidth m
  let signed : Bool := m < 4
  let row (f : Nat → Nat → Int) : Option (Option Nat × Option Nat × Nat × Bool × (Nat → (Nat → Nat) → Nat → Nat → Nat × FFlags)) :=
    some (some w, some w, w, signed, fun _ _ a b => (codeOf m (f a b), 0))
  let arith (f : Nat → Nat → Nat → Nat × FFlags) : Option (Option Nat × Option Nat × Nat × Bool × (Nat → (Nat → Nat) → Nat → Nat → Nat × FFlags)) :=
    some (some w, some w, w, signed, fun mode _ a b => f mode a b)
  let el := if m = 14 then 13 else 11
  match k with
  | .vcopy => some (none, none, 0, false, fun _ _ a _ => (a, 0))
  | .vadd => row fun a b => ruleInt m a + ruleInt m b
  | .vsub => row fun a b => ruleInt m a - ruleInt m b
  | .vneg => row fun a _ => -ruleInt m a
  | .vabs => row fun a _ => max (ruleInt m a) (-ruleInt m a)
  | .vmin => row fun a b => min (ruleInt m a) (ruleInt m b)
  | .vmax => row fun a b => max (ruleInt m a) (ruleInt m b)
  | .vmul => some (some (2 * w), some w, w, signed, fun _ _ a b => ((ruleInt m a * ruleInt m b % 2 ^ (2 * w)).toNat, 0))
  | .vand => row fun a b => (a &&& b : Nat)
  | .vor => row fun a b => (a ||| b : Nat)
  | .vxor => row fun a b => (a ^^^ b : Nat)
  | .vnot => row fun a _ => -1 - (a : Int)
  | .vshl => row fun a _ => (a : Int) * 2 ^ n
  | .vshr => row fun a _ => ruleInt m a / 2 ^ n
  | .vfadd => arith fun mode a b => fArith m 0 a b 0 mode
  | .vfsub => arith fun mode a b => fArith m 1 a b 0 mode
  | .vfmul => arith fun mode a b => fArith m 2 a b 0 mode
  | .vfmin => arith fun _ a b => ruleMinMax m false a b
  | .vfmax => arith fun _ a b => ruleMinMax m true a b
  | .vlut8 => some (some w, some w, w, signed, fun _ u a _ => (u (if m < 4 then (a + 128) % 256 else a), 0))
  | .vlut16 => some (some w, some w, w, signed, fun _ u a _ =>
      let h := if m < 4 then (a / 256 + 128) % 256 else a / 256
      (((u (2 * h) + 256 * u (2 * h + 1) + Int.bmod (u (512 + h)) 256 * (a % 256 : Nat) / 16) % 2 ^ 16).toNat, 0))
  | .vsfn => arith fun mode a _ => specialFn m n a mode
  | .vcvt => some (some w, some (fmtWidth n), 0, signed, fun mode _ a _ => ruleConvert m n a mode)
  | .vdqbs => some (some 32, some (fmtWidth el), 8, false, fun _ _ a b => (dequantise el b a, 0))
  | _ => none
/-- Operations that write `td` in the selected rows (R189, R190, R193, R202): the tag and its flags, from the source tags and fields. -/
def windowTagRule (k : VKind) (m : Nat) : Option (Bool → Bool → Nat → Nat → Bool × FFlags) :=
  let x := val m
  match k with
  | .vtand => some fun p q _ _ => (p && q, 0)
  | .vtor => some fun p q _ _ => (p || q, 0)
  | .vtxor => some fun p q _ _ => (p != q, 0)
  | .vtandn => some fun p q _ _ => (p && !q, 0)
  | .vtset => some fun _ _ _ _ => (true, 0)
  | .vtclr => some fun _ _ _ _ => (false, 0)
  | .vceq => some fun _ _ a b => (decide (ruleInt m a = ruleInt m b), 0)
  | .vclt => some fun _ _ a b => (decide (ruleInt m a < ruleInt m b), 0)
  | .vcle => some fun _ _ a b => (decide (ruleInt m a ≤ ruleInt m b), 0)
  | .vfceq => some fun _ _ a b => (ruleEqual (x a) (x b), (x a).nv ||| (x b).nv)
  | .vfclt => some fun _ _ a b => (ruleLess (x a) (x b), if (x a).isNan || (x b).isNan then NV else 0)
  | .vfcle => some fun _ _ a b => (ruleLess (x a) (x b) || ruleEqual (x a) (x b), if (x a).isNan || (x b).isNan then NV else 0)
  | .voutl => some fun _ _ a b =>
    if m < 8 then (decide (max (ruleInt m a) (-ruleInt m a) > ruleInt m b), 0)
    else ((x a).isNan || (!(x b).isNan && ruleLess (x b) (x a).abs), (x a).nv ||| (x b).nv)
  | _ => none
/-- Tag `n` of row `r` under an active length of `vl` (R161), and the rows that an operation selects (R166). -/
def ruleTag (vl n r : Nat) (row : Row) : Bool := if n = 0 then decide (r < vl) else row.getLsbD (256 + n)
def VEntry.selects (e : VEntry) (r : Nat) (row : Row) : Bool := ruleTag e.vl e.op.t r row != e.op.tn
/-- Window `w` of tile `x` is about to run `e`: the head of its queue, with the energy of its passes at hand, no earlier operation of the
window running, and no parity error in the window. -/
def State.Starts (s : State) (x w : Nat) (e : VEntry) (rest : List VEntry) : Prop :=
  s.stopped = false ∧ w < 4 ∧ ((s.tile x).win w).queue = e :: rest ∧ ((s.tile x).win w).busy = none ∧ ((s.tile x).win w).badPar = [] ∧
  e.mx = none ∧ s.covers (dieOf x) e.cost = true
/-- The window after the start: the rest of the queue, the operation running with its result `g` in hand and the flags that the rows raise;
descriptors, microcode RAM and scratchpad as they were. -/
def State.Ran (s u : State) (x w : Nat) (e : VEntry) (rest : List VEntry) (g : W64) (fl : Nat → Row → FFlags) : Prop :=
  ((u.tile x).win w).queue = rest ∧ ((u.tile x).win w).fds = ((s.tile x).win w).fds ∧ ((u.tile x).win w).ucode = ((s.tile x).win w).ucode ∧
  (u.tile x).sp = (s.tile x).sp ∧
  ∃ b, ((u.tile x).win w).busy = some b ∧ b.e = e ∧ b.result = some g ∧ b.served = true ∧
    ∀ k, b.flags.getLsbD k = ((s.tile x).win w).all.any fun p => (fl p.1 p.2).getLsbD k
/-- The element index of row `r` (R182, R183). -/
def ruleIndexOf (e : VEntry) (r : Nat) : Option Int :=
  match e.op.kind, e.shape with
  | .vld, _ | .vst, _ => some r
  | .vlds, _ | .vsts, _ => some (r * e.gb.toInt)
  | .vldr, [(n0, s0), (n1, s1), (n2, s2), (n3, s3)] | .vstr, [(n0, s0), (n1, s1), (n2, s2), (n3, s3)] =>
    if r < n0 * n1 * n2 * n3 then
      some ((r % n0 : Nat) * s0 + (r / n0 % n1 : Nat) * s1 + (r / (n0 * n1) % n2 : Nat) * s2 + (r / (n0 * n1 * n2) % n3 : Nat) * s3)
    else none
  | _, _ => none
/-- The bit address of bit `k` of element `i` of a format, from a base address and a length (R181). -/
def ruleElemBit (m base vl : Nat) (i : Int) (k : Nat) : Int :=
  if isNI m then 8 * (base : Int) + ((fmtWidth m - 1 - k) * (8 * ((vl + 7) / 8)) : Nat) + i else 8 * (base : Int) + fmtWidth m * i + k

/-! Messages (R271, R282, R416, R417). -/
/-- Half picojoules that a request debits as it leaves its queue: 150 pJ, for each beat of its payload 40 pJ, for a pool payload's DRAM lines 1,000 pJ. -/
def ruleRequestCost (o : TOp) : Nat :=
  300 + if o.kind = .put then 2080 * ((o.desc.plen + 63) / 64) else if o.kind = .putI ∨ o.kind = .accA then 80 * ((o.desc.plen + 63) / 64) else 0
/-- Message `m`, whose contents are `a`, may be taken by its destination. -/
def State.Arrives (s : State) (m : Nat) (a : Msg) : Prop :=
  s.stopped = false ∧ m < s.nextId ∧ s.msg m = some a ∧ s.deliverable a = true
/-- Request `a` of a tile of this package is performed at home `h`: it is neither held nor forwarded, and no split is under way. -/
def State.Served (s : State) (m h x : Nat) (a : Msg) : Prop :=
  s.Arrives m a ∧ a.src = .tile x ∧ a.dst = .home h ∧ (s.home h).holds a = false ∧ (s.home h).forwardOf a = none ∧
  (s.home h).splitSrc = none ∧ (s.home h).inert = none
/-- Message `m` is gone, and one from `who` to `dst` with this body is on its way that was not there before. -/
def State.Sent (s u : State) (m : Nat) (who dst : Agent) (b : Body) : Prop :=
  u.msg m = none ∧ ∃ r ∈ u.net, s.nextId ≤ r.id ∧ r.src = who ∧ r.dst = dst ∧ r.body = b
/-- The home's other tables and everything outside the home but the network stay. -/
def State.OnlyHome (s u : State) (h : Nat) : Prop :=
  u.tiles = s.tiles ∧ u.dram = s.dram ∧ ∀ k, k ≠ h → u.home k = s.home k

/-- The tree of R262 over the contributors [lo, hi): a leaf stands for one; else the left child covers the first 2^k, k being
⌈log2(hi − lo)⌉ − 1, the right one the rest, and the node is left + right. -/
inductive AccNode (add : Nat → Nat → Nat) (leaf : Nat → Nat) : Nat → Nat → Nat → Prop where
  | leaf (lo : Nat) : AccNode add leaf lo (lo + 1) (leaf lo)
  | node (lo hi k a b : Nat) : 2 ^ k < hi - lo → hi - lo ≤ 2 ^ (k + 1) → AccNode add leaf lo (lo + 2 ^ k) a →
      AccNode add leaf (lo + 2 ^ k) hi b → AccNode add leaf lo hi (add a b)
/-- The root of R262: one tree, or a tree over `pk` groups. -/
def AccRoot (add : Nat → Nat → Nat) (leaf : Nat → Nat) (n pk v : Nat) : Prop :=
  if pk = 1 then AccNode add leaf 0 n v
  else ∃ g : Nat → Nat, (∀ q < pk, AccNode add leaf (q * (n / pk)) ((q + 1) * (n / pk)) (g q)) ∧ AccNode add g 0 pk v
/-- The sum of two elements of an accumulator cell: `FADD` to nearest even in FP32, else modulo 2^w (R262). -/
def accAddRule (fmt a b : Nat) : Nat := if fmt = 8 then (fArith 8 0 a b 0 0).1 else (a + b) % 2 ^ fmtWidth fmt
/-- Element `j` of a payload whose elements take `w` bytes. -/
def elemOf (w : Nat) (bs : List Byte) (j : Nat) : Nat := natOfBytes ((bs.drop (w * j)).take w)

/-! Engines (R210, R211, R218, R219, R222, R266, R313). -/
/-- No message for another package waits on the networks for a notification (R339). -/
def State.NoneHeld (s : State) : Prop := ∀ r ∈ s.net, ∀ c w, r.dst ≠ .peer c w
/-- A message with this body is on its way from `src` to `dst`: on the package's networks, or in the packets of a valid peer context (R332), or
waiting for a notification (R339). -/
def State.Left (u : State) (src dst : Agent) (b : Body) : Prop :=
  match dst with
  | .peer c w => peerValid (u.peer c) = true →
      (∃ k ∈ (u.peer c).txq ++ (u.peer c).window.map Unacked.pkt, ∃ r, k.body = some r ∧ r.src = src ∧ r.dst = agentOfNo w ∧ r.body = b) ∨
      ∃ r ∈ u.net, r.src = src ∧ r.dst = dst ∧ r.body = b
  | _ => ∃ r ∈ u.net, r.src = src ∧ r.dst = dst ∧ r.body = b
/-- The page translations of the `n` bytes at `va` are on chip and permit the access: byte `i` stands at physical address `ph i`, pages are of
64 KiB or more, and no two bytes share a place. -/
def State.Mapped (s : State) (d tn asid va n perm : Nat) (ph : Nat → Nat) : Prop :=
  (∀ i, i < n → ∃ k, s.xlate d tn asid (va + i) perm = (.ok (ph i) k, s) ∧ 65536 ≤ (va + i) % 65536 + k ∧ ∀ j, i ≤ j → j < i + k → j < n → ph j = ph i + (j - i)) ∧
  ∀ i j, i < n → j < n → ph i = ph j → i = j
/-- The weight of column `c` in k-row `r` of bank `b`, `k` planes wide: the planes' bits form a two's complement number, plane 0 its sign. -/
def ruleWeight (sp : Memory) (k b r c : Nat) : Int :=
  let cols := 512 / k
  let bit (p : Nat) : Nat := (sp.read (8192 * b + 64 * r + p * cols / 8 + c / 8)).toNat / 2 ^ (c % 8) % 2
  Int.bmod (((List.range k).map fun p => bit p * 2 ^ (k - 1 - p)).sum : Nat) (2 ^ k)
/-- The planes and the fraction bits of an activation format (R218). -/
def rulePlanes (fmt : Nat) : Nat := if 16 ≤ fmt ∧ fmt ≤ 23 then fmt - 15 else if fmt = 1 then 16 else if fmt = 9 ∨ fmt = 10 then 12 else 8
def ruleFraction (fmt : Nat) : Int := if fmt = 9 ∨ fmt = 10 then 10 else 6
/-- The bits of activation element `k` of a row at `a` that holds `kk` of them (R219): a byte, two bytes, or one bit of each plane (R91). -/
def ruleActivation (sp : Memory) (fmt kk a k : Nat) : Nat :=
  if 16 ≤ fmt then
    let n := fmt - 15
    ((List.range n).map fun p => (sp.read (a + p * ((kk + 7) / 8) + k / 8)).toNat / 2 ^ (k % 8) % 2 * 2 ^ (n - 1 - p)).sum
  else if fmt = 1 ∨ fmt = 9 ∨ fmt = 10 then sp.readN (a + 2 * k) 2 else sp.readN (a + k) 1
/-- A row as it is streamed (R218, R220): the integers `x`, the exponent, whether it holds a NaN or an infinity, whether an element saturates.
The integer class streams the two's complement values; the float class aligns the row to `old`, the recorded exponent in force, or to the largest
exponent among its nonzero values. Positions from `kk` on are zero. -/
def StreamedRow (sp : Memory) (fmt kk a : Nat) (old : Option Int) (x : Nat → Int) (e : Option Int) (nan sat : Bool) : Prop :=
  let bits := ruleActivation sp fmt kk a
  let f (k : Nat) : Val := val fmt (bits k)
  let mag (k : Nat) : Rat := max (f k).rat (-(f k).rat)
  let p := rulePlanes fmt
  (∀ k, kk ≤ k → x k = 0) ∧
  (fmt ∉ [9, 10, 11, 12] → e = none ∧ nan = false ∧ sat = false ∧ ∀ k < kk, x k = Int.bmod (bits k) (2 ^ p)) ∧
  (fmt ∈ [9, 10, 11, 12] →
    (nan = true ↔ ∃ k < kk, (f k).isFin = false) ∧
    (nan = true → e = old ∧ sat = false ∧ ∀ k, x k = 0) ∧
    (nan = false →
      (old ≠ none → e = old) ∧
      (old = none → (∀ k < kk, (f k).rat = 0) → e = none) ∧
      (old = none → (∃ k < kk, (f k).rat ≠ 0) → ∃ n, e = some n ∧ (∀ k < kk, mag k < (2 : Rat) ^ (n + 1)) ∧ ∃ k < kk, (2 : Rat) ^ n ≤ mag k) ∧
      (e = none → sat = false ∧ ∀ k, x k = 0) ∧
      ∀ n, e = some n →
        let whole (k : Nat) : Int := ruleRoundInt 0 ((f k).rat * (2 : Rat) ^ (ruleFraction fmt - n))
        (∀ k < kk, x k = max (-2 ^ (p - 1)) (min (whole k) (2 ^ (p - 1) - 1))) ∧ (sat = true ↔ ∃ k < kk, x k ≠ whole k)))
/-- The product sum of one streamed row and one column over a region, dense or sparse (R210, R212, R213, R222). -/
def ruleProduct (l : Tile) (r : Region) (x : Nat → Int) (c : Nat) : Int :=
  let cols := 512 / max 1 (wPlanes r.wfmt)
  let span := if r.sparse = 0 then 128 else if r.sparse = 1 then 256 else if r.sparse = 2 then 384 else 512
  let kept := if r.sparse = 2 then 96 else if r.sparse = 3 then 64 else 128
  ((List.range r.kb).map fun i => ((List.range kept).map fun q =>
    x (span * i + if r.sparse = 0 then q else (r.index.getD (i * r.nb + c / cols) []).getD q 0) *
      ruleWeight l.sp (wPlanes r.wfmt) (r.b0 + i * r.nb + c / cols) q (c % cols)).sum).sum
/-- One output of R229 from its accumulator, NaN bit, scales, exponent above F, and bias: the product, rounded once into FP32, with its special
cases; the bias by `FADD` (R126); the conversion of R86 and R98. Where a NaN scale stands beside 0 × ∞ the flags of that product are left open,
and so is the sign of a zero product. -/
def OutputRule (acc : Int) (nan : Bool) (sa sw : Option Nat) (e : Option Int) (bias : Option Nat) (ofmt : Nat) (y : Nat × FFlags) : Prop :=
  let one : Val := .fin false 1 1 0
  let a := (sa.map (val 8)).getD one
  let w := (sw.map (val 8)).getD one
  let scales := a.isInf || w.isInf
  let zeros := decide (acc = 0) || a.isZero || w.isZero
  let sign := (decide (acc < 0) != a.sign) != w.sign
  (nan = true → y = match canonicalNan ofmt with
    | some q => (q, 0)
    | none => (0, NV)) ∧
  (nan = false → ∃ p : Nat × FFlags,
    (a.isNan = true ∨ w.isNan = true → p.1 = 0x7FC00000 ∧ ((scales && zeros) = false → p.2 = a.nv ||| w.nv)) ∧
    (a.isNan = false → w.isNan = false →
      (scales = true → zeros = true → p = (0x7FC00000, NV)) ∧
      (scales = true → zeros = false → p = (if sign then 0xFF800000 else 0x7F800000, 0)) ∧
      (scales = false → zeros = true → p.2 = 0 ∧ (p.1 = 0 ∨ p.1 = 0x80000000)) ∧
      (scales = false → zeros = false → ∃ n d k, 0 < n ∧ 0 < d ∧
        Val.rat (.fin sign n d k) = acc * a.rat * w.rat * (2 : Rat) ^ (e.getD 0) ∧ p = roundVal 8 (.fin sign n d k) 0)) ∧
    let b := match bias with
      | some b => fArith 8 0 p.1 b 0 0
      | none => (p.1, 0)
    let o := ruleConvert ofmt 8 b.1 0
    y = (o.1, p.2 ||| b.2 ||| o.2))
/-- A field of word `i` of a launch payload (R369). -/
def launchField (bs : List Byte) (i lo n : Nat) : Nat := natOfBytes ((bs.drop (8 * i)).take 8) / 2 ^ lo % 2 ^ n
/-- The refusals of R372, in its order, for a launch of tenant `tn` under a key with this `k1`; the template stands at word 8, R366. -/
def State.LaunchRefused (s : State) (tn k1 : Nat) (bs : List Byte) : Prop :=
  let f := launchField bs
  let w (j : Nat) : Nat := f 2 (7 * j) 7
  let total := ((List.range 6).map w).sum
  let len := f 8 0 6
  let tiles := s.tileList tn
  (bs.length ≠ 64 + 8 * len ∨ len < 4 ∨ 32 < len ∨ len - 1 < f 8 8 3 ∨ 4 < f 8 11 3 ∨ f 8 15 1 = 1) ∨
  (f 2 42 22 ≠ 0 ∨ f 3 0 16 ≠ 0 ∨ f 4 32 32 ≠ 0 ∨ f 5 32 32 ≠ 0 ∨ f 6 48 16 ≠ 0 ∨ f 7 0 64 ≠ 0) ∨
  ((∃ j ∈ List.range 6, 64 < w j) ∨ (∃ j ∈ List.range 6, w j ≠ 0 ∧ ∃ i ∈ List.range j, w i = 0) ∨ 64 < total) ∨
  (f 1 0 64 < f 0 0 64 ∨ (total < 64 ∧ 2 ^ total < f 1 0 64)) ∨
  (1 < f 3 24 8 ∨ f 3 16 8 = 0 ∨ f 3 48 16 = 0 ∨ tiles.length < f 3 32 16 + f 3 48 16) ∨
  (∃ x ∈ (tiles.drop (f 3 32 16)).take 1, k1 ≠ dieOf x) ∨
  (f 8 14 1 = 1 ∧ ∃ x ∈ (tiles.drop (f 3 32 16)).take (f 3 48 16), ∀ w < 4, ((s.tile x).win w).dead = true)
/-- The packets of R373 in their order: the template with kind 2, `ppt` of them to each tile in turn, or `ppt` in all, round the set. -/
def State.LaunchPackets (s : State) (tn : Nat) (bs : List Byte) (l : List (Nat × Packet)) : Prop :=
  let f := launchField bs
  let set := (s.tileList tn).drop (f 3 32 16)
  let ppt := f 3 16 8
  let n := f 3 48 16
  (∀ e ∈ l, e.2 = (List.range (f 8 0 6)).map fun i => wrapN (if i = 0 then f 8 0 11 + 2 * 2 ^ 11 + f 8 14 50 * 2 ^ 14 else f (8 + i) 0 64)) ∧
  (f 3 24 8 = 0 → l.length = n * ppt ∧ ∀ i < n * ppt, (l[i]?).map Prod.fst = set[i / ppt]?) ∧
  (f 3 24 8 = 1 → l.length = ppt ∧ ∀ i < ppt, (l[i]?).map Prod.fst = set[i % n]?)
/-- The matrix instruction `o` of tile `x` may start: queued, not started, not of a speculative thread, admitted by R225
and R227, its cost in the reserve. -/
def State.MxTurn (s : State) (x id : Nat) (o : MxOp) (cost : Nat) : Prop :=
  s.stopped = false ∧ (s.tile x).mxq.find? (fun o => o.id == id) = some o ∧ o.id = id ∧ o.started = false ∧ (s.tile x).mxReady o = true ∧
  s.covers (dieOf x) cost = true ∧ o.spec = false
/-- It has started and stands in the queue with what its start fixed; the others keep their places. -/
def State.MxStarted (s u : State) (x id : Nat) (p : MxOp → Prop) : Prop :=
  (u.tile x).mxq.map MxOp.id = (s.tile x).mxq.map MxOp.id ∧
  ∃ o', (u.tile x).mxq.find? (fun o => o.id == id) = some o' ∧ o'.started = true ∧ p o'
/-- The little-endian words of a matrix descriptor. -/
def mxField (l : Tile) (o : MxOp) (i lo n : Nat) : Nat := l.sp.readN (o.ra.toNat % 2 ^ 20 + 8 * i) 8 / 2 ^ lo % 2 ^ n

end Sys2Proof.Machine
end

