-- ==== Sys2Proof/Certificates/Slice0/Obligations.lean ====
section
/-! DEFINITION. The statements about the machine. The tables of results that they compare the meanings with stand in Rules.lean and Safety.lean. -/
open Sys2Proof Sys2Proof.Machine

/-! Integer, predicate and branch instructions (04_scalar.md). -/

/-- The two-operand integer instructions and their SL twins write `gd` with the value of the tables of R115 to R118; `g0` stays zero; nothing else of
the thread, the tile or the package changes but the pc and the issue counts. The other instructions that write one register: immediates, bit counts,
extensions, selection, scaled addition, `PGET`, bit planes. Bit fields: a field that passes bit 63 is taken at the width that remains, and sets bit 8
of `cr.warn`. -/
def Obligations.IntegerResult : Prop :=
  (∀ (i : Instr) (k : Binary) (d a : Reg) (b : Reg ⊕ BitVec 32), Binary.of i = some (k, d, a, b) →
  ∀ (s : State) (t : Thread), s.Issues t → t.Clear (a :: d :: operandRegs b) →
    ∃ t', exec i s = .next (s.issued t') ∧
      (∀ r, t'.rd r = if r = 0 then 0 else if r = d then k.y (t.rd a) (k.b t b) else t.rd r) ∧
      { t' with g := t.g } = t.stepped) ∧
  (∀ (i : Instr) (rs : List Reg) (d : Reg) (f : Thread → W64), registerRule i = some (rs, d, f) →
  ∀ (s : State) (t : Thread), s.Issues t → t.Clear (d :: rs) →
    ∃ t', exec i s = .next (s.issued t') ∧
      (∀ r, t'.rd r = if r = 0 then 0 else if r = d then f t else t.rd r) ∧
      { t' with g := t.g } = t.stepped) ∧
  (∀ (i : Instr) (a d : Reg) (pos w : Nat) (f : Nat → Nat → Nat → W64), fieldRule i = some (a, d, pos, w, f) → i.wf = true →
  ∀ (s : State) (t : Thread), s.Issues t → t.Clear [a, d] →
    ∃ t', exec i s = .next (s.issued t') ∧
      (∀ r, t'.rd r = if r = 0 then 0 else if r = d then f (t.rd a).toNat (t.rd d).toNat (ruleWidth pos w) else t.rd r) ∧
      t'.warn = (t.warn ||| if pos + w > 64 then 0x100 else 0) ∧
      { t' with g := t.g, warn := t.warn } = t.stepped)

/-- Division has no trap and no flag, and its borderline cases are fixed: a division by zero gives all ones and the dividend as remainder, −2^63 by −1
gives −2^63 and 0 (R118). -/
def Obligations.DivisionCorners : Prop :=
  ∀ (s : State) (t : Thread) (d a b : Reg) (m : BitVec 32), s.Issues t → t.Clear [a, b, d] →
    let result (i : Instr) (v : W64) := exec i s = .next (s.issued (t.stepped.wr d v))
    (∀ i ∈ [.div d a b, .rem d a b, .divz d a b, .remz d a b, .divSl d a m, .remSl d a m, .divzSl d a m, .remzSl d a m], ∃ v, result i v) ∧
    (result (.divSl d a 0) 0xFFFFFFFFFFFFFFFF ∧ result (.remSl d a 0) (t.rd a) ∧ result (.divzSl d a 0) 0xFFFFFFFFFFFFFFFF ∧
      result (.remzSl d a 0) (t.rd a)) ∧
    (t.rd a = 0x8000000000000000 → result (.divSl d a 0xFFFFFFFF) 0x8000000000000000 ∧ result (.remSl d a 0xFFFFFFFF) 0) ∧
    (t.rd b = 0 → result (.div d a b) 0xFFFFFFFFFFFFFFFF ∧ result (.rem d a b) (t.rd a) ∧ result (.divz d a b) 0xFFFFFFFFFFFFFFFF ∧
      result (.remz d a b) (t.rd a)) ∧
    (t.rd a = 0x8000000000000000 → t.rd b = 0xFFFFFFFFFFFFFFFF → result (.div d a b) 0x8000000000000000 ∧ result (.rem d a b) 0 ∧
      result (.divz d a b) 0 ∧ result (.remz d a b) 0x8000000000000000)

/-- Predicate logic, and `PPUT`, which writes p1 to p7; p0 stays true. The compares write c to `pt` and then its negation to `pf`; naming one
predicate twice, other than p0, sets bit 6 of `cr.warn`. -/
def Obligations.PredicateResult : Prop :=
  (∀ (s : State) (t : Thread), s.Issues t →
    (∀ (i : Instr) (d a b : Pred) (f : Bool → Bool → Bool), predicateRule i = some (d, a, b, f) →
      ∃ t', exec i s = .next (s.issued t') ∧
        (∀ n, t'.pr n = if n = 0 then true else if n = d then f (t.pr a) (t.pr b) else t.pr n) ∧
        { t' with p := t.p } = t.stepped) ∧
    (∀ a : Reg, t.Clear [a] →
      ∃ t', exec (.pput a) s = .next (s.issued t') ∧
        (∀ n, t'.pr n = if n = 0 then true else decide ((t.rd a).toNat / 2 ^ n.toNat % 2 = 1)) ∧
        { t' with p := t.p } = t.stepped)) ∧
  (∀ (i : Instr) (pt pf : Pred) (a : Reg) (b : Reg ⊕ BitVec 32) (z : Bool) (f : W64 → W64 → Bool),
  compareRule i = some (pt, pf, a, b, z, f) →
  ∀ (s : State) (t : Thread), s.Issues t → t.Clear (a :: operandRegs b) →
    ∃ t', exec i s = .next (s.issued t') ∧
      (∀ n, t'.pr n = if n = 0 then true else if n = pf then !f (t.rd a) (compareB z t b)
        else if n = pt then f (t.rd a) (compareB z t b) else t.pr n) ∧
      t'.warn = (t.warn ||| if pt = pf ∧ pt ≠ 0 then 0x40 else 0) ∧
      { t' with p := t.p, warn := t.warn } = t.stepped)

/-- The branches set the pc, and at most one register: the link or the loop counter. -/
def Obligations.BranchResult : Prop :=
  ∀ (i : Instr) (rs : List Reg) (w : Thread → Option (Reg × W64)) (next : Thread → Nat), branchRule i = some (rs, w, next) →
  ∀ (s : State) (t : Thread), s.Issues t → t.Clear rs →
    ∃ t', exec i s = .next (s.issued t') ∧ t'.pc = next t ∧
      (∀ r, t'.rd r = if r = 0 then 0 else match w t with
        | some (d, v) => if r = d then v else t.rd r
        | none => t.rd r) ∧
      { t' with g := t.g, pc := t.stepped.pc } = t.stepped

/-! Scratchpad accesses (05_scratchpad.md). -/

/-- Loads write the extended bytes, each from the thread's own buffered stores first; in a speculative window they set read bits. -/
def Obligations.LoadResult : Prop :=
  ∀ (i : Instr) (m : Access) (d : Reg) (ext : Nat → W64) (w : BitVec 9), loadRule i = some (m, d, ext, w) →
  ∀ (s : State) (t : Thread), s.Issues t → t.Clear (d :: m.regs) → accessTrap s.ctile (m.addr t) m.n m.ecc = none →
    ∃ t', exec i s = .next ((s.issued t').scrub s.tx (m.addr t) m.n) ∧
      (∀ r, t'.rd r = if r = 0 then 0 else if r = d then ext (s.seenN t (m.addr t) m.n) else t.rd r) ∧
      t'.warn = (t.warn ||| w) ∧ t'.spec = (t.mark_read (m.addr t) m.n).spec ∧
      { t' with g := t.g, warn := t.warn, spec := t.spec } = t.stepped

/-- Stores outside a speculative window write exactly their bytes; full/empty bits stay, but for a whole word whose code was uncorrectable, which is
set empty. A store in an active speculative window, outside the speculation area and with room in the buffer, reaches the store buffer alone. -/
def Obligations.StoreResult : Prop :=
  (∀ (i : Instr) (m : Access) (d : Reg), storeRule i = some (m, d) →
  ∀ (s : State) (t : Thread), s.Issues t → t.Clear (d :: m.regs) → t.spec = none → t.wait = .none → s.ctile.sp.wf →
  accessTrap s.ctile (m.addr t) m.n m.ecc = none →
    ∃ u, exec i s = .next u ∧ s.Stored u (m.addr t) m.n (t.rd d).toNat ∧ u.thr s.tx s.sx = some t.stepped ∧
      (∀ w, w ∈ u.ctile.bad ↔ w ∈ s.ctile.bad ∧ ¬ (m.n = 8 ∧ w = m.addr t / 8)) ∧
      (∀ w, w ∈ u.ctile.full ↔ w ∈ s.ctile.full ∧ ¬ (m.n = 8 ∧ w = m.addr t / 8 ∧ w ∈ s.ctile.bad))) ∧
  (∀ (i : Instr) (m : Access) (d : Reg), storeRule i = some (m, d) →
  ∀ (s : State) (t : Thread) (sp : Spec), s.Issues t → t.Clear (d :: m.regs) → t.spec = some sp → sp.st = .active →
  accessTrap s.ctile (m.addr t) m.n m.ecc = none → areaHas sp.area (m.addr t) m.n = false →
  areaHas sp.area (m.addr t / 64 * 64) 64 = false → sp.used + 1 ≤ 64 →
    ∃ t' sp', exec i s = .next (s.issued t') ∧ t'.spec = some sp' ∧
      (∀ x, sp'.byte x = if m.addr t ≤ x ∧ x < m.addr t + m.n
        then some (BitVec.ofNat 8 ((t.rd d).toNat / 2 ^ (8 * (x - m.addr t)))) else sp.byte x) ∧
      { sp' with buf := sp.buf } = sp ∧ { t' with spec := t.spec } = t.stepped)

/-- A full/empty instruction whose condition holds reads or writes its word and sets the bit, as one event; the retry count returns to zero. A
full/empty instruction whose condition fails does not issue: at a fresh bundle the thread parks, a later failure counts one retry, and the retry that
reaches the limit takes FERETRY. -/
def Obligations.FullEmptyResult : Prop :=
  (∀ (i : Instr) (m : Access) (want : Option Bool) (dst src : Option Reg) (after : Option Bool),
  fullEmptyRule i = some (m, want, dst, src, after) →
  ∀ (s : State) (t : Thread), s.Issues t → t.Clear (dst.toList ++ src.toList ++ m.regs) → t.spec = none → t.wait = .none →
  s.ctile.sp.wf → accessTrap s.ctile (m.addr t) 8 true = none →
  (∀ f, want = some f → decide (m.addr t / 8 ∈ s.ctile.full) = f) →
    ∃ u t', exec i s = .next u ∧ u.thr s.tx s.sx = some t' ∧
      s.Stored u (m.addr t) 8 (match src with
        | some r => (t.rd r).toNat
        | none => s.seenN t (m.addr t) 8) ∧
      (∀ w, w ∈ u.ctile.full ↔ if w = m.addr t / 8 ∧ after.isSome then after = some true else w ∈ s.ctile.full) ∧
      u.ctile.bad = s.ctile.bad ∧
      (∀ r, t'.rd r = if r = 0 then 0 else if some r = dst then wrapN (s.seenN t (m.addr t) 8) else t.rd r) ∧
      { t' with g := t.g, feCount := t.feCount } = t.stepped ∧ t'.feCount = 0) ∧
  (∀ (i : Instr) (m : Access) (f : Bool) (dst src : Option Reg) (after : Option Bool),
  fullEmptyRule i = some (m, some f, dst, src, after) →
  ∀ (s : State) (t : Thread), s.Issues t → t.Clear (dst.toList ++ src.toList ++ m.regs) → t.spec = none →
  accessTrap s.ctile (m.addr t) 8 true = none → decide (m.addr t / 8 ∈ s.ctile.full) = !f →
    let z := s.scrub s.tx (m.addr t) 8
    (t.feTried = false →
      exec i s = .next (z.modCur fun t => { t with feTried := true, wait := .fe (m.addr t) f, outSince := s.cycleOf s.tx }).progress) ∧
    (t.feTried = true → t.feLimit ≠ min (t.feCount + 1) 0xFFFF ∨ t.feLimit = 0 →
      exec i s = .next (z.modCur fun t => { t with feCount := min (t.feCount + 1) 0xFFFF, wait := .fe (m.addr t) f,
                                                   outSince := s.cycleOf s.tx }).progress) ∧
    (t.feTried = true → t.feLimit = min (t.feCount + 1) 0xFFFF → t.feLimit ≠ 0 → t.tact = false →
      exec i s = .next (z.modCur fun t => { t with feCount := 0, feTried := false, tcause := 7, tval := wrapN (m.addr t), tpc := BitVec.ofNat 48 t.pc,
                                                   pmode := t.sys, sys := true, tact := true, pc := s.ctile.tvec })))

/-- Integer atomics read the old word, write the new one and return the old, as one event. Floating-point atomics: the same with the new word and the
flags of R152 and R153, always to nearest even. -/
def Obligations.AtomicResult : Prop :=
  (∀ (i : Instr) (wide noret : Bool) (d a b : Reg) (cas z : Bool), atomicRule i = some (wide, noret, d, a, b, cas, z) → i.wf = true →
  ∀ (s : State) (t : Thread), s.Issues t → t.Clear [a, b, d] → t.spec = none → t.wait = .none → s.ctile.sp.wf →
  let n := if wide then 8 else 4
  let w := 8 * n
  accessTrap s.ctile (t.rd a).toNat n true = none →
    let old := s.seenN t (t.rd a).toNat n
    let new := atomicNew w i old ((t.rd b).toNat % 2 ^ w) ((t.rd d).toNat % 2 ^ w)
    ∃ u t', exec i s = .next u ∧ u.thr s.tx s.sx = some t' ∧ s.Stored u (t.rd a).toNat n (new.getD old) ∧
      u.ctile.full = s.ctile.full ∧ u.ctile.bad = s.ctile.bad ∧
      (∀ r, t'.rd r = if r = 0 then 0 else if r = d ∧ noret = false then (if z then ruleZext old w else ruleSext old w) else t.rd r) ∧
      { t' with g := t.g } = t.stepped) ∧
  (∀ (i : Instr) (half noret : Bool) (d a b : Reg) (f : Nat → Nat → Nat × FFlags), atomicFloatRule i = some (half, noret, d, a, b, f) → i.wf = true →
  ∀ (s : State) (t : Thread), s.Issues t → t.Clear [a, b, d] → t.spec = none → t.wait = .none → s.ctile.sp.wf →
  let n := if half then 2 else 4
  accessTrap s.ctile (t.rd a).toNat n true = none →
    let old := s.seenN t (t.rd a).toNat n
    let new := f old ((t.rd b).toNat % 2 ^ (8 * n))
    ∃ u t', exec i s = .next u ∧ u.thr s.tx s.sx = some t' ∧ s.Stored u (t.rd a).toNat n new.1 ∧
      u.ctile.full = s.ctile.full ∧ u.ctile.bad = s.ctile.bad ∧
      (∀ r, t'.rd r = if r = 0 then 0 else if r = d ∧ noret = false then ruleZext old (8 * n) else t.rd r) ∧
      t'.fflags = (t.fflags ||| new.2) ∧ { t' with g := t.g, fflags := t.fflags } = t.stepped)

/-- The first failing check of a scratchpad access, in the order ALIGN, BOUNDS, STAT, PARITY, is taken, and the bundle has no effect. A bank that a
region has claimed is stationary: a thread's access to it takes STAT until the region is free again. -/
def Obligations.AccessTrapTaken : Prop :=
  (∀ (i : Instr) (m : Access) (ds : List Reg),
  (∃ d e w, loadRule i = some (m, d, e, w) ∧ ds = [d]) ∨ (∃ d, storeRule i = some (m, d) ∧ ds = [d]) ∨
  (∃ f dst src after, fullEmptyRule i = some (m, f, dst, src, after) ∧ ds = dst.toList ++ src.toList) ∨
  (∃ wide noret d a b cas z, atomicRule i = some (wide, noret, d, a, b, cas, z) ∧
    m = ⟨[a, b], fun t => (t.rd a).toNat, if wide then 8 else 4, true⟩ ∧ ds = [d]) ∨
  (∃ half noret d a b f, atomicFloatRule i = some (half, noret, d, a, b, f) ∧
    m = ⟨[a, b], fun t => (t.rd a).toNat, if half then 2 else 4, true⟩ ∧ ds = [d]) →
  ∀ (s : State) (t : Thread) (tr : Trap), s.Issues t → t.Clear (ds ++ m.regs) → accessTrap s.ctile (m.addr t) m.n m.ecc = some tr →
    exec i s = .next (s.trapped tr)) ∧
  (∀ (l : Tile) (n b : Nat), n < 8 → (l.region n).st ≠ .free → (l.region n).b0 ≤ b → b < (l.region n).b0 + (l.region n).kb * (l.region n).nb →
    l.stat b = true ∧ ∀ a k ecc, a / 8192 = b → a < Config.spSize → a % k = 0 → accessTrap l a k ecc = some ⟨7, 5, wrapN a⟩)

/-- The key directory: lookup, insertion, deletion outside a speculative window. -/
def Obligations.DirectoryResult : Prop :=
  ∀ (s : State) (t : Thread) (d a b : Reg), s.Issues t → t.Clear [d, a, b] → t.spec = none → s.ctile.badDir = [] →
    let key := t.rd a
    let found := (s.ctile.dir.find? fun e => e.1 == key).map fun e => e.2.zeroExtend 64
    let miss : W64 := 0xFFFFFFFFFFFFFFFF
    let res (i : Instr) (v : W64) (dir' : List (W64 × BitVec 32) → Prop) : Prop :=
      ∃ u t', exec i s = .next ((s.issued t').setTile s.tx { (s.issued t').ctile with dir := u }) ∧ dir' u ∧
        (∀ r, t'.rd r = if r = 0 then 0 else if r = d then v else t.rd r) ∧ { t' with g := t.g } = t.stepped
    res (.dlook d a) (found.getD miss) (fun u => u = s.ctile.dir) ∧
    res (.ddel d a) (found.getD miss) (fun u => ∀ e, e ∈ u ↔ e ∈ s.ctile.dir ∧ e.1 ≠ key) ∧
    (found.isSome ∨ s.ctile.dir.length < 256 →
      res (.dins d a b) (found.getD miss) (fun u => ∀ e, e ∈ u ↔ e = (key, (t.rd b).truncate 32) ∨ (e ∈ s.ctile.dir ∧ e.1 ≠ key))) ∧
    (found = none → 256 ≤ s.ctile.dir.length → res (.dins d a b) 0xFFFFFFFFFFFFFFFE (fun u => u = s.ctile.dir))

/-! Floating point (03_numbers.md, 04_scalar.md). -/

/-- The value of every encoding of a floating format: a normal or subnormal number, an infinity, a NaN. A nonzero exact value is rounded into a
floating format as R81 says: RNE takes a nearest code, the even one in a tie; RTZ, RDN and RUP the nearest on their side. NX tells an inexact result,
UF a tiny one. Exactly a value that rounds beyond the largest finite sets OF, and NX with it, and gives an infinity or the largest finite as R86 says
for the format and the mode. A zero keeps its sign and raises nothing; infinities and NaNs give what R86 says. -/
def Obligations.FloatEncoding : Prop :=
  (∀ f ∈ floatFormats, ∀ b < 2 ^ fmtWidth f.code,
    (f.isNan b = true → val f.code b = .nan (f.isSignalling b)) ∧
    (f.isInf b = true → val f.code b = .inf (f.S b)) ∧
    (f.isNan b = false → f.isInf b = false →
      (val f.code b).isFin = true ∧ (val f.code b).sign = f.S b ∧ (val f.code b).rat = f.value b)) ∧
  (∀ f ∈ floatFormats, ∀ (s : Bool) (n d : Nat) (e : Int) (mode : Nat), 0 < n → 0 < d → mode < 4 →
    let x := Val.rat (.fin false n d e)
    let y := roundVal f.code (.fin s n d e) mode
    let small := (2 : Rat) ^ (1 - f.bias)
    let big := f.value f.max
    let next := big + (2 : Rat) ^ ((f.expo f.max : Int) - f.bias - f.m)
    let away : Bool := mode == 0 || (mode == 2 && s) || (mode == 3 && !s)
    let beyond : Prop := if mode = 0 then big + next < 2 * x ∨ (big + next = 2 * x ∧ f.max % 2 = 1) else if away then big < x else next ≤ x
    (f.signed = false → s = true → y = (0, NV)) ∧
    ((f.signed || !s) = true →
      (y.2.getLsbD 2 = true ↔ beyond) ∧
      (beyond → big < x ∧ y.2 = OF ||| NX ∧ y.1 = f.withSign s (if away then (positiveInf f.code).getD f.max else f.max)) ∧
      (y.2.getLsbD 2 = false → ∃ m, m ≤ f.max ∧ y.1 = f.withSign s m ∧
        y.2.getLsbD 4 = false ∧ y.2.getLsbD 3 = false ∧
        (y.2.getLsbD 0 = true ↔ f.value m ≠ x) ∧
        (y.2.getLsbD 1 = true → f.value m ≠ x ∧ x < small) ∧ (f.value m ≠ x → f.value m < small → y.2.getLsbD 1 = true) ∧
        ∀ m' ≤ f.max,
          (mode = 0 → (f.value m - x) ^ 2 ≤ (f.value m' - x) ^ 2 ∧
            ((f.value m - x) ^ 2 = (f.value m' - x) ^ 2 → m' = m ∨ m % 2 = 0)) ∧
          (mode = 1 ∨ mode = 2 ∧ s = false ∨ mode = 3 ∧ s = true → f.value m ≤ x ∧ (f.value m' ≤ x → f.value m' ≤ f.value m)) ∧
          (mode = 2 ∧ s = true ∨ mode = 3 ∧ s = false → x ≤ f.value m ∧ (x ≤ f.value m' → f.value m ≤ f.value m'))))) ∧
  (∀ f ∈ floatFormats, ∀ (s : Bool) (d : Nat) (e : Int) (mode : Nat),
    roundVal f.code (.fin s 0 d e) mode = (f.withSign (s && f.signed) 0, 0) ∧
    roundVal f.code (.inf s) mode = (match positiveInf f.code with
      | some i => (f.withSign s i, 0)
      | none => if f.signed = false ∧ s = true then (0, NV) else (f.withSign s f.max, OF)) ∧
    ∀ sig, roundVal f.code (.nan sig) mode = match canonicalNan f.code with
      | some q => (q, 0)
      | none => (0, NV))

/-- `FADD`, `FSUB`, `FMUL` and `FMA` of numbers: the exact result, rounded once in the mode of `cr.round`, with the zero signs of R126. The same
instructions with a NaN or an infinity among their operands: the canonical NaN or an infinity, and NV where R126 says. The atomics and the windows
use the same arithmetic (`fArith`). -/
def Obligations.FloatArithmetic : Prop :=
  (∀ (i : Instr) (op : Nat) (fmt : FFmt) (d a b : Reg), farRule i = some (op, fmt, d, a, b) →
  ∀ (s : State) (t : Thread), s.Issues t → t.Clear [a, b, d] →
    let c := fmtNo fmt
    let x := val c (t.rd a).toNat
    let y := val c (t.rd b).toNat
    let z := val c (t.rd d).toNat
    x.isFin = true → y.isFin = true → (op = 3 → z.isFin = true) →
      ∃ t' sg n den e, exec i s = .next (s.issued t') ∧ FarResult op x y z t.round.toNat sg n den e ∧
        (∀ r, t'.rd r = if r = 0 then 0 else if r = d then wrapN (roundVal c (.fin sg n den e) t.round.toNat).1 else t.rd r) ∧
        t'.fflags = (t.fflags ||| (roundVal c (.fin sg n den e) t.round.toNat).2) ∧
        { t' with g := t.g, fflags := t.fflags } = t.stepped) ∧
  (∀ (i : Instr) (op : Nat) (fmt : FFmt) (d a b : Reg), farRule i = some (op, fmt, d, a, b) →
  ∀ (s : State) (t : Thread) (r : Option Bool) (fl : FFlags), s.Issues t → t.Clear [a, b, d] →
    let c := fmtNo fmt
    farSpecial op (val c (t.rd a).toNat) (val c (t.rd b).toNat) (val c (t.rd d).toNat) = some (r, fl) →
      ∃ t', exec i s = .next (s.issued t') ∧
        (∀ q, t'.rd q = if q = 0 then 0 else if q = d then wrapN (specialCode c r) else t.rd q) ∧
        t'.fflags = (t.fflags ||| fl) ∧ { t' with g := t.g, fflags := t.fflags } = t.stepped) ∧
  (∀ c ∈ [8, 9, 10], ∀ op a b d mode : Nat, op < 4 → mode < 4 →
    let x := val c a
    let y := val c b
    let z := val c d
    (∀ r fl, farSpecial op x y z = some (r, fl) → fArith c op a b d mode = (specialCode c r, fl)) ∧
    (x.isFin = true → y.isFin = true → (op = 3 → z.isFin = true) →
      ∃ sg n den e, FarResult op x y z mode sg n den e ∧ fArith c op a b d mode = roundVal c (.fin sg n den e) mode))

/-- `FMIN` and `FMAX` return an operand bit for bit, −0 below +0, a number before a NaN; `FCLASS` sets the bit of the operand's class. The floating-
point compares: c to `pt`, its negation to `pf`, NV for a signalling NaN or, in `FCMP.LT` and `FCMP.LE`, any NaN. -/
def Obligations.FloatComparison : Prop :=
  ((∀ (i : Instr) (isMax : Bool) (fmt : FFmt) (d a b : Reg), minMaxRule i = some (isMax, fmt, d, a, b) →
    ∀ (s : State) (t : Thread), s.Issues t → t.Clear [a, b, d] →
      let c := fmtNo fmt
      let y := ruleMinMax c isMax (t.rd a).toNat (t.rd b).toNat
      ∃ t', exec i s = .next (s.issued t') ∧ (∀ r, t'.rd r = if r = 0 then 0 else if r = d then wrapN y.1 else t.rd r) ∧
        t'.fflags = (t.fflags ||| y.2) ∧ { t' with g := t.g, fflags := t.fflags } = t.stepped) ∧
  (∀ (fmt : FFmt) (f : FloatFormat) (d a : Reg), f ∈ floatFormats → f.code = fmtNo fmt →
    ∀ (s : State) (t : Thread), s.Issues t → t.Clear [a, d] →
      ∃ t', exec (.fclass fmt d a) s = .next (s.issued t') ∧
        (∀ r, t'.rd r = if r = 0 then 0 else if r = d then wrapN (2 ^ ruleClass f (t.rd a).toNat) else t.rd r) ∧
        { t' with g := t.g } = t.stepped)) ∧
  (∀ (i : Instr) (fmt : FFmt) (pt pf : Pred) (a b : Reg) (f : Val → Val → Bool) (anyNan : Bool),
  floatCompareRule i = some (fmt, pt, pf, a, b, f, anyNan) →
  ∀ (s : State) (t : Thread), s.Issues t → t.Clear [a, b] →
    let x := val (fmtNo fmt) (t.rd a).toNat
    let y := val (fmtNo fmt) (t.rd b).toNat
    ∃ t', exec i s = .next (s.issued t') ∧
      (∀ n, t'.pr n = if n = 0 then true else if n = pf then !f x y else if n = pt then f x y else t.pr n) ∧
      t'.warn = (t.warn ||| if pt = pf ∧ pt ≠ 0 then 0x40 else 0) ∧
      t'.fflags = (t.fflags ||| if anyNan ∧ (x.isNan ∨ y.isNan) then NV else x.nv ||| y.nv) ∧
      { t' with p := t.p, warn := t.warn, fflags := t.fflags } = t.stepped)

/-- `CVT` between the element formats: copies, saturation between integers, rounding, and the special values of R86. A pair without defined conversion
copies the register and sets bit 5 of `cr.warn`. -/
def Obligations.ConversionResult : Prop :=
  ∀ (dst src : Fmt) (d a : Reg) (s : State) (t : Thread), (Instr.cvt dst src d a).wf = true → s.Issues t → t.Clear [a, d] →
    let y := ruleConvert dst.toNat src.toNat (t.rd a).toNat t.round.toNat
    let ok : Bool := (dst.toNat ≤ 13 || dst.toNat == 24) && (src.toNat ≤ 13 || src.toNat == 24)
    ∃ t', exec (.cvt dst src d a) s = .next (s.issued t') ∧
      (∀ r, t'.rd r = if r = 0 then 0 else if r = d then
          (if ok then (if dst.toNat < 4 then ruleSext y.1 (fmtWidth dst.toNat) else wrapN y.1) else t.rd a) else t.rd r) ∧
      t'.fflags = (t.fflags ||| if ok then y.2 else 0) ∧ t'.warn = (t.warn ||| if ok then 0 else 0x20) ∧
      { t' with g := t.g, fflags := t.fflags, warn := t.warn } = t.stepped

/-- The scale of a quantised block is the least code whose value brings the greatest magnitude down to the format's largest, and the elements are the
quotients, rounded to nearest even. An element of a block with scale s stands for its value times that of s, which FP32 holds exactly: NaN where
either is one, a zero with the element's sign under scale 0. The places of R87: the scale in byte 0, then the elements. `QBS` and `DQBS` read their
source first and write the whole result, as one event; `gd` takes the scale code; the thread is not ready for the next eight cycles. -/
def Obligations.BlockConversion : Prop :=
  (∀ ef ∈ [13, 11], ∀ xs : List Val, xs ≠ [] → (∀ x ∈ xs, ∀ s n d e, x = .fin s n d e → 0 < d) →
    let q := quantise ef xs
    let emax : Rat := if ef = 13 then 6 else 448
    let fits (c : Nat) : Prop := ∀ x ∈ xs, x.isFin = true ∧ x.rat ≤ emax * (val 24 c).rat ∧ -x.rat ≤ emax * (val 24 c).rat
    ((∃ x ∈ xs, x.isNan = true) → q = (0xFF, xs.map fun _ => 0, NV)) ∧
    ((∀ x ∈ xs, x.isZero = true) → q.1 = 0 ∧ q.2.2 = 0 ∧ q.2.1 = xs.map fun x => if x.sign then (if ef = 13 then 8 else 0x80) else 0) ∧
    ((∀ x ∈ xs, x.isNan = false) → (∃ x ∈ xs, x.isZero = false) →
      1 ≤ q.1 ∧ q.1 ≤ 0xFE ∧ (∀ c, 1 ≤ c → c < q.1 → ¬ fits c) ∧ (q.1 < 0xFE → fits q.1) ∧
      q.2.1 = xs.map fun x => (roundVal ef (vDiv x (val 24 q.1)) 0).1)) ∧
  (∀ ef ∈ [13, 11], ∀ sc < 256, ∀ el < 2 ^ fmtWidth ef, Dequantised ef sc el (dequantise ef sc el)) ∧
  (∀ (bs : List Byte) (i : Nat), i < 16 →
    blockElem 11 bs i = (bs.getD (1 + i) 0).toNat ∧
    blockElem 13 bs i = if i % 2 = 0 then (bs.getD (1 + i / 2) 0).toNat % 16 else (bs.getD (1 + i / 2) 0).toNat / 16) ∧
  (∀ ef ∈ [13, 11], ∀ sc < 256, ∀ es : List Nat, es.length = 16 → (∀ e ∈ es, e < 2 ^ fmtWidth ef) →
    let bs := packBlock ef sc es
    bs.length = (if ef = 13 then 9 else 17) ∧ (bs.getD 0 0).toNat = sc ∧ ∀ i < 16, blockElem ef bs i = es.getD i 0) ∧
  (∀ (s : State) (t : Thread) (d a b : Reg) (ef : Nat) (up : Bool) (i : Instr),
  (i, ef, up) ∈ [(.qbsE2m1 d a b, 13, false), (.qbsE4m3 d a b, 11, false), (.dqbsE2m1 d a b, 13, true), (.dqbsE4m3 d a b, 11, true)] →
  s.Issues t → t.Clear [a, b, d] → t.spec = none → s.ctile.sp.wf →
    let size := if ef = 13 then 9 else 17
    let n := if up then size else 64
    let k := if up then 64 else size
    let src := (t.rd a).toNat
    let dst := (t.rd b).toNat
    (if up then dst % 64 = 0 else src % 64 = 0) → src + n ≤ Config.spSize → dst + k ≤ Config.spSize →
    s.ctile.statIn src n = none → s.ctile.statIn dst k = none → s.ctile.badIn src n = none → s.ctile.badIn dst k = none →
      let bs := (List.range n).map fun j => s.ctile.sp.read (src + j)
      let out : List Byte × Nat × FFlags :=
        if up then ((List.range 16).flatMap fun j => bytesOfNat 4 (dequantise ef (bs.getD 0 0).toNat (blockElem ef bs j)), (bs.getD 0 0).toNat, 0)
        else
          let q := quantise ef ((List.range 16).map fun j => val 8 (natOfBytes ((bs.drop (4 * j)).take 4)))
          (packBlock ef q.1 q.2.1, q.1, q.2.2)
      ∃ u t', exec i s = .next u ∧ u.thr s.tx s.sx = some t' ∧ s.Stored u dst k (natOfBytes out.1) ∧
        u.ctile.full = s.ctile.full ∧
        (∀ r, t'.rd r = if r = 0 then 0 else if r = d then wrapN out.2.1 else t.rd r) ∧
        t'.fflags = (t.fflags ||| out.2.2) ∧ t'.readyAt = s.cycleOf s.tx + 9 ∧
        { t' with g := t.g, fflags := t.fflags, readyAt := t.readyAt } = t.stepped)

/-! Traps and system instructions (02_encoding.md, 13_system.md). -/

/-- The register file and the predicates: a write is read back, `g0` reads zero and p0 true whatever is written, the others stay. -/
def Obligations.RegisterFile : Prop :=
  (∀ (t : Thread) (d r : Reg) (v : W64), (t.wr d v).rd r = if r = 0 then 0 else if r = d then v else t.rd r) ∧
  (∀ (t : Thread) (d n : Pred) (b : Bool), (t.wp d b).pr n = if n = 0 then true else if n = d then b else t.pr n) ∧
  (∀ (t : Thread) (d : Reg) (v : W64), { t.wr d v with g := t.g } = t) ∧ (∀ (t : Thread) (d : Pred) (b : Bool), { t.wp d b with p := t.p } = t)

/-- The first failing check of a bundle abandons it without effect in either half: the cause, its value and the bundle's address are saved, pmode
takes the previous mode, the thread is in sys mode with tact set and goes on at the tile's `cr.tvec` in the same slot; registers, predicates, pending
bits and outstanding operations stay. The issue is counted (R426), and a failed full/empty attempt is forgotten. -/
def Obligations.TrapEntry : Prop :=
  ∀ (s : State) (t : Thread) (w : W64) (b : Bundle) (tr : Trap), s.Issues t → t.speculative = false → t.tact = false → decode w = .ok b →
  firstTrap (bundleTraps w (guardHolds t b) (halfOf b.s) (halfV b.v) s) = some tr →
    s.issueWord false w = s.issued { t with
      tcause := BitVec.ofNat 4 tr.cause, tval := tr.val, tpc := BitVec.ofNat 48 t.pc, pmode := t.sys,
      sys := true, tact := true, pc := s.ctile.tvec, issOwn := t.issOwn + 1, feTried := false }

/-- `cr.status` as R394 lays it out, for every slot and every speculation state, and what `CRSET` in sys mode writes of it. -/
def Obligations.StatusRegister : Prop :=
  (∀ (s : State) (x q : Nat) (t : Thread), q < 8 → t.win < 4 → s.crGet x q t 0 =
    wrapN ((if t.sys then 1 else 0) + t.specNo * 8 + (if t.compute then t.win * 64 + 256 else 0) + q * 512 + (if t.pmode then 4096 else 0) +
      (if t.tact then 8192 else 0))) ∧
  (∀ (s : State) (t : Thread) (a : Reg), s.Issues t → t.Clear [a] → t.sys = true → t.spec = none →
    let u := s.issued { t.stepped with tact := (t.rd a).getLsbD 13, pmode := (t.rd a).getLsbD 12, sys := (t.rd a).getLsbD 0 }
    exec (.crsetSl a 0) s = .next u ∧ ∀ b, t.Clear [b] → (t.rd b).toNat % 4096 = 0 → exec (.crset a b) s = .next u)

/-- `TRAP`, `SVC` and `BREAK` enter the handler: the cause, the value and the address are saved, the mode becomes sys, and the next bundle stands at
the tile's trap vector. `TRAP` with code 0 or 15 is cause 15. A trap met while a handler is active stops the thread at its bundle; one met in a
speculative window rolls the window back, cause 5. `RFT` in sys mode restores the mode and the address and leaves the handler. -/
def Obligations.TrapInstructions : Prop :=
  (∀ (s : State) (t : Thread) (a b : Reg), s.Issues t → t.Clear [a, b] → t.spec = none → t.tact = false →
    let n := (t.rd a).toNat % 16
    let entered (cause : Nat) (v : W64) := s.issued { t with
      issOwn := t.issOwn + 1, tcause := BitVec.ofNat 4 cause, tval := v, tpc := BitVec.ofNat 48 t.pc, pmode := t.sys, sys := true,
      tact := true, pc := s.ctile.tvec, feTried := false }
    exec (.trap a b) s = .next (entered (if n = 0 then 15 else n) (t.rd b)) ∧
    exec (.svc a) s = .next (entered 12 (t.rd a)) ∧
    exec (.brk a) s = .next (entered 11 (t.rd a))) ∧
  (∀ (s : State) (t : Thread) (a : Reg), s.Issues t → t.Clear [a] →
    (t.speculative = true → exec (.svc a) s = .next (s.issued ({ t with issOwn := t.issOwn + 1 }.rollback 5))) ∧
    (t.speculative = false → t.tact = true →
      ∃ u t', exec (.svc a) s = .next u ∧ u.thr s.tx s.sx = some t' ∧ t'.susp = true ∧ t'.pin = true ∧ t'.pc = t.pc ∧ t'.sys = t.sys ∧
        t'.tcause = t.tcause ∧ t'.tpc = t.tpc ∧ t'.g = t.g)) ∧
  (∀ (s : State) (t : Thread), s.Issues t → t.sys = true → t.spec = none →
    exec .rft s = .next (s.issued { t.stepped with sys := t.pmode, tact := false, pc := t.tpc.toNat }))

/-- `TLBINV`, `ASID`, `WDOG` and `HALT` in sys mode, `PERF` and `NOTIFY` in any mode, where they act. `TLBINV` drops exactly the translations that its
control word selects: all of the tenant's ASIDs, all of one, or those of one page. A privileged operation in app mode takes PRIV with its bundle,
whatever its operands, and has no effect; that `CRSET` of `cr.status` is one of them is read from the access codes (DEDUCED, log 35). -/
def Obligations.SystemOperations : Prop :=
  (∀ (s : State) (t : Thread) (d a b : Reg), s.Issues t → t.Clear [a, b, d] → t.spec = none → t.wait = .none →
    let rec0 := s.tenantRec (s.tenantOf s.tx)
    (t.sys = true → recHasAsid rec0 ((t.rd a).toNat % 8192) = true →
      ∃ u, exec (.asid a) s = .next u ∧ u.thr s.tx s.sx = some t.stepped ∧ u.ctile.asid = (t.rd a).toNat % 8192 ∧
        { u.ctile with asid := s.ctile.asid, slots := s.ctile.slots } = s.ctile ∧ { u with tiles := s.tiles } = s) ∧
    (recHasAsid rec0 ((t.rd a).toNat % 8192) = false → t.sys = true → exec (.asid a) s = .next (s.trapped ⟨6, 4, wrapN ((t.rd a).toNat % 8192)⟩)) ∧
    (t.sys = true → ∃ u, exec (.wdog a) s = .next u ∧ u.slot s.tx s.sx = { s.slot s.tx s.sx with
      thr := some t.stepped, wdogLimit := (t.rd a).truncate 32, wdogCount := 0 }) ∧
    (t.sys = true → ∃ u t', exec (.halt a) s = .next u ∧ u.thr s.tx s.sx = some t' ∧ t'.susp = true ∧ t'.pin = true ∧ t'.g = t.g ∧
      t'.pc = (t.pc + 8) % 2 ^ 64) ∧
    ((t.rd a).toNat % 256 ≤ 7 → ∃ v, exec (.perf d a) s = .next (s.issued (t.stepped.wr d v)) ∧
      ((t.rd a).toNat % 256 = 0 → v = t.issOwn + 1) ∧ ((t.rd a).toNat % 256 = 1 → v = t.issLent) ∧ ((t.rd a).toNat % 256 = 2 → v = t.parked) ∧
      ((t.rd a).toNat % 256 = 3 → v = s.ctile.perfIdle) ∧ ((t.rd a).toNat % 256 = 4 → v = t.passes) ∧
      ((t.rd a).toNat % 256 = 5 → v = s.ctile.perfMx) ∧ ((t.rd a).toNat % 256 = 6 → v = t.requests) ∧ ((t.rd a).toNat % 256 = 7 → v = t.stalls)) ∧
    ((t.rd a).toNat % 256 > 7 → exec (.perf d a) s = .next (s.trapped ⟨6, 4, wrapN ((t.rd a).toNat % 256)⟩)) ∧
    ((t.rd a).toNat % 4096 < recVcount rec0 → s.fenced s.tx t.cid = false → s.ctile.slotOf t.cid = some s.sx →
      exec (.notify a) s = .next (s.issued { t.stepped with wait := .notify ((t.rd a).toNat % 4096), outSince := s.cycleOf s.tx }).progress) ∧
    ((t.rd a).toNat % 4096 < recVcount rec0 → s.fenced s.tx t.cid = true → s.ctile.slotOf t.cid = some s.sx →
      ∃ u t', exec (.notify a) s = .next u ∧ u.thr s.tx s.sx = some t' ∧ t'.wait = .none ∧ t'.g = t.g ∧
        u.ports = (s.raiseVector (s.tenantOf s.tx) ((t.rd a).toNat % 4096)).ports) ∧
    ((t.rd a).toNat % 4096 ≥ recVcount rec0 → exec (.notify a) s = .next (s.trapped ⟨6, 4, wrapN ((t.rd a).toNat % 4096)⟩)) ∧
    (t.sys = true → ((t.rd b).getLsbD 15 = true ∨ recHasAsid rec0 ((t.rd b).toNat % 8192) = true) →
      ∃ u t', exec (.tlbinv d a b) s = .next u ∧ u.thr s.tx s.sx = some t' ∧ t' = t.stepped.counted d s.nextId ∧
        (∃ op ∈ u.ctile.ops, op.id = s.nextId ∧ op.kind = .tlbinv ∧ op.stage = .sent) ∧
        let size := if (t.rd b).getLsbD 14 then 2 ^ 21 else 2 ^ 16
        let page := (t.rd a).toNat % 2 ^ 48 / size * size
        let dropped (e : Leaf) : Prop := recHasAsid rec0 e.1 = true ∧ ((t.rd b).getLsbD 15 = true ∨
          (e.1 = (t.rd b).toNat % 8192 ∧ ((t.rd b).getLsbD 13 = true ∨ (page < e.2.1 + e.2.2.1 ∧ e.2.1 < page + size))))
        ∀ e, e ∈ u.tlb ↔ e ∈ s.tlb ∧ ¬ dropped e)) ∧
  (∀ (s : State) (t : Thread) (d a b : Reg) (i : Instr), s.Issues t → t.sys = false →
  i = .rft ∨ i = .tlbinv d a b ∨ i = .asid a ∨ i = .wdog a ∨ i = .halt a ∨ i = .split d a ∨
    (∃ n, i = .crsetSl a n ∧ n.toNat ∈ [0x000, 0x050, 0x051, 0x052, 0x053, 0x061]) ∨
    (i = .crset a b ∧ (t.rd b).toNat % 4096 ∈ [0x000, 0x050, 0x051, 0x052, 0x053, 0x061]) →
    exec i s = .next (s.trapped ⟨3, 6, encodeWord i⟩))

/-- A bundle that is no instruction takes ILLOP with its bits; `NOP` has no effect but the issue. A false guard retires the S operation: the bundle
issues with the V half alone, whatever operation it holds, and does what that V operation does by itself; the registers of the S operation are not
checked; only the ILLOP of `MRDV` in a control thread does not ask for the guard (DEDUCED, log 29). A register that is pending and named by an integer,
predicate, branch, load or store instruction raises HAZARD with its number; the instruction has no effect. -/
def Obligations.IssueOfABundle : Prop :=
  (∀ (s : State) (t : Thread), s.Issues t →
    (∀ w, exec (.illegalEncoding w) s = .next (s.trapped ⟨2, 1, w⟩)) ∧ exec .nop s = .next (s.issued t.stepped)) ∧
  (∀ (s : State) (t : Thread) (w : W64) (b : Bundle), s.Issues t → decode w = .ok b → guardHolds t b = false →
    (b.v = VOp.vnop → (t.compute = true ∨ ∀ a, b.s ≠ .mrdv a) → s.issueWord false w = s.issued { t.stepped with mark := b.wait }) ∧
    (t.compute = false → ∀ a, b.s = .mrdv a → s.issueWord false w = s.trapped ⟨2, 1, w⟩) ∧
    (∀ i : Instr, i.vop = some b.v → i.wf = true → t.compute = true → t.spec = none → t.Clear (vGSrcs b.v ++ (vGDst b.v).toList) → vChecks b.v s = [] →
      ∃ u, exec i s = .next u ∧ s.issueWord false w = u.modCur fun t => { t with mark := b.wait })) ∧
  (∀ (i : Instr) (rs : List Reg),
  (∃ k d a b, Binary.of i = some (k, d, a, b) ∧ rs = a :: d :: operandRegs b) ∨ (∃ l d f, registerRule i = some (l, d, f) ∧ rs = d :: l) ∨
  (∃ p q a b z f, compareRule i = some (p, q, a, b, z, f) ∧ rs = a :: operandRegs b) ∨
  (∃ m d e w, loadRule i = some (m, d, e, w) ∧ rs = d :: m.regs) ∨ (∃ m d, storeRule i = some (m, d) ∧ rs = d :: m.regs) →
  ∀ (s : State) (t : Thread) (r : Reg), s.Issues t → r ∈ rs → t.pending r = true → (∀ q ∈ rs, t.pending q = true → q = r) →
    exec i s = .next (s.trapped ⟨4, 2, r.zeroExtend 64⟩))

/-- `CRGET` writes the register's value; a register of a die answers four cycles later. A number that is not assigned is ILLOP in the bundle and
BOUNDS in a register. `CRSET` outside a speculative window: what the register then reads, by its access code; a read-only register stays, one private
to the thread changes nothing beside the thread. -/
def Obligations.ControlRegisters : Prop :=
  (∀ (s : State) (t : Thread) (d b : Reg) (num : BitVec 12), s.Issues t → t.Clear [b, d] →
    (∀ i n, (i = .crgetSl d num ∧ n = num.toNat) ∨ (i = .crget d b ∧ n = (t.rd b).toNat % 4096) →
      ((crAccess n).isSome = true → n ≠ 0x080 → n ≠ 0x090 →
        exec i s = .next (s.issued (t.stepped.wr d (s.crGet s.tx s.sx t n)))) ∧
      (n = 0x080 ∨ n = 0x090 → ∃ op, op.kind = .crget ∧ op.id = s.nextId ∧ op.cid = t.cid ∧ op.rd = d ∧
        op.stage = .ended 0 (s.crGet s.tx s.sx t n) ∧ op.prog = s.cycleOf s.tx + 4 ∧
        exec i s = .next (s.requested (t.stepped.counted d s.nextId) op))) ∧
    (crAccess num.toNat = none → exec (.crgetSl d num) s = .next (s.trapped ⟨2, 1, encodeWord (.crgetSl d num)⟩)) ∧
    ((crAccess ((t.rd b).toNat % 4096)) = none → exec (.crget d b) s = .next (s.trapped ⟨6, 4, wrapN ((t.rd b).toNat % 4096)⟩))) ∧
  (∀ (s : State) (t : Thread) (a b : Reg) (num : BitVec 12) (i : Instr) (n : Nat), s.Issues t → t.Clear [a, b] → t.spec = none →
  (i = .crsetSl a num ∧ n = num.toNat) ∨ (i = .crset a b ∧ n = (t.rd b).toNat % 4096) →
    let v := t.rd a
    ((crAccess n) = some .ro → exec i s = .next (s.issued t.stepped)) ∧
    (∀ m, (n, m) ∈ [(0x001, 0x3#64), (0x002, 0x1F), (0x020, 0x1F), (0x021, 0x1F), (0x022, 0x1FFFFF), (0x023, 0x1FFFFF), (0x024, 0x3),
        (0x030, 0x1FFFFFFFFFF), (0x041, 0xFFFFFFFFFFFFFFFF)] →
      ∃ t', exec i s = .next (s.issued t') ∧ s.crGet s.tx s.sx t' n = v &&& m ∧ t'.pc = t.stepped.pc ∧ t'.g = t.g ∧ t'.p = t.p) ∧
    (t.sys = true → ∀ m, (n, m) ∈ [(0x051, 0xF#64), (0x052, 0xFFFFFFFFFFFF), (0x053, 0xFFFFFFFFFFFFFFFF)] →
      ∃ t', exec i s = .next (s.issued t') ∧ s.crGet s.tx s.sx t' n = v &&& m ∧ t'.pc = t.stepped.pc ∧ t'.g = t.g ∧ t'.p = t.p) ∧
    (n = 0x003 → exec i s = .next (s.issued { t.stepped with warn := t.warn &&& ~~~(v.truncate 9) })) ∧
    (n = 0x004 → exec i s = .next (s.issued { t.stepped with feLimit := v.toNat % 65536 })) ∧
    (n = 0x010 → t.compute = true → exec i s = .next (s.issued (if v.toNat ≤ 4096 then { t.stepped with vl := v.toNat }
      else { t.stepped with vl := 4096, warn := t.warn ||| 0x100 }))) ∧
    (n = 0x000 → t.sys = true → exec i s = .next (s.issued { t.stepped with
      tact := v.getLsbD 13, pmode := v.getLsbD 12, sys := v.getLsbD 0 })) ∧
    (n = 0x050 → t.sys = true → ∃ u, exec i s = .next u ∧ u.ctile.tvec = v.toNat / 8 % 2 ^ 45 * 8 ∧ u.thr s.tx s.sx = some t.stepped ∧
      { u.ctile with tvec := s.ctile.tvec, slots := s.ctile.slots } = s.ctile) ∧
    (n = 0x060 → ∃ u, exec i s = .next u ∧ (u.slot s.tx s.sx).lend = v.truncate 3 ∧ u.thr s.tx s.sx = some t.stepped) ∧
    (n = 0x061 → t.sys = true → ∃ u, exec i s = .next u ∧ (u.slot s.tx s.sx).wdogLimit = v.truncate 32 ∧ u.thr s.tx s.sx = some t.stepped))

/-! Operations of the tile's interfaces at issue (07_matrix.md, 09_tuple_instr.md, 10_spanning.md). -/

/-- A tuple or copy operation that passes its checks, outside a speculative window, enters the interface's records with its sampled descriptor; it is
counted and its destination is pending; the blocking forms park their thread; nothing else changes. A tuple or copy operation whose descriptor stands
at an address that is not a multiple of 64 takes ALIGN and enters nothing; one that meets only the lack of its grant takes GRANTSYNC with the token. A
sys-mode `PUT.G` of a grant that the table lacks mints the first grant of an owned region whose entry is not yet issued, and marks the entry issued.
In a speculative window a put into `g0` without completion word outside the area is deferred: it takes two places of the store buffer, and nothing
else happens. -/
def Obligations.DescriptorIssue : Prop :=
  (∀ (i : Instr) (k : TKind) (d a : Reg) (b : Option Reg), descriptorRule i = some (k, d, a, b) →
  ∀ (s : State) (t : Thread), s.Issues t → t.Clear (d :: a :: b.toList) → t.spec = none → s.ctile.soft = [] → descChecks k a b s = [] →
  let at_ := (t.rd a).toNat % 2 ^ 20
  let f := s.descField t at_
  (k = .putG → s.ctile.hasGrant (s.seenN t (at_ + 8 * 14) 8) = true) →
    ∃ op, op.id = s.nextId ∧ op.kind = k ∧ op.cid = t.cid ∧ op.asid = s.ctile.asid ∧ op.rd = d ∧ op.stage = .queued ∧ op.dAddr = at_ ∧
      op.arg = (match b with
        | some r => t.rd r
        | none => 0) ∧
      op.desc.key.toNat = f 0 0 64 + f 1 0 64 * 2 ^ 64 + f 2 0 64 * 2 ^ 128 + f 3 0 64 * 2 ^ 192 ∧
      op.desc.care.toNat = f 4 0 64 + f 5 0 64 * 2 ^ 64 + f 6 0 64 * 2 ^ 128 + f 7 0 64 * 2 ^ 192 ∧
      op.desc.addr = f 8 0 48 ∧ op.desc.flags.toNat = f 9 40 5 ∧ op.desc.fmt = f 9 32 5 ∧ op.desc.plen = f 9 0 32 ∧
      op.desc.ctag = f 12 16 48 ∧ op.desc.deadline = f 13 40 24 ∧ op.desc.cpkt = f 13 20 20 ∧ op.desc.cw = f 13 0 20 ∧
      op.desc.token.toNat = f 14 0 64 ∧
      let t' := { t.stepped.counted d s.nextId with requests := t.requests + 1 }
      let u := s.requested (if k = .readB ∨ k = .takeB then { t' with wait := .tuple s.nextId, outSince := s.cycleOf s.tx } else t') op
      let u := if k = .putG then u.setTile s.tx { u.ctile with grants := u.ctile.grants.map fun g => if g.1 = op.desc.token then (g.1, false) else g }
        else u
      exec i s = .next (if k = .readB ∨ k = .takeB then u.progress else u)) ∧
  (∀ (s : State) (t : Thread) (d a : Reg), s.Issues t → t.Clear [d, a] → t.spec = none → s.ctile.soft = [] → s.dram.wf →
    let tok := s.descField t ((t.rd a).toNat % 2 ^ 20) 14 0 64
    let tn := s.tenantOf s.tx
    let mints (p : Nat) (w1 : W64) : Prop := t.sys = true ∧ tok / 2 ^ 22 % 4 = 0 ∧ tok / 2 ^ 48 = s.pkg.toNat ∧ tok / 2 ^ 40 % 256 = tn ∧
      (∃ w0, s.regionWords tn (tok / 2 ^ 24 % 2 ^ 16) = some (p, w0, w1)) ∧
      w1.toNat / 2 ^ 32 % 4 = 1 ∧ w1.toNat / 2 ^ 34 % 2 = 0 ∧ w1.toNat / 2 ^ 42 = tok % 2 ^ 22
    s.ctile.hasGrant (wrapN tok) = false →
    (⟨8, 14, wrapN tok⟩ ∈ descChecks .putG a none s ↔ ¬ ∃ p w1, mints p w1) ∧
    (∀ p w1, mints p w1 → descChecks .putG a none s = [] →
      ∃ u, exec (.putG d a) s = .next u ∧ u.thr s.tx s.sx = some { t.stepped.counted d s.nextId with requests := t.requests + 1 } ∧
        u.dramWord (p + 8) = w1.toNat + 2 ^ 34 ∧ (∀ x, x < p + 8 ∨ p + 16 ≤ x → u.dram.read x = s.dram.read x) ∧
        u.ctile.grants = s.ctile.grants ∧ ∃ op ∈ u.ctile.ops, op.id = s.nextId ∧ op.kind = .putG ∧ op.stage = .queued ∧ op.desc.token = wrapN tok)) ∧
  (∀ (i : Instr) (k : TKind) (d a : Reg) (b : Option Reg), descriptorRule i = some (k, d, a, b) →
  ∀ (s : State) (t : Thread), s.Issues t → t.Clear (d :: a :: b.toList) →
    ((t.rd a).toNat % 64 ≠ 0 → exec i s = .next (s.trapped ⟨5, 3, wrapN ((t.rd a).toNat % 2 ^ 20)⟩)) ∧
    (∀ tok, descChecks k a b s = [⟨8, 14, tok⟩] → exec i s = .next (s.trapped ⟨8, 14, tok⟩))) ∧
  (∀ (i : Instr) (k : TKind) (a : Reg), descriptorRule i = some (k, 0, a, none) → k ∈ [.put, .putI, .putR, .putG] →
  ∀ (s : State) (t : Thread) (sp : Spec), s.Issues t → t.Clear [0, a] → t.spec = some sp → sp.st = .active → s.ctile.soft = [] →
  descChecks k a none s = [] → sp.used + 2 ≤ 64 → s.descField t ((t.rd a).toNat % 2 ^ 20) 9 43 1 = 1 →
    ∃ t' sp' op, exec i s = .next (s.issued t') ∧ t'.spec = some sp' ∧ sp'.puts = sp.puts ++ [op] ∧ op.kind = k ∧
      sp'.used = sp.used + 2 ∧ { sp' with puts := sp.puts, reads := sp.reads } = sp ∧ { t' with spec := t.spec } = t.stepped)

/-- `CTR.A`, `TCANCEL`, `FREEZE`, `SPLIT` and `TSTAT`, which have no tuple descriptor. A handle whose home field names no home takes BOUNDS with that
field (R14); where the count is wrong too, the handle is reported (DESIGN CHOICE, log 64). Reserved bits of the field must be zero for it to
name a home (DEDUCED, log 30). -/
def Obligations.HandleIssue : Prop :=
  ∀ (s : State) (t : Thread) (d a b : Reg), s.Issues t → t.Clear [a, b, d] → t.spec = none → s.ctile.soft = [] →
    let t' := { t.stepped.counted d s.nextId with requests := t.requests + 1 }
    let plain (k : TKind) (op : TOp) : Prop := op.id = s.nextId ∧ op.kind = k ∧ op.cid = t.cid ∧ op.asid = s.ctile.asid ∧ op.rd = d
    let home := (t.rd a).toNat / 2 ^ 32
    (homeNameOk home = true → 1 ≤ (t.rd b).toNat → (t.rd b).toNat < 2 ^ 32 → ∃ op, plain .ctrA op ∧ op.stage = .queued ∧ op.arg = t.rd a ∧
      op.prog = (t.rd b).toNat ∧ exec (.ctrA d a b) s = .next (s.requested t' op)) ∧
    (homeNameOk home = true → t.rd b = 0 ∨ 2 ^ 32 ≤ (t.rd b).toNat → exec (.ctrA d a b) s = .next (s.trapped ⟨6, 4, t.rd b⟩)) ∧
    (homeNameOk home = true → ∃ op, plain .tcancel op ∧ op.stage = .queued ∧ op.arg = t.rd a ∧ exec (.tcancel d a) s = .next (s.requested t' op)) ∧
    (homeNameOk home = false → exec (.ctrA d a b) s = .next (s.trapped ⟨6, 4, wrapN home⟩) ∧
      exec (.tcancel d a) s = .next (s.trapped ⟨6, 4, wrapN home⟩)) ∧
    (s.ctile.hasGrant (t.rd a) = true → ∃ op, plain .freeze op ∧ op.arg = t.rd a ∧
      let u := s.requested t' op
      exec (.freeze d a) s = .next (u.setTile s.tx { u.ctile with grants := u.ctile.grants.filter fun g => g.1 != t.rd a })) ∧
    (s.ctile.hasGrant (t.rd a) = false → exec (.freeze d a) s = .next (s.trapped ⟨8, 14, t.rd a⟩)) ∧
    (t.sys = true → splitChecks a s = [] → ∃ op, plain .split op ∧ op.stage = .queued ∧
      let u := s.requested t' op
      exec (.split d a) s = .next (u.setTile s.tx { u.ctile with
        splits := u.ctile.splits ++ [(s.nextId, s.descField t ((t.rd a).toNat % 2 ^ 20) 0 0 16)] })) ∧
    (∃ op v, plain .tstat op ∧ op.stage = .ended 0 v ∧ op.prog = s.cycleOf s.tx + 4 ∧
      v = tstatWord (s.ctile.opsOf t.cid) ((t.rd a).toNat % 2 ^ 20) ∧ exec (.tstat d a) s = .next (s.requested (t.stepped.counted d s.nextId) op))

/-- `FENCE` goes on when no selected operation runs, else parks on those that do; `YIELD` parks only while a packet of at least its priority cannot
bind; `SLEEP` consumes a set wake bit or parks; `WAKE` sets the bit of the thread in a slot. `TFENCE` goes on at once, with `cr.touched` cleared, if
no earlier operation of the thread is outstanding; else the thread parks. -/
def Obligations.WaitsAndWakes : Prop :=
  (∀ (s : State) (t : Thread) (d a : Reg), s.Issues t → t.Clear [a, d] → t.spec = none → t.wait = .none → t.susp = false → t.spillBan = false →
  s.ctile.slotOf t.cid = some s.sx →
    let now := s.cycleOf s.tx
    let ids := s.ctile.fenceOps t.cid ((t.rd a).toNat % 16)
    (ids = [] → ∃ u, exec (.fence a) s = .next u ∧ u.thr s.tx s.sx = some { t.stepped with outSince := now } ∧ u.ctile.sp = s.ctile.sp) ∧
    (ids.any s.ctile.live = true → exec (.fence a) s = .next (s.issued { t.stepped with wait := .fence ids, outSince := now }).progress) ∧
    (s.ctile.starving t.prio.toNat = none → exec .yield s = .next (s.issued t.stepped).progress) ∧
    (∀ r, s.ctile.starving t.prio.toNat = some r →
      exec .yield s = .next (s.issued { t.stepped with wait := .yielded r.seq, outSince := now }).progress) ∧
    (t.wake = true → ∃ op, op.kind = .sleep ∧ op.id = s.nextId ∧ op.rd = d ∧ op.stage = .ended 0 1 ∧ op.prog = now + 1 ∧
      exec (.sleep d a) s = .next (s.requested { t.stepped.counted d s.nextId with wake := false } op)) ∧
    (t.wake = false → ∃ op, op.kind = .sleep ∧ op.id = s.nextId ∧ op.cid = t.cid ∧ op.rd = d ∧
      exec (.sleep d a) s = .next (s.requested { t.stepped.counted d s.nextId with
        wait := .sleep s.nextId (if t.rd a = 0 then none else some (now + (t.rd a).toNat)), outSince := now } op).progress) ∧
    (∀ q, q = (t.rd a).toNat % 8 →
      (s.thr s.tx q = none → exec (.wake a) s = .next (s.issued t.stepped)) ∧
      (∀ th, q ≠ s.sx → s.thr s.tx q = some th → s.ctile.slotOf th.cid = some q → th.cid ≠ t.cid → (∀ op due, th.wait ≠ .sleep op due) →
        ∃ u, exec (.wake a) s = .next u ∧ u.thr s.tx q = some { th with wake := true } ∧ u.thr s.tx s.sx = some t.stepped) ∧
      (∀ th op due o, q ≠ s.sx → s.thr s.tx q = some th → s.ctile.slotOf th.cid = some q → th.cid ≠ t.cid → th.wait = .sleep op due →
        th.susp = false → s.ctile.ops.find? (fun o => o.id == op) = some o → o.cid = th.cid → o.gdDone = false → (o.rd, op) ∈ th.pend → o.id = op →
        ∃ u th', exec (.wake a) s = .next u ∧ u.thr s.tx q = some th' ∧ th'.wait = .none ∧ th'.wake = false ∧
          (o.rd ≠ 0 → th'.rd o.rd = 1) ∧ th'.pending o.rd = ((th.pend.filter (· != (o.rd, op))).any fun e => e.1 == o.rd)))) ∧
  (∀ (s : State) (t : Thread), s.Issues t → t.spec = none → t.wait = .none → t.susp = false → t.spillBan = false → s.ctile.slotOf t.cid = some s.sx →
    (s.fenced s.tx t.cid = false →
      exec .tfence s = .next (s.issued { t.stepped with wait := .tfence, outSince := s.cycleOf s.tx }).progress) ∧
    (s.fenced s.tx t.cid = true → ∃ u, exec .tfence s = .next u ∧
      u.thr s.tx s.sx = some { t.stepped with touched := 0, outSince := s.cycleOf s.tx } ∧ u.ctile.sp = s.ctile.sp ∧ u.ctile.ops = s.ctile.ops ∧
      u.dram = s.dram ∧ u.net = s.net))

/-- Matrix instructions enter the sequencer's queue with the control registers captured at issue; `MSTAT` claims its banks at once. -/
def Obligations.MatrixIssue : Prop :=
  ∀ (s : State) (t : Thread) (d a b : Reg), s.Issues t → t.Clear [a, b, d] → t.spec = none →
    let entered (o : MxOp) (t' : Thread) (l : Tile → Tile) : State :=
      { (s.issued t').setTile s.tx (l { (s.issued t').ctile with mxq := s.ctile.mxq ++ [o] }) with nextId := s.nextId + 1 }
    (∀ i k, matrixRule i = some (k, d, a) → ∃ o : MxOp, o.captured k t ∧ o.id = s.nextId ∧ o.rd = d ∧ o.ra = t.rd a ∧
      exec i s = .next (entered o (t.stepped.counted d s.nextId) id)) ∧
    (∀ i k, matrixDescRule i = some (k, a) → k ≠ .mrdv → s.ctile.span ((t.rd a).toNat % 2 ^ 20) 64 64 false = [] →
      ∃ o : MxOp, o.captured k t ∧ o.id = s.nextId ∧ o.ra = t.rd a ∧
        exec i s = .next (entered o { t.stepped with outs := t.outs ++ [s.nextId] } id)) ∧
    (t.compute = true → t.win < 4 → s.ctile.span ((t.rd a).toNat % 2 ^ 20) 64 64 false = [] →
      ∃ (u : State) (o : MxOp) (e : VEntry), exec (.mrdv a) s = .next u ∧ u.ctile.mxq = s.ctile.mxq ++ [o] ∧ o.captured .mrdv t ∧
        (u.ctile.win t.win).queue = (s.ctile.win t.win).queue ++ [e] ∧ e.mx = some o.id ∧ e.cid = t.cid ∧
        u.thr s.tx s.sx = some { t.stepped with outs := t.outs ++ [s.nextId] } ∧ u.ctile.sp = s.ctile.sp) ∧
    (t.compute = false → exec (.mrdv a) s = .next (s.trapped ⟨2, 1, encodeWord (.mrdv a)⟩)) ∧
    (mstatChecks a b s = [] → ∃ (o : MxOp) (r : Region), o.captured .mstat t ∧ o.id = s.nextId ∧ o.ra = t.rd a ∧ o.rb = t.rd b ∧
      r.st = .claimed ∧ r.b0 = (t.rd a).toNat / 2 ^ 4 % 2 ^ 7 ∧ r.kb = (t.rd a).toNat / 2 ^ 11 % 2 ^ 4 + 1 ∧
      r.nb = (t.rd a).toNat / 2 ^ 15 % 2 ^ 5 + 1 ∧ r.wfmt = t.fmtW.toNat ∧ r.sparse = t.sparse.toNat ∧
      exec (.mstat d a b) s = .next (entered o (t.stepped.counted d s.nextId) fun l => l.setRegion ((t.rd a).toNat % 8) r))

/-! Synchronisation and tasks (11_sync.md, 12_tasks.md). -/

/-- `BARS`: a handle that the tile does not know takes a free entry and asks the home, or answers NOSPACE; one that it knows registers at once, and
counts as arrived if the tile's arrival has been sent. `BARR` and `BARW` of a registered thread with nothing outstanding arrive: `BARW` awaits the
release, `BARR` takes the checkpoint and goes on speculatively. With operations outstanding the thread parks; an unregistered one takes BOUNDS with
the handle. -/
def Obligations.BarrierInstructions : Prop :=
  (∀ (s : State) (t : Thread) (d a : Reg), s.Issues t → t.Clear [a, d] → t.spec = none → s.ctile.slotOf t.cid = some s.sx →
    let h := t.rd a
    let home := h.toNat / 2 ^ 32 % 2 ^ 32
    (s.ctile.barOf h = none → s.ctile.freeBar = none → ∃ op, op.kind = .bars ∧ op.id = s.nextId ∧ op.rd = d ∧ op.stage = .ended 0 7 ∧
      op.prog = s.cycleOf s.tx + 1 ∧ exec (.bars d a) s = .next (s.requested (t.stepped.counted d s.nextId) op)) ∧
    (∀ e, s.ctile.barOf h = none → s.ctile.freeBar = some e → homeNameOk home = true → s.isLocal home = true →
      ∃ u m op, exec (.bars d a) s = .next u ∧ u.net = s.net ++ [m] ∧ m.src = .tile s.tx ∧ m.dst = .home (home % 32) ∧
        m.body = .barReg op.id h h ∧ op ∈ u.ctile.ops ∧ op.kind = .bars ∧ op.cid = t.cid ∧ op.rd = d ∧
        u.ctile.bar e = { used := true, handle := h, pending := [(op.id, t.cid, 0)] } ∧ u.thr s.tx s.sx = some (t.stepped.counted d op.id)) ∧
    (∀ e, s.ctile.barOf h = some e → (s.ctile.bar e).pending = [] →
      ∃ u op, exec (.bars d a) s = .next u ∧ (u.ctile.bar e).reg.getLsbD s.sx = true ∧
        ((s.ctile.bar e).sent = true → (s.ctile.bar e).reg.getLsbD s.sx = false → (u.ctile.bar e).arr.getLsbD s.sx = true) ∧
        op ∈ u.ctile.ops ∧ op.kind = .bars ∧ op.stage = .ended 0 0 ∧ op.prog = s.cycleOf s.tx + 1 ∧
        u.thr s.tx s.sx = some (t.stepped.counted d op.id))) ∧
  (∀ (s : State) (t : Thread) (a : Reg) (opens : Bool), s.Issues t → t.Clear [a] → t.spec = none → t.wait = .none → t.susp = false →
  s.ctile.slotOf t.cid = some s.sx →
    let i : Instr := if opens then .barr a else .barw a
    (s.ctile.barOf (t.rd a) = none → exec i s = .next (s.trapped ⟨6, 4, t.rd a⟩)) ∧
    (∀ e, s.ctile.barOf (t.rd a) = some e → (s.ctile.bar e).reg.getLsbD s.sx = false → exec i s = .next (s.trapped ⟨6, 4, t.rd a⟩)) ∧
    (∀ e, s.ctile.barOf (t.rd a) = some e → (s.ctile.bar e).reg.getLsbD s.sx = true →
      (t.outs ≠ [] ∨ s.fenced s.tx t.cid = false →
        exec i s = .next (s.issued { t.stepped with wait := .arrive e opens, outSince := s.cycleOf s.tx }).progress) ∧
      (t.outs = [] → s.fenced s.tx t.cid = true → t.win < 4 →
        (opens = true → s.ctile.spilling ≠ some t.cid) →
        (opens = true → t.compute = true → (s.ctile.win t.win).queue = [] ∧ (s.ctile.win t.win).busy = none) →
        ∃ u t', exec i s = .next u ∧ u.thr s.tx s.sx = some t' ∧ (u.ctile.bar e).arr.getLsbD s.sx = true ∧ u.ctile.sp = s.ctile.sp ∧
          t'.touched = 0 ∧ t'.g = t.g ∧ t'.p = t.p ∧ t'.pc = t.stepped.pc ∧
          (opens = false → t'.wait = .release e ∧ t'.spec = none) ∧
          (opens = true → t'.wait = .none ∧ t'.specEntry = BitVec.ofNat 4 e ∧ ∃ sp, t'.spec = some sp ∧ sp.st = .active ∧ sp.entry = e ∧
            sp.resume = t.stepped.pc ∧ sp.g = t.g ∧ sp.p = t.p ∧ sp.round = t.round ∧ sp.vl = t.vl ∧ sp.area = t.specarea.zeroExtend 64 ∧
            sp.fld = t.specfld ∧ sp.buf = [] ∧ sp.reads = [] ∧ sp.puts = []))))

/-- In an active speculative window these instructions do not issue: the thread parks at the bundle, in the ended state. `SPEND` outside a window has
no effect. `SPST` writes the speculation word of R362. -/
def Obligations.SpeculationEnds : Prop :=
  (∀ (s : State) (t : Thread) (d a b : Reg) (x : BitVec 9) (w n : Bool), s.Issues t →
    (t.spec = none → exec .spend s = .next (s.issued t.stepped)) ∧
    (∀ (sp : Spec) (i : Instr), t.spec = some sp → sp.st = .active →
      (i ∈ [.spend, .exit, .tfence] →
        exec i s = .next (s.modCur fun _ => { t with spec := some { sp with st := .ended }, wait := .spec, outSince := s.cycleOf s.tx })) ∧
      (i ∈ [.prio a, .lend a, .wake a, .bars d a, .sleep d a, .resume d a, .free d a, .susp d a b, .timer a b, .tcancel d a, .dlook d a] →
        t.Clear [d, a, b] → s.ctile.badDir = [] → (i = .tcancel d a → homeNameOk ((t.rd a).toNat / 2 ^ 32) = true) →
        exec i s = .next (s.modCur fun _ => { t with spec := some { sp with st := .ended }, wait := .spec, outSince := s.cycleOf s.tx })) ∧
      (i ∈ [.lde d a x, .stf d a x, .ste d a x] → t.Clear [d, a] → accessTrap s.ctile (ruleDisp (t.rd a) x 8) 8 true = none →
        exec i s = .next (s.modCur fun _ => { t with spec := some { sp with st := .ended }, wait := .spec, outSince := s.cycleOf s.tx })) ∧
      (i ∈ [.amoadd w n d a b, .amoswap w n d a b, .amocas w n d a b] → t.Clear [d, a, b] →
        accessTrap s.ctile (t.rd a).toNat (if w then 8 else 4) true = none →
        exec i s = .next (s.modCur fun _ => { t with spec := some { sp with st := .ended }, wait := .spec, outSince := s.cycleOf s.tx })))) ∧
  (∀ (s : State) (t : Thread) (d : Reg), s.Issues t → t.Clear [d] → t.rbk < 256 → t.cmt < 256 →
    (∀ sp, t.spec = some sp → sp.used ≤ 64) →
    ∃ v, exec (.spst d) s = .next (s.issued (t.stepped.wr d v)) ∧
      v.toNat / 2 ^ 40 = 0 ∧ v.toNat / 2 ^ 32 % 256 = t.rbk ∧ v.toNat / 2 ^ 24 % 256 = t.cmt ∧ v.toNat / 2 ^ 20 % 16 = t.specCause.toNat ∧
      v.toNat / 2 ^ 16 % 16 = t.specEntry.toNat ∧ v.toNat / 2 ^ 15 % 2 = 0 ∧ v.toNat / 2 ^ 3 % 32 = 0 ∧
      v.toNat / 2 ^ 8 % 128 = (match t.spec with
        | some sp => sp.used
        | none => 0) ∧
      (t.spec = none → v.toNat % 8 = 0) ∧ (∀ sp, t.spec = some sp → sp.st = .active → v.toNat % 8 = 1))

/-- `SPAWN` binds the packet to the slot that it names if the slot and, for a compute packet, a window are free; otherwise MISS. `SEND` enters the
request queue with its packet; `PRIO`, `LEND` and `TIMER` set what they name. `EXIT` frees the slot once no put, take or write-out of the thread is
outstanding: its registrations are cleared, its window is released and the slot's lending stays. Until then the thread is parked. That its
issue counts and that parking at it is no progress point is read from R378 and R384 (DEDUCED, log 17). -/
def Obligations.ThreadControl : Prop :=
  (∀ (s : State) (t : Thread) (d a b : Reg), s.Issues t → t.Clear [a, b, d] → t.spec = none → s.ctile.soft = [] → packetChecks a s = [] →
    let at_ := (t.rd a).toNat % 2 ^ 20
    let word (j : Nat) := s.seenN t (at_ + 8 * j) 8
    let field (lo n : Nat) := word 0 / 2 ^ lo % 2 ^ n
    let q := (t.rd b).toNat % 8
    let fits : Prop := s.thr s.tx q = none ∧ (field 14 1 = 1 → s.ctile.freeWin.isSome = true)
    (¬ fits → exec (.spawn d a b) s = .next (s.issued (t.stepped.wr d 1))) ∧
    (fits → ∃ u th, exec (.spawn d a b) s = .next u ∧ u.thr s.tx s.sx = some (t.stepped.wr d 0) ∧ u.thr s.tx q = some th ∧
      th.pc = field 16 48 ∧ th.sys = false ∧ th.prio.toNat = field 6 2 ∧ th.compute = decide (field 14 1 = 1) ∧ th.workid = 0 ∧ th.p = 0 ∧
      th.readyAt = s.cycleOf s.tx + 8 ∧ th.wait = .none ∧ th.pend = [] ∧ th.outs = [] ∧
      (∀ j, 1 ≤ j → j < 32 → th.rd (BitVec.ofNat 5 j) = if j + field 8 3 < field 0 6 then wrapN (word j) else 0) ∧
      th.succ = (List.range (field 8 3)).map (fun j => wrapN (word (field 0 6 - field 8 3 + j))) ∧
      (th.compute = true → ∃ w, s.ctile.freeWin = some w ∧ th.win = w ∧ (u.ctile.win w).owner = some th.cid ∧
        (u.ctile.win w).fds = Vector.replicate 32 {} ∧ th.vl = 4096) ∧
      u.ctile.sp = s.ctile.sp ∧ (∀ r, r ≠ q → r ≠ s.sx → u.slot s.tx r = s.slot s.tx r))) ∧
  (∀ (s : State) (t : Thread) (d a b : Reg), s.Issues t → t.Clear [a, b, d] → t.spec = none → s.ctile.soft = [] →
    (∀ x, packetChecks a s = [] → ((t.rd b).toNat % 2 ^ 32 = 0xFFFFFFFF ∧ x = s.tx) ∨
        ((t.rd b).toNat % 2 ^ 32 ≠ 0xFFFFFFFF ∧ s.tileOf ((t.rd b).toNat % 2 ^ 32) = some x) →
      ∃ op, op.kind = .send ∧ op.id = s.nextId ∧ op.cid = t.cid ∧ op.rd = d ∧ op.stage = .queued ∧ op.prog = x ∧
        op.packet = (List.range (s.seenN t ((t.rd a).toNat % 2 ^ 20) 8 % 64)).map (fun j => wrapN (s.seenN t ((t.rd a).toNat % 2 ^ 20 + 8 * j) 8)) ∧
        exec (.send d a b) s = .next (s.requested { t.stepped.counted d s.nextId with requests := t.requests + 1 } op)) ∧
    exec (.prio a) s = .next (s.issued { t.stepped with prio := BitVec.ofNat 2 (t.rd a).toNat }) ∧
    (∃ u, exec (.lend a) s = .next u ∧ u.thr s.tx s.sx = some t.stepped ∧ (u.slot s.tx s.sx).lend = BitVec.ofNat 3 (t.rd a).toNat ∧
      ∀ q, q ≠ s.sx → u.slot s.tx q = s.slot s.tx q) ∧
    (exec (.timer a b) s = .next ((s.issued t.stepped).setTile s.tx { (s.issued t.stepped).ctile with
      timecmp := t.rd a, timSlot := BitVec.ofNat 3 (t.rd b).toNat }))) ∧
  (∀ (s : State) (t : Thread), s.Issues t → t.spec = none → t.susp = false → s.ctile.slotOf t.cid = some s.sx →
    (s.fenced s.tx t.cid = false → exec .exit s = .next (s.issued { t.stepped with wait := .exit, outSince := s.cycleOf s.tx })) ∧
    (s.fenced s.tx t.cid = true → t.succ = [] → t.win < 4 →
      ∃ u, exec .exit s = .next u ∧ u.thr s.tx s.sx = none ∧ (u.slot s.tx s.sx).lend = (s.slot s.tx s.sx).lend ∧
        (∀ e, e < 16 → (u.ctile.bar e).reg.getLsbD s.sx = false ∧ (u.ctile.bar e).arr.getLsbD s.sx = false) ∧
        (t.compute = true → (u.ctile.win t.win).owner = none) ∧ (∀ q, q ≠ s.sx → u.slot s.tx q = s.slot s.tx q) ∧
        u.ctile.sp = s.ctile.sp ∧ u.ctile.full = s.ctile.full ∧ u.ctile.ops = s.ctile.ops))

/-- `SUSP`, `RESUME` and `FREE` of a resident thread that is in no speculative window. `RDCTX` and `WRCTX` of a Suspended thread in another slot; a
target that is neither suspended nor the issuer's own, and a selector that names nothing, take BOUNDS with the selector. -/
def Obligations.Suspension : Prop :=
  (∀ (s : State) (t : Thread) (d a b : Reg), s.Issues t → t.Clear [a, b, d] → t.spec = none →
    let q := (t.rd a).toNat % 8
    let cid := (t.rd a).toNat % 2 ^ 16
    (s.thr s.tx q = none → exec (.susp d a b) s = .next (s.issued (t.stepped.wr d 0xFFFFFFFFFFFFFFFF))) ∧
    (∀ th, q ≠ s.sx → s.thr s.tx q = some th → th.spec = none → th.susp = false →
      ∃ u, exec (.susp d a b) s = .next u ∧ u.thr s.tx s.sx = some (t.stepped.wr d (wrapN th.cid)) ∧
        u.thr s.tx q = some { th with susp := true, pin := decide ((t.rd b).toNat % 2 = 1), outSince := s.cycleOf s.tx } ∧
        u.ctile.sp = s.ctile.sp) ∧
    (q = s.sx → t.susp = false → exec (.susp d a b) s = .next (s.issued { t.stepped.wr d (wrapN t.cid) with
      susp := true, pin := decide ((t.rd b).toNat % 2 = 1), outSince := s.cycleOf s.tx })) ∧
    (s.ctile.suspended cid = false → exec (.resume d a) s = .next (s.issued (t.stepped.wr d 1)) ∧
      exec (.free d a) s = .next (s.issued (t.stepped.wr d 1))) ∧
    (∀ r th, s.ctile.slotOf cid = some r → s.thr s.tx r = some th → th.susp = true → r ≠ s.sx → t.cid ≠ cid →
      (∃ u, exec (.resume d a) s = .next u ∧ u.thr s.tx s.sx = some (t.stepped.wr d 0) ∧ u.ctile.sp = s.ctile.sp ∧
        u.thr s.tx r = some { th with susp := false, pin := false, evt := false, spillBan := false }) ∧
      (∃ u, exec (.free d a) s = .next u ∧ u.thr s.tx s.sx = some (t.stepped.wr d 0) ∧ u.thr s.tx r = none ∧ u.ctile.sp = s.ctile.sp))) ∧
  (∀ (s : State) (t : Thread) (d a b : Reg), s.Issues t → t.Clear [a, b, d] → t.spec = none →
    let q := (t.rd a).toNat % 8
    let sel := (t.rd b).toNat % 8192
    (q ≠ s.sx → (∀ th, s.thr s.tx q = some th → th.susp = false) →
      exec (.rdctx d a b) s = .next (s.trapped ⟨6, 4, wrapN sel⟩) ∧ exec (.wrctx d a b) s = .next (s.trapped ⟨6, 4, wrapN sel⟩)) ∧
    (0x026 < sel → sel < 0x1000 →
      exec (.rdctx d a b) s = .next (s.trapped ⟨6, 4, wrapN sel⟩) ∧ exec (.wrctx d a b) s = .next (s.trapped ⟨6, 4, wrapN sel⟩)) ∧
    (∀ th, q ≠ s.sx → s.thr s.tx q = some th → th.susp = true →
      (∀ v, (sel < 32 ∧ v = th.rd (BitVec.ofNat 5 sel)) ∨ (sel = 0x020 ∧ v = (th.p ||| 1).zeroExtend 64) ∨ (sel = 0x022 ∧ v = wrapN th.outs.length) ∨
          (sel = 0x023 ∧ v = wrapN th.pc) ∨ (sel = 0x026 ∧ v = th.word0) →
        exec (.rdctx d a b) s = .next (s.issued (t.stepped.wr d v))) ∧
      (∀ th', (sel < 32 ∧ th' = { th.wr (BitVec.ofNat 5 sel) (t.rd d) with pend := th.pend.filter fun e => e.1 != BitVec.ofNat 5 sel }) ∨
          (sel = 0x020 ∧ th' = { th with p := (t.rd d).truncate 8 &&& 0xFE }) ∨
          (sel = 0x023 ∧ th' = { th with pc := (t.rd d).toNat, feTried := false }) →
        exec (.wrctx d a b) s = .next ((s.issued t.stepped).setSlot s.tx q { s.slot s.tx q with thr := some th' }))))

/-! Windows (06_associative.md). -/

/-- A field's columns, bit by bit: what an operation of width `w` reads, and what a `w`-bit result leaves, with copies of its top bit above it in a
signed format; a tag write changes one column, `t0` none. A pass of R95 in one row, column by column; `VPASS` runs one pass in every row, `VSEQ` one
for each of its microcode words in order. -/
def Obligations.WindowPasses : Prop :=
  ((∀ (f : FieldDesc) (w i : Nat) (row : Row),
    (f.get w row).testBit i = (decide (i < w) && decide (i < f.width) && row.getLsbD (f.start + i))) ∧
  (∀ (f : FieldDesc) (w v c : Nat) (signed : Bool) (row : Row), c < 264 →
    (f.set w signed v row).getLsbD c =
      if c < f.start ∨ f.start + f.width ≤ c then row.getLsbD c
      else if c - f.start < w then v.testBit (c - f.start) else signed && decide (0 < w) && v.testBit (w - 1)) ∧
  (∀ (n c : Nat) (b : Bool) (row : Row), n < 8 → c < 264 → (rowSetTag n b row).getLsbD c = if n ≠ 0 ∧ c = 256 + n then b else row.getLsbD c)) ∧
  ((∀ (p vl r c : Nat) (row : Row), c < 264 →
    let bit (i : Nat) : Bool := p.testBit i
    let col (c : Nat) : Bool := if c = 256 then decide (r < vl) else decide (c < 264) && row.getLsbD c
    let cmp (c v m : Nat) : Bool := !bit m || (col c == bit v)
    let sel := ruleTag vl (p / 2 ^ 50 % 8) r row != bit 49
    let hit := sel && cmp (p / 2 ^ 40 % 512) 39 38 && cmp (p / 2 ^ 29 % 512) 28 27 && cmp (p / 2 ^ 18 % 512) 17 16 &&
      cmp (256 + p / 2 ^ 60 % 8) 59 58
    let u := 256 + p / 4 % 8
    (passRow p vl r row).getLsbD c =
      if c = 256 then row.getLsbD c
      else if c = u ∧ p % 4 = 1 ∧ hit = true then true
      else if c = u ∧ p % 4 = 2 ∧ sel = true then hit
      else if c = u ∧ p % 4 = 3 ∧ hit = true then false
      else if hit && bit 53 && decide (c = 256 + p / 2 ^ 55 % 8) then bit 54
      else if hit && bit 5 && decide (c = p / 2 ^ 7 % 512) then bit 6
      else row.getLsbD c) ∧
  (∀ (s : State) (x w : Nat) (e : VEntry) (rest : List VEntry), s.Starts x w e rest → e.quiet = false →
    let v := (s.tile x).win w
    let done (f : Nat → Row → Row) : Prop :=
      ∃ u, exec (.vopStart x w) s = .next u ∧ s.Ran u x w e rest 0 (fun _ _ => 0) ∧ ((u.tile x).win w).all = v.all.map fun p => (p.1, f p.1 p.2)
    (e.op.kind = .vpass → done fun r row => passRow (e.op.x * 2 ^ 24 + e.op.m) e.vl r row) ∧
    (e.op.kind = .vseq →
      let first := e.op.x % 128
      let n := min (e.op.x / 128 % 128 + 1) (128 - first)
      done fun r row => (List.range n).foldl (fun row j => passRow (v.ucode[first + j]?.getD 0).toNat e.vl r row) row)))

/-- A V operation enters the queue of its thread's window with what it captures: descriptors, length, rounding mode, registers; the setup operations
change the descriptor or the length at once. `VNOP` has no effect; in a control thread every other one takes ILLOP. -/
def Obligations.WindowIssue : Prop :=
  ∀ (i : Instr) (o : VOp), i.vop = some o → i.wf = true → ∀ (s : State) (t : Thread), s.Issues t →
    (o.kind = .vnop → exec i s = .next (s.issued t.stepped)) ∧
    (o.kind ≠ .vnop → t.compute = false → exec i s = .next (s.trapped ⟨2, 1, encodeWord i⟩)) ∧
    (o.kind ≠ .vnop → t.compute = true → t.win < 4 → t.spec = none → t.Clear (vGSrcs o ++ (vGDst o).toList) → vChecks o s = [] →
      ∃ u e t', exec i s = .next u ∧ u.thr s.tx s.sx = some t' ∧
        let v := s.ctile.win t.win
        let v' := u.ctile.win t.win
        v'.queue = v.queue ++ [e] ∧ e.op = o ∧ e.cid = t.cid ∧ e.id = s.nextId ∧ e.vl = t.vl ∧ e.round = t.round ∧ e.mx = none ∧
        e.spec = false ∧ e.quiet = vQuiet o ∧ e.fd = v.fds[o.d]?.getD {} ∧ e.fa = v.fds[o.a]?.getD {} ∧ e.fb = v.fds[o.b]?.getD {} ∧
        e.ga = (if o.kind = .vfrd then wrapN (e.fa.width * 256 + e.fa.start) else t.rd (BitVec.ofNat 5 o.a)) ∧ e.gb = t.rd (BitVec.ofNat 5 o.b) ∧
        { v' with queue := v.queue, fds := v.fds } = v ∧ u.ctile.sp = s.ctile.sp ∧ u.dram = s.dram ∧
        (∀ w, w < 4 → w ≠ t.win → u.ctile.win w = s.ctile.win w) ∧
        t'.outs = t.outs ++ [s.nextId] ∧
        t'.pend = (match vGDst o with
          | some d => if d = 0 then t.pend else t.pend ++ [(d, s.nextId)]
          | none => t.pend) ∧
        { t' with outs := t.outs, pend := t.pend, vl := t.vl, warn := t.warn } = t.stepped ∧
        (∀ n, n < 32 → (o.kind ∉ [.vfld, .vfldi, .vfcpy] ∨ n ≠ o.d) → v'.fds[n]? = v.fds[n]?) ∧ (o.kind ∉ [.vvl, .vvli] → t'.vl = t.vl)) ∧
    (t.compute = true → t.win < 4 → t.spec = none →
      let v := s.ctile.win t.win
      let clipped (b : Prop) [Decidable b] : BitVec 9 := if b then 0x100 else 0
      (∀ d a, i = .vfld d a → t.Clear [a] →
        let start := (t.rd a).toNat % 256
        let width := (t.rd a).toNat / 256 % 512
        ∃ u t', exec i s = .next u ∧ u.thr s.tx s.sx = some t' ∧ (u.ctile.win t.win).fds[d.toNat]? = some (ruleField start width) ∧
          t'.warn = t.warn ||| clipped (width = 0 ∨ 256 < start + width)) ∧
      (∀ d st wd, i = .vfldi d st wd →
        ∃ u t', exec i s = .next u ∧ u.thr s.tx s.sx = some t' ∧ (u.ctile.win t.win).fds[d.toNat]? = some (ruleField st.toNat wd.toNat) ∧
          t'.warn = t.warn ||| clipped (wd.toNat = 0 ∨ 256 < st.toNat + wd.toNat)) ∧
      (∀ d a, i = .vfcpy d a → ∃ u, exec i s = .next u ∧ (u.ctile.win t.win).fds[d.toNat]? = v.fds[a.toNat]?) ∧
      (∀ a, i = .vvl a → t.Clear [a] → ∃ u t', exec i s = .next u ∧ u.thr s.tx s.sx = some t' ∧
        t'.vl = min (t.rd a).toNat 4096 ∧ t'.warn = t.warn ||| clipped (4096 < (t.rd a).toNat)) ∧
      (∀ n, i = .vvli n → ∃ u t', exec i s = .next u ∧ u.thr s.tx s.sx = some t' ∧
        t'.vl = min n.toNat 4096 ∧ t'.warn = t.warn ||| clipped (4096 < n.toNat)))

/-- `VOP_START` of an operation that writes a field: the selected rows take the result, the others stay; its flags are those of the selected rows.
`VSEL` writes every row; `VQBS` quantises groups of sixteen rows and writes the scale last (DESIGN CHOICE, log 74). `VSFN`: the special results of R195;
1/x, √x and 1/√x rounded once; the powers of two and their logarithms; of the other values of its functions 3 to 7 the statement says which function the
row takes. `VDQBS`: the exact value of R90. -/
def Obligations.WindowFieldResult : Prop :=
  (∀ c ∈ [8, 9, 10], ∀ fn a mode : Nat, fn < 8 → mode < 4 → SpecialFunction c fn a mode (specialFn c fn a mode)) ∧
  (∀ ef ∈ [13, 11], ∀ sc < 256, ∀ el < 2 ^ fmtWidth ef, Dequantised ef sc el (dequantise ef sc el)) ∧
  ∀ (s : State) (x w : Nat) (e : VEntry) (rest : List VEntry), s.Starts x w e rest → e.quiet = false → vQuiet e.op = false →
    let v := (s.tile x).win w
    let m := e.op.m
    let wd := fmtWidth m
    let byte := fun (i : Nat) => (v.ucode[i / 8]?.getD 0).toNat / 2 ^ (8 * (i % 8)) % 256
    let done (fl : Nat → Row → FFlags) (f : Nat → Row → Row) : Prop :=
      ∃ u, exec (.vopStart x w) s = .next u ∧ s.Ran u x w e rest 0 fl ∧
        ((u.tile x).win w).all = v.all.map fun p => (p.1, f p.1 p.2)
    (∀ dw sw sb sg f, windowRule e.op.kind m (if e.op.kind = .vsfn then e.op.b % 8 else e.op.b) = some (dw, sw, sb, sg, f) →
      let y := fun (row : Row) => f e.round.toNat byte (e.fa.get (sw.getD e.fa.width) row) (e.fb.get sb row)
      done (fun r row => if e.selects r row then (y row).2 else 0)
        (fun r row => if e.selects r row then e.fd.set (dw.getD e.fa.width) sg (y row).1 row else row)) ∧
    (e.op.kind = .vbc → done (fun _ _ => 0) fun r row => if e.selects r row then e.fd.set wd (m < 4) (e.ga.toNat % 2 ^ wd) row else row) ∧
    (e.op.kind = .vbci →
      let g := if m = 2 ∨ m = 3 then codeOf m (Int.bmod (e.op.x : Int) (2 ^ 29)) else if m = 8 then 8 * e.op.x % 2 ^ 32 else e.op.x % 2 ^ wd
      done (fun _ _ => 0) fun r row => if e.selects r row then e.fd.set wd (m < 4) g row else row) ∧
    (e.op.kind = .vsel → done (fun _ _ => 0) fun r row => e.fd.set wd (m < 4) (if e.selects r row then e.fa.get wd row else e.fb.get wd row) row) ∧
    (e.op.kind = .vqbs →
      let el := if m = 14 then 13 else 11
      let q := fun (k : Nat) => quantise el (((v.all.drop (16 * k)).take 16).map fun p =>
        if e.selects p.1 p.2 then val 8 (e.fa.get 32 p.2) else .fin false 0 1 0)
      done (fun r row => if e.selects r row then (q (r / 16)).2.2 else 0)
        fun r row => if e.selects r row then
          e.fb.set 8 false (q (r / 16)).1 (e.fd.set (fmtWidth el) false ((q (r / 16)).2.1.getD (r % 16) 0) row) else row)

/-- `VOP_START` of an operation that writes a tag: in the selected rows the tag tells the comparison, the combination of the source tags, or whether
the row is the first, or holds the greatest or the least value. -/
def Obligations.WindowTagResult : Prop :=
  ∀ (s : State) (x w : Nat) (e : VEntry) (rest : List VEntry), s.Starts x w e rest → e.quiet = false → vQuiet e.op = false → e.op.d < 8 →
    let v := (s.tile x).win w
    let m := e.op.m
    let wd := fmtWidth m
    let chosen := v.all.filter fun p => e.selects p.1 p.2
    let done (fl : Nat → Row → FFlags) (f : Nat → Row → Bool) : Prop :=
      ∃ u, exec (.vopStart x w) s = .next u ∧ s.Ran u x w e rest 0 (fun r row => if e.selects r row then fl r row else 0) ∧
        ((u.tile x).win w).all = v.all.map fun p => (p.1, if e.selects p.1 p.2 then rowSetTag e.op.d (f p.1 p.2) p.2 else p.2)
    (∀ f, windowTagRule e.op.kind m = some f →
      let y := fun (r : Nat) (row : Row) =>
        f (ruleTag e.vl (e.op.a % 8) r row) (ruleTag e.vl (e.op.b % 8) r row) (e.fa.get wd row) (e.fb.get wd row)
      done (fun r row => (y r row).2) fun r row => (y r row).1) ∧
    (e.op.kind = .vtfirst → done (fun _ _ => 0) fun r _ => chosen.all fun q => decide (r ≤ q.1)) ∧
    (e.op.kind = .vrmax → done (fun _ _ => 0) fun _ row => ruleCounts m (e.fa.get wd row) &&
      chosen.all fun q => !ruleCounts m (e.fa.get wd q.2) || !ruleBelow m (e.fa.get wd row) (e.fa.get wd q.2)) ∧
    (e.op.kind = .vrmin → done (fun _ _ => 0) fun _ row => ruleCounts m (e.fa.get wd row) &&
      chosen.all fun q => !ruleCounts m (e.fa.get wd q.2) || !ruleBelow m (e.fa.get wd q.2) (e.fa.get wd row))

/-- `VOP_START` of an operation with a register result, which leaves every row as it is; `VPUT`, which writes one row; and `VOP_COMPLETE`, which
writes the result to the thread's register, raises the flags and ends the operation. A `VRFSUM` over a quiet NaN beside both infinities gives NaN
without NV (DESIGN CHOICE, log 53). -/
def Obligations.WindowRegisterResult : Prop :=
  (∀ (s : State) (x w : Nat) (e : VEntry) (rest : List VEntry), s.Starts x w e rest → e.quiet = false → vQuiet e.op = false →
    let v := (s.tile x).win w
    let m := e.op.m
    let wd := fmtWidth m
    let chosen := v.all.filter fun p => e.selects p.1 p.2
    let q := e.gb.toNat
    let wide (c : Nat) : W64 := if m < 4 ∨ isNI m then ruleSext c wd else wrapN c
    let done (g : W64) (fl : Nat → Row → FFlags) : Prop :=
      ∃ u, exec (.vopStart x w) s = .next u ∧ s.Ran u x w e rest g (fun r row => if e.selects r row then fl r row else 0) ∧
        ((u.tile x).win w).rows = v.rows
    (e.op.kind = .vfrd → done e.ga fun _ _ => 0) ∧
    (e.op.kind = .vtcount → done (wrapN chosen.length) fun _ _ => 0) ∧
    (e.op.kind = .vtany → done (if chosen = [] then 0 else 1) fun _ _ => 0) ∧
    (e.op.kind = .vget → done (if e.selects q (v.row q) then wide (e.fa.get wd (v.row q)) else 0) fun _ _ => 0) ∧
    (e.op.kind = .vrsum → done (wrapI ((chosen.map fun p => ruleInt m (e.fa.get wd p.2)).foldr (· + ·) 0)) fun _ _ => 0) ∧
    (e.op.kind = .vrfsum → isFPA m = true →
      let xs := chosen.map fun p => val m (e.fa.get wd p.2)
      (xs.all Val.isFin = true → ∃ sg n d k, 0 < d ∧ Val.rat (.fin sg n d k) = (xs.map Val.rat).foldr (· + ·) 0 ∧
        (n = 0 → sg = (!xs.isEmpty && (xs.all (fun y => y.isZero && y.sign) || e.round == 2))) ∧
        let y := roundVal m (.fin sg n d k) e.round.toNat
        ∃ u b, exec (.vopStart x w) s = .next u ∧ ((u.tile x).win w).rows = v.rows ∧ ((u.tile x).win w).busy = some b ∧
          b.result = some (wrapN y.1) ∧ b.flags = y.2) ∧
      (∀ g fl, (g, fl) = (if xs.any Val.isNan = true then ((canonicalNan m).getD 0, if xs.any (fun y => y.nv == NV) then NV else 0)
          else if xs.any (fun y => y.isInf && y.sign) = true ∧ xs.any (fun y => y.isInf && !y.sign) = true then ((canonicalNan m).getD 0, NV)
          else ((positiveInf m).getD 0 + (if xs.any (fun y => y.isInf && y.sign) then 2 ^ (wd - 1) else 0), 0)) →
        xs.all Val.isFin = false → ∃ u b, exec (.vopStart x w) s = .next u ∧ ((u.tile x).win w).rows = v.rows ∧
          ((u.tile x).win w).busy = some b ∧ b.result = some (wrapN g) ∧ b.flags = fl)) ∧
    (e.op.kind = .vput → ∃ u, exec (.vopStart x w) s = .next u ∧ s.Ran u x w e rest 0 (fun _ _ => 0) ∧
      ∀ r, ((u.tile x).win w).row r =
        if r = q ∧ e.selects q (v.row q) then e.fd.set wd (m < 4) (e.ga.toNat % 2 ^ wd) (v.row q) else v.row r)) ∧
  (∀ (s : State) (x w : Nat) (b : VBusy) (th : Thread) (d : Reg), s.stopped = false → w < 4 → ((s.tile x).win w).busy = some b →
    b.served = true → b.due ≤ s.cycleOf x → b.e.mx = none → d = (vGDst b.e.op).getD 0 → (s.tile x).thread b.e.cid = some th → th.wait ≠ .tuple b.e.id →
    ∃ u th', exec (.vopComplete x w) s = .next u ∧ ((u.tile x).win w) = { (s.tile x).win w with busy := none } ∧
      (u.tile x).turner = (s.tile x).turner.filter (fun e => e.1 ≠ w) ∧
      (u.tile x).thread b.e.cid = some th' ∧ th'.fflags = (th.fflags ||| b.flags) ∧ th'.outs = th.outs.filter (· ≠ b.e.id) ∧
      th'.pend = th.pend.filter (· ≠ (d, b.e.id)) ∧
      (∀ r, th'.rd r = if r = d ∧ r ≠ 0 ∧ (d, b.e.id) ∈ th.pend then b.result.getD 0 else th.rd r) ∧
      { th' with g := th.g, fflags := th.fflags, outs := th.outs, pend := th.pend } = th)

/-- The corner turner: a load writes the elements into the transfer rows, a store the fields into the elements' bits, the highest row last, and no
other bit; `VUCLOAD` loads the microcode words. `VLD` and `VST` keep it busy for their bits by 1,024, at least one cycle, the others no shorter. -/
def Obligations.WindowTransfers : Prop :=
  (∀ (s : State) (x w c : Nat) (b : VBusy) (ws : List (Nat × Nat)), s.stopped = false → w < 4 → (s.tile x).turner = (w, c) :: ws → c < s.cycleOf x →
    ((s.tile x).win w).busy = some b → b.served = false → b.e.mx = none → b.e.spec = false → (s.tile x).bad = [] → (s.tile x).sp.wf → (∀ k, (s.tile x).stat k = false) →
    let v := (s.tile x).win w
    let e := b.e
    let m := e.op.m
    let wd := fmtWidth m
    let spBit (mem : Memory) (a : Int) : Bool := (mem.read ((a % 2 ^ 67).toNat / 8)).getLsbD ((a % 8).toNat)
    let least := max 1 ((e.vl * wd + 1023) / 1024)
    let cycles := fun (n : Nat) => least ≤ n ∧ (e.op.kind ∈ [.vld, .vst] → n = least)
    let turns := fun (r : Nat) (i : Int) => r < e.vl ∧ e.selects r (v.row r) = true ∧ ruleIndexOf e r = some i
    (e.op.kind ∈ [.vld, .vlds, .vldr] →
      ∃ u, exec (.transferStart x w) s = .next u ∧ (∃ n, ((u.tile x).win w).busy = some { b with served := true, due := s.cycleOf x + n } ∧ cycles n) ∧
        (u.tile x).sp = (s.tile x).sp ∧
        (∀ r, (∀ i, ¬ turns r i) → ((u.tile x).win w).row r = v.row r) ∧
        (∀ r i, turns r i → ∃ y, (∀ k, y.testBit k = (decide (k < wd) && spBit (s.tile x).sp (ruleElemBit m e.ga.toNat e.vl i k))) ∧
          ((u.tile x).win w).row r = e.fd.set wd (m < 4) y (v.row r))) ∧
    (e.op.kind ∈ [.vst, .vsts, .vstr] →
      ∃ u, exec (.transferStart x w) s = .next u ∧
        (∃ n, ((u.tile x).win w) = { v with busy := some { b with served := true, due := s.cycleOf x + n } } ∧ cycles n) ∧
        (∀ (a j : Nat), a < 2 ^ 64 → j < 8 →
          let here := fun (r k : Nat) => ∃ i, turns r i ∧ k < wd ∧ (ruleElemBit m e.ga.toNat e.vl i k) % 2 ^ 67 = 8 * a + j
          ((∀ r k, ¬ here r k) → ((u.tile x).sp.read a).getLsbD j = ((s.tile x).sp.read a).getLsbD j) ∧
          (∀ r k, here r k → (∀ r' k', r < r' → ¬ here r' k') → ((u.tile x).sp.read a).getLsbD j = (e.fd.get wd (v.row r)).testBit k))) ∧
    (e.op.kind = .vucload →
      let first := e.ga.toNat / 2 ^ 32 % 128
      let n := e.ga.toNat / 2 ^ 40 % 128 + 1
      let at_ := e.ga.toNat % 2 ^ 20
      ∃ u, exec (.transferStart x w) s = .next u ∧ ((u.tile x).win w).rows = v.rows ∧ (u.tile x).sp = (s.tile x).sp ∧
        ∀ k, k < 128 → ((u.tile x).win w).ucode[k]? =
          if first ≤ k ∧ k < first + n then some (wrapN ((s.tile x).sp.readN (at_ + 8 * (k - first)) 8)) else v.ucode[k]?))

/-! Events (01_machine.md, 11_sync.md, 12_tasks.md, 13_system.md). -/

/-- The events of one thread: what it awaited has come, or a cause of its own is taken. The notices and turns of speculation: a watch's notification
starts a rollback, the rollback restores the checkpoint, a release commits the speculative threads of its entry and returns those that wait, and the
end of the drain closes the window. The events of a tile and of a die: a bundle line enters the cache, a packet binds, the energy reserve takes its
share. The model's choices: a commit writes its bytes in the step of the release (DESIGN CHOICE, log 12); the spill table holds the thread beside its
image (DEDUCED, log 33); a `PACKET_BIND` that can bind nothing leaves the state (DEDUCED, log 45); how a tile knows of an earlier release notice (DESIGN
CHOICE, log 69). -/
def Obligations.ThreadEvents : Prop :=
  (∀ (s : State) (x q : Nat) (th : Thread), s.stopped = false → s.thr x q = some th → (s.tile x).slotOf th.cid = some q → th.susp = false →
  th.spillBan = false →
    let l := s.tile x
    let now := s.cycleOf x
    let fenced := s.fenced x th.cid = true
    (th.running = true → th.tact = false → th.spec = none →
      (∀ v, th.pwdg = some v → ∃ u th', exec (.pendingTrapTaken x q) s = .next u ∧ u.thr x q = some th' ∧
        th' = ({ th with issOwn := th'.issOwn, pwdg := none, tcause := 8, tval := v, tpc := BitVec.ofNat 48 th.pc, pmode := th.sys, sys := true,
                         tact := true, pc := l.tvec, feTried := false })) ∧
      (∀ v, th.pwdg = none → th.ptim = some v → ∃ u th', exec (.pendingTrapTaken x q) s = .next u ∧ u.thr x q = some th' ∧
        th' = ({ th with issOwn := th'.issOwn, ptim := none, tcause := 9, tval := v, tpc := BitVec.ofNat 48 th.pc, pmode := th.sys, sys := true,
                         tact := true, pc := l.tvec, feTried := false }))) ∧
    ((l.slot q).wdogLimit ≠ 0 → (l.slot q).wdogLimit ≤ (l.slot q).wdogCount →
      ∃ u, exec (.watchdogExpiry x q) s = .next u ∧
        u.slot x q = { l.slot q with wdogCount := 0, thr := some { th with pwdg := some ((l.slot q).wdogLimit.zeroExtend 64) } }) ∧
    (l.timSlot.toNat = q → l.timecmp ≠ 0 → l.timecmp.toNat ≤ now → (∀ op due, th.wait ≠ .sleep op due) →
      ∃ u, exec (.timerFire x) s = .next u ∧ (u.tile x).timecmp = 0 ∧ u.thr x q = some { th with ptim := some l.timecmp, wake := true }) ∧
    (∀ op due o, th.wait = .sleep op (some due) → due ≤ now → l.ops.find? (fun o => o.id == op) = some o → o.id = op → o.cid = th.cid → o.gdDone = false →
      ∃ u, exec (.sleepTimeout x th.cid) s = .next u ∧ u.thr x q = some { th.land op o.rd 0 with wait := .none } ∧ (u.tile x).op op = none) ∧
    (∀ e, th.wait = .arrive e false → e < 16 → q < 8 → th.outs = [] → fenced →
      ∃ u, exec (.barrierArrival x th.cid) s = .next u ∧ ((u.tile x).bar e).arr.getLsbD q = true ∧
        u.thr x q = some { th with touched := 0, wait := .release e }) ∧
    (th.wait = .tfence → fenced → ∃ u, exec (.tfenceComplete x th.cid) s = .next u ∧ u.thr x q = some { th with touched := 0, wait := .none }) ∧
    (∀ ids, th.wait = .fence ids → ids.any l.live = false →
      ∃ u, exec (.fenceComplete x th.cid) s = .next u ∧ u.thr x q = some { th with wait := .none }) ∧
    (th.wait = .exit → fenced → th.succ = [] → ∃ u, exec (.exitComplete x th.cid) s = .next u ∧ u.thr x q = none ∧
      (∀ e, e < 16 → q < 8 → ((u.tile x).bar e).reg.getLsbD q = false) ∧ (th.compute = true → th.win < 4 → ((u.tile x).win th.win).owner = none)) ∧
    (∀ v, th.wait = .notify v → fenced → ∃ u, exec (.notifySend x th.cid) s = .next u ∧ u.thr x q = some { th with wait := .none } ∧
      u.ports = (s.raiseVector (s.tenantOf x) v).ports) ∧
    (l.refilling.contains th.cid = true → ∃ u, exec (.refillImageArrived x th.cid) s = .next u ∧ u.thr x q = some { th with readyAt := now + 8 } ∧
      (u.tile x).refilling = l.refilling.filter (· != th.cid)) ∧
    (l.spilling = none → l.spills.length < 256 → th.spec = none → ∀ r, l.wantsRoom = some r → l.victim r = some th →
      ∃ u, exec (.spillStart x) s = .next u ∧ (u.tile x).spilling = some th.cid ∧ u.thr x q = some th) ∧
    (l.spilling = some th.cid → th.compute = false → th.spec = none → (∀ n, th.wait ≠ .yielded n) → q < 8 → ∀ ps z,
      s.covers (dieOf x) (s.imageCost x th (lowestFree (l.spills.map Spilled.place)) (lowestFree l.cplaces)) = true →
      s.imagePieces x th (lowestFree (l.spills.map Spilled.place)) (lowestFree l.cplaces) pW = (.ok (ps, []), z) → z.tile x = l →
      ∃ u e, exec (.spillDone x) s = .next u ∧ u.thr x q = none ∧ (u.tile x).spilling = none ∧ e ∈ (u.tile x).spills ∧
        e.thr = th ∧ e.place = lowestFree (l.spills.map Spilled.place) ∧ (u.tile x).sp = l.sp)) ∧
  (∀ (s : State) (x q : Nat) (th : Thread), s.stopped = false → s.thr x q = some th → (s.tile x).slotOf th.cid = some q → q < 8 →
    let l := s.tile x
    (∀ m a sp note, s.Arrives m a → a.dst = .tile x → a.body = .notify th.cid sp.no note → th.spec = some sp → sp.st = .active →
      ∃ u, exec (.watchNotify m) s = .next u ∧ u.msg m = none ∧
        u.thr x q = some { th with spec := some { sp with st := .rolling, cause := 2 }, wait := .spec }) ∧
    (∀ sp, th.spec = some sp → sp.st = .rolling → sp.susp = false → sp.puts = [] → sp.watches = [] → th.outs = [] → th.vheld = none → th.compute = false →
      ∃ u th', exec (.specRollback x q) s = .next u ∧ u.thr x q = some th' ∧ th'.pc = sp.resume ∧ th'.g = sp.g ∧ th'.p = sp.p ∧
        th'.round = sp.round ∧ th'.specCause = BitVec.ofNat 4 sp.cause ∧ th'.rbk = min (th.rbk + 1) 255 ∧ (u.tile x).sp = l.sp ∧
        ((l.bar sp.entry).arr.getLsbD q = false → th'.spec = none ∧ th'.wait = .none) ∧
        ((l.bar sp.entry).arr.getLsbD q = true → th'.wait = .release sp.entry ∧ ∃ sp', th'.spec = some sp' ∧ sp'.st = .rolledBack ∧ sp'.buf = [])) ∧
    (∀ sp, th.spec = some sp → sp.st = .committing → sp.susp = false → sp.puts = [] → sp.watches = [] → th.vheld = none → th.compute = false → l.queued ≤ 64 →
      sp.drainEnd ≤ s.cycleOf x →
      ∃ u, exec (.commitDrainEnd x q) s = .next u ∧ (u.tile x).sp = l.sp ∧
        u.thr x q = some { th with spec := none, cmt := min (th.cmt + 1) 255, wait := if th.wait = .spec then .none else th.wait }) ∧
    (∀ m a h ph e, s.Arrives m a → a.dst = .tile x → a.body = .release h ph → l.barOf h = some e → l.tenant = some a.tenant →
      s.earlierRelease a h ph = false →
      (∀ r th', r < 8 → r ≠ q → s.thr x r = some th' → th'.spec = none) →
      (th.wait = .release e → th.spec = none → th.susp = false → th.spillBan = false →
        ∃ u, exec (.releaseNotice m) s = .next u ∧ u.msg m = none ∧ ((u.tile x).bar e).arr = 0 ∧ ((u.tile x).bar e).phase = ph ∧
          u.thr x q = some { th with wait := .none, readyAt := max th.readyAt (s.cycleOf x + 1) } ∧ (u.tile x).sp = l.sp) ∧
      (∀ sp b, th.spec = some sp → sp.st = .active → sp.entry = e → sp.buf = [b] → l.bad = [] → l.sp.wf → th.wait ≠ .release e →
        th.vheld = none → l.stat (bankOf (b.line * 64)) = false →
        ∃ u, exec (.releaseNotice m) s = .next u ∧ ((u.tile x).bar e).arr = 0 ∧
          u.thr x q = some { th with spec := some { sp with
            st := .committing, drainEnd := s.cycleOf x + 1, buf := [], reads := (sp.reads ++ [b.line]).eraseDups } } ∧
          ∀ k, (u.tile x).sp.read k = if k / 64 = b.line then (b.bytes.find (k % 64)).getD (l.sp.read k) else l.sp.read k))) ∧
  ((∀ (s z : State) (x va p n : Nat), s.service = .full → (s.tile x).tenant.isSome = true → (s.tile x).wantsLine (va / 64) = true →
    s.inFrozen (s.tenantOf x) (va / 64 * 64) 64 = true → s.xlate (dieOf x) (s.tenantOf x) (s.tile x).asid (va / 64 * 64) pX = (.ok p n, z) →
    z.badLine p 64 = false →
      ∃ u, exec (.bundleFill x va) s = .next u ∧
        ∀ i, i < 8 → (u.tile x).bundleAt (va / 64 * 64 + 8 * i) = some (wrapN (natOfBytes ((z.dram.bytes p 64).drop (8 * i) |>.take 8)))) ∧
  (∀ (s : State) (x q : Nat) (r : Ready), s.stopped = false → (s.tile x).ready = [r] → (s.tile x).spills = [] → (s.tile x).freeSlot = some q →
    (s.tile x).acted = true → (s.tile x).bound = false → pktCompute r.words = false → ∃ u th, exec (.packetBind x) s = .next u ∧ (u.tile x).ready = [] ∧ u.thr x q = some th ∧
      th.word0 = r.words.headD 0 ∧ th.pc = (r.words.headD 0).toNat / 2 ^ 16 % 2 ^ 48 ∧ th.compute = false ∧ th.sys = false ∧ th.wait = .none ∧
      th.outs = [] ∧ th.pend = [] ∧ th.spec = none ∧ th.readyAt = s.cycleOf x + 8 ∧ (u.tile x).sp = (s.tile x).sp ∧
      ∀ r', r' ≠ q → (∀ th', s.thr x r' = some th' → th'.wait ≠ .yielded r.seq) → u.slot x r' = s.slot x r') ∧
  (∀ (s : State) (x : Nat), s.stopped = false →
    ((s.tile x).ready = [] ∧ (s.tile x).spills = []) ∨ (s.tile x).acted = false ∨ (s.tile x).bound = true → exec (.packetBind x) s = .next s) ∧
  (∀ (s : State) (d : Nat), s.stopped = false → d < 4 → (s.die d).refillAt ≤ (s.die d).cycle.toNat →
    (∀ p, ∀ f ∈ (s.port p).fns, f.2.ops = []) → (∀ e ∈ s.peers, e.2.txq = [] ∧ e.2.parts = [] ∧ e.2.window = [] ∧ e.2.ackDue = none ∧ e.2.ackCount < 16) →
    ∃ u, exec (.energyRefill d) s = .next u ∧ (u.die d).reserve = min 4500000000 ((s.die d).reserve + (s.die d).share * 1000000) ∧
      (u.die d).refillAt = (s.die d).refillAt + s.usCycles ∧ (∀ e, e ≠ d → u.die e = s.die e) ∧ u.tiles = s.tiles))

/-! Homes (08_tuples_homes.md, 09_tuple_instr.md, 11_sync.md). -/

/-- Tuples at a home: a put enters the index or serves a waiter, a read or take finds the oldest match, waits, or answers MISS; a deadline, a
cancellation, a reset and an acknowledgement remove what they name. The reply of a put that notifies a watch waits for the notification. A put with
payload is admitted first: its room is set aside, its tile receives permits and injects the payload in streams of at most 16,384 bytes. -/
def Obligations.HomeTuples : Prop :=
  ∀ (s : State) (m h x : Nat) (a : Msg), s.Served m h x a →
    let v := s.home h
    let f := decide (a.hops > 0)
    (∀ op t, a.body = .put op t → streamWaits a = true → a.perm = false →
      let n := (tupleBytes t).length
      let room := if v.indexRoom 1 then s.poolRoom h a.tenant (tupleBlocks t) else none
      (room = none → ∃ u, exec (.homePut m) s = .next u ∧ s.Sent u m (.home h) (.tile x) (.reply op 7 0 f) ∧ u.home h = v) ∧
      (∀ bl, room = some bl → ∃ u, exec (.homePut m) s = .next u ∧ u.msg m = some { a with perm := true } ∧ s.OnlyHome u h ∧
        (u.home h).staged = v.staged ++ [⟨op, .tile x, a.tenant, bl⟩] ∧ (u.home h).entries = v.entries ∧
        ∃ r ∈ u.net, s.nextId ≤ r.id ∧ r.src = .home h ∧ r.dst = .tile x ∧ r.body = .permit op ((min 16384 n + 63) / 64))) ∧
    (∀ op t p, a.body = .put op t → streamWaits a = true → (s.tile x).permits.find? (fun p => p.1 == op) = some p → s.covers (dieOf x) 0 = true →
      ∃ u, exec (.payloadStream m) s = .next u ∧ u.msg m = some { a with sent := min (tupleBytes t).length (a.sent + 16384) } ∧
        u.tile x = { s.tile x with permits := (s.tile x).permits.erase p }) ∧
    (∀ op t, a.body = .put op t → streamWaits a = false → (∀ w ∈ v.watches, w.tenant = a.tenant → keyMatch w.get.tmpl w.get.care t.key = false) →
      let room := (s.dropMsg m).putRoom h a op t
      (room = none → ∃ u, exec (.homePut m) s = .next u ∧ s.Sent u m (.home h) (.tile x) (.reply op 7 0 f) ∧ u.home h = v) ∧
      (∀ bl, room = some bl → ∃ u e, exec (.homePut m) s = .next u ∧ s.Sent u m (.home h) (.tile x) (.reply op 0 0 f) ∧ s.OnlyHome u h ∧
        e ∈ (u.home h).entries ∧ e.tenant = a.tenant ∧ e.key = t.key ∧ e.cell = .tuple t.pay ∧ e.fmt = t.fmt ∧ e.shape = t.shape ∧ e.seq = v.insSeq ∧
        e.blks = bl ∧ (∀ e' ∈ v.entries, e' ∈ (u.home h).entries) ∧ (u.home h).insSeq = (v.insSeq + 1) % 2 ^ 64)) ∧
    (∀ op t w bl, a.body = .put op t → streamWaits a = false → v.watches = [w] → w.kind = .takeWaiter → w.tenant = a.tenant → w.get.form = .blocking → w.get.take = true →
      keyMatch w.get.tmpl w.get.care t.key = true → (∃ y, w.who = .tile y) → (∃ bs, t.pay = .inline bs) →
      (s.dropMsg m).putRoom h a op t = some bl →
      ∃ u d, exec (.homePut m) s = .next u ∧ s.Sent u m (.home h) (.tile x) (.reply op 0 0 f) ∧ s.Sent u m (.home h) w.who (.deliver d) ∧ d.op = w.op ∧
        d.status = 0 ∧ d.tup = some t ∧ (u.home h).watches = [] ∧ (u.home h).entries = v.entries) ∧
    (∀ op t w y bl, a.body = .put op t → streamWaits a = false → v.watches = [w] → w.kind = .spec → w.tenant = a.tenant → keyMatch w.get.tmpl w.get.care t.key = true →
      w.who = .tile y → (s.dropMsg m).putRoom h a op t = some bl →
      ∃ u n r, exec (.homePut m) s = .next u ∧ n ∈ u.net ∧ n.src = .home h ∧ n.dst = .tile y ∧ n.body = .notify w.get.cid w.get.win n.id ∧
        r ∈ u.net ∧ r.dst = .tile x ∧ r.body = .reply op 0 0 f ∧ u.deliverable r = false) ∧
    (∀ op g take, a.body = .get op g → g.take = take → g.form = .polling ∨ g.form = .blocking →
      (∀ w ∈ v.watches, w.kind ≠ .spec) →
      let i : Instr := if take then .homeTake m else .homeRead m
      (∀ e bs, v.oldest a.tenant g = some e → e.cell = .tuple (.inline bs) → e.bad = none →
        ∃ u d, exec i s = .next u ∧ s.Sent u m (.home h) (.tile x) (.deliver d) ∧ s.OnlyHome u h ∧ d.op = op ∧ d.status = 0 ∧ d.take = take ∧
          d.tup = some ⟨e.key, .inline bs, e.fmt, e.shape⟩ ∧ d.bytes = (if g.nd then [] else bs.take g.plen) ∧ d.seq = e.seq ∧ d.fwd = f ∧
          (u.home h).entries = (if take then v.entries.filter (fun e' => e'.place != e.place) else v.entries) ∧ (u.home h).watches = v.watches) ∧
      (v.oldest a.tenant g = none → g.form = .polling →
        ∃ u, exec i s = .next u ∧ s.Sent u m (.home h) (.tile x) (.reply op 1 0 f) ∧ s.OnlyHome u h ∧ u.home h = v) ∧
      (v.oldest a.tenant g = none → g.form = .blocking →
        (v.watchRoom 1 = false → ∃ u, exec i s = .next u ∧ s.Sent u m (.home h) (.tile x) (.reply op 7 0 f) ∧ u.home h = v) ∧
        (v.watchRoom 1 = true → ∃ u w, exec i s = .next u ∧ u.msg m = none ∧ s.OnlyHome u h ∧ (u.home h).watches = v.watches ++ [w] ∧
          (u.home h).entries = v.entries ∧ w.kind = (if take then .takeWaiter else .readWaiter) ∧ w.get = { g with fwd := f } ∧ w.who = .tile x ∧ w.op = op ∧
          w.tenant = a.tenant ∧ w.due = (if g.deadline = 0 then 0 else (s.die (h / 8)).cycle.toNat + g.deadline * s.usCycles)))) ∧
    (∀ op hd, a.body = .cancel op hd → v.moved = [] → hd.toNat / 2 ^ 31 % 2 = 0 →
      (∀ w, v.watches.find? (fun w => w.tenant == a.tenant && isContW w.kind && w.place == hPlace hd && w.gen == hGen hd) = some w → (∃ y, w.who = .tile y) →
        ∃ u d, exec (.homeCancel m) s = .next u ∧ s.Sent u m (.home h) (.tile x) (.reply op 0 0 f) ∧ s.Sent u m (.home h) w.who (.deliver d) ∧
          d.op = w.op ∧ d.status = 2 ∧ d.tup = none ∧ d.packet = none ∧ (u.home h).watches = v.watches.filter (fun w' => w'.place != w.place)) ∧
      (v.watches.find? (fun w => w.tenant == a.tenant && isContW w.kind && w.place == hPlace hd && w.gen == hGen hd) = none →
        ∃ u, exec (.homeCancel m) s = .next u ∧ s.Sent u m (.home h) (.tile x) (.reply op 1 0 f) ∧ u.home h = v)) ∧
    (∀ hd op r, a.body = .tookAck op hd false → v.removals.find? (fun r => r.op == op && r.who == .tile x) = some r →
      ∃ u, exec (.deliveryAcknowledge m) s = .next u ∧ u.msg m = none ∧ s.OnlyHome u h ∧
        u.home h = { v with removals := v.removals.filter (· != r) }) ∧
    (a.body = .resetCancel → v.forwards = [] → (∀ r ∈ v.removals, r.who ≠ .tile x) → (∀ e ∈ v.aux, auxFor (.tile x) e.2 = false) → ∃ u, exec (.homeResetCancel m) s = .next u ∧ u.msg m = none ∧
      s.OnlyHome u h ∧ (u.home h).entries = v.entries ∧
      (∀ p ∈ (u.home h).staged, p.who ≠ .tile x) ∧ ∀ w, w ∈ (u.home h).watches → w ∈ v.watches ∧ (w.kind = .reg ∨ w.who ≠ .tile x)) ∧
    (∀ place w, v.watches.find? (fun w => w.place == place) = some w → w.due ≠ 0 → w.due ≤ (s.die (h / 8)).cycle.toNat → w.kind = .takeWaiter →
      (∃ y, w.who = .tile y) → ∃ u r, exec (.deadlineExpiry h place) s = .next u ∧ r ∈ u.net ∧ r.dst = w.who ∧
        (∃ d, r.body = .deliver d ∧ d.op = w.op ∧ d.status = 6 ∧ d.tup = none) ∧ (u.home h).watches = v.watches.filter (fun w' => w'.place != place))

/-- Cells at a home: creation unless a live cell has the key, takes from a range cell, contributions and their sum, arrivals at join and barrier
cells, registration on a barrier cell. -/
def Obligations.HomeCells : Prop :=
  (∀ (n pk fmt size : Nat) (got : List (Nat × List Byte)), 0 < n → n ≤ 1024 → pk ∈ [1, 2, 4, 8] → n % pk = 0 → fmt ∈ [8, 2, 3] →
    let w := fmtWidth fmt / 8
    size % w = 0 → (got.map Prod.fst).Nodup → (∀ g ∈ got, g.2.length = size) → (∀ i < n, i ∈ got.map Prod.fst) →
    ∀ j < size / w, ∀ leaf : Nat → Nat, (∀ g ∈ got, leaf g.1 = elemOf w g.2 j) →
      AccRoot (accAddRule fmt) leaf n pk (elemOf w (accValue n pk fmt got) j)) ∧
  ∀ (s : State) (m h x : Nat) (a : Msg), s.Served m h x a → (s.home h).moved = [] →
    let v := s.home h
    let f := decide (a.hops > 0)
    let made (i : Instr) (op : Nat) (key : Key) (cell : Cell) (fmt : Nat) (shape : BitVec 128) (sizes : List Nat) (val : Entry → W64) : Prop :=
      let room := if v.indexRoom 1 then (s.dropMsg m).poolRoom h a.tenant sizes else none
      ((v.cellAt a.tenant key).isSome = true → ∃ u, exec i s = .next u ∧ s.Sent u m (.home h) (.tile x) (.reply op 10 0 f) ∧ u.home h = v) ∧
      (v.cellAt a.tenant key = none → room = none →
        ∃ u, exec i s = .next u ∧ s.Sent u m (.home h) (.tile x) (.reply op 7 0 f) ∧ u.home h = v) ∧
      (∀ bl, v.cellAt a.tenant key = none → room = some bl →
        ∃ u e, exec i s = .next u ∧ s.Sent u m (.home h) (.tile x) (.reply op 0 (val e) f) ∧ s.OnlyHome u h ∧ e ∈ (u.home h).entries ∧
          e.tenant = a.tenant ∧ e.key = key ∧ e.cell = cell ∧ e.fmt = fmt ∧ e.shape = shape ∧ e.blks = bl ∧
          ∀ e' ∈ v.entries, e' ∈ (u.home h).entries)
    let becomes (u : State) (e : Entry) (c : Option Cell) : Prop := (u.home h).entries =
      match c with
      | some c => v.entries.map fun e' => if e'.place = e.place then { e' with cell := c } else e'
      | none => v.entries.filter fun e' => e'.place != e.place
    (∀ op key lo hi, a.body = .rangeNew op key lo hi → lo < hi → made (.homeRangeCreate m) op key (.range lo hi) 0 0 [] fun _ => 0) ∧
    (∀ op key lo hi, a.body = .rangeNew op key lo hi → hi ≤ lo →
      ∃ u, exec (.homeRangeCreate m) s = .next u ∧ s.Sent u m (.home h) (.tile x) (.reply op 10 0 f) ∧ u.home h = v) ∧
    (∀ op key n pk size fmt shape, a.body = .accNew op key n pk size fmt shape →
      made (.homeAccCreate m) op key (.acc n pk size []) fmt shape (List.replicate ((n + 1) / 2 + 1) (payBlocks size)).flatten fun _ => 0) ∧
    (∀ op key target pkt tile, a.body = .ctrNew op key target false pkt tile →
      (targetNameOk tile = true → made (.homeCtrCreate m) op key (.join target 0 pkt tile) 0 0 [256] fun e => entryHandle e (s.homeName h)) ∧
      (targetNameOk tile = false → ∃ u, exec (.homeCtrCreate m) s = .next u ∧ s.Sent u m (.home h) (.tile x) (.reply op 10 0 f) ∧ u.home h = v)) ∧
    (∀ op key target pkt tile, a.body = .ctrNew op key target true pkt tile →
      made (.homeCtrCreate m) op key (.barrier target 0 0 []) 0 0 [] fun e => entryHandle e (s.homeName h)) ∧
    (∀ key n op k ex e next hi, a.body = .rangeTake key n (.one (.tile x) op k ex) → v.cellAt a.tenant key = some e → e.cell = .range next hi →
      let c := min n (hi - next)
      ∃ u, exec (.homeRangeTake m) s = .next u ∧ s.Sent u m (.home h) (.tile x) (.rangeReply (next % 2 ^ 64) c 0 (.one (.tile x) op k ex) f) ∧
        s.OnlyHome u h ∧ becomes u e (if next + c < hi then some (.range (next + c) hi) else none)) ∧
    (∀ key n op k ex, a.body = .rangeTake key n (.one (.tile x) op k ex) → v.cellAt a.tenant key = none →
      ∃ u, exec (.homeRangeTake m) s = .next u ∧ s.Sent u m (.home h) (.tile x) (.rangeReply 0 0 1 (.one (.tile x) op k ex) f) ∧ u.home h = v) ∧
    (∀ op key i bs e n pk size got, a.body = .accAdd op key i bs → streamWaits a = false → v.cellAt a.tenant key = some e → e.cell = .acc n pk size got →
      (n ≤ i ∨ bs.length ≠ size ∨ (∃ g ∈ got, g.1 = i) →
        ∃ u, exec (.homeAccContrib m) s = .next u ∧ s.Sent u m (.home h) (.tile x) (.reply op 10 0 f) ∧ u.home h = v) ∧
      (i < n → bs.length = size → (∀ g ∈ got, g.1 ≠ i) → got.length + 1 < n →
        ∃ u, exec (.homeAccContrib m) s = .next u ∧ s.Sent u m (.home h) (.tile x) (.reply op 0 0 f) ∧ s.OnlyHome u h ∧
          becomes u e (some (.acc n pk size (got ++ [(i, bs)])))) ∧
      (i < n → bs.length = size → (∀ g ∈ got, g.1 ≠ i) → n = got.length + 1 → v.watches = [] → size ≤ 64 →
        ∃ u t, exec (.homeAccContrib m) s = .next u ∧ s.Sent u m (.home h) (.tile x) (.reply op 0 0 f) ∧ s.OnlyHome u h ∧ t ∈ (u.home h).entries ∧
          t.key = key ∧ t.tenant = a.tenant ∧ t.fmt = e.fmt ∧ t.shape = e.shape ∧ t.blks = [] ∧ t.cell = .tuple (.inline (accValue n pk e.fmt (got ++ [(i, bs)]))) ∧
          (u.home h).cellAt a.tenant key = (v.entries.filter fun e' => e'.place != e.place).find? fun e' =>
            e'.tenant == a.tenant && !isTup e'.cell && e'.key == key)) ∧
    (∀ hd n op k ex e, a.body = .ctrAdd hd n (.one (.tile x) op k ex) → v.byHandle a.tenant hd = some e →
      (∀ target count pkt tile, e.cell = .join target count pkt tile →
        (count + n < target → ∃ u, exec (.homeCtrArrival m) s = .next u ∧ s.Sent u m (.home h) (.tile x) (.ctrReply 0 (.one (.tile x) op k ex) f) ∧
          s.OnlyHome u h ∧ becomes u e (some (.join target (count + n) pkt tile))) ∧
        (∀ y, target ≤ count + n → s.tileOf tile.toNat = some y →
          ∃ u, exec (.homeCtrArrival m) s = .next u ∧ s.Sent u m (.home h) (.tile x) (.ctrReply 0 (.one (.tile x) op k ex) f) ∧
            s.Sent u m (.home h) (.tile y) (.packet (pktKind pkt 4) none (some hd)) ∧ becomes u e none)) ∧
      (∀ target count phase tiles, e.cell = .barrier target count phase tiles → 0 < target → n ≤ target → count < target →
        (∀ r ∈ tiles, ∃ y, r.1 = .tile y) →
        ∃ u, exec (.homeCtrArrival m) s = .next u ∧ s.Sent u m (.home h) (.tile x) (.ctrReply 0 (.one (.tile x) op k ex) f) ∧ s.OnlyHome u h ∧
          (count + n < target → becomes u e (some (.barrier target (count + n) (phase % 2 ^ 32) tiles))) ∧
          (target ≤ count + n → becomes u e (some (.barrier target (count + n - target) ((phase + 1) % 2 ^ 32) tiles)) ∧
            ∀ r ∈ tiles, s.Sent u m (.home h) r.1 (.release r.2 ((phase + 1) % 2 ^ 32))))) ∧
    (∀ hd n op k, a.body = .ctrAdd hd n (.one (.tile x) op k false) → v.byHandle a.tenant hd = none →
      ∃ u, exec (.homeCtrArrival m) s = .next u ∧ s.Sent u m (.home h) (.tile x) (.ctrReply 1 (.one (.tile x) op k false) f) ∧ u.home h = v) ∧
    (∀ op hd named e target count phase tiles, a.body = .barReg op hd named → v.byHandle a.tenant hd = some e →
      e.cell = .barrier target count phase tiles → (∀ r ∈ tiles, r.1 ≠ .tile x) → v.watchRoom 1 = true →
      ∃ u, exec (.homeBarrierRegister m) s = .next u ∧ s.Sent u m (.home h) (.tile x) (.reply op 0 (wrapN phase) f) ∧ s.OnlyHome u h ∧
        becomes u e (some (.barrier target count phase (tiles ++ [(.tile x, named)]))) ∧ (u.home h).watches.length = v.watches.length + 1)

/-! Messages at tiles and switches (08_tuples_homes.md, 09_tuple_instr.md). -/

/-- A queued request leaves for the home that its key's route names, with its payload as the scratchpad then stands, or ends with the status that
keeps it from a home; a fetched route enters the cache, an invalidated one leaves it. Switches combine and split. A failed route stays in the cache
(DEDUCED, log 34); two requests meet at a switch of the omega wiring (DESIGN CHOICE, log 55). -/
def Obligations.RequestRouting : Prop :=
  (∀ (s : State) (x id : Nat) (o : TOp), s.stopped = false → (s.tile x).op id = some o → o.stage = .queued → isCopy o.kind = false →
    (s.tile x).mayRoute o = true → s.covers (dieOf x) (ruleRequestCost o) = true →
    (∀ who name, s.destOf x o = .goes who name → (s.tile x).sampleFault o = none → (∀ c w, who ≠ .peer c w) → o.spec = false →
      ∃ u r, exec (.requestRoute x id) s = .next u ∧ r ∈ u.net ∧ r.src = .tile x ∧ r.dst = who ∧ r.tenant = s.tenantOf x ∧ r.asid = o.asid ∧
        (u.tile x).op id = some { o with stage := .sent, dest := name } ∧ (u.tile x).sp = (s.tile x).sp ∧ (∀ k, u.home k = s.home k) ∧
        ((s.tile x).spills = [] → x < 768 → (u.die (dieOf x)).reserve = (s.die (dieOf x)).reserve - ruleRequestCost o) ∧
        (o.kind = .put ∨ o.kind = .putI → ∃ t, r.body = .put id t ∧ t.key = o.desc.key ∧ t.fmt = o.desc.fmt ∧
          t.pay = (let bs := (List.range o.desc.plen).map fun i => (s.tile x).sp.read (o.desc.addr + i)
            if o.kind = .put then .pool bs else .inline bs)) ∧
        (o.kind = .range → r.body = .rangeNew id o.desc.key o.desc.p2.toNat o.desc.p3.toNat) ∧
        (o.kind = .takeN → r.body = .rangeTake o.desc.key o.arg.toNat (.one (.tile x) id o.arg.toNat false)) ∧
        (o.kind = .ctrA → r.body = .ctrAdd o.arg o.prog (.one (.tile x) id o.prog false)) ∧
        (o.kind = .tcancel → r.body = .cancel id o.arg) ∧ (o.kind = .send → r.body = .packet o.packet (some id) none) ∧
        (∀ g, r.body = .get id g → o.kind ∈ [.readB, .readP, .readC, .takeB, .takeP, .takeC] → g.tmpl = o.desc.key ∧ g.care = o.desc.care ∧
          g.deadline = o.desc.deadline ∧ g.plen = o.desc.plen)) ∧
    (∀ st q th, s.destOf x o = .fail st → o.kind ∈ [.range, .accO, .accA, .ctrA, .tcancel, .send, .readP, .takeP] → hasWord o = false → o.gdDone = false →
      s.thr x q = some th → (s.tile x).slotOf o.cid = some q → th.cid = o.cid → th.wait ≠ .tuple id →
      ∃ u, exec (.requestRoute x id) s = .next u ∧ (u.tile x).op id = none ∧ u.net = s.net ∧ u.thr x q = some (th.land id o.rd (wrapN st)))) ∧
  (∀ (s z : State) (x tn space : Nat) (o : TOp) (r : Route), s.service = .full → (s.tile x).tenant = some tn →
    (s.tile x).ops.find? (fun o => o.stage == .queued && o.space == some space) = some o → (s.tile x).route tn space = none →
    (s.tile x).waitRoutes = [] → s.fetchRoute (dieOf x) tn o.asid space = (r, z) → z.tile x = s.tile x → r.tenant = tn → r.space = space →
    ∃ u, exec (.routeFetchDone (.tile x) tn space) s = .next u ∧ (u.tile x).route tn space = some r ∧ (u.tile x).sp = (s.tile x).sp) ∧
  (∀ (s : State) (m sp x : Nat) (a : Msg), s.Arrives m a → a.body = .routeInval sp → a.dst = .tile x → (s.tile x).tenant = some a.tenant →
    ∃ u, exec (.routeInvalidate m) s = .next u ∧ u.msg m = none ∧ (u.tile x).routes = (s.tile x).routes.filter (fun r => r.space != sp) ∧
      (u.tile x).sp = (s.tile x).sp) ∧
  (∀ (s : State) (a b : Msg) (h x y i j sw : Nat) (up ex ey : Bool), s.stopped = false → s.net = [a, b] → a.id ≠ b.id → a.dst = .home h → b.dst = .home h →
    a.tenant = b.tenant → a.hops = 0 → b.hops = 0 → s.meet h [.tile x] [.tile y] = some (sw, up) → s.combining sw < 16 →
    (∀ k n n', a.body = .rangeTake k n (.one (.tile x) i n ex) → b.body = .rangeTake k n' (.one (.tile y) j n' ey) → n + n' < 2 ^ 40 →
      ∃ u, exec (.switchCombine a.id b.id) s = .next u ∧
        u.net = if up then [{ a with body := .rangeTake k (n + n') (.two sw (.one (.tile x) i n ex) (.one (.tile y) j n' ey)) }]
          else [{ b with body := .rangeTake k (n' + n) (.two sw (.one (.tile y) j n' ey) (.one (.tile x) i n ex)) }]) ∧
    (∀ hd n n', a.body = .ctrAdd hd n (.one (.tile x) i n ex) → b.body = .ctrAdd hd n' (.one (.tile y) j n' ey) →
      ∃ u, exec (.switchCombine a.id b.id) s = .next u ∧
        u.net = if up then [{ a with body := .ctrAdd hd (n + n') (.two sw (.one (.tile x) i n ex) (.one (.tile y) j n' ey)) }]
          else [{ b with body := .ctrAdd hd (n' + n) (.two sw (.one (.tile y) j n' ey) (.one (.tile x) i n ex)) }])) ∧
  (∀ (s : State) (a : Msg) (b c st x y i j n n' sw : Nat) (f ex ey : Bool), s.stopped = false → s.net = [a] →
    a.body = .rangeReply b c st (.two sw (.one (.tile x) i n ex) (.one (.tile y) j n' ey)) f →
    let c1 := min n c
    let upper : Body := .rangeReply (if c1 = 0 then 0 else b) c1 (if c1 = 0 then 1 else st) (.one (.tile x) i n ex) f
    let lower : Body := .rangeReply (if c = c1 then 0 else b + c1) (c - c1) (if c = c1 then 1 else st) (.one (.tile y) j n' ey) f
    ∃ u, exec (.replySplit a.id) s = .next u ∧
      u.net = [{ a with dst := .tile x, body := upper }, { a with id := s.nextId, dst := .tile y, body := lower }])

/-- The events of the request network complete, each with its own effect, on conditions on the state and the operands alone. `REQUEST_ROUTE`: the
operation is queued, nothing of its thread is before it, its key's route leads to an agent of the package, the reserve covers a request (R278, R416).
`ROUTE_FETCH_DONE`: a queued request waits for the route of the space (R248), and a failed fetch is kept too (DEDUCED, log 34). `SWITCH_COMBINE`: two
requests of one kind on one cell of one home meet at a switch with a free record and nothing stands between them (R272); which switch that is follows
the model's omega wiring (DESIGN CHOICE, log 55). `REPLY_SPLIT`: the reply is to two askers combined (R273). `ROUTE_INVALIDATE`: the message has
arrived (R327). -/
def Obligations.RoutingCompletes : Prop :=
  (∀ (s : State) (x id name : Nat) (o : TOp) (who : Agent), s.stopped = false → (s.tile x).op id = some o → o.stage = .queued → isCopy o.kind = false →
    (s.tile x).mayRoute o = true → s.covers (dieOf x) (ruleRequestCost o) = true → s.destOf x o = .goes who name → (∀ c w, who ≠ .peer c w) →
    (s.tile x).sampleFault o = none →
    ∃ u r, exec (.requestRoute x id) s = .next u ∧ r ∈ u.net ∧ s.nextId ≤ r.id ∧ r.src = .tile x ∧ r.dst = who ∧ r.tenant = s.tenantOf x ∧ r.asid = o.asid ∧
      r.body = s.bodyOf x o ∧ (u.tile x).op id = some { o with stage := .sent, dest := name } ∧ (∀ m ∈ s.net, m ∈ u.net)) ∧
  (∀ (s : State) (x tn space : Nat) (o : TOp), s.service = .full → (s.tile x).tenant = some tn → (s.tile x).route tn space = none →
    (s.tile x).ops.find? (fun o => o.stage == .queued && o.space == some space) = some o → (s.tile x).waitRoutes = [] →
    ∃ u, exec (.routeFetchDone (.tile x) tn space) s = .next u ∧
      (u.tile x).route tn space = some (s.fetchRoute (dieOf x) tn o.asid space).1 ∧ (u.tile x).ops = (s.tile x).ops ∧ u.net = s.net) ∧
  (∀ (s : State) (m1 m2 h sw : Nat) (a b : Msg) (up : Bool), s.stopped = false → m1 ≠ m2 → s.msg m1 = some a → s.msg m2 = some b → a.dst = .home h →
    b.dst = .home h → a.tenant = b.tenant → a.hops = 0 → b.hops = 0 → s.meet h (askersOf a) (askersOf b) = some (sw, up) → s.combining sw < 16 →
    (∀ r ∈ s.net, r.id ≠ m1 → r.id ≠ m2 → sameWay a r = false ∧ sameWay b r = false) →
    let first := if up then a else b
    let gone := if up then m2 else m1
    (∀ k n1 n2 w1 w2, a.body = .rangeTake k n1 w1 → b.body = .rangeTake k n2 w2 → n1 + n2 < 2 ^ 40 →
      ∃ u, exec (.switchCombine m1 m2) s = .next u ∧ u.msg gone = none ∧
        u.msg first.id = some { first with body := .rangeTake k (n1 + n2) (if up then .two sw w1 w2 else .two sw w2 w1) }) ∧
    (∀ hd n1 n2 w1 w2, a.body = .ctrAdd hd n1 w1 → b.body = .ctrAdd hd n2 w2 →
      ∃ u, exec (.switchCombine m1 m2) s = .next u ∧ u.msg gone = none ∧
        u.msg first.id = some { first with body := .ctrAdd hd (n1 + n2) (if up then .two sw w1 w2 else .two sw w2 w1) })) ∧
  (∀ (s : State) (m sw b c st : Nat) (a : Msg) (w1 w2 : Comb) (f : Bool), s.stopped = false → s.msg m = some a → s.NoneHeld →
    (∀ k w, headAgent w1 ≠ .peer k w ∧ headAgent w2 ≠ .peer k w) →
    let goes (u : State) (who : Agent) (body : Body) : Prop := ∃ r ∈ u.net, r.src = a.src ∧ r.dst = who ∧ r.tenant = a.tenant ∧ r.body = body
    (a.body = .ctrReply st (.two sw w1 w2) f → ∃ u, exec (.replySplit m) s = .next u ∧ u.tiles = s.tiles ∧
      goes u (headAgent w1) (.ctrReply st w1 f) ∧ goes u (headAgent w2) (.ctrReply st w2 f)) ∧
    (a.body = .rangeReply b c st (.two sw w1 w2) f → askOf w1 + askOf w2 = c → 0 < askOf w1 → 0 < askOf w2 → ∃ u, exec (.replySplit m) s = .next u ∧
      u.tiles = s.tiles ∧ goes u (headAgent w1) (.rangeReply b (askOf w1) st w1 f) ∧
      goes u (headAgent w2) (.rangeReply (b + askOf w1) (askOf w2) st w2 f))) ∧
  (∀ (s : State) (m sp : Nat) (a : Msg), s.Arrives m a → a.body = .routeInval sp →
    (∀ x, a.dst = .tile x → (s.tile x).tenant = some a.tenant → ∃ u, exec (.routeInvalidate m) s = .next u ∧ u.msg m = none ∧
      (u.tile x).routes = (s.tile x).routes.filter (fun r => r.space != sp) ∧ u.homes = s.homes) ∧
    (∀ p n, a.dst = .host p n → p < 2 → ∃ u, exec (.routeInvalidate m) s = .next u ∧ u.msg m = none ∧
      (u.port p).routes = (s.port p).routes.filter (fun r => !(r.tenant == n && r.space == sp)) ∧ u.homes = s.homes))

/-- What a message does at its tile: a permit, a stream of payload, a delivery with its result word, a reply with its status, a packet for the ready
queue, the pager's answer. The scratchpad takes all bytes of a delivery with its last stream (DESIGN CHOICE, log 48). -/
def Obligations.TileMessages : Prop :=
  ∀ (s : State) (m x : Nat) (a : Msg), s.Arrives m a → a.dst = .tile x → (s.tile x).sp.wf → (s.tile x).bad = [] →
    let l := s.tile x
    (∀ op beats, a.body = .permit op beats → ∃ u, exec (.pathPermit m) s = .next u ∧ u.msg m = none ∧
      u.tile x = { l with permits := l.permits ++ [(op, beats, a.src)] }) ∧
    (∀ d o p, a.body = .deliver d → l.op d.op = some o → a.sent < d.bytes.length → l.permits.find? (fun p => p.1 == d.op) = some p →
      l.refuses o d = false →
      let n := min 16384 (d.bytes.length - a.sent)
      let cost := if isPeer a.src then 0 else receiveCost d n
      s.covers (dieOf x) cost = true → ∃ u, exec (.payloadStream m) s = .next u ∧ u.tile x = { l with permits := l.permits.erase p } ∧
        (u.die (dieOf x)).reserve = (s.die (dieOf x)).reserve - cost ∧
        u.msg m = some { a with sent := a.sent + n, body := if a.sent + n = d.bytes.length then .deliver { d with blks := [] } else a.body }) ∧
    (∀ d o t bs q th, a.body = .deliver d → l.op d.op = some o → d.bytes.length ≤ a.sent → l.refuses o d = false → d.tup = some t → t.pay = .inline bs →
      bs.length < 2 ^ 32 → d.packet = none → d.fwd = false → o.desc.flag fKb = false → o.desc.flag fSb = false → hasWord o = false → hasDesc o.kind = true → o.gdDone = false →
      l.stat (bankOf (o.dAddr + 0x78)) = false → s.thr x q = some th → l.slotOf o.cid = some q → th.cid = o.cid → th.spec = none → th.susp = false →
      th.spillBan = false →
      let n := bs.length
      let word := (if o.desc.plen < n then 2 ^ 40 else 0) + t.fmt % 32 * 2 ^ 32 + n
      ∃ u, exec (.tileDelivery m) s = .next u ∧ u.msg m = none ∧ (u.tile x).op o.id = none ∧
        u.thr x q = some (let th' := th.land o.id o.rd (wrapN d.status)
          if th.wait = .tuple o.id then { th' with wait := .none } else th') ∧
        (∀ k, (u.tile x).sp.read k =
          if o.dAddr + 0x78 ≤ k ∧ k < o.dAddr + 0x80 then BitVec.ofNat 8 (word / 256 ^ (k - (o.dAddr + 0x78)))
          else if o.desc.addr ≤ k ∧ k < o.desc.addr + d.bytes.length then d.bytes.getD (k - o.desc.addr) 0 else l.sp.read k) ∧
        (d.take = true → (∀ c w, a.src ≠ .peer c w) → ∃ r ∈ u.net, r.src = .tile x ∧ r.dst = a.src ∧ r.body = .tookAck d.op d.seq false)) ∧
    (∀ op st val f o q th, a.body = .reply op st val f → l.aux = [] → l.op op = some o → f = false → o.gdDone = false →
      s.thr x q = some th → l.slotOf o.cid = some q → th.cid = o.cid → th.wait ≠ .tuple op → th.spec = none →
      (o.kind ∈ [.range, .accO, .accA, .ctrA, .tcancel, .send, .readP, .takeP] → st ≤ 14 → hasWord o = false →
        ∃ u, exec (.tupleReply m) s = .next u ∧ u.msg m = none ∧ (u.tile x).op op = none ∧ (u.tile x).sp = l.sp ∧
          u.thr x q = some (th.land op o.rd (wrapN st))) ∧
      (o.kind = .ctrO → hasWord o = false → ∃ u, exec (.tupleReply m) s = .next u ∧ (u.tile x).op op = none ∧
        u.thr x q = some (th.land op o.rd (if st = 0 ∨ st = 11 then val else 0))) ∧
      (o.kind = .accA → hasWord o = true → l.stat (bankOf o.desc.cw) = false → (∀ z, th.wait ≠ .fe z true) →
        ∃ u, exec (.tupleReply m) s = .next u ∧ (u.tile x).op op = none ∧ u.thr x q = some (th.land op o.rd (wrapN st)) ∧
          (u.tile x).isFull o.desc.cw = true ∧ ∀ k, (u.tile x).sp.read k =
            if o.desc.cw ≤ k ∧ k < o.desc.cw + 8 then BitVec.ofNat 8 ((o.desc.ctag * 65536 + st) / 256 ^ (k - o.desc.cw)) else l.sp.read k)) ∧
    (∀ ws sender hd, a.body = .packet ws sender hd → a.sent = 0 →
      (l.tenant = some a.tenant → (sender = none ∨ pktCompute ws = false) → l.roomFor ws = true →
        ∃ u, exec (.readyQueueArrival m) s = .next u ∧ u.msg m = none ∧ (u.tile x).ready = l.ready ++ [⟨ws, l.age, l.readySeq⟩] ∧
          ∀ op, sender = some op → (∀ c w, a.src ≠ .peer c w) → ∃ r ∈ u.net, r.dst = a.src ∧ r.body = .reply op 0 0 false) ∧
      (l.tenant = some a.tenant → (sender = none ∨ pktCompute ws = false) → l.roomFor ws = false →
        ∃ u, exec (.readyQueueArrival m) s = .next u ∧ u.msg m = some { a with sent := 1 } ∧ (u.tile x).ready = l.ready) ∧
      (∀ op, l.tenant ≠ some a.tenant → sender = some op → (∀ c w, a.src ≠ .peer c w) →
        ∃ u, exec (.readyQueueArrival m) s = .next u ∧ u.msg m = none ∧ u.tile x = l ∧ ∃ r ∈ u.net, r.dst = a.src ∧ r.body = .reply op 10 0 false)) ∧
    (∀ ws sender hd, a.body = .packet ws sender hd → a.sent = 1 → l.tenant = some a.tenant → (sender = none ∨ pktCompute ws = false) →
      l.roomFor ws = true →
      ∃ u, exec (.heldPacketSend m) s = .next u ∧ u.msg m = none ∧ (u.tile x).ready = l.ready ++ [⟨ws, l.age, l.readySeq⟩]) ∧
    (∀ d t va line asid dst q th, a.body = .deliver d → d.bytes.length ≤ a.sent → l.aux.find d.op = some (.resolve va (.fetch line asid) dst) → d.tup = some t → d.status = 0 → d.take = false →
      natOfBytes (d.bytes.take 8) ≠ 0 → s.thr x q = some th → th.wait = .pager line → th.pc / 64 = line → th.pc % 8 = 0 → th.susp = false →
      th.spillBan = false →
      ∃ u, exec (.pageFaultResolved m) s = .next u ∧ u.msg m = none ∧ u.thr x q = some { th with wait := .none, fetchFault := some th.pc })

/-! Matrix banks (07_matrix.md). -/

/-- What each matrix instruction but the products does at its start, and what every one does at its end. That `MUNSTAT` of a free region costs nothing is
the model's choice (DESIGN CHOICE, log 79). -/
def Obligations.MatrixEvents : Prop :=
  ∀ (s : State) (x id : Nat) (o : MxOp), x < 768 →
    let l := s.tile x
    let g := o.ra.toNat % 8
    let r := l.region g
    let paid (u : State) (cost : Nat) : Prop := (u.die (dieOf x)).reserve = (s.die (dieOf x)).reserve - cost
    (o.kind = .macc → s.MxTurn x id o (r.nb * 20) →
      let n := o.ra.toNat / 8 % 2 == 1
      let op := o.ra.toNat / 16 % 4
      (r.st ≠ .ready ∨ op = 3 → ∃ u, exec (.mxStart x id) s = .next u ∧ paid u (if r.st = .free then 0 else r.nb * 20) ∧ (u.tile x).regions = l.regions ∧ (u.tile x).sp = l.sp ∧
        s.MxStarted u x id fun o' => o'.status = 10 ∧ o'.gd = 10) ∧
      (r.st = .ready → op ≠ 3 → ∃ u, exec (.mxStart x id) s = .next u ∧ paid u (r.nb * 20) ∧ (u.tile x).sp = l.sp ∧
        (u.tile x).region g = { r with act := if op = 0 then r.act else n, acc0 := if op ≠ 1 ∧ n = false then {} else r.acc0,
                                       acc1 := if op ≠ 1 ∧ n = true then {} else r.acc1 } ∧
        (∀ j, j ≠ g → (u.tile x).region j = l.region j) ∧ s.MxStarted u x id fun o' => o'.status = 0 ∧ o'.gd = 0)) ∧
    (o.kind = .mstatus → s.MxTurn x id o 0 → r.st ≠ .claimed → ∃ u, exec (.mxStart x id) s = .next u ∧ (u.tile x).regions = l.regions ∧
      (u.tile x).sp = l.sp ∧ s.MxStarted u x id fun o' => o'.status = 0 ∧
        o'.gd = if r.st = .free then 0 else wrapN (r.erow * 2 ^ 40 + r.ebank * 2 ^ 33 + r.lstat * 2 ^ 29 + (if r.pe then 2 ^ 28 else 0) +
          (if r.act then 2 ^ 27 else 0) + r.sparse * 2 ^ 25 + r.wfmt * 2 ^ 20 + (r.nb - 1) * 2 ^ 15 + (r.kb - 1) * 2 ^ 11 + r.b0 * 2 ^ 4 +
          (if r.st = .failed then 2 else 1))) ∧
    (o.kind = .munstat →
      (r.st = .free → s.MxTurn x id o 0 → ∃ u, exec (.mxStart x id) s = .next u ∧ (u.tile x).regions = l.regions ∧ (u.tile x).sp = l.sp ∧
        (u.tile x).full = l.full ∧ s.MxStarted u x id fun o' => o'.status = 10 ∧ o'.gd = 10) ∧
      (r.st ≠ .free → s.MxTurn x id o (r.kb * r.nb * 320) → ∃ u, exec (.mxStart x id) s = .next u ∧ paid u (r.kb * r.nb * 320) ∧ (u.tile x).sp = l.sp ∧
        (u.tile x).region g = { r with acc0 := {}, acc1 := {}, index := [], badLines := [] } ∧
        (∀ a, a < 2 ^ 20 → (u.tile x).isFull a = (l.isFull a && !(decide (r.b0 ≤ a / 8192) && decide (a / 8192 < r.b0 + r.kb * r.nb)))) ∧
        s.MxStarted u x id fun o' => o'.status = 0 ∧ o'.gd = 0)) ∧
    (o.kind = .mstat → l.bad = [] → s.MxTurn x id o (r.kb * r.nb * 320) →
      let tab := o.rb.toNat % 2 ^ 20
      let keep := if r.sparse = 1 then 8 else if r.sparse = 2 then 4 else 2
      let rows := if r.sparse = 1 then 128 else if r.sparse = 2 then 96 else 64
      let nib (b i : Nat) : Nat := (l.sp.read (tab + 64 * b + i / 2)).toNat / 16 ^ (i % 2) % 16
      let rises := ∀ b i, b < r.kb * r.nb → i < rows → i % keep ≠ 0 → nib b (i - 1) < nib b i
      let fresh : Region := { st := .ready, b0 := r.b0, kb := r.kb, nb := r.nb, wfmt := r.wfmt, sparse := r.sparse }
      (r.sparse = 0 → ∃ u, exec (.mxStart x id) s = .next u ∧ paid u (r.kb * r.nb * 320) ∧ (u.tile x).sp = l.sp ∧ (u.tile x).region g = fresh ∧
        s.MxStarted u x id fun o' => o'.status = 0 ∧ o'.gd = 0) ∧
      (r.sparse ∈ [1, 2, 3] → l.statIn tab (64 * (r.kb * r.nb)) = none → rises → ∃ u, exec (.mxStart x id) s = .next u ∧ (u.tile x).sp = l.sp ∧
        { (u.tile x).region g with index := [] } = fresh ∧
        (∀ b i, b < r.kb * r.nb → i < rows → (((u.tile x).region g).index.getD b []).getD i 0 = 16 * (i / keep) + nib b i) ∧
        s.MxStarted u x id fun o' => o'.status = 0 ∧ o'.gd = 0) ∧
      (r.sparse ∈ [1, 2, 3] → l.statIn tab (64 * (r.kb * r.nb)) = none → ¬ rises → ∃ u, exec (.mxStart x id) s = .next u ∧
        (u.tile x).region g = { fresh with st := .failed } ∧ s.MxStarted u x id fun o' => o'.status = 10 ∧ o'.gd = 10)) ∧
    (∀ q th, s.stopped = false → l.mxq.find? (fun o => o.id == id) = some o → o.started = true → o.due ≤ s.cycleOf x → l.sp.wf → o.region < 8 →
      s.thr x q = some th → l.slotOf o.cid = some q → th.cid = o.cid → th.spec = none → th.wait ≠ .tuple id →
      let rg := l.region o.region
      let left (u : State) : Prop := (u.tile x).mxq = l.mxq.filter (fun o => o.id != id) ∧
        (u.tile x).region o.region = if o.kind = .munstat ∧ o.status = 0 then {} else if o.status ≠ 0 ∧ rg.st ≠ .free then { rg with lstat := o.status } else rg
      (o.kind ∈ [.mstat, .munstat, .macc, .mstatus] → ∃ u, exec (.mxComplete x id) s = .next u ∧ left u ∧ (u.tile x).sp = l.sp ∧
        u.thr x q = some (th.land id o.rd o.gd)) ∧
      (∀ cw tag, o.kind ∈ [.mma, .mrd, .mrdv] → (∀ w, w < 4 → (l.win w).queue = [] ∧ (l.win w).busy = none) → o.cw = some (cw, tag) → l.bad = [] →
        l.stat (bankOf (o.ra.toNat % 2 ^ 20 + 0x30)) = false → l.stat (bankOf cw) = false → th.wait ≠ .fe (cw / 8 * 8) true →
        ∃ u, exec (.mxComplete x id) s = .next u ∧ left u ∧ (u.tile x).isFull cw = true ∧
          u.thr x q = some ({ th with fflags := th.fflags ||| o.flags }.land id 0 0) ∧
          ∀ k, (u.tile x).sp.read k =
            if cw ≤ k ∧ k < cw + 8 then BitVec.ofNat 8 ((tag.toNat * 65536 + o.status) / 256 ^ (k - cw))
            else if o.ra.toNat % 2 ^ 20 + 0x30 ≤ k ∧ k < o.ra.toNat % 2 ^ 20 + 0x38 then
              BitVec.ofNat 8 (o.gd.toNat / 256 ^ (k - (o.ra.toNat % 2 ^ 20 + 0x30)))
            else l.sp.read k))

/-- The products: an `MMA` of any activation format over a dense or sparse region adds the exact sum of products into each accumulator of its
rectangle and saturates there, records each row's exponent and NaN bit, and clears the rest of its set; an `MRD` writes its scaled outputs to scratchpad,
an `MRDV` hands them to its window. An output: the exact product of accumulator and scales rounded once, the bias, the conversion. -/
def Obligations.MatrixProducts : Prop :=
  (∀ (acc : Int) (nan : Bool) (sa sw bias : Option Nat) (e : Option Int), ∀ ofmt ∈ [0, 1, 2, 8, 9, 10, 11, 12],
    (∀ b ∈ sa.toList ++ sw.toList ++ bias.toList, b < 2 ^ 32) → OutputRule acc nan sa sw e bias ofmt (outputOf acc nan sa sw e bias ofmt)) ∧
  ∀ (s : State) (x id : Nat) (o : MxOp), x < 768 → (s.tile x).sp.wf → (s.tile x).bad = [] →
    let l := s.tile x
    let a := o.ra.toNat % 2 ^ 20
    let f := mxField l o
    let g := f 0 0 3
    let r := l.region g
    let M := f 0 8 4 + 1
    let N := f 0 16 14 + 1
    let set := r.act != (f 0 3 1 == 1)
    let acc := r.accOf set
    let fits := mxStatus l o (readMx (l.sp.bytes a 64)) = none ∧ f 4 0 20 % 8 = 0 ∧ f 4 0 20 + 8 ≤ 2 ^ 20 ∧ l.stat (bankOf (f 4 0 20)) = false
    let word (p : Nat) : Nat := l.sp.readN p 4
    let cw := some (f 4 0 20, wrapN (f 5 16 48))
    let scale (v : BitVec 21) (i : Nat) : Option Nat := if v.toNat / 2 ^ 20 = 1 then some (word (v.toNat % 2 ^ 20 / 4 * 4 + 4 * i)) else none
    let value (m c : Nat) : Nat × FFlags :=
      outputOf (acc.acc.at 0 (16384 * m + c)) (acc.nans.contains m) (scale o.scaleA m) (scale o.scaleW c)
        (acc.fmt.bind fun c => if c = 9 ∨ c = 10 then (acc.exps.find m).map (· - 10) else if c = 11 ∨ c = 12 then (acc.exps.find m).map (· - 6) else none)
        (if f 3 20 1 = 1 then some (word (f 3 0 20 + 4 * c)) else none) (f 2 52 5)
    let size := fmtWidth (f 2 52 5) / 8
    (o.kind = .mma → fits → r.sparse ≤ 3 → r.badLines = [] → s.MxTurn x id o (r.kb * r.nb * M * 16 * rulePlanes o.fmtA * 5) →
      let K := f 0 32 13 + 1
      let ovw := f 0 4 1 = 1
      let sat (z : Int) : Int := max (-2 ^ 31) (min z (2 ^ 31 - 1))
      ∃ u, ∃ (act : Nat → Nat → Int) (ex : Nat → Option Int) (nan clip : Nat → Bool), exec (.mxStart x id) s = .next u ∧ (u.tile x).sp = l.sp ∧
        (∀ m < M, StreamedRow l.sp o.fmtA K (f 1 0 20 + m * f 1 32 20) (if ovw then none else acc.exps.find m) (act m) (ex m) (nan m) (clip m)) ∧
        let v (m c : Nat) : Int := ruleProduct l r (act m) c + if ovw then 0 else acc.acc.at 0 (16384 * m + c)
        (u.die (dieOf x)).reserve = (s.die (dieOf x)).reserve - (r.kb * r.nb * M * 16 * rulePlanes o.fmtA * 5 : Nat) ∧
        (∀ m < 16, (((u.tile x).region g).accOf set).exps.find m = (if m < M then ex m else none) ∧
          ((((u.tile x).region g).accOf set).nans.contains m = true ↔ m < M ∧ (nan m = true ∨ (¬ ovw ∧ acc.nans.contains m = true)))) ∧
        (∀ m c, m < 16 → c < 16384 →
          (((u.tile x).region g).accOf set).acc.at 0 (16384 * m + c) = if m < M ∧ c < N then sat (v m c) else 0) ∧
        (((u.tile x).region g).accOf set).fmt = some o.fmtA ∧ ((u.tile x).region g).accOf (!set) = r.accOf (!set) ∧
        (∀ j, j ≠ g → (u.tile x).region j = l.region j) ∧
        s.MxStarted u x id fun o' => o'.gd = wrapN M ∧ o'.cw = cw ∧
          (o'.status = 0 ↔ ∀ m < M, clip m = false ∧ ∀ c < N, sat (v m c) = v m c) ∧ (o'.status = 0 ∨ o'.status = 13)) ∧
    (o.kind = .mrd → fits → acc.bad = [] → s.MxTurn x id o ((8 + M * ((N + 15) / 16)) * 5) → N * size ≤ f 2 32 20 ∨ M = 1 →
      ∃ u, exec (.mxStart x id) s = .next u ∧ (u.tile x).regions = l.regions ∧
        (∀ m c j, m < M → c < N → j < size →
          (u.tile x).sp.read (f 2 0 20 + m * f 2 32 20 + c * size + j) = BitVec.ofNat 8 ((value m c).1 / 256 ^ j)) ∧
        (∀ k, (∀ m, m < M → k < f 2 0 20 + m * f 2 32 20 ∨ f 2 0 20 + m * f 2 32 20 + N * size ≤ k) → (u.tile x).sp.read k = l.sp.read k) ∧
        s.MxStarted u x id fun o' => o'.gd = wrapN M ∧ o'.cw = cw ∧ o'.status = 0 ∧
          ∀ k, o'.flags.getLsbD k = true ↔ ∃ m c, m < M ∧ c < N ∧ (value m c).2.getLsbD k = true) ∧
    (o.kind = .mrdv → fits → acc.bad = [] →
      s.MxTurn x id o ((8 + M * ((N + 15) / 16)) * 5 + 8 * ((M * N * fmtWidth (f 2 52 5) + 1023) / 1024)) →
      ∃ u, exec (.mxStart x id) s = .next u ∧ (u.tile x).regions = l.regions ∧ (u.tile x).sp = l.sp ∧ (∀ w, ((u.tile x).win w).rows = (l.win w).rows) ∧
        s.MxStarted u x id fun o' => o'.gd = wrapN M ∧ o'.cw = cw ∧ o'.status = 0 ∧
          o'.writes = (List.range M).flatMap fun m => (List.range N).map fun c =>
            (m * N + c, 2 * fmtWidth (f 2 52 5) + (if f 2 52 5 < 4 then 1 else 0), (value m c).1))

/-! The copy engine (09_tuple_instr.md, 10_spanning.md, 13_system.md). -/

/-- A copy is judged, moves its bytes between region and scratchpad, and ends with its words and its register; a freeze takes effect; a translation
invalidation completes. The copy agent of the target package: a violation answers REMOTE, a write stores its bytes, a read answers with them. A remote
copy leaves on the context toward home number 0 (DESIGN CHOICE, log 22), and the home that the context names does the work of every page (DESIGN CHOICE,
log 60). -/
def Obligations.CopyEngine : Prop :=
  (∀ (s : State) (x id : Nat) (o : TOp), s.stopped = false → (s.tile x).op id = some o → o.id = id → (s.tile x).sp.wf → s.dram.wf → (s.tile x).bad = [] →
    let l := s.tile x
    let tn := s.tenantOf x
    let va := o.desc.key.toNat % 2 ^ 48
    let n := o.desc.plen
    let block := copyBlock o.desc.fmt
    let ended (u : State) (st v p : Nat) : Prop :=
      (u.tile x).op id = some { o with stage := .ended st (wrapN v), prog := p, performed := true } ∧ u.net = s.net ∧
      ∀ q th, s.thr x q = some th → l.slotOf o.cid = some q → th.spec = none →
        u.thr x q = some { th with ecost := BitVec.ofNat 32 (min ((copyCost o + 1) / 2) 0xFFFFFFFF) }
    (isCopy o.kind = true → o.stage = .queued → l.copies < 256 → s.covers (dieOf x) (copyCost o) = true →
      let go (p : State → Prop) : Prop := ∃ u, exec (.copyStart x id) s = .next u ∧ p u
      (n = 0 → go fun u => ended u 0 0 0 ∧ (u.tile x).sp = l.sp ∧ u.dram = s.dram) ∧
      (n ≠ 0 → n % block ≠ 0 → go fun u => ended u 10 va 0 ∧ (u.tile x).sp = l.sp ∧ u.dram = s.dram) ∧
      (n ≠ 0 → n % block = 0 → s.service = .full →
        (o.kind ≠ .copyr → tokKind o.desc.token = 1 → s.frozenAt tn o.desc.token = none →
          go fun u => ended u 4 va 0 ∧ (u.tile x).sp = l.sp ∧ u.dram = s.dram) ∧
        (∀ p w0 w1, s.regionWords tn (tokRegion o.desc.token) = some (p, w0, w1) →
          (tokKind o.desc.token = 1 → (s.frozenAt tn o.desc.token).isSome = true) → o.kind ≠ .copyr →
          (va < rgBase w0 ∨ rgBase w0 + rgSize w1 < va + n → go fun u => ended u 10 va 0 ∧ (u.tile x).sp = l.sp ∧ u.dram = s.dram) ∧
          (∀ ph, rgBase w0 ≤ va → va + n ≤ rgBase w0 + rgSize w1 → l.statIn o.desc.addr n = none → s.dramBad = [] →
            (o.kind = .copyin → s.Mapped (dieOf x) tn o.asid va n pR ph → go fun u => ended u 0 n n ∧ u.dram = s.dram ∧
              ∀ k, (u.tile x).sp.read k = if o.desc.addr ≤ k ∧ k < o.desc.addr + n then s.dram.read (ph (k - o.desc.addr)) else l.sp.read k) ∧
            (o.kind = .copyout → s.Mapped (dieOf x) tn o.asid va n pW ph → go fun u => ended u 0 n n ∧ (u.tile x).sp = l.sp ∧
              (∀ i, i < n → u.dram.read (ph i) = l.sp.read (o.desc.addr + i)) ∧
              ∀ k, (∀ i, i < n → k ≠ ph i) → u.dram.read k = s.dram.read k))) ∧
        (o.kind = .copyr → ∀ c, s.contextTo (dieOf x) tn (tokPkg o.desc.token) 0 = some c →
          go fun u => u.Left (.tile x) (.peer c 0) (.remoteCopy id ⟨o.desc.token, va, n, block, o.desc.flag fDir, [], s.tileName x⟩) ∧
            (u.tile x).sp = l.sp ∧ u.dram = s.dram ∧ ∃ o', (u.tile x).op id = some o' ∧ o'.stage = .sent))) ∧
    (∀ q th, s.thr x q = some th → l.slotOf o.cid = some q → th.cid = o.cid → th.spec = none → th.wait ≠ .tuple id → o.gdDone = false →
      (∀ st r, isCopy o.kind = true → o.stage = .ended st r → l.stat (bankOf (o.dAddr + 0x78)) = false → l.stat (bankOf o.desc.cw) = false →
        th.wait ≠ .fe (o.desc.cw / 8 * 8) true →
        ∃ u, exec (.copyComplete x id) s = .next u ∧ (u.tile x).op id = none ∧ u.thr x q = some (th.land id o.rd (wrapN st)) ∧
          (o.desc.flag fNcw = false → (u.tile x).isFull o.desc.cw = true) ∧
          ∀ k, (u.tile x).sp.read k =
            if o.desc.flag fNcw = false ∧ o.desc.cw ≤ k ∧ k < o.desc.cw + 8 then
              BitVec.ofNat 8 ((o.desc.ctag * 65536 + st) / 256 ^ (k - o.desc.cw))
            else if o.dAddr + 0x78 ≤ k ∧ k < o.dAddr + 0x80 then BitVec.ofNat 8 (r.toNat / 256 ^ (k - (o.dAddr + 0x78)))
            else l.sp.read k) ∧
      (o.kind = .freeze → (∀ p ∈ l.ops.takeWhile (fun p => p.id != id), isCopy p.kind = true → p.desc.token ≠ o.arg) → s.covers (dieOf x) 300 = true →
        ∀ p w0 w1, s.regionWords tn (tokRegion o.arg) = some (p, w0, w1) →
        (rgState w1 = 1 → rgGen w1 = tokGen o.arg → tokPkg o.arg = s.pkg.toNat → tokTenant o.arg = tn → ∃ u, exec (.freezeEffect x id) s = .next u ∧ (u.tile x).op id = none ∧
          u.dram.readN (p + 8) 8 = w1.toNat + 2 ^ 32 ∧ (∀ k, k < p + 8 ∨ p + 16 ≤ k → u.dram.read k = s.dram.read k) ∧
          u.thr x q = some { th.land id o.rd (o.arg ||| 0x400000) with ecost := 150 }) ∧
        (rgState w1 ≠ 1 ∨ rgGen w1 ≠ tokGen o.arg ∨ tokPkg o.arg ≠ s.pkg.toNat ∨ tokTenant o.arg ≠ tn → ∃ u, exec (.freezeEffect x id) s = .next u ∧ (u.tile x).op id = none ∧ u.dram = s.dram ∧
          u.thr x q = some { th.land id o.rd 0 with ecost := 150 })) ∧
      (o.kind = .tlbinv → (∀ e ∈ s.homes, e.2.splitSrc = none) → ∃ u, exec (.tlbinvComplete x id) s = .next u ∧ (u.tile x).op id = none ∧
        (u.tile x).sp = l.sp ∧ u.thr x q = some (th.land id o.rd 0)))) ∧
  (∀ (s : State) (m h op : Nat) (a : Msg) (c : RemoteCopy), s.Arrives m a → a.dst = .home h → a.body = .remoteCopy op c → s.dram.wf →
    let d := match a.src with
      | .peer k _ => peerPort (s.peer k) / 2
      | _ => h / 8
    let lines := if c.len = 0 then 0 else (c.va + c.len - 1) / 64 - c.va / 64 + 1
    s.covers d (2000 * lines) = true →
    (∀ cause va, s.violation a.tenant c = some (cause, va) → ∃ u, exec (.remoteCopyAgent m) s = .next u ∧ u.msg m = none ∧
      u.Left (.home h) a.src (.remoteData op [] c.block 12 c.va) ∧ u.dram = s.dram) ∧
    (s.violation a.tenant c = none → s.service = .reduced → ∃ u, exec (.remoteCopyAgent m) s = .next u ∧ u.msg m = none ∧
      u.Left (.home h) a.src (.remoteData op [] c.block 7 c.va) ∧ u.dram = s.dram) ∧
    (s.violation a.tenant c = none → s.service = .full → 0 < c.block → c.block ≤ 17 → c.len % c.block = 0 →
      (c.write = true → c.bytes = [] → ∃ u, exec (.remoteCopyAgent m) s = .next u ∧ u.msg m = none ∧ u.Left (.home h) a.src (.reply op 0 0 false) ∧
        u.dram = s.dram) ∧
      (∀ ph, c.write = true → c.bytes ≠ [] → c.bytes.length = c.len → s.Mapped d a.tenant (s.afirst a.tenant) c.va c.len pW ph →
        ∃ u, exec (.remoteCopyAgent m) s = .next u ∧ u.msg m = none ∧ u.Left (.home h) a.src (.remoteData op [] c.block 0 0) ∧
          (∀ i, i < c.len → u.dram.read (ph i) = c.bytes.getD i 0) ∧ ∀ k, (∀ i, i < c.len → k ≠ ph i) → u.dram.read k = s.dram.read k) ∧
      (∀ ph, c.write = false → s.dramBad = [] → s.Mapped d a.tenant (s.afirst a.tenant) c.va c.len pR ph →
        ∃ u, exec (.remoteCopyAgent m) s = .next u ∧ u.msg m = none ∧ u.dram = s.dram ∧
          u.Left (.home h) a.src (.remoteData op ((List.range c.len).map fun i => s.dram.read (ph i)) c.block 0 0))))

/-! Splits and launches (10_spanning.md, 12_tasks.md). -/

/-- A split from its request to its cut-over: acceptance or refusal, reservation at the target, the copies and their invalidation, the exchange of the
moving half with the new descriptor words and the invalidations, and the ways in which it is abandoned. The maps of handles at both ends are the
model's (DESIGN CHOICE, log 22). -/
def Obligations.SplitEvents : Prop :=
  (∀ (s : State) (m h : Nat) (a : Msg), s.Arrives m a → a.dst = .home h →
    let v := s.home h
    let me := Agent.home h
    (∀ r z, a.body = .split r →
      (∀ st, (s.dropMsg m).judgeSplit h a.tenant r = (.error st, z) → ∃ u, exec (.homeSplitRequest m) s = .next u ∧
        u.Left me a.src (.splitDone r.op 0 0 st) ∧ u.home h = z.home h) ∧
      (∀ mid hi rf z' p k dst, (s.dropMsg m).judgeSplit h a.tenant r = (.ok (mid, hi, rf), z) →
        z.xlate (h / 8) a.tenant (z.afirst a.tenant) (recRoute (z.tenantRec a.tenant) + 16 * r.space) pW = (.ok p k, z') →
        z'.homeAgent (h / 8) a.tenant r.target.toNat = some dst →
        let sp : SplitSrc := ⟨r, a.src, a.tenant, mid, hi, rf, false, [], [], some p, 0⟩
        ∃ u, exec (.homeSplitRequest m) s = .next u ∧ u.home h = { z'.home h with splitSrc := some sp } ∧
          u.Left me dst (.splitAsk r mid hi rf ((z'.home h).splitRoom sp)))) ∧
    (∀ r mid hi rf n, a.body = .splitAsk r mid hi rf n →
      let room := if v.splitSrc.isNone && v.inert.isNone && v.indexRoom (n.tuples + n.cells) && v.watchRoom (n.waits + n.watches) then
        (s.dropMsg m).poolRoom h a.tenant (n.blks ++ n.cblks) else none
      ∃ u, exec (.splitTargetReply m) s = .next u ∧ u.msg m = none ∧ u.Left me a.src (.splitAnswer room.isSome) ∧
        u.home h = match room with
        | some bl => { v with inert := some ⟨a.tenant, r, mid, hi, rf, a.src, [], [], n.tuples, n.cells, n.waits, n.watches, bl.take n.blks.length,
            bl.drop n.blks.length⟩ }
        | none => v) ∧
    (∀ sp, v.splitSrc = some sp → s.splitTarget h sp = some a.src →
      (a.body = .splitAnswer false → sp.copying = false → ∃ u, exec (.splitTargetReply m) s = .next u ∧ u.home h = { v with splitSrc := none } ∧
        u.Left me sp.tile (.splitDone sp.req.op 0 0 7)) ∧
      (a.body = .splitAnswer true → sp.copying = false → ∃ u sp', exec (.splitTargetReply m) s = .next u ∧
        u.home h = { v with splitSrc := some sp' } ∧ sp'.copying = true ∧ sp'.phys = sp.phys ∧
        (let n := v.splitRoom sp
         let more := decide (0 < n.cells + n.watches)
         sp'.unacked = sp.unacked + n.tuples + n.waits + more.toNat ∧ (more = true → u.Left me a.src (.splitMore n))) ∧
        (∀ e ∈ v.entries, moving sp e.tenant e.key = true → isTup e.cell = true → u.Left me a.src (.splitEntry e)) ∧
        ∀ w ∈ v.watches, moving sp w.tenant w.get.tmpl = true → w.kind ≠ .spec → w.kind ≠ .reg →
          u.Left me a.src (.splitWatch w (if w.due = 0 then 0 else max 1 (w.due - (s.die (h / 8)).cycle.toNat)))) ∧
      (a.body = .splitAck → sp.copying = true → ∃ u, exec (.splitTargetReply m) s = .next u ∧ u.msg m = none ∧
        u.home h = { v with splitSrc := some { sp with unacked := sp.unacked - 1 } }) ∧
      (∀ st, a.body = .splitFull st → sp.copying = true → ∃ u, exec (.targetRoomExhausted m) s = .next u ∧
        u.home h = { v with splitSrc := none } ∧ u.Left me a.src (.splitAnswer false) ∧ u.Left me sp.tile (.splitDone sp.req.op 0 0 st))) ∧
    (∀ maps, a.body = .splitMap maps → ∃ u, exec (.splitTargetReply m) s = .next u ∧ u.msg m = none ∧
      u.home h = { v with forwards := v.forwards.map fun f => f.learn maps }) ∧
    (∀ i, v.inert = some i → i.src = a.src →
      (∀ e, a.body = .splitEntry e →
        let room := if decide (i.entries.length < i.room) || v.indexRoom 1 then (s.dropMsg m).inertRoom h i.tenant (e.blks.map Blk.size) i.blks else none
        (room = none → ∃ u, exec (.splitCopyRx m) s = .next u ∧ u.home h = v ∧ u.Left me a.src (.splitFull 7)) ∧
        (∀ bl rest, room = some (bl, rest) → ∃ u p g i', exec (.splitCopyRx m) s = .next u ∧ u.msg m = none ∧ (u.home h).inert = some i' ∧
          i'.entries = i.entries ++ [(e.place, { e with place := p, gen := g, tenant := i.tenant, seq := v.insSeq, blks := bl, old := some e.seq })] ∧
          i'.watches = i.watches ∧ i'.blks = rest ∧ (u.home h).insSeq = (v.insSeq + 1) % 2 ^ 64 ∧ (u.home h).entries = v.entries ∧
          u.Left me a.src .splitAck)) ∧
      (∀ w left bl rest, a.body = .splitWatch w left → (decide (i.watches.length < i.wroom) || v.watchRoom 1) = true →
        (s.dropMsg m).inertRoom h i.tenant (w.blks.map Blk.size) i.blks = some (bl, rest) →
        let due := if left = 0 then 0 else (s.die (h / 8)).cycle.toNat + left
        ∃ u p g i', exec (.splitCopyRx m) s = .next u ∧ u.msg m = none ∧ (u.home h).inert = some i' ∧ i'.entries = i.entries ∧ i'.blks = rest ∧
          i'.watches = i.watches ++ [(watchHandle w (s.homeOfAgent a.src),
            { w with place := p, gen := g, tenant := i.tenant, arr := v.arrSeq, due := due, blks := bl })] ∧
          (u.home h).watches = v.watches ∧ u.Left me a.src .splitAck) ∧
      (∀ cells specs, a.body = .splitMark cells specs → ∃ u, exec (.splitCutoverMark m) s = .next u ∧ u.msg m = none ∧ (u.home h).inert = none ∧
        (∀ e ∈ v.entries, e ∈ (u.home h).entries) ∧ (∀ e ∈ i.entries, e.2 ∈ (u.home h).entries) ∧ (∀ w ∈ v.watches, w ∈ (u.home h).watches) ∧
        (∀ w ∈ i.watches, w.2 ∈ (u.home h).watches) ∧
        (∃ maps, (u.home h).moved = v.moved ++ maps ∧ u.Left me a.src (.splitMap maps)) ∧
        ∀ c ∈ cells, ∃ e ∈ (u.home h).entries, e.tenant = i.tenant ∧ e.key = c.key ∧ e.cell = c.cell ∧
          (entryHandle c (s.homeOfAgent a.src), entryHandle e (s.homeName h)) ∈ (u.home h).moved)) ∧
    (∀ place, a.body = .splitInval true place → ∃ u, exec (.splitInvalidateRx m) s = .next u ∧ u.msg m = none ∧
      u.home h = { v with inert := v.inert.map fun i => { i with entries := i.entries.filter fun e => e.1 != place } })) ∧
  (∀ (s : State) (h p : Nat) (sp : SplitSrc) (dst : Agent), s.stopped = false → (s.home h).splitSrc = some sp → sp.copying = true →
    sp.unacked = 0 → sp.phys = some p → s.splitTarget h sp = some dst → s.dram.wf → sp.req.nentm < 64 →
    let v := s.home h
    let mine (e : Entry) : Bool := moving sp e.tenant e.key
    let cells := v.entries.filter fun e => mine e && !isTup e.cell
    let old := s.dram.readN p 8
    ∃ u f, exec (.cutOver h) s = .next u ∧ (u.home h).entries = v.entries.filter (fun e => !mine e) ∧
      (u.home h).watches = v.watches.filter (fun w => !moving sp w.tenant w.get.tmpl) ∧ (u.home h).splitSrc = none ∧
      (u.home h).forwards = v.forwards ++ [f] ∧ f.tenant = sp.tenant ∧ f.space = sp.req.space ∧ f.lo = sp.mid ∧ f.hi = sp.hi ∧ f.target = sp.req.target ∧
      (∀ c ∈ cells, (entryHandle c (s.homeName h), entryHandle c (s.homeName h)) ∈ f.handles) ∧
      (∃ specs, u.Left (.home h) dst (.splitMark cells specs)) ∧
      u.Left (.home h) sp.tile (.splitDone sp.req.op (v.entries.filter mine).length sp.mid 0) ∧
      (∀ y, (s.tile y).tenant = some sp.tenant → u.Left (.home h) (.tile y) (.routeInval sp.req.space)) ∧
      (∀ k, u.dram.read k =
        if p ≤ k ∧ k < p + 8 then BitVec.ofNat 8 ((old / 2 ^ 46 * 2 ^ 46 + sp.req.nentm * 2 ^ 40 + old % 2 ^ 40) / 256 ^ (k - p))
        else if p + 8 ≤ k ∧ k < p + 16 then BitVec.ofNat 8 (sp.req.ntbase / 256 ^ (k - (p + 8))) else s.dram.read k))

/-- A launch unit: its waiter is served and entered again, the launch is checked and waits its turn; it is admitted once the reserve holds its
estimate, then makes its range cell or sends its packets; a lost waiter is tried again. The check refuses in exactly the cases of R372; the packets are
those of R373. With no launch under way the event leaves the state (DEDUCED, log 45). -/
def Obligations.LaunchEvents : Prop :=
  (∀ (s : State) (d tn : Nat) (key : Key) (bs : List Byte), keyField key 1 = d →
    (s.launchBad d tn key bs = true ↔ s.LaunchRefused tn d bs) ∧ (¬ s.LaunchRefused tn d bs → s.LaunchPackets tn bs (s.launchCopies tn bs)) ∧
    ((s.tiles.map Prod.fst).Pairwise (· < ·) → (s.tileList tn).Pairwise (· < ·) ∧ ∀ x, x ∈ s.tileList tn ↔ (s.tile x).tenant = some tn)) ∧
  (∀ (s : State) (m d : Nat) (a : Msg) (v : Delivery), s.Arrives m a → d < 4 → a.dst = .launch d → a.body = .deliver v →
    (s.die d).launch.waiters.find a.tenant = some v.op →
    let tn := a.tenant
    let l := s.die d |>.launch
    (v.tup = none → ∃ u, exec (.launchTake m) s = .next u ∧ u.msg m = none ∧ (u.die d).launch.waiters.find tn = none ∧ tn ∈ (u.die d).launch.failed ∧
      (u.die d).launch.retryAt = (s.die d).cycle.toNat + 10 * s.usCycles ∧ (u.die d).launch.queue = l.queue) ∧
    (∀ t dst z, v.tup = some t → v.status = 0 → l.cur = none → l.queue = [] →
      (s.dropMsg m).routeKey d tn (s.afirst tn) (s.launchGet d tn).tmpl (s.launchGet d tn).care = (some dst, z) →
      let entered (u : State) : Prop := ∃ op, (u.die d).launch.waiters.find tn = some op ∧ u.Left (.launch d) dst (.get op (s.launchGet d tn))
      (s.launchBad d tn t.key v.bytes = false → ∃ u, exec (.launchTake m) s = .next u ∧ entered u ∧ (u.die d).launch.queue = [] ∧
        (u.die d).launch.cur = some ⟨tn, t.key, v.bytes, none, false, s.launchCopies tn v.bytes⟩) ∧
      (∀ y, s.launchBad d tn t.key v.bytes = true → 0x38 ≤ v.bytes.length → s.tileOf (natOfBytes ((v.bytes.drop 0x28).take 4)) = some y →
        (s.tile y).tenant = some tn →
        ∃ u, exec (.launchTake m) s = .next u ∧ entered u ∧ (u.die d).launch.queue = [] ∧ (u.die d).launch.cur = none ∧
          u.Left (.launch d) (.tile y) (.packet [wrapN (natOfBytes ((v.bytes.drop 0x30).take 6) * 65536 + 3 * 2048 + 3 * 64 + 4),
            wrapN (keyField t.key 2), 10, 0] none none)))) ∧
  (∀ (s : State) (d : Nat), s.stopped = false → d < 4 →
    let l := (s.die d).launch
    (l.cur = none → l.queue = [] → exec (.launchAdmit d) s = .next s) ∧
    (∀ c, l.cur = some c →
      (c.started = true → l.queue = [] → (∀ r ∈ s.net, r.src ≠ .launch d) → ∃ u, exec (.launchAdmit d) s = .next u ∧
        (u.die d).launch = { l with cur := none } ∧ u.net = s.net) ∧
      (c.started = false → c.cell = none →
        let word (i n : Nat) : Nat := natOfBytes ((c.payload.drop (8 * i)).take n)
        let ready := s.covers d (word 4 4 * 2000000)
        (ready = true → word 1 8 ≤ word 0 8 → ∃ u, exec (.launchAdmit d) s = .next u ∧ (u.die d).launch.cur = some { c with started := true, copies := [] } ∧
          u.tiles = s.tiles ∧ ∀ p ∈ c.copies, u.Left (.launch d) (.tile p.1) (.packet p.2 none none)) ∧
        (∀ dst z, ready = true → word 0 8 < word 1 8 → s.routeKey d c.tenant (s.afirst c.tenant) (c.key ||| 0x10000) (BitVec.allOnes 256) = (some dst, z) →
          ∃ u op, exec (.launchAdmit d) s = .next u ∧ (u.die d).launch.cur = some { c with cell := some op } ∧
            u.Left (.launch d) dst (.rangeNew op (c.key ||| 0x10000) (word 0 8) (word 1 8))) ∧
        (ready = false → exec (.launchAdmit d) s = .next s)))) ∧
  (∀ (s z : State) (d tn : Nat) (dst : Agent), s.service = .full → d < 4 → s.hasTiles d tn = true → (s.die d).launch.waiters.find tn = none →
    (s.die d).launch.retryAt ≤ (s.die d).cycle.toNat →
    s.routeKey d tn (s.afirst tn) (s.launchGet d tn).tmpl (s.launchGet d tn).care = (some dst, z) →
    ∃ u op, exec (.launchWaiterRetry d tn) s = .next u ∧ (u.die d).launch.waiters.find tn = some op ∧
      u.Left (.launch d) dst (.get op (s.launchGet d tn)))

/-! The spire link and the host ports (10_spanning.md, 14_device.md). -/

/-- The spire link: what is dropped, staged and placed, when a message is handed on, acknowledgements and retransmission, the context cache, failure,
and the link itself. Read from the rules: a frame that is not accepted is dropped without a count (DEDUCED, log 57), an event before its time or on a
link that is down does nothing (DEDUCED, log 45), the notice of a failed context is put in the launch unit's name (DEDUCED, log 40). -/
def Obligations.SpireEvents : Prop :=
  ∀ (s : State), s.stopped = false →
    (∀ port k, let i := s.spirePort port
      let p := s.peer k.rctx
      let c := k.rctx
      ∀ ev : Instr, ev = .spirePacketRx port k ∨ ev = .spireAckRx port k →
      (i.up = false → exec ev s = .next s) ∧
      (i.up = true → k.bad = true → exec ev s = .next (s.modBelfry fun b => { b with fragmentDrops := b.fragmentDrops + 1 })) ∧
      (i.up = true → k.bad = false →
        (k.ver ≠ 1 ∨ k.type = .other ∨ i.accepts k = false ∨ peerValid p = false ∨ peerPort p ≠ port → exec ev s = .next s) ∧
        (k.ver = 1 → k.type ≠ .other → i.accepts k = true → peerValid p = true → peerPort p = port →
          (p.cached = false → s.staging < 512 → ∃ u, exec ev s = .next u ∧ u.peer c = { p with waiting := p.waiting ++ [(s.peerNow c, k)] } ∧ u.staging = s.staging + 1 ∧
            u.net = s.net) ∧
          (p.cached = false → 512 ≤ s.staging → exec ev s = .next (s.modBelfry fun b => { b with stagingDrops := b.stagingDrops + 1 })) ∧
          (p.cached = true → k.type ≠ .ack → psnBefore k.psn p.rxNext = true ∨ p.rxSeen.contains k.psn = true → exec ev s = .next s) ∧
          (∀ b, p.cached = true → k.type = .request ∨ k.type = .reply → k.psn = p.rxNext → p.rxSeen = [] → p.parts = [] → k.msn = p.rxMsn →
            k.plen = k.mlen → p.ackCount < 15 → k.body = some b → bodyType b.body ≠ .data → (∀ d, b.body ≠ .deliver d) → (∀ c w, b.dst ≠ .peer c w) →
            s.covers (port / 2) (farCost b.body) = true → ∃ u, exec ev s = .next u ∧ (u.peer c).rxNext = (p.rxNext + 1) % 2 ^ 32 ∧ (u.peer c).rxMsn = (p.rxMsn + 1) % 2 ^ 32 ∧
              (u.peer c).ackCount = p.ackCount + 1 ∧ (u.peer c).ackDue = some (p.ackDue.getD (s.peerNow c + 2 * s.usCycles)) ∧
              ∃ r ∈ u.net, s.nextId ≤ r.id ∧ r.src = .peer c (agentNo b.src) ∧ r.dst = b.dst ∧ r.tenant = peerTenant p ∧ r.body = farBody k.sctx c b.body) ∧
          (p.cached = true → k.type = .ack → p.txq = [] → s.NoneHeld →
            let got (n : Nat) : Prop := psnBefore n k.psn = true ∨ ∃ j, j < 256 ∧ k.acks.getLsbD j = true ∧ (k.psn + 1 + j) % 2 ^ 32 = n % 2 ^ 32
            let lost (n : Nat) : Prop := ∃ j, j < 256 ∧ k.acks.getLsbD j = true ∧ psnBefore n ((k.psn + 1 + j) % 2 ^ 32) = true ∧
              4 ≤ ((k.psn + 1 + j) % 2 ^ 32 + 2 ^ 32 - n) % 2 ^ 32
            ∃ u, exec ev s = .next u ∧ (∀ v ∈ p.window, v.pkt.psn < 2 ^ 32 → k.psn < 2 ^ 32 →
              ((∃ v' ∈ (u.peer c).window, v'.pkt = v.pkt) ↔ ¬ got v.pkt.psn) ∧
              (¬ got v.pkt.psn → lost v.pkt.psn → port < 8 → (∀ d, ((p.window.map fun v => packetCost v.pkt).sum : Nat) ≤ (s.die d).reserve) →
                v.pkt ∈ (u.spirePort port).out)) ∧ u.net = s.net)))) ∧
    (∀ c, let p := s.peer c
      (peerValid p = true → p.cached = false → p.waiting = [] → p.txq = [] → (∀ v ∈ p.window, v.again = false) → (s.peers.filter fun e => peerValid e.2 && e.2.cached).length < 4096 →
        ∃ u used, exec (.spireContextFetched c) s = .next u ∧ u.peer c = { p with cached := true, used := used } ∧ u.staging = s.staging) ∧
      (∀ t, p.ackDue = some t →
        (s.peerNow c < t → p.ackCount < 16 → exec (.spireAckTimer c) s = .next s) ∧
        (t ≤ s.peerNow c → s.covers (peerPort p / 2) (100 * 64) = true → peerPort p < 8 → (s.spirePort (peerPort p)).up = true → ∃ u k, exec (.spireAckTimer c) s = .next u ∧
          u.peer c = { p with ackDue := none, ackCount := 0 } ∧ (u.spirePort (peerPort p)).out = (s.spirePort (peerPort p)).out ++ [k] ∧ k.type = .ack ∧
          k.psn = p.rxNext ∧ k.net.dstPort = (s.spirePort (peerPort p)).udp.toNat ∧ k.net.srcMac = (s.spirePort (peerPort p)).mac ∧ ∀ j, j < 256 → k.acks.getLsbD j = p.rxSeen.contains ((p.rxNext + 1 + j) % 2 ^ 32))) ∧
      (∀ n v, p.window = [v] → v.pkt.psn = n →
        (s.peerNow c < v.due → exec (.spireRetxTimeout c n) s = .next s) ∧
        (v.due ≤ s.peerNow c → v.expiries < 15 → peerPort p < 8 → (s.spirePort (peerPort p)).up = true → p.cached = true → p.txq = [] →
          let waits : Unacked := ⟨v.pkt, v.expiries + 1, s.peerNow c + min (10 * 2 ^ (v.expiries + 1)) 1280 * s.usCycles, false⟩
          (s.covers (packetDie p v.pkt) (packetCost v.pkt) = true → ∃ u, exec (.spireRetxTimeout c n) s = .next u ∧ (u.peer c).window = [waits] ∧
            (u.spirePort (peerPort p)).out = (s.spirePort (peerPort p)).out ++ [v.pkt]) ∧
          (s.covers (packetDie p v.pkt) (packetCost v.pkt) = false → ∃ u, exec (.spireRetxTimeout c n) s = .next u ∧
            (u.peer c).window = [{ waits with again := true }] ∧ (u.spirePort (peerPort p)).out = (s.spirePort (peerPort p)).out)) ∧
        (v.due ≤ s.peerNow c → 15 ≤ v.expiries → p.txq = [] → v.pkt.body = none → s.service = .reduced → s.tileList (peerTenant p) = [] → s.pkg ≠ 0xFFFF →
          p.asked = [] → s.NoneHeld → (∀ e ∈ s.homes, e.2.splitSrc = none ∧ e.2.inert = none) →
          ∃ u op t, exec (.spireRetxTimeout c n) s = .next u ∧ u.peer c = { words := p.words, cached := p.cached, used := p.used, failed := true } ∧
            t.key = keyOf [0x3FFFE, peerPkg p, c] ∧ u.Left (.launch (peerPort p / 2)) (.home (peerTenant p % 32)) (.put op t)))) ∧
    (∀ port, port < 8 → let i := s.spirePort port
      ∃ u, exec (.spireLinkUp port) s = .next u ∧ u.spirePort port = if i.en = true ∧ i.udp ≠ 0 then { i with up := true } else i)

/-- The host ports: what a go write does with its slot, the pulled payload, the end of a put, the completion of a take by DMA, links and address-
translation invalidations. The position in a window's ring moves past the slot of the last accepted write (DEDUCED, log 59); a vector's mask is bit 32 of
its entry's second word, set before it is written (PRESUMED, log 15). -/
def Obligations.HostPorts : Prop :=
  ∀ (s : State) (p n slot : Nat), s.stopped = false → p < 2 → s.fnOn p n = true →
    let h := s.port p
    let f := h.fn n
    let me := Agent.host p n
    (∀ (word : W64) (put : Bool), slot < 64 → h.waitRoutes = [] → (∀ o ∈ f.ops, o.sent = true) →
      let ev : Instr := if put then .hostPutGo p n slot word else .hostTakeGo p n slot word
      let i := if put then 4 else 8
      let f1 := if put then { f with putWords := f.putWords.put (16 * slot + i) word } else { f with takeWords := f.takeWords.put (16 * slot + i) word }
      let words := if put then f1.putWords else f1.takeWords
      ((if put then f.busyPut else f.busyTake).contains slot = true → ∃ u, exec ev s = .next u ∧ u.net = s.net ∧
        (u.port p).fn n = if word.getLsbD 63 then { f with ovf := true } else f) ∧
      ((if put then f.busyPut else f.busyTake).contains slot = false →
        (word.getLsbD 63 = false → ∃ u, exec ev s = .next u ∧ (u.port p).fn n = f1 ∧ u.net = s.net) ∧
        (word.getLsbD 63 = true → ∀ o : HostOp, o.id = s.nextId → o.slot = slot → o.put = put → o.sent = false →
          o.payload = [] → (∀ j, j < 16 → hostWord o j = words.at 0 (16 * slot + j)) →
          let len := word.toNat % 2 ^ 32
          let op := word.toNat / 2 ^ 56 % 4
          o.pulling = decide (put = true ∧ op = 0 ∧ 64 < len ∧ len ≤ 2 ^ 24) →
          let key : Key := o.bytes.truncate 256
          (∀ dst name, s.hostDest p n o = .goes dst name → s.covers (portDie p) (hostCost o) = true →
            (put = true → o.pulling = false → ∃ u, exec ev s = .next u ∧
              (u.port p).fn n = { f1 with ops := f.ops ++ [{ o with sent := true }], pdone := f.pdone + 1, putPos := (slot + 1) % 64 } ∧
              let pay : Payload := if op = 1 then .frozen (hostWord o 8) (hostWord o 9).toNat len (s.afirst n)
                else .inline ((List.range len).map fun j => o.bytes.extractLsb' (8 * (64 + j)) 8)
              u.Left me dst (.put o.id ⟨key, pay, word.toNat / 2 ^ 32 % 32, o.bytes.extractLsb' 384 128⟩)) ∧
            (put = true → o.pulling = true → ∃ u, exec ev s = .next u ∧ u.net = s.net ∧
              (u.port p).fn n = { f1 with ops := f.ops ++ [o], busyPut := f.busyPut ++ [slot], putPos := (slot + 1) % 64 } ∧
              (u.port p).pulls = h.pulls ++ [(n, slot, hostWord o 5, len)]) ∧
            (put = false → ∃ u, exec ev s = .next u ∧
              (u.port p).fn n = { f1 with takePos := (slot + 1) % 64, busyTake := f.busyTake ++ [slot], ops := f.ops ++ [{ o with sent := true }] } ∧
              u.Left me dst (.get o.id ⟨decide (2 ≤ op), if op % 2 = 1 then .blocking else .polling, key, o.bytes.extractLsb' 256 256,
                (hostWord o 12).toNat % 2 ^ 24, [], 0, word.getLsbD 42, len, slot, 0, false⟩)))))) ∧
    (∀ bytes o dst name, f.ops = [o] → o.put = true → o.slot = slot → o.pulling = true → o.sent = false → hostBad o = false → hostOpNo o = 0 →
      64 < hostLen o → bytes.length = hostLen o → h.waitRoutes = [] → s.hostDest p n o = .goes dst name →
      h.pulls.contains (n, slot, hostWord o 5, hostLen o) = true → s.covers (portDie p) (hostCost o) = true →
      ∃ u, exec (.hostPayloadPulled p n slot bytes) s = .next u ∧
        u.Left me dst (.put o.id ⟨o.bytes.truncate 256, .pool bytes, bitsOf (hostGo o) 32 5, o.bytes.extractLsb' 384 128⟩) ∧
        (u.port p).fn n = { f with ops := [{ o with pulling := false, payload := bytes, sent := true }], pdone := f.pdone + 1,
                                   busyPut := f.busyPut.filter (· != slot) } ∧
        (u.port p).pulls = h.pulls.erase (n, slot, hostWord o 5, hostLen o)) ∧
    (∀ m a op st val o, s.Arrives m a → a.dst = me → f.ops = [o] → o.id = op → a.body = .reply op st val false →
      (o.put = true → st = 0 ∨ st = 11 ∨ f.perr = true → ∃ u, exec (.hostPutReply m) s = .next u ∧ u.msg m = none ∧ (u.port p).fn n = { f with ops := [] }) ∧
      (o.put = true → st ≠ 0 → st ≠ 11 → f.perr = false → bitsOf (f.msixTable.at 0x100000000 (2 * recErrvec (s.tenantRec n) + 1)) 32 1 = 0 →
        ∃ u, exec (.hostPutReply m) s = .next u ∧ u.msg m = none ∧
        (u.port p).fn n = { f with ops := [], perr := true, pslot := BitVec.ofNat 6 o.slot, pstat := BitVec.ofNat 16 st } ∧
        (u.port p).msix = h.msix ++ [(n, recErrvec (s.tenantRec n))])) ∧
    (∀ m a d o t bs, s.Arrives m a → a.dst = me → f.ops = [o] → o.id = d.op → o.put = false → a.body = .deliver d → d.tup = some t → t.pay = .inline bs →
      d.fwd = false → bitsOf (hostWord o 11) 11 1 = 0 →
      s.covers (portDie p) (if isPeer a.src then 0 else 80 * ((d.bytes.length + 63) / 64)) = true →
      let raddr := hostWord o 10
      let n' := bs.length
      let len := hostLen o
      let result := (if len < n' then 2 ^ 40 else 0) + t.fmt % 32 * 2 ^ 32 + n' % 2 ^ 32
      ∃ u, exec (.hostTakeComplete m) s = .next u ∧ u.msg m = none ∧
        (u.port p).dma = h.dma ++ (if d.bytes = [] then [] else [(hostWord o 9, d.bytes)]) ++
          (if (hostGo o).getLsbD 40 then [(raddr, bytesOfNat 32 t.key.toNat)] else []) ++
          (if (hostGo o).getLsbD 41 then [(raddr + 0x20, bytesOfNat 16 t.shape.toNat)] else []) ++
          [(raddr + 0x30, bytesOfNat 8 result), (raddr + 0x38, bytesOfNat 8 ((hostWord o 11).toNat / 2 ^ 16 * 2 ^ 16 + d.status))] ∧
        (u.port p).fn n = { f with ops := [], busyTake := f.busyTake.filter (· != o.slot), tdone := f.tdone + 1 } ∧
        (d.take = true → u.Left me a.src (.tookAck d.op d.seq false))) ∧
    (∀ width rate, width ∈ [16, 8, 4] → rate ∈ [64, 32, 16] → ∃ u, exec (.hostPortLinkUp p width rate) s = .next u ∧
      u.port p = { h with up := true, width := width, rate := rate }) ∧
    (∀ addr, ∃ u, exec (.atsInvalidate p n addr) s = .next u ∧ u.port p = { h with atsDone := h.atsDone ++ [(n, addr)] })

/-! Resets and registers (13_system.md, 14_device.md). -/

/-- The resource commands and the other resets: what each leaves, and when a command is refused. A tile reset by message names no tenant (DEDUCED,
log 40); after a package reset DRAM outside the dump region reads zero (DESIGN CHOICE, log 1). -/
def Obligations.Resets : Prop :=
  (∀ (s : State) (p n tn x idx : Nat) (name : BitVec 32) (l : Tile), s.stopped = false → p < 2 → (s.port p).command.getLsbD 63 = false →
    s.tileOf name.toNat = some x → s.tile x = l → n ≤ 5 → tn < 256 → idx < 8 → (n = 3 → idx < 4) →
    let ev : Instr := match n with
      | 0 => .tileResetToTenant p name tn
      | 1 => .tileResetNoTenant p name
      | 2 => .slotReset p name idx
      | 3 => .windowReset p name idx
      | 4 => .regionReset p name idx
      | _ => .copyEngineReset p name
    let word (busy st : Nat) : W64 := wrapN (busy * 2 ^ 63 + n * 2 ^ 56 + st * 2 ^ 48 + (if n = 2 ∨ n = 3 ∨ n = 4 then idx * 2 ^ 40 else 0) +
      (if n = 0 then tn * 2 ^ 32 else 0) + name.toNat)
    let own := ∀ t, l.tenant = some t → recPort (s.tenantRec t) = p
    let done (u : State) (busy : Nat) : Prop := (u.port p).command = word busy 0
    let own' := ∀ r ∈ s.net, r.src = .tile x → r.dst ≠ .tile x
    let kept : Tile := { wins := l.wins.map fun w => { dead := w.dead }, patch := l.patch, aux := standing l.aux, acted := l.acted, bound := l.bound, swapped := l.swapped }
    (¬ own ∨ n = 0 ∧ s.fnOn p tn = false → ∃ u, exec ev s = .next u ∧ (u.port p).command = word 0 2 ∧ u.tiles = s.tiles ∧ u.net = s.net) ∧
    (own →
      (n = 0 → s.fnOn p tn = true → ∃ u, exec ev s = .next u ∧ done u 0 ∧
        (own' → u.tile x = { kept with tenant := some tn, asid := recAfirst (s.tenantRec tn), tvec := recTvec (s.tenantRec tn) }) ∧
        { u.tile x with aux := [] } = { kept with tenant := some tn, asid := recAfirst (s.tenantRec tn), tvec := recTvec (s.tenantRec tn), aux := [] }) ∧
      (n = 1 → ∃ u, exec ev s = .next u ∧ done u 0 ∧ (own' → u.tile x = kept) ∧ { u.tile x with aux := [] } = { kept with aux := [] }) ∧
      (∀ th, n = 2 → s.thr x idx = some th → l.slotOf th.cid = some idx → th.spec = none →
        ∃ u, exec ev s = .next u ∧ done u 0 ∧ u.thr x idx = none ∧ (u.slot x idx).lend = (s.slot x idx).lend ∧ (u.tile x).sp = l.sp) ∧
      (n = 3 → let w := l.win idx
        (w.owner = none → w.queue = [] → w.busy = none → ∃ u, exec ev s = .next u ∧ done u 0 ∧ (u.tile x).sp = l.sp ∧
          let w' := (u.tile x).win idx
          w'.ucode = Vector.replicate 128 0 ∧ w'.badPar = [] ∧ w'.dead = w.dead ∧
          ((w.rows.map Prod.fst).Nodup → ∀ r k, (w'.rows.at 0 r).getLsbD k = (decide (256 ≤ k) && (w.rows.at 0 r).getLsbD k))) ∧
        (w.owner ≠ none ∨ w.queue ≠ [] ∨ w.busy ≠ none → ∃ u, exec ev s = .next u ∧ done u 1 ∧ (u.tile x).win idx = { w with resetDue := true })) ∧
      (n = 4 → ∃ u, exec ev s = .next u ∧ done u 0 ∧ (u.tile x).region idx = {} ∧ (u.tile x).sp = l.sp ∧
        (∀ a, a < 2 ^ 20 → (u.tile x).isFull a = (l.isFull a && !(l.region idx).has (a / 8192))) ∧
        ∀ o ∈ l.mxq, l.mxRegion o = idx → o.started = true → ∃ o' ∈ (u.tile x).mxq, o'.id = o.id ∧ o'.status = 10) ∧
      (n = 5 → (l.ops.map TOp.id).Nodup → ∃ u, exec ev s = .next u ∧ done u 0 ∧ (u.tile x).sp = l.sp ∧ (u.tile x).grants = l.grants ∧
        ∀ o ∈ l.ops, isCopy o.kind = true → o.stage = .sent → (u.tile x).op o.id =
          some { o with performed := true, stage := .ended 2 (wrapN ((o.desc.key.toNat % 2 ^ 48 + o.prog) % 2 ^ 48)) }))) ∧
  (∀ (s : State) (p idx : Nat) (name : BitVec 32), s.stopped = false → p < 2 → (s.port p).command.getLsbD 63 = false → s.tileOf name.toNat = none →
    ∃ u, exec (.slotReset p name idx) s = .next u ∧ bitsOf (u.port p).command 48 8 = 1 ∧ u.tiles = s.tiles) ∧
  (∀ (s : State) (x : Nat), s.stopped = false → x < 768 → let l := s.tile x
    let kept : Tile := { wins := l.wins.map fun w => { dead := w.dead }, patch := l.patch, aux := standing l.aux, acted := l.acted, bound := l.bound, swapped := l.swapped }
    ∃ u, exec (.tileResetMctp x) s = .next u ∧ ((∀ r ∈ s.net, r.src = .tile x → r.dst ≠ .tile x) → u.tile x = kept) ∧
      { u.tile x with aux := [] } = { kept with aux := [] }) ∧
  (∀ (s : State) (h : Nat), s.stopped = false → h < 32 → let v := s.home h
    ∃ u, exec (.homeReset h) s = .next u ∧ (u.home h).entries = [] ∧ (u.home h).watches = [] ∧ (u.home h).splitSrc = none ∧ (u.home h).inert = none ∧
      (u.home h).removals = [] ∧ (u.home h).insSeq = 0 ∧ (u.home h).forwards = v.forwards ∧ u.dram = s.dram ∧
      ((∀ r ∈ s.net, r.id < s.nextId) → ∀ w ∈ v.watches, w.kind = .readWaiter ∨ w.kind = .takeWaiter → ∃ d, u.Left (.home h) w.who (.deliver d) ∧ d.op = w.op ∧ d.status = 2 ∧ d.tup = none)) ∧
  (∀ (s : State) (d : Nat), s.stopped = false → d < 4 → ∃ u, exec (.dieReset d) s = .next u ∧ ((∀ e ∈ s.tiles, e.2.spills = []) → u.dram = s.dram) ∧
    (∀ x, dieOf x = d → (s.tile x).tenant.isSome = true → (u.tile x).tenant = none ∧ (u.tile x).sp = [] ∧ ∀ q, u.thr x q = none) ∧
    (∀ h, h < 32 → h / 8 = d → (u.home h).entries = [] ∧ (u.home h).watches = [] ∧ (u.home h).forwards = []) ∧
    { (u.die d).launch with notices := [] } = { tables := (s.die d).launch.tables } ∧ (u.die d).reserve = 4500000000 ∧ (u.die d).cycle = 0) ∧
  (∀ (s : State) (q : Nat), s.stopped = false → q < 8 →
    let c := s.portCfg[q]?.getD {}
    ∃ u, exec (.spirePortReset q) s = .next u ∧ (u.spirePort q).up = false ∧ (u.spirePort q).en = c.word0.getLsbD 63 ∧
      (u.spirePort q).mac = c.word0.extractLsb' 0 48 ∧ (u.spirePort q).udp = c.word1.extractLsb' 48 16 ∧
      (∀ j, j < 16 → (u.spirePort q).ipv6.toNat / 256 ^ (15 - j) % 256 = (if j < 8 then c.ip0 else c.ip1).toNat / 256 ^ (j % 8) % 256) ∧
      ∀ k, peerValid (s.peer k) = true → peerPort (s.peer k) = q → s.service = .reduced → s.tiles = [] → (s.peer k).window = [] → (s.peer k).txq = [] →
        (u.peer k).parts = [] ∧ (u.peer k).waiting = []) ∧
  (∀ (s : State) (p n : Nat), s.stopped = false → p < 2 → n < 256 → let f := (s.port p).fn n
    (∃ u, exec (.functionReset p n) s = .next u ∧ (u.port p).fn n = { putBacks := f.putBacks } ∧ (u.port p).dma = (s.port p).dma ∧
      ∀ r ∈ u.net, ∀ d, r.dst = .host p n → r.body = .deliver d → ∀ o ∈ f.ops, o.put = false → o.id ≠ d.op) ∧
    (∃ u, exec (.hostPortReset p) s = .next u ∧ (u.port p).up = false ∧ (u.port p).command = 0 ∧ (u.port p).routes = [] ∧
      (u.port p).fn n = { putBacks := f.putBacks })) ∧
  (∀ (s : State) (dead : List (Nat × Nat)), s.service ≠ .off → ∃ u, exec (.packageReset dead) s = .next u ∧ u.service = .reduced ∧ u.homes = [] ∧
    u.tenants = [] ∧ u.peers = [] ∧ u.net = [] ∧ u.lock = false ∧ u.tlb = [] ∧ u.belfry.bank0 = s.belfry.bank0 ∧ u.belfry.bank1 = s.belfry.bank1 ∧
    u.belfry.active1 = s.belfry.active1 ∧ u.belfry.fuseVersion = s.belfry.fuseVersion ∧ u.dump = s.dump ∧
    (∀ x, (u.tile x).tenant = none ∧ (u.tile x).sp = [] ∧ ∀ q, u.thr x q = none) ∧
    (∀ x w, w < 4 → ((u.tile x).win w).dead = dead.contains (x, w)) ∧
    (s.dram.wf → ∀ k, u.dram.read k = if 720896 * 65536 ≤ k ∧ k < 786432 * 65536 then s.dram.read k else 0)) ∧
  (∀ (s : State), s.service ≠ .off → exec .mgmtReset s = .next { s with belfry := { s.belfry with eid := 0, negotiated := false, fetched := s.belfry.sent.length } })

/-- Register writes of a host: tenant and peer records, the package configuration, the command register, the windows, the MSI-X tables. The entry of a
vector in these tables, its mask bit and the pending vector that goes when it clears are the PCI Express standard's (PRESUMED, log 15). -/
def Obligations.RegisterWrites : Prop :=
  ∀ (s : State) (p : Nat) (val : W64), s.stopped = false → p < 2 →
    (∀ tn i, tn < 256 → i < 32 →
      let r := s.tenantRec tn
      let new := val &&& tenantMask i
      let put (v : W64) : State := { s with tenants := s.tenants.put tn (r.setIfInBounds i v) }
      let ev : Instr := .tenantRecordWrite p tn (8 * i) val
      exec (.registerWrite p 256 0 (256 * tn + 8 * i) val) s = exec ev s ∧
      (recValid r = true → recPort r ≠ p → exec ev s = .next (s.unsupported p)) ∧
      (recValid r = false ∨ recPort r = p →
        (i ≠ 0 → recValid r = false ∨ wordClash i new = false → exec ev s = .next (put new)) ∧
        (i ≠ 0 → recValid r = true → wordClash i new = true → exec ev s = .next (s.unsupported p)) ∧
        (i = 0 → val.getLsbD 63 = true → (∀ j, j < 32 → wordClash j (recWord r j) = false) → exec ev s = .next { put new with lock := true }) ∧
        (∀ j, i = 0 → val.getLsbD 63 = true → j < 32 → wordClash j (recWord r j) = true →
          exec ev s = .next ((put (new &&& 0x7FFFFFFFFFFFFFFF)).unsupported p)) ∧
        (i = 0 → val.getLsbD 63 = false → recValid r = false → exec ev s = .next (put new)) ∧
        (i = 0 → val.getLsbD 63 = false → recValid r = true → ∃ u, exec ev s = .next u ∧ u.tenants = (put new).tenants ∧
          ∀ h, (u.home h).forwards = (s.home h).forwards.filter fun f => f.tenant != tn))) ∧
    (∀ c i, c < 65536 → i < 8 →
      let v := s.peer c
      let tn := (if i = 0 then val else peerWord v 0).toNat / 2 ^ 32 % 256
      let new := val &&& peerMask i
      let mine : Prop := s.fnOn p tn = true ∧ (peerValid v = true → s.fnOn p (peerTenant v) = true)
      let ev : Instr := .peerRecordWrite p c i val
      exec (.registerWrite p 256 0 (0x400000 + 64 * c + 8 * i) val) s = exec ev s ∧
      (¬ mine → exec ev s = .next (s.unsupported p)) ∧
      (mine → (i ≠ 0 ∨ peerValid v = false ∧ val.getLsbD 0 = false) →
        exec ev s = .next (s.setPeer c { v with words := v.words.setIfInBounds i new })) ∧
      (mine → i = 0 → val.getLsbD 0 = true → v.cached = true → peerValid v = true → ∃ u used, exec ev s = .next u ∧
        u.peer c = { words := v.words.setIfInBounds 0 new, cached := true, used := used, asked := v.asked })) ∧
    (∀ off, off % 8 = 0 → off < 4096 → let ev : Instr := .pkgConfigWrite p off val
      exec (.registerWrite p 256 0 (0x20000 + off) val) s = exec ev s ∧
      (off = 0 → s.lock = true ∨ val.toNat % 65536 = 0xFFFF → exec ev s = .next s) ∧
      (off = 0 → s.lock = false → val.toNat % 65536 ≠ 0xFFFF → exec ev s = .next { s with pkg := val.extractLsb' 0 16 }) ∧
      (off = 8 → exec ev s = .next { s with rollout := val.extractLsb' 0 32 }) ∧
      (∀ q, q < 8 → off = 64 * q + 64 → ∃ u, exec ev s = .next u ∧ u.cfgWord off = val &&& 0x8000FFFFFFFFFFFF ∧ u.spire = s.spire) ∧
      (∀ q, q < 8 → off = 64 * q + 72 → ∃ u, exec ev s = .next u ∧ u.cfgWord off = val &&& 0xFFFF003F00001FFF ∧ u.spire = s.spire) ∧
      (∀ q, q < 8 → off = 64 * q + 80 ∨ off = 64 * q + 88 → ∃ u, exec ev s = .next u ∧ u.cfgWord off = val ∧ u.spire = s.spire)) ∧
    (let name : BitVec 32 := val.extractLsb' 0 32
      let idx := val.toNat / 2 ^ 40 % 8
      let is (n : Nat) : Prop := val.toNat / 2 ^ 56 % 8 = n
      let w : Instr := .registerWrite p 256 0 0x10000 val
      (is 0 → idx = 0 → exec w s = exec (.tileResetToTenant p name (val.toNat / 2 ^ 32 % 256)) s) ∧
      (val.toNat / 2 ^ 32 % 256 = 0 → (is 1 → idx = 0 → exec w s = exec (.tileResetNoTenant p name) s) ∧ (is 2 → exec w s = exec (.slotReset p name idx) s) ∧
        (is 3 → exec w s = exec (.windowReset p name idx) s) ∧ (is 4 → exec w s = exec (.regionReset p name idx) s) ∧
        (is 5 → idx = 0 → exec w s = exec (.copyEngineReset p name) s)) ∧
      ((s.port p).command.getLsbD 63 = true → (∀ b, (s.port p).command ≠ commandWord 1 0 b idx (val.toNat / 2 ^ 32 % 256) name) → exec w s = .next s)) ∧
    (∀ n, s.fnOn p n = true → let f := (s.port p).fn n
      (∀ slot j, slot < 64 → j < 16 →
        (j ≠ 4 → ∃ u, exec (.registerWrite p n 0 (128 * slot + 8 * j) val) s = .next u ∧
          (u.port p).fn n = if f.busyPut.contains slot then f else { f with putWords := f.putWords.put (16 * slot + j) val }) ∧
        exec (.registerWrite p n 0 (128 * slot + 0x20) val) s = exec (.hostPutGo p n slot val) s ∧
        (j ≠ 8 → ∃ u, exec (.registerWrite p n 0 (0x2000 + 128 * slot + 8 * j) val) s = .next u ∧
          (u.port p).fn n = if f.busyTake.contains slot then f else { f with takeWords := f.takeWords.put (16 * slot + j) val }) ∧
        exec (.registerWrite p n 0 (0x2000 + 128 * slot + 0x40) val) s = exec (.hostTakeGo p n slot val) s) ∧
      (∃ u, exec (.registerWrite p n 0 0x4008 val) s = .next u ∧
        (u.port p).fn n = { f with ovf := f.ovf && !val.getLsbD 39, perr := f.perr && !val.getLsbD 38 }) ∧
      (∀ v, v < recVcount (s.tenantRec n) → ∃ u, exec (.registerWrite p n 2 (16 * v + 8) val) s = .next u ∧
        ((u.port p).fn n).msixTable.at 0 (2 * v + 1) = val ∧
        (val.getLsbD 32 = false → f.pba.contains v = true → (u.port p).msix = (s.port p).msix ++ [(n, v)] ∧ ((u.port p).fn n).pba.contains v = false) ∧
        (val.getLsbD 32 = true ∨ f.pba.contains v = false → (u.port p).msix = (s.port p).msix ∧ ((u.port p).fn n).pba = f.pba))) ∧
    (∀ n, n < 256 → s.fnOn p n = false → ∀ bar off, exec (.registerWrite p n bar off val) s = .next s)

/-! The belfry and power (14_device.md). -/

/-- Management: endpoints and types, telemetry records, the package configuration, firmware transfer, activation, roll-out and roll-back, attestation.
The numbers of commands and protocols are those of the named standards (PRESUMED, log 28); what a signature or a hash is stays open (DESIGN CHOICE, log
10), as do the layout of a record (DESIGN CHOICE, log 61) and a failed self-test with no bank to fall back to (DESIGN CHOICE, log 62); the trip and the
raising of the fuse version fall at a sample (DEDUCED, logs 41, 43), and the bus owner fetches what waits by the next one (DEDUCED, log 70). -/
def Obligations.Management : Prop :=
  ∀ (s : State), s.service ≠ .off →
    let b := s.belfry
    let sends (proto cmd : Nat) (data : List Nat) : List Reply := b.sent ++ [⟨proto, cmd, data⟩]
    let only (i : Instr) (proto cmd : Nat) (data : List Nat) : Prop := exec i s = .next { s with belfry := { b with sent := sends proto cmd data } }
    let some1 (i : Instr) (proto cmd : Nat) : Prop := ∃ u v, exec i s = .next u ∧ u.belfry = { b with sent := sends proto cmd [v] } ∧ u.tiles = s.tiles
    (∀ arg, (0 < arg → arg < 255 → exec (.mctpControl 1 arg) s = .next { s with belfry := { b with eid := arg, sent := sends 0 1 [arg] } }) ∧
      only (.mctpControl 2 arg) 0 2 [b.eid] ∧ ∀ cmd, cmd ≠ 1 → cmd ≠ 2 → some1 (.mctpControl cmd arg) 0 cmd) ∧
    only (.pldmBase 4) 0x100 4 [0, 2, 5] ∧ (∀ cmd, cmd ≠ 4 → some1 (.pldmBase cmd) 0x100 cmd) ∧
    (∀ cmd arg,
      (∀ r, cmd = 0xF0 → b.tele.records.find arg = some r →
        only (.pldmPlatform cmd arg) 0x102 0xF0 (b.tele.stamp :: (recordWords arg r).map BitVec.toNat)) ∧
      (cmd = 0xF0 → b.tele.records.find arg = none → some1 (.pldmPlatform cmd arg) 0x102 0xF0) ∧
      (∀ v, cmd = 0x11 → 0 < arg → b.numeric[arg - 1]? = some v → only (.pldmPlatform cmd arg) 0x102 0x11 [(v % 2 ^ 64).toNat]) ∧
      (∀ v, cmd = 0x21 → 64 ≤ arg → s.stateSensors[arg - 64]? = some v → only (.pldmPlatform cmd arg) 0x102 0x21 [v]) ∧
      (cmd = 0x50 → only (.pldmPlatform cmd arg) 0x102 0x50 [s.pdrs.length]) ∧
      (∀ r, cmd = 0x51 → 0 < arg → s.pdrs[arg - 1]? = some r → only (.pldmPlatform cmd arg) 0x102 0x51 [arg, r.1, r.2]) ∧
      (cmd = 0xF1 → arg + 64 ≤ 2 ^ 32 → only (.pldmPlatform cmd arg) 0x102 0xF1
        ((List.range 64).map fun j => (s.dram.read (720896 * 65536 + arg + j)).toNat)) ∧
      (cmd ∉ [0xF0, 0x11, 0x21, 0x50, 0x51, 0xF1] → some1 (.pldmPlatform cmd arg) 0x102 cmd)) ∧
    (∀ off len, only (.getPackageConfig off len) 0x103 0
      ((List.range len).map fun i => (s.cfgWord ((off + i) / 8 * 8)).toNat / 256 ^ ((off + i) % 8) % 256)) ∧
    (∀ off bytes, off % 8 = 0 → bytes.length = 8 → ∃ u, exec (.setPackageConfig off bytes) s = .next u ∧
      u = { s.cfgWrite off (wrapN (natOfBytes bytes)) with belfry := { b with sent := sends 0x103 1 [] } }) ∧
    (∀ secver code patch tables,
      let ok := Config.signatureOk code patch tables secver && decide (b.fuseVersion ≤ secver)
      let k : Bank := ⟨secver, code, patch, tables, ok⟩
      ∃ u, exec (.firmwareTransfer secver code patch tables) s = .next u ∧ u.tiles = s.tiles ∧ u.belfry.active1 = b.active1 ∧
        (b.update = .rolling → u.belfry = { b with sent := sends 0x105 0x10 [1] }) ∧
        (b.update ≠ .rolling → u.belfry.update = (if ok then .verified else .failed) ∧ u.belfry.sent = sends 0x105 0x18 [if ok then 0 else 1] ∧
          u.belfry.bank0 = (if b.active1 then k else b.bank0) ∧ u.belfry.bank1 = (if b.active1 then b.bank1 else k))) ∧
    (∀ raise, let ready : Prop := b.update = .verified ∧ (if b.active1 then b.bank0 else b.bank1).verified = true;
      (ready → exec (.firmwareActivate raise) s = .next { s with belfry :=
        { b with active1 := !b.active1, update := .rolling, patchNo := b.patchNo + 1, activatedAt := b.us, raise := raise, fallback := true } }) ∧
      (¬ ready → exec (.firmwareActivate raise) s = .next s)) ∧
    (let failing : Prop := b.patchNo ≠ 0 ∧ b.us < b.activatedAt + 10000000 ∧ b.update ≠ .selfTestFailed;
      (failing → b.fallback = true → exec .selfTestFail s = .next { s with belfry :=
        { b with active1 := !b.active1, update := .selfTestFailed, raise := false, selfTestFailures := b.selfTestFailures + 1, fallback := false } }) ∧
      (failing → b.fallback = false → exec .selfTestFail s = .next { s with belfry :=
        { b with raise := false, selfTestFailures := b.selfTestFailures + 1 } }) ∧
      (¬ failing → exec .selfTestFail s = .next s)) ∧
    (let ended : State := if b.update = .rolling then { s with belfry := { b with update := .done } } else s;
      exec .cancelUpdate s = .next ended ∧ exec .rolloutLimit s = .next
        (if s.rollout = 0 ∨ b.us < b.activatedAt + 1000 * s.rollout.toNat then s else ended)) ∧
    (∀ x, x < 768 → ((∃ q th, s.thr x q = some th ∧ th.compute = true ∧ q < 8) → exec (.tilePatch x) s = .next s) ∧
      ((∀ q th, q < 8 → s.thr x q = some th → th.compute = false) → (s.tile x).patch ≠ b.patchNo → ∃ u, exec (.tilePatch x) s = .next u ∧
        u.tile x = { s.tile x with patch := b.patchNo, swapped := true } ∧
        ∀ y, y ≠ x → u.tile y = s.tile y)) ∧
    (∀ d, d < 4 → let l := (s.die d).launch
      (l.cur ≠ none → exec (.launchTableSwap d) s = .next s) ∧
      (l.cur = none → ∃ u, exec (.launchTableSwap d) s = .next u ∧ (u.die d).launch = { l with tables := b.patchNo } ∧ u.tiles = s.tiles)) ∧
    only .getVersion 5 4 [0x12] ∧ some1 .getCapabilities 5 0x61 ∧
    (∀ asym hash, let ok : Prop := asym / 4 % 2 = 1 ∧ hash % 2 = 1;
      (ok → exec (.negotiateAlgorithms asym hash) s = .next { s with belfry := { b with negotiated := true, sent := sends 5 0xE3 [4, 1] } }) ∧
      (¬ ok → only (.negotiateAlgorithms asym hash) 5 0xE3 [0, 0])) ∧
    (∀ slot off len i (nonce : Key),
      (b.negotiated = false → only .getDigests 5 0x7F [] ∧ only (.getCertificate slot off len) 5 0x7F [] ∧ only (.challenge slot nonce) 5 0x7F [] ∧
        only (.getMeasurements i nonce) 5 0x7F []) ∧
      (b.negotiated = true →
        let told (ev : Instr) (cmd : Nat) (p : List Nat → Prop) : Prop :=
          ∃ u d, exec ev s = .next u ∧ u.belfry = { b with sent := sends 5 cmd d } ∧ p d;
        let whole := (List.range (min Config.certLength Config.certLength)).map fun j => (Config.certByte (0 + j)).toNat;
        told .getDigests 1 (fun d => d = [Config.hash whole]) ∧
        told (.getCertificate 0 off len) 2 (fun d => d = (List.range (min len (Config.certLength - off))).map fun j => (Config.certByte (off + j)).toNat) ∧
        told (.challenge 0 nonce) 3 (fun d => ∃ free, let m := [Config.hash whole, nonce.toNat, free]; d = m ++ [Config.sign m]) ∧
        told (.getMeasurements i nonce) 0x60 (fun d => (i = 4 → d.head? = some b.fuseVersion) ∧ (i = 0 → d.head? = some 4) ∧
          (i = 1 → d.head? = some (Config.hash [(if b.active1 then b.bank1 else b.bank0).code.toNat])) ∧
          ∃ m, d = m ++ [Config.sign m] ∧ nonce.toNat ∈ m))) ∧
    (∀ r : Sensors, (∃ t ∈ r.die, 1100 ≤ t) → ∃ u, exec (.telemetrySample r) s = .next u ∧ u.service = .off ∧ u.power.thermtrip = true ∧ u.tiles = []) ∧
    (∀ r : Sensors, (∀ t ∈ r.die, t < 1100) → ∃ u, exec (.telemetrySample r) s = .next u ∧ u.belfry.us = b.us + 1000 ∧ u.belfry.sensors = some r ∧ u.belfry.tele.stamp = b.us + 1000 ∧
      (∃ l, u.belfry.tele.records.find 2 = some ((r.power : Int) :: l)) ∧
      u.belfry.tele.records.find 3 = some (r.die ++ r.cupola ++ r.stack ++ [r.inlet, r.outlet]) ∧
      (u.belfry.fuseVersion = if b.raise = true ∧ b.activatedAt + 10000000 ≤ b.us + 1000 then
        max b.fuseVersion (if b.active1 then b.bank1 else b.bank0).secver else b.fuseVersion) ∧
      u.tiles = s.tiles ∧ u.dies = s.dies)

/-- Power and service: the planner moves the dies' shares, the change to full rate, the fatal state with its dump, and the power signals, which keep
fuses and banks and lose memory. The sequence of power up and trip is read from R455 and R457 (DEDUCED, log 41); the dump is written whole in the one
step (DEDUCED, log 27); an event whose condition does not hold leaves the state (DEDUCED, log 45). -/
def Obligations.PowerAndService : Prop :=
  ∀ (s : State),
    let share (f : Nat → Nat) : State := { s with dies := s.dies.map fun d => { d with share := f d.share } }
    (s.service ≠ .off →
      (s.belfry.sensors = none → exec .energyPlannerStep s = .next s) ∧
      (∀ r, s.belfry.sensors = some r →
        let hot : Prop := 1800000 < r.power ∨ ∃ t ∈ r.die, 950 ≤ t;
        (hot → exec .energyPlannerStep s = .next (share fun v => max 400 (v - 45))) ∧
        (¬ hot → r.power < 1700000 → exec .energyPlannerStep s = .next (share fun v => min 900 (v + 45))) ∧
        (¬ hot → 1700000 ≤ r.power → exec .energyPlannerStep s = .next s))) ∧
    (∀ failed, (s.service = .full → exec (.fullRateSwitch failed) s = .next s) ∧
      (s.service = .reduced → (∃ i ∈ failed, i < 8) → ∃ u, exec (.fullRateSwitch failed) s = .next u ∧ u.service = .reduced ∧ u.homes = s.homes ∧
        ∀ i, i < 8 → (i ∈ u.failedStacks ↔ i ∈ failed)) ∧
      (s.service = .reduced → (∀ i ∈ failed, 8 ≤ i) → ∃ u, exec (.fullRateSwitch failed) s = .next u ∧ u.service = .full ∧ u.trained = List.range 8 ∧
        u.tiles = s.tiles ∧ ((∀ h, (s.home h).entries = [] ∧ (s.home h).watches = []) → u.homes = s.homes))) ∧
    (∀ cause, s.stopped = false → s.dram.wf → ∃ u, exec (.fatalEntry cause) s = .next u ∧ u.service = .fatal ∧ u.fatalCause = cause ∧ u.dump = some cause ∧
      u.dram.readN (720896 * 65536) 4 = 0x53545544 ∧ u.tiles = s.tiles ∧ u.homes = s.homes) ∧
    (let kept (u : State) : Prop := u.belfry.bank0 = s.belfry.bank0 ∧ u.belfry.bank1 = s.belfry.bank1 ∧ u.belfry.active1 = s.belfry.active1 ∧
        u.belfry.fuseVersion = s.belfry.fuseVersion;
      let dark (u : State) (p : Power) : Prop := u.service = .off ∧ u.dram = [] ∧ u.dump = none ∧ u.tiles = [] ∧ u.homes = [] ∧ u.power = p ∧ kept u
      let p := s.power
      (∃ u, exec .enDeassert s = .next u ∧ dark u { p with en := false, thermtrip := false, pwrgd := false }) ∧
      (∃ u, exec .inputFault s = .next u ∧ dark u { p with inRange := false, pwrfail := true, pwrgd := false }) ∧
      (s.service ≠ .off → ∃ u, exec .thermtrip s = .next u ∧ dark u { p with thermtrip := true, pwrgd := false }) ∧
      exec .inputInRange s = .next { s with power := { p with inRange := true, pwrfail := false } } ∧
      (p.inRange = true → p.thermtrip = false → s.service = .off → ∃ u, exec .enAssert s = .next u ∧ u.service = .reduced ∧
        u.power = { p with en := true, pwrgd := true } ∧ u.dram = s.dram.filter (fun c => decide (720896 * 65536 ≤ c.1) && decide (c.1 < 786432 * 65536)) ∧
        (∀ x, (u.tile x).tenant = none ∧ (u.tile x).sp = [] ∧ ∀ q, u.thr x q = none) ∧ kept u) ∧
      (p.inRange = false ∨ p.thermtrip = true ∨ s.service ≠ .off → exec .enAssert s = .next { s with power := { p with en := true } }))

/-! The machine as a whole (01_machine.md, 02_encoding.md, 13_system.md, 14_device.md). -/

/-- Right after package reset service is reduced, every tile belongs to no tenant with its scratchpad zero and empty, no thread runs anywhere, no home
holds an entry and no peer context is valid. DRAM reads zero, every register that the manual gives no reset value is zero and the interface holds no
program: the model's choices (log 1, log 2, log 3). -/
def Obligations.ResetState : Prop :=
  let r := State.reset
  r.service = .reduced ∧ r.script = [] ∧ r.net = [] ∧ r.trained = [] ∧ (∀ a, r.dram.read a = 0) ∧ r.canonical = true ∧
  (∀ x, (r.tile x).tenant = none ∧ (r.tile x).asid = 0 ∧ (∀ a, (r.tile x).sp.read a = 0) ∧ (r.tile x).full = [] ∧ (r.tile x).dir = [] ∧
    (r.tile x).grants = [] ∧ (r.tile x).icache = [] ∧ (r.tile x).ready = [] ∧ (r.tile x).spills = [] ∧ (r.tile x).cidNext = 0 ∧
    (r.tile x).timecmp = 0 ∧ (∀ q, r.thr x q = none ∧ (r.slot x q).lend = 0 ∧ (r.slot x q).wdogCount = 0) ∧
    ∀ w, ((r.tile x).win w).owner = none ∧ ((r.tile x).win w).queue = [] ∧ ((r.tile x).win w).rows = []) ∧
  (∀ h, (r.home h).entries = [] ∧ (r.home h).watches = [] ∧ (r.home h).insSeq = 0) ∧ (∀ c, peerValid (r.peer c) = false) ∧
  (∀ d, (r.die d).cycle = 0 ∧ (r.die d).share = 900) ∧ (∀ t : Thread, t = {} → (∀ d : Reg, t.rd d = 0) ∧ ∀ n : Pred, t.pr n = decide (n = 0))

/-- A step whose turn is a tile's cycle issues the bundle at the pc of the thread chosen, with the tile marked as having issued. A bundle that holds
instruction `i` alone does exactly what `exec` gives `i`, and a cycle whose bundle does not issue counts as idle (R148, R426); an event whose turn it
is does what `exec` gives it. -/
def Obligations.StepRunsDecoded : Prop :=
  (∀ (s : State) (x q : Nat) (lent : Bool) (t : Thread) (w : W64) (r : List Turn), s.stopped = false → s.script = .cycle x :: r → (s.tile x).acted = false →
    let v : State := { s with script := r }
    let u : State := { v.modTile x (fun l => { l with acted := true }) with cur := (x, q) }
    (v.chosen x = some (q, lent) → s.thr x q = some t → t.pc % 8 = 0 → t.fetchFault ≠ some t.pc → (s.tile x).bundleAt t.pc = some w →
      let z := u.issueWord lent w
      step s = .next (if u.idled z then z.modTile x fun l => { l with perfIdle := l.perfIdle + 1 } else z) ∧
      ∀ i, lent = false → i.wf = true → encode i = some [w] → exec i u = .next z) ∧
    (v.chosen x = none → step s = .next (v.modTile x fun l => { l with acted := true, perfIdle := l.perfIdle + 1 }))) ∧
  (∀ (s : State) (i : Instr) (r : List Turn), s.script = .act i :: r → isEvent i = true → step s = exec i { s with script := r }) ∧
  (∀ s : State, s.script = [] → (s.service = .off → step s = .fault .noPower) ∧ (s.service = .fatal → step s = .fault .fatalState))

/-- Words written out from the encoding tables decode to their instructions: one of each form and family. -/
def Obligations.DecodingWords : Prop :=
  decode 0x0000000000000000 = .ok ⟨false, 0, false, .nop, .vnop⟩ ∧
  decodeInstr 0x0020864300000000 = some (.addx 2 3 4 3) ∧
  decode 0x0818443D00000000 = .ok ⟨false, 2, false, .sel 1 5 2 3, .vnop⟩ ∧
  decodeInstr 0x2028C80100000308 = some (.bfxz 3 4 8 12) ∧
  decodeInstr 0x01A53FFD00000000 = some (.loop 20 0x3FFD) ∧
  decodeInstr 0x00A8C80400000000 = some (.ldw 3 4 4) ∧
  decodeInstr 0x00D893FF00000000 = some (.std 2 9 0x1FF) ∧
  decodeInstr 0x0178864000000000 = some (.qbsE2m1 2 3 4) ∧
  decode 0x05C0120400000000 = .ok ⟨false, 1, false, .mrd 9, .vnop⟩ ∧
  decode 0x07D8C80700000000 = .ok ⟨false, 1, true, .sleep 3 4, .vnop⟩ ∧
  decodeInstr 0x01E0864000000000 = some (.spawn 2 3 4) ∧
  decodeInstr 0x0000000029100240 = some (.vclt 2 0 1 1 false 0) ∧
  decodeInstr 0x000000006201C000 = some (.vucload 7 0 false) ∧
  decodeInstr 0x4000102002200000 = some (.vfldi 4 32 16) ∧
  decode 0x6000000000000000 = .error .kind

/-- Decoding what the encoder writes gives the bundle back, for every instruction in either half with operands at every value that the encoding
admits, under every guard and wait marker. -/
def Obligations.DecodeOfEncode : Prop :=
  (∀ (wait neg : Bool) (g : Pred) (i j : Instr) (o : VOp) (n : Nat), i.wf = true → j.wf = true → j.vop = some o →
    encodeNat ⟨wait, g, neg, i, o⟩ = some n → n < 2 ^ 64 ∧ decodeNat n = .ok ⟨wait, g, neg, i, o⟩) ∧
  (∀ (i : Instr) (l : List W64), i.wf = true → encode i = some l →
    ∃ w, l = [w] ∧ decode w = .ok i.alone ∧ (i ≠ .vnop → decodeInstr w = some i))

/-- Memory keeps its canonical form over every step. -/
def Obligations.StepKeepsMemoryCanonical : Prop :=
  ∀ s u : State, s.canonical = true → step s = .next u → u.canonical = true

/-- In the fatal state no tile issues and no cycle passes; only a package reset or the loss of power leaves it. A
trip can come with a sample (DEDUCED, log 41); events that act on threads leave the state as it is then (DEDUCED, log 45). -/
def Obligations.FatalState : Prop :=
  (∀ (s : State) (x : Nat) (r : List Turn), s.service = .fatal → (s.script = .cycle x :: r ∨ s.script = .tick x :: r) →
    step s = .next { s with script := r }) ∧
  (∀ (i : Instr) (s u : State), s.service = .fatal → isEvent i = true → exec i s = .next u →
    u.service = .fatal ∨ (∃ l, i = .packageReset l ∧ u.service = .reduced) ∨ 
      ((i = .enDeassert ∨ i = .inputFault ∨ i = .thermtrip ∨ ∃ r, i = .telemetrySample r) ∧ u.service = .off)) ∧
  (∀ (i : Instr) (s u : State), s.service = .fatal → isEvent i = true → exec i s = .next u → u.service = .fatal → ∀ x q, u.thr x q = s.thr x q)

/-- The translation of an address by a walk of four levels: each entry stands at its index in the table that the one above names, a leaf at level 3 or
4 gives the page and its permissions, an entry that is not valid is a page fault, and the leaf enters the TLB, the tables above it the walker caches.
An address that the TLB holds is translated by the TLB alone. That one list serves all agents and drops nothing by itself is the model's choice
(DESIGN CHOICE, log 14). -/
def Obligations.Translation : Prop :=
  ∀ (s : State) (d tn asid va perm : Nat) (e : Nat → Nat), va < 2 ^ 48 → perm ∈ [1, 2, 3] →
    (∀ b n pp f, s.cached asid va = some (asid, b, n, pp, f) →
      s.xlate d tn asid va perm = (if f / 2 ^ perm % 2 = 1 then .ok (pp + (va - b)) (n - (va - b)) else .refused, s)) ∧
    (let r := s.tenantRec tn
     let tpa (i : Nat) := e i / 256 * 256
     let up := [0, 39, 30, 21, 16]
     let at_ (i : Nat) := if i = 0 then recAtab r + 8 * (asid - recAfirst r) else (if i = 1 then e 0 / 4096 * 4096 else tpa (i - 1)) + 8 * (va / 2 ^ up.getD i 0 % (if i = 4 then 32 else 512))
     let isTable (i : Nat) := e i % 2 = 1 ∧ e i / 32 % 8 = 0 ∧ e i / 16 % 2 = 0 ∧ e i < 2 ^ 48 ∧ (i < 3 → tpa i % 4096 = 0)
     let isPage (i n pp : Nat) := e i % 2 = 1 ∧ e i / 32 % 8 = 0 ∧ e i / 16 % 2 = 1 ∧ e i < 2 ^ 48 ∧ tpa i % n = 0 ∧ s.phys tn (tpa i) n = some pp
     let found (x : Xlate × State) (i n pp : Nat) := x.2.tlb = (asid, va / n * n, n, pp, e i % 16) :: s.tlb ∧
       (∀ j, 1 ≤ j → j < i → x.2.cachedTable asid j va = some (tpa j)) ∧
       x.1 = if e i / 2 ^ perm % 2 = 1 then .ok (pp + va % n) (n - va % n) else .refused
     s.cached asid va = none → (∀ t ∈ s.tables, t.1 ≠ asid) → recHasAsid r asid = true → recValid r = true →
     (∀ i, i < 5 → ∃ p, s.phys tn (at_ i) 8 = some p ∧ s.badLine p 8 = false ∧ s.dram.readN p 8 = e i) →
     e 0 % 2 = 1 → e 0 / 2 % 2 ^ 11 = 0 → e 0 < 2 ^ 48 →
     ((∀ i, i = 1 ∨ i = 2 ∨ i = 3 → isTable i) → ∀ pp, isPage 4 65536 pp → found (s.xlate d tn asid va perm) 4 65536 pp) ∧
     ((∀ i, i = 1 ∨ i = 2 → isTable i) → ∀ pp, isPage 3 (2 ^ 21) pp → found (s.xlate d tn asid va perm) 3 (2 ^ 21) pp) ∧
     (∀ k, 1 ≤ k → k ≤ 4 → (∀ i, 1 ≤ i → i < k → isTable i) → e k % 2 = 0 →
       (s.xlate d tn asid va perm).1 = .fault ∧ (s.xlate d tn asid va perm).2.tlb = s.tlb))
end

