-- ==== Sys2Proof/Laws/Home.lean ====
section
/-! SUPPORT. What the block allocator of a home's pools can answer (08_tuples_homes.md R252), and which fields a home's updates leave. -/
namespace Sys2Proof.Machine

/-- A free block is aligned to its size, lies in the pool and meets no block in use (R252). -/
theorem freeBlock_spec {used : List Blk} {n size o : Nat} (h : freeBlock used n size = some o) :
    size ∣ o ∧ o + size ≤ n ∧ ∀ b ∈ used, blkHi b ≤ o ∨ o + size ≤ blkLo b := by
  obtain ⟨hm, hp⟩ := List.mem_filter.1 (List.min?_mem h)
  simp only [Bool.and_eq_true, decide_eq_true_eq, List.all_eq_true, Bool.or_eq_true] at hp
  refine ⟨?_, hp.1, hp.2⟩
  rcases List.mem_cons.1 hm with rfl | hm
  · exact Nat.dvd_zero _
  · obtain ⟨b, -, rfl⟩ := List.mem_map.1 hm
    exact Nat.dvd_mul_left _ _

/-- What is allocated has the sizes asked for, and stands in the pool asked for (R252, R449). -/
theorem allocs_sizes {sram : Bool} {n : Nat} {ks : List Nat} {used l : List Blk} (h : allocs sram n ks used = some l) :
    l.map Blk.size = ks ∧ ∀ b ∈ l, b.sram = sram := by
  induction ks generalizing used l with
  | nil => cases h; simp
  | cons k ks ih =>
    rw [allocs] at h
    generalize (if k < 4096 then freeRecord used n else freeBlock used n k) = place at h
    cases place with
    | none => cases h
    | some o =>
      obtain ⟨l', h', rfl⟩ := Option.map_eq_some_iff.1 h
      obtain ⟨h1, h2⟩ := ih h'
      exact ⟨by simp [h1], by simpa using h2⟩

/-- An allocated payload block is aligned to its size, lies in the pool and meets nothing that was in use (R252). -/
theorem allocs_free {sram : Bool} {n : Nat} {ks : List Nat} {used l : List Blk} (h : allocs sram n ks used = some l) :
    ∀ b ∈ l, 4096 ≤ b.size → b.size ∣ b.off ∧ b.off + b.size ≤ n ∧ ∀ u ∈ used, blkHi u ≤ b.off ∨ b.off + b.size ≤ blkLo u := by
  induction ks generalizing used l with
  | nil => cases h; simp
  | cons k ks ih =>
    rw [allocs] at h
    generalize hp : (if k < 4096 then freeRecord used n else freeBlock used n k) = place at h
    cases place with
    | none => cases h
    | some o =>
      obtain ⟨l', h', rfl⟩ := Option.map_eq_some_iff.1 h
      intro b hb hk
      rcases List.mem_cons.1 hb with rfl | hb
      · rw [if_neg (Nat.not_lt.2 hk)] at hp
        exact freeBlock_spec hp
      · obtain ⟨h1, h2, h3⟩ := ih h' b hb hk
        exact ⟨h1, h2, fun u hu => h3 u (List.mem_cons_of_mem _ hu)⟩

@[simp] theorem Home.modEntry_watches (v : Home) (place : Nat) (f : Entry → Entry) : (v.modEntry place f).watches = v.watches := rfl
@[simp] theorem Home.modEntry_removals (v : Home) (place : Nat) (f : Entry → Entry) : (v.modEntry place f).removals = v.removals := rfl
@[simp] theorem Home.modEntry_forwards (v : Home) (place : Nat) (f : Entry → Entry) : (v.modEntry place f).forwards = v.forwards := rfl
@[simp] theorem Home.modEntry_staged (v : Home) (place : Nat) (f : Entry → Entry) : (v.modEntry place f).staged = v.staged := rfl
@[simp] theorem Home.modEntry_retired (v : Home) (place : Nat) (f : Entry → Entry) : (v.modEntry place f).retired = v.retired := rfl
@[simp] theorem Home.modEntry_links (v : Home) (place : Nat) (f : Entry → Entry) : (v.modEntry place f).links = v.links := rfl
@[simp] theorem Home.modEntry_notes (v : Home) (place : Nat) (f : Entry → Entry) : (v.modEntry place f).notes = v.notes := rfl
@[simp] theorem Home.unstage_entries (v : Home) (a : Msg) : (v.unstage a).entries = v.entries := by unfold Home.unstage; split <;> rfl
@[simp] theorem Home.unstage_watches (v : Home) (a : Msg) : (v.unstage a).watches = v.watches := by unfold Home.unstage; split <;> rfl
@[simp] theorem Home.unstage_removals (v : Home) (a : Msg) : (v.unstage a).removals = v.removals := by unfold Home.unstage; split <;> rfl
@[simp] theorem Home.unstage_forwards (v : Home) (a : Msg) : (v.unstage a).forwards = v.forwards := by unfold Home.unstage; split <;> rfl
@[simp] theorem Home.unstage_retired (v : Home) (a : Msg) : (v.unstage a).retired = v.retired := by unfold Home.unstage; split <;> rfl
@[simp] theorem Home.unstage_links (v : Home) (a : Msg) : (v.unstage a).links = v.links := by unfold Home.unstage; split <;> rfl
@[simp] theorem Home.unstage_notes (v : Home) (a : Msg) : (v.unstage a).notes = v.notes := by unfold Home.unstage; split <;> rfl

end Sys2Proof.Machine
end

