-- ==== Sys2Proof/Laws/Mem.lean ====
section
/-! SUPPORT. Laws of the sparse tables and of byte memory: read after write, and that every operation keeps the canonical form. -/
namespace Sys2Proof.Machine

/-! Tables. -/
theorem Map.find_put_same {α : Type} (m : Map α) (k : Nat) (v : α) : (m.put k v).find k = some v := by
  induction m with
  | nil => simp [Map.put, Map.find]
  | cons e m ih =>
    obtain ⟨j, w⟩ := e
    simp only [Map.put]
    split
    · simp [Map.find]
    · split
      · simp [Map.find]
      · simp only [Map.find]
        rw [if_neg ‹_›]
        exact ih
theorem Map.find_put_other {α : Type} (m : Map α) (k j : Nat) (v : α) (h : j ≠ k) : (m.put k v).find j = m.find j := by
  induction m with
  | nil => simp [Map.put, Map.find, Ne.symm h]
  | cons e m ih =>
    obtain ⟨i, w⟩ := e
    simp only [Map.put]
    split
    · subst_vars; simp [Map.find, Ne.symm h]
    · split
      · simp [Map.find, Ne.symm h]
      · simp only [Map.find]
        split
        · rfl
        · exact ih
@[simp] theorem Map.at_put_same {α : Type} (m : Map α) (d v : α) (k : Nat) : (m.put k v).at d k = v := by
  simp [Map.at, Map.find_put_same]
theorem Map.at_put_other {α : Type} (m : Map α) (d v : α) (k j : Nat) (h : j ≠ k) : (m.put k v).at d j = m.at d j := by
  simp [Map.at, Map.find_put_other m k j v h]

/-! Bytes: read after write. -/
theorem Memory.wfFrom_weaken {m : Memory} {lo hi : Nat} (h : lo ≤ hi) (w : Memory.wfFrom hi m = true) : Memory.wfFrom lo m = true := by
  cases m with
  | nil => rfl
  | cons e m =>
    obtain ⟨a, b⟩ := e
    simp only [Memory.wfFrom, Bool.and_eq_true, decide_eq_true_eq] at *
    exact ⟨⟨by omega, w.1.2⟩, w.2⟩
theorem Memory.read_below {m : Memory} {lo a : Nat} (w : Memory.wfFrom lo m = true) (h : a < lo) : Memory.read m a = 0 := by
  cases m with
  | nil => rfl
  | cons e m =>
    obtain ⟨j, b⟩ := e
    simp only [Memory.wfFrom, Bool.and_eq_true, decide_eq_true_eq] at w
    simp only [Memory.read]
    rw [if_neg (by omega), if_pos (by omega)]
theorem Memory.write_wfFrom {m : Memory} {lo a : Nat} (b : Byte) (w : Memory.wfFrom lo m = true) (h : lo ≤ a) :
    Memory.wfFrom lo (Memory.write m a b) = true := by
  induction m generalizing lo with
  | nil =>
    simp only [Memory.write]
    split
    · rfl
    · simp only [Memory.wfFrom, Bool.and_eq_true, decide_eq_true_eq]; exact ⟨⟨h, by simpa using ‹¬ b = 0›⟩, trivial⟩
  | cons e m ih =>
    obtain ⟨j, c⟩ := e
    simp only [Memory.wfFrom, Bool.and_eq_true, decide_eq_true_eq] at w
    simp only [Memory.write]
    split
    · subst_vars
      split
      · exact Memory.wfFrom_weaken (by omega) w.2
      · simp_all [Memory.wfFrom]
    · split
      · split
        · simp_all [Memory.wfFrom]
        · simp only [Memory.wfFrom, Bool.and_eq_true, decide_eq_true_eq]
          exact ⟨⟨h, by simpa using ‹¬ b = 0›⟩, ⟨by omega, w.1.2⟩, w.2⟩
      · simp only [Memory.wfFrom, Bool.and_eq_true, decide_eq_true_eq]
        exact ⟨w.1, ih w.2 (by omega)⟩
/-- A write keeps the canonical form. -/
theorem Memory.write_wf {m : Memory} (a : Nat) (b : Byte) (w : m.wf = true) : (Memory.write m a b).wf = true :=
  Memory.write_wfFrom b w (Nat.zero_le a)
theorem Memory.read_write_same {m : Memory} {lo : Nat} (a : Nat) (b : Byte) (w : Memory.wfFrom lo m = true) :
    Memory.read (Memory.write m a b) a = b := by
  induction m generalizing lo with
  | nil =>
    simp only [Memory.write]
    split <;> simp_all [Memory.read]
  | cons e m ih =>
    obtain ⟨j, c⟩ := e
    simp only [Memory.wfFrom, Bool.and_eq_true, decide_eq_true_eq] at w
    simp only [Memory.write]
    split
    · subst_vars
      split
      · rw [Memory.read_below w.2 (by omega)]; simp_all
      · simp [Memory.read]
    · split
      · split
        · simp only [Memory.read]; rw [if_neg ‹_›, if_pos ‹_›]; simp_all
        · simp [Memory.read]
      · simp only [Memory.read]; rw [if_neg ‹_›, if_neg ‹_›]; exact ih w.2
theorem Memory.read_write_other {m : Memory} {lo : Nat} (a i : Nat) (b : Byte) (w : Memory.wfFrom lo m = true) (h : i ≠ a) :
    Memory.read (Memory.write m a b) i = Memory.read m i := by
  induction m generalizing lo with
  | nil =>
    simp only [Memory.write]
    split
    · rfl
    · simp only [Memory.read]; rw [if_neg (Ne.symm h)]; split <;> rfl
  | cons e m ih =>
    obtain ⟨j, c⟩ := e
    simp only [Memory.wfFrom, Bool.and_eq_true, decide_eq_true_eq] at w
    simp only [Memory.write]
    split
    · subst_vars
      split
      · simp only [Memory.read]; rw [if_neg (Ne.symm h)]
        split
        · exact Memory.read_below w.2 (by omega)
        · rfl
      · simp only [Memory.read]; rw [if_neg (Ne.symm h), if_neg (Ne.symm h)]
    · split
      · split
        · rfl
        · rw [show Memory.read ((a, b) :: (j, c) :: m) i = if a = i then b else if i < a then 0 else Memory.read ((j, c) :: m) i from rfl,
            if_neg (Ne.symm h)]
          split
          · symm; simp only [Memory.read]; rw [if_neg (by omega), if_pos (by omega)]
          · rfl
      · simp only [Memory.read]; rw [ih w.2]
/-- Reading a byte after a write, in a memory of canonical form. -/
theorem Memory.read_write {m : Memory} (a i : Nat) (b : Byte) (w : m.wf = true) :
    Memory.read (Memory.write m a b) i = if i = a then b else Memory.read m i := by
  split
  · subst_vars; exact Memory.read_write_same _ b w
  · exact Memory.read_write_other a i b w ‹_›
/-- `writeN` keeps the canonical form. -/
theorem Memory.writeN_wf {m : Memory} (a n v : Nat) (w : m.wf = true) : (Memory.writeN m a n v).wf = true := by
  induction n generalizing m a v with
  | zero => exact w
  | succ n ih => exact ih _ _ (Memory.write_wf a _ w)
/-- Bytes outside those that `writeN` writes read as before. -/
theorem Memory.read_writeN_other {m : Memory} (a n v i : Nat) (w : m.wf = true) (h : i < a ∨ a + n ≤ i) :
    Memory.read (Memory.writeN m a n v) i = Memory.read m i := by
  induction n generalizing m a v with
  | zero => rfl
  | succ n ih =>
    simp only [Memory.writeN]
    rw [ih _ _ (Memory.write_wf a _ w) (by omega), Memory.read_write a i _ w, if_neg (by omega)]
/-- Byte `i` of what `writeN` wrote. -/
theorem Memory.read_writeN_in {m : Memory} (a n v i : Nat) (w : m.wf = true) (h : i < n) :
    Memory.read (Memory.writeN m a n v) (a + i) = BitVec.ofNat 8 (v / 256 ^ i) := by
  induction n generalizing m a v i with
  | zero => omega
  | succ n ih =>
    simp only [Memory.writeN]
    cases i with
    | zero => rw [Memory.read_writeN_other _ _ _ _ (Memory.write_wf a _ w) (by omega), Memory.read_write _ _ _ w]; simp
    | succ i =>
      have := ih (m := Memory.write m a (BitVec.ofNat 8 v)) (a + 1) (v / 256) i (Memory.write_wf a _ w) (by omega)
      rw [show a + (i + 1) = a + 1 + i by omega, this, Nat.div_div_eq_div_mul, Nat.pow_succ, Nat.mul_comm]
/-- Reading back what `writeN` wrote gives its low bytes. -/
theorem Memory.readN_writeN {m : Memory} (a n v : Nat) (w : m.wf = true) : Memory.readN (Memory.writeN m a n v) a n = v % 256 ^ n := by
  induction n generalizing m a v with
  | zero => simp [Memory.readN, Nat.mod_one]
  | succ n ih =>
    simp only [Memory.writeN, Memory.readN]
    rw [ih (m := Memory.write m a (BitVec.ofNat 8 v)) (a + 1) (v / 256) (Memory.write_wf a _ w),
      Memory.read_writeN_other _ _ _ _ (Memory.write_wf a _ w) (by omega), Memory.read_write _ _ _ w, if_pos rfl, BitVec.toNat_ofNat]
    have : 256 ^ (n + 1) = 256 * 256 ^ n := by rw [Nat.pow_succ, Nat.mul_comm]
    rw [this, Nat.mod_mul]
/-- `putBytes` keeps the canonical form. -/
theorem Memory.putBytes_wf {m : Memory} (a : Nat) (bs : List Byte) (w : m.wf = true) : (Memory.putBytes m a bs).wf = true := by
  induction bs generalizing m a with
  | nil => exact w
  | cons b bs ih => exact ih _ (Memory.write_wf a b w)
theorem Memory.read_putBytes_other {m : Memory} (a i : Nat) (bs : List Byte) (w : m.wf = true) (h : i < a ∨ a + bs.length ≤ i) :
    Memory.read (Memory.putBytes m a bs) i = Memory.read m i := by
  induction bs generalizing m a with
  | nil => rfl
  | cons b bs ih =>
    simp only [List.length_cons] at h
    simp only [Memory.putBytes]
    rw [ih _ (Memory.write_wf a b w) (by omega), Memory.read_write a i b w, if_neg (by omega)]
theorem Memory.filter_wfFrom {m : Memory} {lo : Nat} (p : Host.Cell → Bool) (w : Memory.wfFrom lo m = true) :
    Memory.wfFrom lo (m.filter p) = true := by
  induction m generalizing lo with
  | nil => rfl
  | cons e m ih =>
    obtain ⟨a, b⟩ := e
    simp only [Memory.wfFrom, Bool.and_eq_true, decide_eq_true_eq] at w
    simp only [List.filter_cons]
    split
    · simp only [Memory.wfFrom, Bool.and_eq_true, decide_eq_true_eq]; exact ⟨w.1, ih w.2⟩
    · exact Memory.wfFrom_weaken (by omega) (ih w.2)
/-- `clear` keeps the canonical form. -/
theorem Memory.clear_wf {m : Memory} (lo hi : Nat) (w : m.wf = true) : (Memory.clear m lo hi).wf = true := Memory.filter_wfFrom _ w

end Sys2Proof.Machine
end

