-- ==== Sys2Proof/Laws/State.lean ====
section
/-! SUPPORT. The small laws of the state's updates, field by field, and of reading back what was written: no later proof unfolds a record
update. -/
namespace Sys2Proof.Machine

/-! Updates of the package that leave every field but one as it is. -/
@[simp] theorem State.setTile_dies (s : State) (x : Nat) (t : Tile) : (s.setTile x t).dies = s.dies := rfl
@[simp] theorem State.setTile_homes (s : State) (x : Nat) (t : Tile) : (s.setTile x t).homes = s.homes := rfl
@[simp] theorem State.setTile_dram (s : State) (x : Nat) (t : Tile) : (s.setTile x t).dram = s.dram := rfl
@[simp] theorem State.setTile_dramBad (s : State) (x : Nat) (t : Tile) : (s.setTile x t).dramBad = s.dramBad := rfl
@[simp] theorem State.setTile_pkg (s : State) (x : Nat) (t : Tile) : (s.setTile x t).pkg = s.pkg := rfl
@[simp] theorem State.setTile_lock (s : State) (x : Nat) (t : Tile) : (s.setTile x t).lock = s.lock := rfl
@[simp] theorem State.setTile_rollout (s : State) (x : Nat) (t : Tile) : (s.setTile x t).rollout = s.rollout := rfl
@[simp] theorem State.setTile_portCfg (s : State) (x : Nat) (t : Tile) : (s.setTile x t).portCfg = s.portCfg := rfl
@[simp] theorem State.setTile_tenants (s : State) (x : Nat) (t : Tile) : (s.setTile x t).tenants = s.tenants := rfl
@[simp] theorem State.setTile_peers (s : State) (x : Nat) (t : Tile) : (s.setTile x t).peers = s.peers := rfl
@[simp] theorem State.setTile_staging (s : State) (x : Nat) (t : Tile) : (s.setTile x t).staging = s.staging := rfl
@[simp] theorem State.setTile_spire (s : State) (x : Nat) (t : Tile) : (s.setTile x t).spire = s.spire := rfl
@[simp] theorem State.setTile_net (s : State) (x : Nat) (t : Tile) : (s.setTile x t).net = s.net := rfl
@[simp] theorem State.setTile_tlb (s : State) (x : Nat) (t : Tile) : (s.setTile x t).tlb = s.tlb := rfl
@[simp] theorem State.setTile_tables (s : State) (x : Nat) (t : Tile) : (s.setTile x t).tables = s.tables := rfl
@[simp] theorem State.setTile_ports (s : State) (x : Nat) (t : Tile) : (s.setTile x t).ports = s.ports := rfl
@[simp] theorem State.setTile_belfry (s : State) (x : Nat) (t : Tile) : (s.setTile x t).belfry = s.belfry := rfl
@[simp] theorem State.setTile_power (s : State) (x : Nat) (t : Tile) : (s.setTile x t).power = s.power := rfl
@[simp] theorem State.setTile_service (s : State) (x : Nat) (t : Tile) : (s.setTile x t).service = s.service := rfl
@[simp] theorem State.setTile_fatalCause (s : State) (x : Nat) (t : Tile) : (s.setTile x t).fatalCause = s.fatalCause := rfl
@[simp] theorem State.setTile_trained (s : State) (x : Nat) (t : Tile) : (s.setTile x t).trained = s.trained := rfl
@[simp] theorem State.setTile_failedStacks (s : State) (x : Nat) (t : Tile) : (s.setTile x t).failedStacks = s.failedStacks := rfl
@[simp] theorem State.setTile_dump (s : State) (x : Nat) (t : Tile) : (s.setTile x t).dump = s.dump := rfl
@[simp] theorem State.setTile_cur (s : State) (x : Nat) (t : Tile) : (s.setTile x t).cur = s.cur := rfl
@[simp] theorem State.setTile_turn (s : State) (x : Nat) (t : Tile) : (s.setTile x t).turn = s.turn := rfl
@[simp] theorem State.setTile_script (s : State) (x : Nat) (t : Tile) : (s.setTile x t).script = s.script := rfl
@[simp] theorem State.setTile_nextId (s : State) (x : Nat) (t : Tile) : (s.setTile x t).nextId = s.nextId := rfl
@[simp] theorem State.setTile_freeCtr (s : State) (x : Nat) (t : Tile) : (s.setTile x t).freeCtr = s.freeCtr := rfl
@[simp] theorem State.modTile_dies (s : State) (x : Nat) (f : Tile → Tile) : (s.modTile x f).dies = s.dies := rfl
@[simp] theorem State.modTile_homes (s : State) (x : Nat) (f : Tile → Tile) : (s.modTile x f).homes = s.homes := rfl
@[simp] theorem State.modTile_dram (s : State) (x : Nat) (f : Tile → Tile) : (s.modTile x f).dram = s.dram := rfl
@[simp] theorem State.modTile_dramBad (s : State) (x : Nat) (f : Tile → Tile) : (s.modTile x f).dramBad = s.dramBad := rfl
@[simp] theorem State.modTile_pkg (s : State) (x : Nat) (f : Tile → Tile) : (s.modTile x f).pkg = s.pkg := rfl
@[simp] theorem State.modTile_lock (s : State) (x : Nat) (f : Tile → Tile) : (s.modTile x f).lock = s.lock := rfl
@[simp] theorem State.modTile_rollout (s : State) (x : Nat) (f : Tile → Tile) : (s.modTile x f).rollout = s.rollout := rfl
@[simp] theorem State.modTile_portCfg (s : State) (x : Nat) (f : Tile → Tile) : (s.modTile x f).portCfg = s.portCfg := rfl
@[simp] theorem State.modTile_tenants (s : State) (x : Nat) (f : Tile → Tile) : (s.modTile x f).tenants = s.tenants := rfl
@[simp] theorem State.modTile_peers (s : State) (x : Nat) (f : Tile → Tile) : (s.modTile x f).peers = s.peers := rfl
@[simp] theorem State.modTile_staging (s : State) (x : Nat) (f : Tile → Tile) : (s.modTile x f).staging = s.staging := rfl
@[simp] theorem State.modTile_spire (s : State) (x : Nat) (f : Tile → Tile) : (s.modTile x f).spire = s.spire := rfl
@[simp] theorem State.modTile_net (s : State) (x : Nat) (f : Tile → Tile) : (s.modTile x f).net = s.net := rfl
@[simp] theorem State.modTile_tlb (s : State) (x : Nat) (f : Tile → Tile) : (s.modTile x f).tlb = s.tlb := rfl
@[simp] theorem State.modTile_tables (s : State) (x : Nat) (f : Tile → Tile) : (s.modTile x f).tables = s.tables := rfl
@[simp] theorem State.modTile_ports (s : State) (x : Nat) (f : Tile → Tile) : (s.modTile x f).ports = s.ports := rfl
@[simp] theorem State.modTile_belfry (s : State) (x : Nat) (f : Tile → Tile) : (s.modTile x f).belfry = s.belfry := rfl
@[simp] theorem State.modTile_power (s : State) (x : Nat) (f : Tile → Tile) : (s.modTile x f).power = s.power := rfl
@[simp] theorem State.modTile_service (s : State) (x : Nat) (f : Tile → Tile) : (s.modTile x f).service = s.service := rfl
@[simp] theorem State.modTile_fatalCause (s : State) (x : Nat) (f : Tile → Tile) : (s.modTile x f).fatalCause = s.fatalCause := rfl
@[simp] theorem State.modTile_trained (s : State) (x : Nat) (f : Tile → Tile) : (s.modTile x f).trained = s.trained := rfl
@[simp] theorem State.modTile_failedStacks (s : State) (x : Nat) (f : Tile → Tile) : (s.modTile x f).failedStacks = s.failedStacks := rfl
@[simp] theorem State.modTile_dump (s : State) (x : Nat) (f : Tile → Tile) : (s.modTile x f).dump = s.dump := rfl
@[simp] theorem State.modTile_cur (s : State) (x : Nat) (f : Tile → Tile) : (s.modTile x f).cur = s.cur := rfl
@[simp] theorem State.modTile_turn (s : State) (x : Nat) (f : Tile → Tile) : (s.modTile x f).turn = s.turn := rfl
@[simp] theorem State.modTile_script (s : State) (x : Nat) (f : Tile → Tile) : (s.modTile x f).script = s.script := rfl
@[simp] theorem State.modTile_nextId (s : State) (x : Nat) (f : Tile → Tile) : (s.modTile x f).nextId = s.nextId := rfl
@[simp] theorem State.modTile_freeCtr (s : State) (x : Nat) (f : Tile → Tile) : (s.modTile x f).freeCtr = s.freeCtr := rfl
@[simp] theorem State.setSlot_dies (s : State) (x q : Nat) (v : Slot) : (s.setSlot x q v).dies = s.dies := rfl
@[simp] theorem State.setSlot_homes (s : State) (x q : Nat) (v : Slot) : (s.setSlot x q v).homes = s.homes := rfl
@[simp] theorem State.setSlot_dram (s : State) (x q : Nat) (v : Slot) : (s.setSlot x q v).dram = s.dram := rfl
@[simp] theorem State.setSlot_dramBad (s : State) (x q : Nat) (v : Slot) : (s.setSlot x q v).dramBad = s.dramBad := rfl
@[simp] theorem State.setSlot_pkg (s : State) (x q : Nat) (v : Slot) : (s.setSlot x q v).pkg = s.pkg := rfl
@[simp] theorem State.setSlot_lock (s : State) (x q : Nat) (v : Slot) : (s.setSlot x q v).lock = s.lock := rfl
@[simp] theorem State.setSlot_rollout (s : State) (x q : Nat) (v : Slot) : (s.setSlot x q v).rollout = s.rollout := rfl
@[simp] theorem State.setSlot_portCfg (s : State) (x q : Nat) (v : Slot) : (s.setSlot x q v).portCfg = s.portCfg := rfl
@[simp] theorem State.setSlot_tenants (s : State) (x q : Nat) (v : Slot) : (s.setSlot x q v).tenants = s.tenants := rfl
@[simp] theorem State.setSlot_peers (s : State) (x q : Nat) (v : Slot) : (s.setSlot x q v).peers = s.peers := rfl
@[simp] theorem State.setSlot_staging (s : State) (x q : Nat) (v : Slot) : (s.setSlot x q v).staging = s.staging := rfl
@[simp] theorem State.setSlot_spire (s : State) (x q : Nat) (v : Slot) : (s.setSlot x q v).spire = s.spire := rfl
@[simp] theorem State.setSlot_net (s : State) (x q : Nat) (v : Slot) : (s.setSlot x q v).net = s.net := rfl
@[simp] theorem State.setSlot_tlb (s : State) (x q : Nat) (v : Slot) : (s.setSlot x q v).tlb = s.tlb := rfl
@[simp] theorem State.setSlot_tables (s : State) (x q : Nat) (v : Slot) : (s.setSlot x q v).tables = s.tables := rfl
@[simp] theorem State.setSlot_ports (s : State) (x q : Nat) (v : Slot) : (s.setSlot x q v).ports = s.ports := rfl
@[simp] theorem State.setSlot_belfry (s : State) (x q : Nat) (v : Slot) : (s.setSlot x q v).belfry = s.belfry := rfl
@[simp] theorem State.setSlot_power (s : State) (x q : Nat) (v : Slot) : (s.setSlot x q v).power = s.power := rfl
@[simp] theorem State.setSlot_service (s : State) (x q : Nat) (v : Slot) : (s.setSlot x q v).service = s.service := rfl
@[simp] theorem State.setSlot_fatalCause (s : State) (x q : Nat) (v : Slot) : (s.setSlot x q v).fatalCause = s.fatalCause := rfl
@[simp] theorem State.setSlot_trained (s : State) (x q : Nat) (v : Slot) : (s.setSlot x q v).trained = s.trained := rfl
@[simp] theorem State.setSlot_failedStacks (s : State) (x q : Nat) (v : Slot) : (s.setSlot x q v).failedStacks = s.failedStacks := rfl
@[simp] theorem State.setSlot_dump (s : State) (x q : Nat) (v : Slot) : (s.setSlot x q v).dump = s.dump := rfl
@[simp] theorem State.setSlot_cur (s : State) (x q : Nat) (v : Slot) : (s.setSlot x q v).cur = s.cur := rfl
@[simp] theorem State.setSlot_turn (s : State) (x q : Nat) (v : Slot) : (s.setSlot x q v).turn = s.turn := rfl
@[simp] theorem State.setSlot_script (s : State) (x q : Nat) (v : Slot) : (s.setSlot x q v).script = s.script := rfl
@[simp] theorem State.setSlot_nextId (s : State) (x q : Nat) (v : Slot) : (s.setSlot x q v).nextId = s.nextId := rfl
@[simp] theorem State.setSlot_freeCtr (s : State) (x q : Nat) (v : Slot) : (s.setSlot x q v).freeCtr = s.freeCtr := rfl
@[simp] theorem State.modCtile_dies (s : State) (f : Tile → Tile) : (s.modCtile f).dies = s.dies := rfl
@[simp] theorem State.modCtile_homes (s : State) (f : Tile → Tile) : (s.modCtile f).homes = s.homes := rfl
@[simp] theorem State.modCtile_dram (s : State) (f : Tile → Tile) : (s.modCtile f).dram = s.dram := rfl
@[simp] theorem State.modCtile_dramBad (s : State) (f : Tile → Tile) : (s.modCtile f).dramBad = s.dramBad := rfl
@[simp] theorem State.modCtile_pkg (s : State) (f : Tile → Tile) : (s.modCtile f).pkg = s.pkg := rfl
@[simp] theorem State.modCtile_lock (s : State) (f : Tile → Tile) : (s.modCtile f).lock = s.lock := rfl
@[simp] theorem State.modCtile_rollout (s : State) (f : Tile → Tile) : (s.modCtile f).rollout = s.rollout := rfl
@[simp] theorem State.modCtile_portCfg (s : State) (f : Tile → Tile) : (s.modCtile f).portCfg = s.portCfg := rfl
@[simp] theorem State.modCtile_tenants (s : State) (f : Tile → Tile) : (s.modCtile f).tenants = s.tenants := rfl
@[simp] theorem State.modCtile_peers (s : State) (f : Tile → Tile) : (s.modCtile f).peers = s.peers := rfl
@[simp] theorem State.modCtile_staging (s : State) (f : Tile → Tile) : (s.modCtile f).staging = s.staging := rfl
@[simp] theorem State.modCtile_spire (s : State) (f : Tile → Tile) : (s.modCtile f).spire = s.spire := rfl
@[simp] theorem State.modCtile_net (s : State) (f : Tile → Tile) : (s.modCtile f).net = s.net := rfl
@[simp] theorem State.modCtile_tlb (s : State) (f : Tile → Tile) : (s.modCtile f).tlb = s.tlb := rfl
@[simp] theorem State.modCtile_tables (s : State) (f : Tile → Tile) : (s.modCtile f).tables = s.tables := rfl
@[simp] theorem State.modCtile_ports (s : State) (f : Tile → Tile) : (s.modCtile f).ports = s.ports := rfl
@[simp] theorem State.modCtile_belfry (s : State) (f : Tile → Tile) : (s.modCtile f).belfry = s.belfry := rfl
@[simp] theorem State.modCtile_power (s : State) (f : Tile → Tile) : (s.modCtile f).power = s.power := rfl
@[simp] theorem State.modCtile_service (s : State) (f : Tile → Tile) : (s.modCtile f).service = s.service := rfl
@[simp] theorem State.modCtile_fatalCause (s : State) (f : Tile → Tile) : (s.modCtile f).fatalCause = s.fatalCause := rfl
@[simp] theorem State.modCtile_trained (s : State) (f : Tile → Tile) : (s.modCtile f).trained = s.trained := rfl
@[simp] theorem State.modCtile_failedStacks (s : State) (f : Tile → Tile) : (s.modCtile f).failedStacks = s.failedStacks := rfl
@[simp] theorem State.modCtile_dump (s : State) (f : Tile → Tile) : (s.modCtile f).dump = s.dump := rfl
@[simp] theorem State.modCtile_cur (s : State) (f : Tile → Tile) : (s.modCtile f).cur = s.cur := rfl
@[simp] theorem State.modCtile_turn (s : State) (f : Tile → Tile) : (s.modCtile f).turn = s.turn := rfl
@[simp] theorem State.modCtile_script (s : State) (f : Tile → Tile) : (s.modCtile f).script = s.script := rfl
@[simp] theorem State.modCtile_nextId (s : State) (f : Tile → Tile) : (s.modCtile f).nextId = s.nextId := rfl
@[simp] theorem State.modCtile_freeCtr (s : State) (f : Tile → Tile) : (s.modCtile f).freeCtr = s.freeCtr := rfl
@[simp] theorem State.setDie_tiles (s : State) (d : Nat) (v : Die) : (s.setDie d v).tiles = s.tiles := rfl
@[simp] theorem State.setDie_homes (s : State) (d : Nat) (v : Die) : (s.setDie d v).homes = s.homes := rfl
@[simp] theorem State.setDie_dram (s : State) (d : Nat) (v : Die) : (s.setDie d v).dram = s.dram := rfl
@[simp] theorem State.setDie_dramBad (s : State) (d : Nat) (v : Die) : (s.setDie d v).dramBad = s.dramBad := rfl
@[simp] theorem State.setDie_pkg (s : State) (d : Nat) (v : Die) : (s.setDie d v).pkg = s.pkg := rfl
@[simp] theorem State.setDie_lock (s : State) (d : Nat) (v : Die) : (s.setDie d v).lock = s.lock := rfl
@[simp] theorem State.setDie_rollout (s : State) (d : Nat) (v : Die) : (s.setDie d v).rollout = s.rollout := rfl
@[simp] theorem State.setDie_portCfg (s : State) (d : Nat) (v : Die) : (s.setDie d v).portCfg = s.portCfg := rfl
@[simp] theorem State.setDie_tenants (s : State) (d : Nat) (v : Die) : (s.setDie d v).tenants = s.tenants := rfl
@[simp] theorem State.setDie_peers (s : State) (d : Nat) (v : Die) : (s.setDie d v).peers = s.peers := rfl
@[simp] theorem State.setDie_staging (s : State) (d : Nat) (v : Die) : (s.setDie d v).staging = s.staging := rfl
@[simp] theorem State.setDie_spire (s : State) (d : Nat) (v : Die) : (s.setDie d v).spire = s.spire := rfl
@[simp] theorem State.setDie_net (s : State) (d : Nat) (v : Die) : (s.setDie d v).net = s.net := rfl
@[simp] theorem State.setDie_tlb (s : State) (d : Nat) (v : Die) : (s.setDie d v).tlb = s.tlb := rfl
@[simp] theorem State.setDie_tables (s : State) (d : Nat) (v : Die) : (s.setDie d v).tables = s.tables := rfl
@[simp] theorem State.setDie_ports (s : State) (d : Nat) (v : Die) : (s.setDie d v).ports = s.ports := rfl
@[simp] theorem State.setDie_belfry (s : State) (d : Nat) (v : Die) : (s.setDie d v).belfry = s.belfry := rfl
@[simp] theorem State.setDie_power (s : State) (d : Nat) (v : Die) : (s.setDie d v).power = s.power := rfl
@[simp] theorem State.setDie_service (s : State) (d : Nat) (v : Die) : (s.setDie d v).service = s.service := rfl
@[simp] theorem State.setDie_fatalCause (s : State) (d : Nat) (v : Die) : (s.setDie d v).fatalCause = s.fatalCause := rfl
@[simp] theorem State.setDie_trained (s : State) (d : Nat) (v : Die) : (s.setDie d v).trained = s.trained := rfl
@[simp] theorem State.setDie_failedStacks (s : State) (d : Nat) (v : Die) : (s.setDie d v).failedStacks = s.failedStacks := rfl
@[simp] theorem State.setDie_dump (s : State) (d : Nat) (v : Die) : (s.setDie d v).dump = s.dump := rfl
@[simp] theorem State.setDie_cur (s : State) (d : Nat) (v : Die) : (s.setDie d v).cur = s.cur := rfl
@[simp] theorem State.setDie_turn (s : State) (d : Nat) (v : Die) : (s.setDie d v).turn = s.turn := rfl
@[simp] theorem State.setDie_script (s : State) (d : Nat) (v : Die) : (s.setDie d v).script = s.script := rfl
@[simp] theorem State.setDie_nextId (s : State) (d : Nat) (v : Die) : (s.setDie d v).nextId = s.nextId := rfl
@[simp] theorem State.setDie_freeCtr (s : State) (d : Nat) (v : Die) : (s.setDie d v).freeCtr = s.freeCtr := rfl
@[simp] theorem State.modDie_tiles (s : State) (d : Nat) (f : Die → Die) : (s.modDie d f).tiles = s.tiles := rfl
@[simp] theorem State.modDie_homes (s : State) (d : Nat) (f : Die → Die) : (s.modDie d f).homes = s.homes := rfl
@[simp] theorem State.modDie_dram (s : State) (d : Nat) (f : Die → Die) : (s.modDie d f).dram = s.dram := rfl
@[simp] theorem State.modDie_dramBad (s : State) (d : Nat) (f : Die → Die) : (s.modDie d f).dramBad = s.dramBad := rfl
@[simp] theorem State.modDie_pkg (s : State) (d : Nat) (f : Die → Die) : (s.modDie d f).pkg = s.pkg := rfl
@[simp] theorem State.modDie_lock (s : State) (d : Nat) (f : Die → Die) : (s.modDie d f).lock = s.lock := rfl
@[simp] theorem State.modDie_rollout (s : State) (d : Nat) (f : Die → Die) : (s.modDie d f).rollout = s.rollout := rfl
@[simp] theorem State.modDie_portCfg (s : State) (d : Nat) (f : Die → Die) : (s.modDie d f).portCfg = s.portCfg := rfl
@[simp] theorem State.modDie_tenants (s : State) (d : Nat) (f : Die → Die) : (s.modDie d f).tenants = s.tenants := rfl
@[simp] theorem State.modDie_peers (s : State) (d : Nat) (f : Die → Die) : (s.modDie d f).peers = s.peers := rfl
@[simp] theorem State.modDie_staging (s : State) (d : Nat) (f : Die → Die) : (s.modDie d f).staging = s.staging := rfl
@[simp] theorem State.modDie_spire (s : State) (d : Nat) (f : Die → Die) : (s.modDie d f).spire = s.spire := rfl
@[simp] theorem State.modDie_net (s : State) (d : Nat) (f : Die → Die) : (s.modDie d f).net = s.net := rfl
@[simp] theorem State.modDie_tlb (s : State) (d : Nat) (f : Die → Die) : (s.modDie d f).tlb = s.tlb := rfl
@[simp] theorem State.modDie_tables (s : State) (d : Nat) (f : Die → Die) : (s.modDie d f).tables = s.tables := rfl
@[simp] theorem State.modDie_ports (s : State) (d : Nat) (f : Die → Die) : (s.modDie d f).ports = s.ports := rfl
@[simp] theorem State.modDie_belfry (s : State) (d : Nat) (f : Die → Die) : (s.modDie d f).belfry = s.belfry := rfl
@[simp] theorem State.modDie_power (s : State) (d : Nat) (f : Die → Die) : (s.modDie d f).power = s.power := rfl
@[simp] theorem State.modDie_service (s : State) (d : Nat) (f : Die → Die) : (s.modDie d f).service = s.service := rfl
@[simp] theorem State.modDie_fatalCause (s : State) (d : Nat) (f : Die → Die) : (s.modDie d f).fatalCause = s.fatalCause := rfl
@[simp] theorem State.modDie_trained (s : State) (d : Nat) (f : Die → Die) : (s.modDie d f).trained = s.trained := rfl
@[simp] theorem State.modDie_failedStacks (s : State) (d : Nat) (f : Die → Die) : (s.modDie d f).failedStacks = s.failedStacks := rfl
@[simp] theorem State.modDie_dump (s : State) (d : Nat) (f : Die → Die) : (s.modDie d f).dump = s.dump := rfl
@[simp] theorem State.modDie_cur (s : State) (d : Nat) (f : Die → Die) : (s.modDie d f).cur = s.cur := rfl
@[simp] theorem State.modDie_turn (s : State) (d : Nat) (f : Die → Die) : (s.modDie d f).turn = s.turn := rfl
@[simp] theorem State.modDie_script (s : State) (d : Nat) (f : Die → Die) : (s.modDie d f).script = s.script := rfl
@[simp] theorem State.modDie_nextId (s : State) (d : Nat) (f : Die → Die) : (s.modDie d f).nextId = s.nextId := rfl
@[simp] theorem State.modDie_freeCtr (s : State) (d : Nat) (f : Die → Die) : (s.modDie d f).freeCtr = s.freeCtr := rfl
@[simp] theorem State.debit_tiles (s : State) (d c : Nat) : (s.debit d c).tiles = s.tiles := rfl
@[simp] theorem State.debit_homes (s : State) (d c : Nat) : (s.debit d c).homes = s.homes := rfl
@[simp] theorem State.debit_dram (s : State) (d c : Nat) : (s.debit d c).dram = s.dram := rfl
@[simp] theorem State.debit_dramBad (s : State) (d c : Nat) : (s.debit d c).dramBad = s.dramBad := rfl
@[simp] theorem State.debit_pkg (s : State) (d c : Nat) : (s.debit d c).pkg = s.pkg := rfl
@[simp] theorem State.debit_lock (s : State) (d c : Nat) : (s.debit d c).lock = s.lock := rfl
@[simp] theorem State.debit_rollout (s : State) (d c : Nat) : (s.debit d c).rollout = s.rollout := rfl
@[simp] theorem State.debit_portCfg (s : State) (d c : Nat) : (s.debit d c).portCfg = s.portCfg := rfl
@[simp] theorem State.debit_tenants (s : State) (d c : Nat) : (s.debit d c).tenants = s.tenants := rfl
@[simp] theorem State.debit_peers (s : State) (d c : Nat) : (s.debit d c).peers = s.peers := rfl
@[simp] theorem State.debit_staging (s : State) (d c : Nat) : (s.debit d c).staging = s.staging := rfl
@[simp] theorem State.debit_spire (s : State) (d c : Nat) : (s.debit d c).spire = s.spire := rfl
@[simp] theorem State.debit_net (s : State) (d c : Nat) : (s.debit d c).net = s.net := rfl
@[simp] theorem State.debit_tlb (s : State) (d c : Nat) : (s.debit d c).tlb = s.tlb := rfl
@[simp] theorem State.debit_tables (s : State) (d c : Nat) : (s.debit d c).tables = s.tables := rfl
@[simp] theorem State.debit_ports (s : State) (d c : Nat) : (s.debit d c).ports = s.ports := rfl
@[simp] theorem State.debit_belfry (s : State) (d c : Nat) : (s.debit d c).belfry = s.belfry := rfl
@[simp] theorem State.debit_power (s : State) (d c : Nat) : (s.debit d c).power = s.power := rfl
@[simp] theorem State.debit_service (s : State) (d c : Nat) : (s.debit d c).service = s.service := rfl
@[simp] theorem State.debit_fatalCause (s : State) (d c : Nat) : (s.debit d c).fatalCause = s.fatalCause := rfl
@[simp] theorem State.debit_trained (s : State) (d c : Nat) : (s.debit d c).trained = s.trained := rfl
@[simp] theorem State.debit_failedStacks (s : State) (d c : Nat) : (s.debit d c).failedStacks = s.failedStacks := rfl
@[simp] theorem State.debit_dump (s : State) (d c : Nat) : (s.debit d c).dump = s.dump := rfl
@[simp] theorem State.debit_cur (s : State) (d c : Nat) : (s.debit d c).cur = s.cur := rfl
@[simp] theorem State.debit_turn (s : State) (d c : Nat) : (s.debit d c).turn = s.turn := rfl
@[simp] theorem State.debit_script (s : State) (d c : Nat) : (s.debit d c).script = s.script := rfl
@[simp] theorem State.debit_nextId (s : State) (d c : Nat) : (s.debit d c).nextId = s.nextId := rfl
@[simp] theorem State.debit_freeCtr (s : State) (d c : Nat) : (s.debit d c).freeCtr = s.freeCtr := rfl
@[simp] theorem State.setHome_tiles (s : State) (h : Nat) (v : Home) : (s.setHome h v).tiles = s.tiles := rfl
@[simp] theorem State.setHome_dies (s : State) (h : Nat) (v : Home) : (s.setHome h v).dies = s.dies := rfl
@[simp] theorem State.setHome_dram (s : State) (h : Nat) (v : Home) : (s.setHome h v).dram = s.dram := rfl
@[simp] theorem State.setHome_dramBad (s : State) (h : Nat) (v : Home) : (s.setHome h v).dramBad = s.dramBad := rfl
@[simp] theorem State.setHome_pkg (s : State) (h : Nat) (v : Home) : (s.setHome h v).pkg = s.pkg := rfl
@[simp] theorem State.setHome_lock (s : State) (h : Nat) (v : Home) : (s.setHome h v).lock = s.lock := rfl
@[simp] theorem State.setHome_rollout (s : State) (h : Nat) (v : Home) : (s.setHome h v).rollout = s.rollout := rfl
@[simp] theorem State.setHome_portCfg (s : State) (h : Nat) (v : Home) : (s.setHome h v).portCfg = s.portCfg := rfl
@[simp] theorem State.setHome_tenants (s : State) (h : Nat) (v : Home) : (s.setHome h v).tenants = s.tenants := rfl
@[simp] theorem State.setHome_peers (s : State) (h : Nat) (v : Home) : (s.setHome h v).peers = s.peers := rfl
@[simp] theorem State.setHome_staging (s : State) (h : Nat) (v : Home) : (s.setHome h v).staging = s.staging := rfl
@[simp] theorem State.setHome_spire (s : State) (h : Nat) (v : Home) : (s.setHome h v).spire = s.spire := rfl
@[simp] theorem State.setHome_net (s : State) (h : Nat) (v : Home) : (s.setHome h v).net = s.net := rfl
@[simp] theorem State.setHome_tlb (s : State) (h : Nat) (v : Home) : (s.setHome h v).tlb = s.tlb := rfl
@[simp] theorem State.setHome_tables (s : State) (h : Nat) (v : Home) : (s.setHome h v).tables = s.tables := rfl
@[simp] theorem State.setHome_ports (s : State) (h : Nat) (v : Home) : (s.setHome h v).ports = s.ports := rfl
@[simp] theorem State.setHome_belfry (s : State) (h : Nat) (v : Home) : (s.setHome h v).belfry = s.belfry := rfl
@[simp] theorem State.setHome_power (s : State) (h : Nat) (v : Home) : (s.setHome h v).power = s.power := rfl
@[simp] theorem State.setHome_service (s : State) (h : Nat) (v : Home) : (s.setHome h v).service = s.service := rfl
@[simp] theorem State.setHome_fatalCause (s : State) (h : Nat) (v : Home) : (s.setHome h v).fatalCause = s.fatalCause := rfl
@[simp] theorem State.setHome_trained (s : State) (h : Nat) (v : Home) : (s.setHome h v).trained = s.trained := rfl
@[simp] theorem State.setHome_failedStacks (s : State) (h : Nat) (v : Home) : (s.setHome h v).failedStacks = s.failedStacks := rfl
@[simp] theorem State.setHome_dump (s : State) (h : Nat) (v : Home) : (s.setHome h v).dump = s.dump := rfl
@[simp] theorem State.setHome_cur (s : State) (h : Nat) (v : Home) : (s.setHome h v).cur = s.cur := rfl
@[simp] theorem State.setHome_turn (s : State) (h : Nat) (v : Home) : (s.setHome h v).turn = s.turn := rfl
@[simp] theorem State.setHome_script (s : State) (h : Nat) (v : Home) : (s.setHome h v).script = s.script := rfl
@[simp] theorem State.setHome_nextId (s : State) (h : Nat) (v : Home) : (s.setHome h v).nextId = s.nextId := rfl
@[simp] theorem State.setHome_freeCtr (s : State) (h : Nat) (v : Home) : (s.setHome h v).freeCtr = s.freeCtr := rfl
@[simp] theorem State.modHome_tiles (s : State) (h : Nat) (f : Home → Home) : (s.modHome h f).tiles = s.tiles := rfl
@[simp] theorem State.modHome_dies (s : State) (h : Nat) (f : Home → Home) : (s.modHome h f).dies = s.dies := rfl
@[simp] theorem State.modHome_dram (s : State) (h : Nat) (f : Home → Home) : (s.modHome h f).dram = s.dram := rfl
@[simp] theorem State.modHome_dramBad (s : State) (h : Nat) (f : Home → Home) : (s.modHome h f).dramBad = s.dramBad := rfl
@[simp] theorem State.modHome_pkg (s : State) (h : Nat) (f : Home → Home) : (s.modHome h f).pkg = s.pkg := rfl
@[simp] theorem State.modHome_lock (s : State) (h : Nat) (f : Home → Home) : (s.modHome h f).lock = s.lock := rfl
@[simp] theorem State.modHome_rollout (s : State) (h : Nat) (f : Home → Home) : (s.modHome h f).rollout = s.rollout := rfl
@[simp] theorem State.modHome_portCfg (s : State) (h : Nat) (f : Home → Home) : (s.modHome h f).portCfg = s.portCfg := rfl
@[simp] theorem State.modHome_tenants (s : State) (h : Nat) (f : Home → Home) : (s.modHome h f).tenants = s.tenants := rfl
@[simp] theorem State.modHome_peers (s : State) (h : Nat) (f : Home → Home) : (s.modHome h f).peers = s.peers := rfl
@[simp] theorem State.modHome_staging (s : State) (h : Nat) (f : Home → Home) : (s.modHome h f).staging = s.staging := rfl
@[simp] theorem State.modHome_spire (s : State) (h : Nat) (f : Home → Home) : (s.modHome h f).spire = s.spire := rfl
@[simp] theorem State.modHome_net (s : State) (h : Nat) (f : Home → Home) : (s.modHome h f).net = s.net := rfl
@[simp] theorem State.modHome_tlb (s : State) (h : Nat) (f : Home → Home) : (s.modHome h f).tlb = s.tlb := rfl
@[simp] theorem State.modHome_tables (s : State) (h : Nat) (f : Home → Home) : (s.modHome h f).tables = s.tables := rfl
@[simp] theorem State.modHome_ports (s : State) (h : Nat) (f : Home → Home) : (s.modHome h f).ports = s.ports := rfl
@[simp] theorem State.modHome_belfry (s : State) (h : Nat) (f : Home → Home) : (s.modHome h f).belfry = s.belfry := rfl
@[simp] theorem State.modHome_power (s : State) (h : Nat) (f : Home → Home) : (s.modHome h f).power = s.power := rfl
@[simp] theorem State.modHome_service (s : State) (h : Nat) (f : Home → Home) : (s.modHome h f).service = s.service := rfl
@[simp] theorem State.modHome_fatalCause (s : State) (h : Nat) (f : Home → Home) : (s.modHome h f).fatalCause = s.fatalCause := rfl
@[simp] theorem State.modHome_trained (s : State) (h : Nat) (f : Home → Home) : (s.modHome h f).trained = s.trained := rfl
@[simp] theorem State.modHome_failedStacks (s : State) (h : Nat) (f : Home → Home) : (s.modHome h f).failedStacks = s.failedStacks := rfl
@[simp] theorem State.modHome_dump (s : State) (h : Nat) (f : Home → Home) : (s.modHome h f).dump = s.dump := rfl
@[simp] theorem State.modHome_cur (s : State) (h : Nat) (f : Home → Home) : (s.modHome h f).cur = s.cur := rfl
@[simp] theorem State.modHome_turn (s : State) (h : Nat) (f : Home → Home) : (s.modHome h f).turn = s.turn := rfl
@[simp] theorem State.modHome_script (s : State) (h : Nat) (f : Home → Home) : (s.modHome h f).script = s.script := rfl
@[simp] theorem State.modHome_nextId (s : State) (h : Nat) (f : Home → Home) : (s.modHome h f).nextId = s.nextId := rfl
@[simp] theorem State.modHome_freeCtr (s : State) (h : Nat) (f : Home → Home) : (s.modHome h f).freeCtr = s.freeCtr := rfl
@[simp] theorem State.setPort_tiles (s : State) (p : Nat) (v : HostPort) : (s.setPort p v).tiles = s.tiles := rfl
@[simp] theorem State.setPort_dies (s : State) (p : Nat) (v : HostPort) : (s.setPort p v).dies = s.dies := rfl
@[simp] theorem State.setPort_homes (s : State) (p : Nat) (v : HostPort) : (s.setPort p v).homes = s.homes := rfl
@[simp] theorem State.setPort_dram (s : State) (p : Nat) (v : HostPort) : (s.setPort p v).dram = s.dram := rfl
@[simp] theorem State.setPort_dramBad (s : State) (p : Nat) (v : HostPort) : (s.setPort p v).dramBad = s.dramBad := rfl
@[simp] theorem State.setPort_pkg (s : State) (p : Nat) (v : HostPort) : (s.setPort p v).pkg = s.pkg := rfl
@[simp] theorem State.setPort_lock (s : State) (p : Nat) (v : HostPort) : (s.setPort p v).lock = s.lock := rfl
@[simp] theorem State.setPort_rollout (s : State) (p : Nat) (v : HostPort) : (s.setPort p v).rollout = s.rollout := rfl
@[simp] theorem State.setPort_portCfg (s : State) (p : Nat) (v : HostPort) : (s.setPort p v).portCfg = s.portCfg := rfl
@[simp] theorem State.setPort_tenants (s : State) (p : Nat) (v : HostPort) : (s.setPort p v).tenants = s.tenants := rfl
@[simp] theorem State.setPort_peers (s : State) (p : Nat) (v : HostPort) : (s.setPort p v).peers = s.peers := rfl
@[simp] theorem State.setPort_staging (s : State) (p : Nat) (v : HostPort) : (s.setPort p v).staging = s.staging := rfl
@[simp] theorem State.setPort_spire (s : State) (p : Nat) (v : HostPort) : (s.setPort p v).spire = s.spire := rfl
@[simp] theorem State.setPort_net (s : State) (p : Nat) (v : HostPort) : (s.setPort p v).net = s.net := rfl
@[simp] theorem State.setPort_tlb (s : State) (p : Nat) (v : HostPort) : (s.setPort p v).tlb = s.tlb := rfl
@[simp] theorem State.setPort_tables (s : State) (p : Nat) (v : HostPort) : (s.setPort p v).tables = s.tables := rfl
@[simp] theorem State.setPort_belfry (s : State) (p : Nat) (v : HostPort) : (s.setPort p v).belfry = s.belfry := rfl
@[simp] theorem State.setPort_power (s : State) (p : Nat) (v : HostPort) : (s.setPort p v).power = s.power := rfl
@[simp] theorem State.setPort_service (s : State) (p : Nat) (v : HostPort) : (s.setPort p v).service = s.service := rfl
@[simp] theorem State.setPort_fatalCause (s : State) (p : Nat) (v : HostPort) : (s.setPort p v).fatalCause = s.fatalCause := rfl
@[simp] theorem State.setPort_trained (s : State) (p : Nat) (v : HostPort) : (s.setPort p v).trained = s.trained := rfl
@[simp] theorem State.setPort_failedStacks (s : State) (p : Nat) (v : HostPort) : (s.setPort p v).failedStacks = s.failedStacks := rfl
@[simp] theorem State.setPort_dump (s : State) (p : Nat) (v : HostPort) : (s.setPort p v).dump = s.dump := rfl
@[simp] theorem State.setPort_cur (s : State) (p : Nat) (v : HostPort) : (s.setPort p v).cur = s.cur := rfl
@[simp] theorem State.setPort_turn (s : State) (p : Nat) (v : HostPort) : (s.setPort p v).turn = s.turn := rfl
@[simp] theorem State.setPort_script (s : State) (p : Nat) (v : HostPort) : (s.setPort p v).script = s.script := rfl
@[simp] theorem State.setPort_nextId (s : State) (p : Nat) (v : HostPort) : (s.setPort p v).nextId = s.nextId := rfl
@[simp] theorem State.setPort_freeCtr (s : State) (p : Nat) (v : HostPort) : (s.setPort p v).freeCtr = s.freeCtr := rfl
@[simp] theorem State.modPort_tiles (s : State) (p : Nat) (f : HostPort → HostPort) : (s.modPort p f).tiles = s.tiles := rfl
@[simp] theorem State.modPort_dies (s : State) (p : Nat) (f : HostPort → HostPort) : (s.modPort p f).dies = s.dies := rfl
@[simp] theorem State.modPort_homes (s : State) (p : Nat) (f : HostPort → HostPort) : (s.modPort p f).homes = s.homes := rfl
@[simp] theorem State.modPort_dram (s : State) (p : Nat) (f : HostPort → HostPort) : (s.modPort p f).dram = s.dram := rfl
@[simp] theorem State.modPort_dramBad (s : State) (p : Nat) (f : HostPort → HostPort) : (s.modPort p f).dramBad = s.dramBad := rfl
@[simp] theorem State.modPort_pkg (s : State) (p : Nat) (f : HostPort → HostPort) : (s.modPort p f).pkg = s.pkg := rfl
@[simp] theorem State.modPort_lock (s : State) (p : Nat) (f : HostPort → HostPort) : (s.modPort p f).lock = s.lock := rfl
@[simp] theorem State.modPort_rollout (s : State) (p : Nat) (f : HostPort → HostPort) : (s.modPort p f).rollout = s.rollout := rfl
@[simp] theorem State.modPort_portCfg (s : State) (p : Nat) (f : HostPort → HostPort) : (s.modPort p f).portCfg = s.portCfg := rfl
@[simp] theorem State.modPort_tenants (s : State) (p : Nat) (f : HostPort → HostPort) : (s.modPort p f).tenants = s.tenants := rfl
@[simp] theorem State.modPort_peers (s : State) (p : Nat) (f : HostPort → HostPort) : (s.modPort p f).peers = s.peers := rfl
@[simp] theorem State.modPort_staging (s : State) (p : Nat) (f : HostPort → HostPort) : (s.modPort p f).staging = s.staging := rfl
@[simp] theorem State.modPort_spire (s : State) (p : Nat) (f : HostPort → HostPort) : (s.modPort p f).spire = s.spire := rfl
@[simp] theorem State.modPort_net (s : State) (p : Nat) (f : HostPort → HostPort) : (s.modPort p f).net = s.net := rfl
@[simp] theorem State.modPort_tlb (s : State) (p : Nat) (f : HostPort → HostPort) : (s.modPort p f).tlb = s.tlb := rfl
@[simp] theorem State.modPort_tables (s : State) (p : Nat) (f : HostPort → HostPort) : (s.modPort p f).tables = s.tables := rfl
@[simp] theorem State.modPort_belfry (s : State) (p : Nat) (f : HostPort → HostPort) : (s.modPort p f).belfry = s.belfry := rfl
@[simp] theorem State.modPort_power (s : State) (p : Nat) (f : HostPort → HostPort) : (s.modPort p f).power = s.power := rfl
@[simp] theorem State.modPort_service (s : State) (p : Nat) (f : HostPort → HostPort) : (s.modPort p f).service = s.service := rfl
@[simp] theorem State.modPort_fatalCause (s : State) (p : Nat) (f : HostPort → HostPort) : (s.modPort p f).fatalCause = s.fatalCause := rfl
@[simp] theorem State.modPort_trained (s : State) (p : Nat) (f : HostPort → HostPort) : (s.modPort p f).trained = s.trained := rfl
@[simp] theorem State.modPort_failedStacks (s : State) (p : Nat) (f : HostPort → HostPort) : (s.modPort p f).failedStacks = s.failedStacks := rfl
@[simp] theorem State.modPort_dump (s : State) (p : Nat) (f : HostPort → HostPort) : (s.modPort p f).dump = s.dump := rfl
@[simp] theorem State.modPort_cur (s : State) (p : Nat) (f : HostPort → HostPort) : (s.modPort p f).cur = s.cur := rfl
@[simp] theorem State.modPort_turn (s : State) (p : Nat) (f : HostPort → HostPort) : (s.modPort p f).turn = s.turn := rfl
@[simp] theorem State.modPort_script (s : State) (p : Nat) (f : HostPort → HostPort) : (s.modPort p f).script = s.script := rfl
@[simp] theorem State.modPort_nextId (s : State) (p : Nat) (f : HostPort → HostPort) : (s.modPort p f).nextId = s.nextId := rfl
@[simp] theorem State.modPort_freeCtr (s : State) (p : Nat) (f : HostPort → HostPort) : (s.modPort p f).freeCtr = s.freeCtr := rfl
@[simp] theorem State.setPeer_tiles (s : State) (c : Nat) (v : Peer) : (s.setPeer c v).tiles = s.tiles := rfl
@[simp] theorem State.setPeer_dies (s : State) (c : Nat) (v : Peer) : (s.setPeer c v).dies = s.dies := rfl
@[simp] theorem State.setPeer_homes (s : State) (c : Nat) (v : Peer) : (s.setPeer c v).homes = s.homes := rfl
@[simp] theorem State.setPeer_dram (s : State) (c : Nat) (v : Peer) : (s.setPeer c v).dram = s.dram := rfl
@[simp] theorem State.setPeer_dramBad (s : State) (c : Nat) (v : Peer) : (s.setPeer c v).dramBad = s.dramBad := rfl
@[simp] theorem State.setPeer_pkg (s : State) (c : Nat) (v : Peer) : (s.setPeer c v).pkg = s.pkg := rfl
@[simp] theorem State.setPeer_lock (s : State) (c : Nat) (v : Peer) : (s.setPeer c v).lock = s.lock := rfl
@[simp] theorem State.setPeer_rollout (s : State) (c : Nat) (v : Peer) : (s.setPeer c v).rollout = s.rollout := rfl
@[simp] theorem State.setPeer_portCfg (s : State) (c : Nat) (v : Peer) : (s.setPeer c v).portCfg = s.portCfg := rfl
@[simp] theorem State.setPeer_tenants (s : State) (c : Nat) (v : Peer) : (s.setPeer c v).tenants = s.tenants := rfl
@[simp] theorem State.setPeer_staging (s : State) (c : Nat) (v : Peer) : (s.setPeer c v).staging = s.staging := rfl
@[simp] theorem State.setPeer_spire (s : State) (c : Nat) (v : Peer) : (s.setPeer c v).spire = s.spire := rfl
@[simp] theorem State.setPeer_net (s : State) (c : Nat) (v : Peer) : (s.setPeer c v).net = s.net := rfl
@[simp] theorem State.setPeer_tlb (s : State) (c : Nat) (v : Peer) : (s.setPeer c v).tlb = s.tlb := rfl
@[simp] theorem State.setPeer_tables (s : State) (c : Nat) (v : Peer) : (s.setPeer c v).tables = s.tables := rfl
@[simp] theorem State.setPeer_ports (s : State) (c : Nat) (v : Peer) : (s.setPeer c v).ports = s.ports := rfl
@[simp] theorem State.setPeer_belfry (s : State) (c : Nat) (v : Peer) : (s.setPeer c v).belfry = s.belfry := rfl
@[simp] theorem State.setPeer_power (s : State) (c : Nat) (v : Peer) : (s.setPeer c v).power = s.power := rfl
@[simp] theorem State.setPeer_service (s : State) (c : Nat) (v : Peer) : (s.setPeer c v).service = s.service := rfl
@[simp] theorem State.setPeer_fatalCause (s : State) (c : Nat) (v : Peer) : (s.setPeer c v).fatalCause = s.fatalCause := rfl
@[simp] theorem State.setPeer_trained (s : State) (c : Nat) (v : Peer) : (s.setPeer c v).trained = s.trained := rfl
@[simp] theorem State.setPeer_failedStacks (s : State) (c : Nat) (v : Peer) : (s.setPeer c v).failedStacks = s.failedStacks := rfl
@[simp] theorem State.setPeer_dump (s : State) (c : Nat) (v : Peer) : (s.setPeer c v).dump = s.dump := rfl
@[simp] theorem State.setPeer_cur (s : State) (c : Nat) (v : Peer) : (s.setPeer c v).cur = s.cur := rfl
@[simp] theorem State.setPeer_turn (s : State) (c : Nat) (v : Peer) : (s.setPeer c v).turn = s.turn := rfl
@[simp] theorem State.setPeer_script (s : State) (c : Nat) (v : Peer) : (s.setPeer c v).script = s.script := rfl
@[simp] theorem State.setPeer_nextId (s : State) (c : Nat) (v : Peer) : (s.setPeer c v).nextId = s.nextId := rfl
@[simp] theorem State.setPeer_freeCtr (s : State) (c : Nat) (v : Peer) : (s.setPeer c v).freeCtr = s.freeCtr := rfl
@[simp] theorem State.setSpirePort_tiles (s : State) (p : Nat) (v : SpirePort) : (s.setSpirePort p v).tiles = s.tiles := rfl
@[simp] theorem State.setSpirePort_dies (s : State) (p : Nat) (v : SpirePort) : (s.setSpirePort p v).dies = s.dies := rfl
@[simp] theorem State.setSpirePort_homes (s : State) (p : Nat) (v : SpirePort) : (s.setSpirePort p v).homes = s.homes := rfl
@[simp] theorem State.setSpirePort_dram (s : State) (p : Nat) (v : SpirePort) : (s.setSpirePort p v).dram = s.dram := rfl
@[simp] theorem State.setSpirePort_dramBad (s : State) (p : Nat) (v : SpirePort) : (s.setSpirePort p v).dramBad = s.dramBad := rfl
@[simp] theorem State.setSpirePort_pkg (s : State) (p : Nat) (v : SpirePort) : (s.setSpirePort p v).pkg = s.pkg := rfl
@[simp] theorem State.setSpirePort_lock (s : State) (p : Nat) (v : SpirePort) : (s.setSpirePort p v).lock = s.lock := rfl
@[simp] theorem State.setSpirePort_rollout (s : State) (p : Nat) (v : SpirePort) : (s.setSpirePort p v).rollout = s.rollout := rfl
@[simp] theorem State.setSpirePort_portCfg (s : State) (p : Nat) (v : SpirePort) : (s.setSpirePort p v).portCfg = s.portCfg := rfl
@[simp] theorem State.setSpirePort_tenants (s : State) (p : Nat) (v : SpirePort) : (s.setSpirePort p v).tenants = s.tenants := rfl
@[simp] theorem State.setSpirePort_peers (s : State) (p : Nat) (v : SpirePort) : (s.setSpirePort p v).peers = s.peers := rfl
@[simp] theorem State.setSpirePort_staging (s : State) (p : Nat) (v : SpirePort) : (s.setSpirePort p v).staging = s.staging := rfl
@[simp] theorem State.setSpirePort_net (s : State) (p : Nat) (v : SpirePort) : (s.setSpirePort p v).net = s.net := rfl
@[simp] theorem State.setSpirePort_tlb (s : State) (p : Nat) (v : SpirePort) : (s.setSpirePort p v).tlb = s.tlb := rfl
@[simp] theorem State.setSpirePort_tables (s : State) (p : Nat) (v : SpirePort) : (s.setSpirePort p v).tables = s.tables := rfl
@[simp] theorem State.setSpirePort_ports (s : State) (p : Nat) (v : SpirePort) : (s.setSpirePort p v).ports = s.ports := rfl
@[simp] theorem State.setSpirePort_belfry (s : State) (p : Nat) (v : SpirePort) : (s.setSpirePort p v).belfry = s.belfry := rfl
@[simp] theorem State.setSpirePort_power (s : State) (p : Nat) (v : SpirePort) : (s.setSpirePort p v).power = s.power := rfl
@[simp] theorem State.setSpirePort_service (s : State) (p : Nat) (v : SpirePort) : (s.setSpirePort p v).service = s.service := rfl
@[simp] theorem State.setSpirePort_fatalCause (s : State) (p : Nat) (v : SpirePort) : (s.setSpirePort p v).fatalCause = s.fatalCause := rfl
@[simp] theorem State.setSpirePort_trained (s : State) (p : Nat) (v : SpirePort) : (s.setSpirePort p v).trained = s.trained := rfl
@[simp] theorem State.setSpirePort_failedStacks (s : State) (p : Nat) (v : SpirePort) : (s.setSpirePort p v).failedStacks = s.failedStacks := rfl
@[simp] theorem State.setSpirePort_dump (s : State) (p : Nat) (v : SpirePort) : (s.setSpirePort p v).dump = s.dump := rfl
@[simp] theorem State.setSpirePort_cur (s : State) (p : Nat) (v : SpirePort) : (s.setSpirePort p v).cur = s.cur := rfl
@[simp] theorem State.setSpirePort_turn (s : State) (p : Nat) (v : SpirePort) : (s.setSpirePort p v).turn = s.turn := rfl
@[simp] theorem State.setSpirePort_script (s : State) (p : Nat) (v : SpirePort) : (s.setSpirePort p v).script = s.script := rfl
@[simp] theorem State.setSpirePort_nextId (s : State) (p : Nat) (v : SpirePort) : (s.setSpirePort p v).nextId = s.nextId := rfl
@[simp] theorem State.setSpirePort_freeCtr (s : State) (p : Nat) (v : SpirePort) : (s.setSpirePort p v).freeCtr = s.freeCtr := rfl
@[simp] theorem State.modBelfry_tiles (s : State) (f : Belfry → Belfry) : (s.modBelfry f).tiles = s.tiles := rfl
@[simp] theorem State.modBelfry_dies (s : State) (f : Belfry → Belfry) : (s.modBelfry f).dies = s.dies := rfl
@[simp] theorem State.modBelfry_homes (s : State) (f : Belfry → Belfry) : (s.modBelfry f).homes = s.homes := rfl
@[simp] theorem State.modBelfry_dram (s : State) (f : Belfry → Belfry) : (s.modBelfry f).dram = s.dram := rfl
@[simp] theorem State.modBelfry_dramBad (s : State) (f : Belfry → Belfry) : (s.modBelfry f).dramBad = s.dramBad := rfl
@[simp] theorem State.modBelfry_pkg (s : State) (f : Belfry → Belfry) : (s.modBelfry f).pkg = s.pkg := rfl
@[simp] theorem State.modBelfry_lock (s : State) (f : Belfry → Belfry) : (s.modBelfry f).lock = s.lock := rfl
@[simp] theorem State.modBelfry_rollout (s : State) (f : Belfry → Belfry) : (s.modBelfry f).rollout = s.rollout := rfl
@[simp] theorem State.modBelfry_portCfg (s : State) (f : Belfry → Belfry) : (s.modBelfry f).portCfg = s.portCfg := rfl
@[simp] theorem State.modBelfry_tenants (s : State) (f : Belfry → Belfry) : (s.modBelfry f).tenants = s.tenants := rfl
@[simp] theorem State.modBelfry_peers (s : State) (f : Belfry → Belfry) : (s.modBelfry f).peers = s.peers := rfl
@[simp] theorem State.modBelfry_staging (s : State) (f : Belfry → Belfry) : (s.modBelfry f).staging = s.staging := rfl
@[simp] theorem State.modBelfry_spire (s : State) (f : Belfry → Belfry) : (s.modBelfry f).spire = s.spire := rfl
@[simp] theorem State.modBelfry_net (s : State) (f : Belfry → Belfry) : (s.modBelfry f).net = s.net := rfl
@[simp] theorem State.modBelfry_tlb (s : State) (f : Belfry → Belfry) : (s.modBelfry f).tlb = s.tlb := rfl
@[simp] theorem State.modBelfry_tables (s : State) (f : Belfry → Belfry) : (s.modBelfry f).tables = s.tables := rfl
@[simp] theorem State.modBelfry_ports (s : State) (f : Belfry → Belfry) : (s.modBelfry f).ports = s.ports := rfl
@[simp] theorem State.modBelfry_power (s : State) (f : Belfry → Belfry) : (s.modBelfry f).power = s.power := rfl
@[simp] theorem State.modBelfry_service (s : State) (f : Belfry → Belfry) : (s.modBelfry f).service = s.service := rfl
@[simp] theorem State.modBelfry_fatalCause (s : State) (f : Belfry → Belfry) : (s.modBelfry f).fatalCause = s.fatalCause := rfl
@[simp] theorem State.modBelfry_trained (s : State) (f : Belfry → Belfry) : (s.modBelfry f).trained = s.trained := rfl
@[simp] theorem State.modBelfry_failedStacks (s : State) (f : Belfry → Belfry) : (s.modBelfry f).failedStacks = s.failedStacks := rfl
@[simp] theorem State.modBelfry_dump (s : State) (f : Belfry → Belfry) : (s.modBelfry f).dump = s.dump := rfl
@[simp] theorem State.modBelfry_cur (s : State) (f : Belfry → Belfry) : (s.modBelfry f).cur = s.cur := rfl
@[simp] theorem State.modBelfry_turn (s : State) (f : Belfry → Belfry) : (s.modBelfry f).turn = s.turn := rfl
@[simp] theorem State.modBelfry_script (s : State) (f : Belfry → Belfry) : (s.modBelfry f).script = s.script := rfl
@[simp] theorem State.modBelfry_nextId (s : State) (f : Belfry → Belfry) : (s.modBelfry f).nextId = s.nextId := rfl
@[simp] theorem State.modBelfry_freeCtr (s : State) (f : Belfry → Belfry) : (s.modBelfry f).freeCtr = s.freeCtr := rfl
@[simp] theorem State.bump_tiles (s : State)  : (s.bump).tiles = s.tiles := rfl
@[simp] theorem State.bump_dies (s : State)  : (s.bump).dies = s.dies := rfl
@[simp] theorem State.bump_homes (s : State)  : (s.bump).homes = s.homes := rfl
@[simp] theorem State.bump_dram (s : State)  : (s.bump).dram = s.dram := rfl
@[simp] theorem State.bump_dramBad (s : State)  : (s.bump).dramBad = s.dramBad := rfl
@[simp] theorem State.bump_pkg (s : State)  : (s.bump).pkg = s.pkg := rfl
@[simp] theorem State.bump_lock (s : State)  : (s.bump).lock = s.lock := rfl
@[simp] theorem State.bump_rollout (s : State)  : (s.bump).rollout = s.rollout := rfl
@[simp] theorem State.bump_portCfg (s : State)  : (s.bump).portCfg = s.portCfg := rfl
@[simp] theorem State.bump_tenants (s : State)  : (s.bump).tenants = s.tenants := rfl
@[simp] theorem State.bump_peers (s : State)  : (s.bump).peers = s.peers := rfl
@[simp] theorem State.bump_staging (s : State)  : (s.bump).staging = s.staging := rfl
@[simp] theorem State.bump_spire (s : State)  : (s.bump).spire = s.spire := rfl
@[simp] theorem State.bump_net (s : State)  : (s.bump).net = s.net := rfl
@[simp] theorem State.bump_tlb (s : State)  : (s.bump).tlb = s.tlb := rfl
@[simp] theorem State.bump_tables (s : State)  : (s.bump).tables = s.tables := rfl
@[simp] theorem State.bump_ports (s : State)  : (s.bump).ports = s.ports := rfl
@[simp] theorem State.bump_belfry (s : State)  : (s.bump).belfry = s.belfry := rfl
@[simp] theorem State.bump_power (s : State)  : (s.bump).power = s.power := rfl
@[simp] theorem State.bump_service (s : State)  : (s.bump).service = s.service := rfl
@[simp] theorem State.bump_fatalCause (s : State)  : (s.bump).fatalCause = s.fatalCause := rfl
@[simp] theorem State.bump_trained (s : State)  : (s.bump).trained = s.trained := rfl
@[simp] theorem State.bump_failedStacks (s : State)  : (s.bump).failedStacks = s.failedStacks := rfl
@[simp] theorem State.bump_dump (s : State)  : (s.bump).dump = s.dump := rfl
@[simp] theorem State.bump_cur (s : State)  : (s.bump).cur = s.cur := rfl
@[simp] theorem State.bump_turn (s : State)  : (s.bump).turn = s.turn := rfl
@[simp] theorem State.bump_script (s : State)  : (s.bump).script = s.script := rfl
@[simp] theorem State.bump_freeCtr (s : State)  : (s.bump).freeCtr = s.freeCtr := rfl
@[simp] theorem State.draw_tiles (s : State)  : (s.draw).tiles = s.tiles := rfl
@[simp] theorem State.draw_dies (s : State)  : (s.draw).dies = s.dies := rfl
@[simp] theorem State.draw_homes (s : State)  : (s.draw).homes = s.homes := rfl
@[simp] theorem State.draw_dram (s : State)  : (s.draw).dram = s.dram := rfl
@[simp] theorem State.draw_dramBad (s : State)  : (s.draw).dramBad = s.dramBad := rfl
@[simp] theorem State.draw_pkg (s : State)  : (s.draw).pkg = s.pkg := rfl
@[simp] theorem State.draw_lock (s : State)  : (s.draw).lock = s.lock := rfl
@[simp] theorem State.draw_rollout (s : State)  : (s.draw).rollout = s.rollout := rfl
@[simp] theorem State.draw_portCfg (s : State)  : (s.draw).portCfg = s.portCfg := rfl
@[simp] theorem State.draw_tenants (s : State)  : (s.draw).tenants = s.tenants := rfl
@[simp] theorem State.draw_peers (s : State)  : (s.draw).peers = s.peers := rfl
@[simp] theorem State.draw_staging (s : State)  : (s.draw).staging = s.staging := rfl
@[simp] theorem State.draw_spire (s : State)  : (s.draw).spire = s.spire := rfl
@[simp] theorem State.draw_net (s : State)  : (s.draw).net = s.net := rfl
@[simp] theorem State.draw_tlb (s : State)  : (s.draw).tlb = s.tlb := rfl
@[simp] theorem State.draw_tables (s : State)  : (s.draw).tables = s.tables := rfl
@[simp] theorem State.draw_ports (s : State)  : (s.draw).ports = s.ports := rfl
@[simp] theorem State.draw_belfry (s : State)  : (s.draw).belfry = s.belfry := rfl
@[simp] theorem State.draw_power (s : State)  : (s.draw).power = s.power := rfl
@[simp] theorem State.draw_service (s : State)  : (s.draw).service = s.service := rfl
@[simp] theorem State.draw_fatalCause (s : State)  : (s.draw).fatalCause = s.fatalCause := rfl
@[simp] theorem State.draw_trained (s : State)  : (s.draw).trained = s.trained := rfl
@[simp] theorem State.draw_failedStacks (s : State)  : (s.draw).failedStacks = s.failedStacks := rfl
@[simp] theorem State.draw_dump (s : State)  : (s.draw).dump = s.dump := rfl
@[simp] theorem State.draw_cur (s : State)  : (s.draw).cur = s.cur := rfl
@[simp] theorem State.draw_turn (s : State)  : (s.draw).turn = s.turn := rfl
@[simp] theorem State.draw_script (s : State)  : (s.draw).script = s.script := rfl
@[simp] theorem State.draw_nextId (s : State)  : (s.draw).nextId = s.nextId := rfl
@[simp] theorem State.dropMsg_tiles (s : State) (m : Nat) : (s.dropMsg m).tiles = s.tiles := rfl
@[simp] theorem State.dropMsg_dies (s : State) (m : Nat) : (s.dropMsg m).dies = s.dies := rfl
@[simp] theorem State.dropMsg_homes (s : State) (m : Nat) : (s.dropMsg m).homes = s.homes := rfl
@[simp] theorem State.dropMsg_dram (s : State) (m : Nat) : (s.dropMsg m).dram = s.dram := rfl
@[simp] theorem State.dropMsg_dramBad (s : State) (m : Nat) : (s.dropMsg m).dramBad = s.dramBad := rfl
@[simp] theorem State.dropMsg_pkg (s : State) (m : Nat) : (s.dropMsg m).pkg = s.pkg := rfl
@[simp] theorem State.dropMsg_lock (s : State) (m : Nat) : (s.dropMsg m).lock = s.lock := rfl
@[simp] theorem State.dropMsg_rollout (s : State) (m : Nat) : (s.dropMsg m).rollout = s.rollout := rfl
@[simp] theorem State.dropMsg_portCfg (s : State) (m : Nat) : (s.dropMsg m).portCfg = s.portCfg := rfl
@[simp] theorem State.dropMsg_tenants (s : State) (m : Nat) : (s.dropMsg m).tenants = s.tenants := rfl
@[simp] theorem State.dropMsg_peers (s : State) (m : Nat) : (s.dropMsg m).peers = s.peers := rfl
@[simp] theorem State.dropMsg_staging (s : State) (m : Nat) : (s.dropMsg m).staging = s.staging := rfl
@[simp] theorem State.dropMsg_spire (s : State) (m : Nat) : (s.dropMsg m).spire = s.spire := rfl
@[simp] theorem State.dropMsg_tlb (s : State) (m : Nat) : (s.dropMsg m).tlb = s.tlb := rfl
@[simp] theorem State.dropMsg_tables (s : State) (m : Nat) : (s.dropMsg m).tables = s.tables := rfl
@[simp] theorem State.dropMsg_ports (s : State) (m : Nat) : (s.dropMsg m).ports = s.ports := rfl
@[simp] theorem State.dropMsg_belfry (s : State) (m : Nat) : (s.dropMsg m).belfry = s.belfry := rfl
@[simp] theorem State.dropMsg_power (s : State) (m : Nat) : (s.dropMsg m).power = s.power := rfl
@[simp] theorem State.dropMsg_service (s : State) (m : Nat) : (s.dropMsg m).service = s.service := rfl
@[simp] theorem State.dropMsg_fatalCause (s : State) (m : Nat) : (s.dropMsg m).fatalCause = s.fatalCause := rfl
@[simp] theorem State.dropMsg_trained (s : State) (m : Nat) : (s.dropMsg m).trained = s.trained := rfl
@[simp] theorem State.dropMsg_failedStacks (s : State) (m : Nat) : (s.dropMsg m).failedStacks = s.failedStacks := rfl
@[simp] theorem State.dropMsg_dump (s : State) (m : Nat) : (s.dropMsg m).dump = s.dump := rfl
@[simp] theorem State.dropMsg_cur (s : State) (m : Nat) : (s.dropMsg m).cur = s.cur := rfl
@[simp] theorem State.dropMsg_turn (s : State) (m : Nat) : (s.dropMsg m).turn = s.turn := rfl
@[simp] theorem State.dropMsg_script (s : State) (m : Nat) : (s.dropMsg m).script = s.script := rfl
@[simp] theorem State.dropMsg_nextId (s : State) (m : Nat) : (s.dropMsg m).nextId = s.nextId := rfl
@[simp] theorem State.dropMsg_freeCtr (s : State) (m : Nat) : (s.dropMsg m).freeCtr = s.freeCtr := rfl
@[simp] theorem State.modMsg_tiles (s : State) (m : Nat) (f : Msg → Msg) : (s.modMsg m f).tiles = s.tiles := rfl
@[simp] theorem State.modMsg_dies (s : State) (m : Nat) (f : Msg → Msg) : (s.modMsg m f).dies = s.dies := rfl
@[simp] theorem State.modMsg_homes (s : State) (m : Nat) (f : Msg → Msg) : (s.modMsg m f).homes = s.homes := rfl
@[simp] theorem State.modMsg_dram (s : State) (m : Nat) (f : Msg → Msg) : (s.modMsg m f).dram = s.dram := rfl
@[simp] theorem State.modMsg_dramBad (s : State) (m : Nat) (f : Msg → Msg) : (s.modMsg m f).dramBad = s.dramBad := rfl
@[simp] theorem State.modMsg_pkg (s : State) (m : Nat) (f : Msg → Msg) : (s.modMsg m f).pkg = s.pkg := rfl
@[simp] theorem State.modMsg_lock (s : State) (m : Nat) (f : Msg → Msg) : (s.modMsg m f).lock = s.lock := rfl
@[simp] theorem State.modMsg_rollout (s : State) (m : Nat) (f : Msg → Msg) : (s.modMsg m f).rollout = s.rollout := rfl
@[simp] theorem State.modMsg_portCfg (s : State) (m : Nat) (f : Msg → Msg) : (s.modMsg m f).portCfg = s.portCfg := rfl
@[simp] theorem State.modMsg_tenants (s : State) (m : Nat) (f : Msg → Msg) : (s.modMsg m f).tenants = s.tenants := rfl
@[simp] theorem State.modMsg_peers (s : State) (m : Nat) (f : Msg → Msg) : (s.modMsg m f).peers = s.peers := rfl
@[simp] theorem State.modMsg_staging (s : State) (m : Nat) (f : Msg → Msg) : (s.modMsg m f).staging = s.staging := rfl
@[simp] theorem State.modMsg_spire (s : State) (m : Nat) (f : Msg → Msg) : (s.modMsg m f).spire = s.spire := rfl
@[simp] theorem State.modMsg_tlb (s : State) (m : Nat) (f : Msg → Msg) : (s.modMsg m f).tlb = s.tlb := rfl
@[simp] theorem State.modMsg_tables (s : State) (m : Nat) (f : Msg → Msg) : (s.modMsg m f).tables = s.tables := rfl
@[simp] theorem State.modMsg_ports (s : State) (m : Nat) (f : Msg → Msg) : (s.modMsg m f).ports = s.ports := rfl
@[simp] theorem State.modMsg_belfry (s : State) (m : Nat) (f : Msg → Msg) : (s.modMsg m f).belfry = s.belfry := rfl
@[simp] theorem State.modMsg_power (s : State) (m : Nat) (f : Msg → Msg) : (s.modMsg m f).power = s.power := rfl
@[simp] theorem State.modMsg_service (s : State) (m : Nat) (f : Msg → Msg) : (s.modMsg m f).service = s.service := rfl
@[simp] theorem State.modMsg_fatalCause (s : State) (m : Nat) (f : Msg → Msg) : (s.modMsg m f).fatalCause = s.fatalCause := rfl
@[simp] theorem State.modMsg_trained (s : State) (m : Nat) (f : Msg → Msg) : (s.modMsg m f).trained = s.trained := rfl
@[simp] theorem State.modMsg_failedStacks (s : State) (m : Nat) (f : Msg → Msg) : (s.modMsg m f).failedStacks = s.failedStacks := rfl
@[simp] theorem State.modMsg_dump (s : State) (m : Nat) (f : Msg → Msg) : (s.modMsg m f).dump = s.dump := rfl
@[simp] theorem State.modMsg_cur (s : State) (m : Nat) (f : Msg → Msg) : (s.modMsg m f).cur = s.cur := rfl
@[simp] theorem State.modMsg_turn (s : State) (m : Nat) (f : Msg → Msg) : (s.modMsg m f).turn = s.turn := rfl
@[simp] theorem State.modMsg_script (s : State) (m : Nat) (f : Msg → Msg) : (s.modMsg m f).script = s.script := rfl
@[simp] theorem State.modMsg_nextId (s : State) (m : Nat) (f : Msg → Msg) : (s.modMsg m f).nextId = s.nextId := rfl
@[simp] theorem State.modMsg_freeCtr (s : State) (m : Nat) (f : Msg → Msg) : (s.modMsg m f).freeCtr = s.freeCtr := rfl

/-! Updates of one thread, which leave every field but `tiles` as it is. -/
@[simp] theorem State.modThr_dies (s : State) (x q : Nat) (f : Thread → Thread) : (s.modThr x q f).dies = s.dies := by
  unfold State.modThr; split <;> rfl
@[simp] theorem State.modThr_homes (s : State) (x q : Nat) (f : Thread → Thread) : (s.modThr x q f).homes = s.homes := by
  unfold State.modThr; split <;> rfl
@[simp] theorem State.modThr_dram (s : State) (x q : Nat) (f : Thread → Thread) : (s.modThr x q f).dram = s.dram := by
  unfold State.modThr; split <;> rfl
@[simp] theorem State.modThr_dramBad (s : State) (x q : Nat) (f : Thread → Thread) : (s.modThr x q f).dramBad = s.dramBad := by
  unfold State.modThr; split <;> rfl
@[simp] theorem State.modThr_pkg (s : State) (x q : Nat) (f : Thread → Thread) : (s.modThr x q f).pkg = s.pkg := by
  unfold State.modThr; split <;> rfl
@[simp] theorem State.modThr_lock (s : State) (x q : Nat) (f : Thread → Thread) : (s.modThr x q f).lock = s.lock := by
  unfold State.modThr; split <;> rfl
@[simp] theorem State.modThr_rollout (s : State) (x q : Nat) (f : Thread → Thread) : (s.modThr x q f).rollout = s.rollout := by
  unfold State.modThr; split <;> rfl
@[simp] theorem State.modThr_portCfg (s : State) (x q : Nat) (f : Thread → Thread) : (s.modThr x q f).portCfg = s.portCfg := by
  unfold State.modThr; split <;> rfl
@[simp] theorem State.modThr_tenants (s : State) (x q : Nat) (f : Thread → Thread) : (s.modThr x q f).tenants = s.tenants := by
  unfold State.modThr; split <;> rfl
@[simp] theorem State.modThr_peers (s : State) (x q : Nat) (f : Thread → Thread) : (s.modThr x q f).peers = s.peers := by
  unfold State.modThr; split <;> rfl
@[simp] theorem State.modThr_staging (s : State) (x q : Nat) (f : Thread → Thread) : (s.modThr x q f).staging = s.staging := by
  unfold State.modThr; split <;> rfl
@[simp] theorem State.modThr_spire (s : State) (x q : Nat) (f : Thread → Thread) : (s.modThr x q f).spire = s.spire := by
  unfold State.modThr; split <;> rfl
@[simp] theorem State.modThr_net (s : State) (x q : Nat) (f : Thread → Thread) : (s.modThr x q f).net = s.net := by
  unfold State.modThr; split <;> rfl
@[simp] theorem State.modThr_tlb (s : State) (x q : Nat) (f : Thread → Thread) : (s.modThr x q f).tlb = s.tlb := by
  unfold State.modThr; split <;> rfl
@[simp] theorem State.modThr_tables (s : State) (x q : Nat) (f : Thread → Thread) : (s.modThr x q f).tables = s.tables := by
  unfold State.modThr; split <;> rfl
@[simp] theorem State.modThr_ports (s : State) (x q : Nat) (f : Thread → Thread) : (s.modThr x q f).ports = s.ports := by
  unfold State.modThr; split <;> rfl
@[simp] theorem State.modThr_belfry (s : State) (x q : Nat) (f : Thread → Thread) : (s.modThr x q f).belfry = s.belfry := by
  unfold State.modThr; split <;> rfl
@[simp] theorem State.modThr_power (s : State) (x q : Nat) (f : Thread → Thread) : (s.modThr x q f).power = s.power := by
  unfold State.modThr; split <;> rfl
@[simp] theorem State.modThr_service (s : State) (x q : Nat) (f : Thread → Thread) : (s.modThr x q f).service = s.service := by
  unfold State.modThr; split <;> rfl
@[simp] theorem State.modThr_fatalCause (s : State) (x q : Nat) (f : Thread → Thread) : (s.modThr x q f).fatalCause = s.fatalCause := by
  unfold State.modThr; split <;> rfl
@[simp] theorem State.modThr_trained (s : State) (x q : Nat) (f : Thread → Thread) : (s.modThr x q f).trained = s.trained := by
  unfold State.modThr; split <;> rfl
@[simp] theorem State.modThr_failedStacks (s : State) (x q : Nat) (f : Thread → Thread) : (s.modThr x q f).failedStacks = s.failedStacks := by
  unfold State.modThr; split <;> rfl
@[simp] theorem State.modThr_dump (s : State) (x q : Nat) (f : Thread → Thread) : (s.modThr x q f).dump = s.dump := by
  unfold State.modThr; split <;> rfl
@[simp] theorem State.modThr_cur (s : State) (x q : Nat) (f : Thread → Thread) : (s.modThr x q f).cur = s.cur := by
  unfold State.modThr; split <;> rfl
@[simp] theorem State.modThr_turn (s : State) (x q : Nat) (f : Thread → Thread) : (s.modThr x q f).turn = s.turn := by
  unfold State.modThr; split <;> rfl
@[simp] theorem State.modThr_script (s : State) (x q : Nat) (f : Thread → Thread) : (s.modThr x q f).script = s.script := by
  unfold State.modThr; split <;> rfl
@[simp] theorem State.modThr_nextId (s : State) (x q : Nat) (f : Thread → Thread) : (s.modThr x q f).nextId = s.nextId := by
  unfold State.modThr; split <;> rfl
@[simp] theorem State.modThr_freeCtr (s : State) (x q : Nat) (f : Thread → Thread) : (s.modThr x q f).freeCtr = s.freeCtr := by
  unfold State.modThr; split <;> rfl
@[simp] theorem State.modCur_dies (s : State) (f : Thread → Thread) : (s.modCur f).dies = s.dies := s.modThr_dies _ _ f
@[simp] theorem State.modCur_homes (s : State) (f : Thread → Thread) : (s.modCur f).homes = s.homes := s.modThr_homes _ _ f
@[simp] theorem State.modCur_dram (s : State) (f : Thread → Thread) : (s.modCur f).dram = s.dram := s.modThr_dram _ _ f
@[simp] theorem State.modCur_dramBad (s : State) (f : Thread → Thread) : (s.modCur f).dramBad = s.dramBad := s.modThr_dramBad _ _ f
@[simp] theorem State.modCur_pkg (s : State) (f : Thread → Thread) : (s.modCur f).pkg = s.pkg := s.modThr_pkg _ _ f
@[simp] theorem State.modCur_lock (s : State) (f : Thread → Thread) : (s.modCur f).lock = s.lock := s.modThr_lock _ _ f
@[simp] theorem State.modCur_rollout (s : State) (f : Thread → Thread) : (s.modCur f).rollout = s.rollout := s.modThr_rollout _ _ f
@[simp] theorem State.modCur_portCfg (s : State) (f : Thread → Thread) : (s.modCur f).portCfg = s.portCfg := s.modThr_portCfg _ _ f
@[simp] theorem State.modCur_tenants (s : State) (f : Thread → Thread) : (s.modCur f).tenants = s.tenants := s.modThr_tenants _ _ f
@[simp] theorem State.modCur_peers (s : State) (f : Thread → Thread) : (s.modCur f).peers = s.peers := s.modThr_peers _ _ f
@[simp] theorem State.modCur_staging (s : State) (f : Thread → Thread) : (s.modCur f).staging = s.staging := s.modThr_staging _ _ f
@[simp] theorem State.modCur_spire (s : State) (f : Thread → Thread) : (s.modCur f).spire = s.spire := s.modThr_spire _ _ f
@[simp] theorem State.modCur_net (s : State) (f : Thread → Thread) : (s.modCur f).net = s.net := s.modThr_net _ _ f
@[simp] theorem State.modCur_tlb (s : State) (f : Thread → Thread) : (s.modCur f).tlb = s.tlb := s.modThr_tlb _ _ f
@[simp] theorem State.modCur_tables (s : State) (f : Thread → Thread) : (s.modCur f).tables = s.tables := s.modThr_tables _ _ f
@[simp] theorem State.modCur_ports (s : State) (f : Thread → Thread) : (s.modCur f).ports = s.ports := s.modThr_ports _ _ f
@[simp] theorem State.modCur_belfry (s : State) (f : Thread → Thread) : (s.modCur f).belfry = s.belfry := s.modThr_belfry _ _ f
@[simp] theorem State.modCur_power (s : State) (f : Thread → Thread) : (s.modCur f).power = s.power := s.modThr_power _ _ f
@[simp] theorem State.modCur_service (s : State) (f : Thread → Thread) : (s.modCur f).service = s.service := s.modThr_service _ _ f
@[simp] theorem State.modCur_fatalCause (s : State) (f : Thread → Thread) : (s.modCur f).fatalCause = s.fatalCause := s.modThr_fatalCause _ _ f
@[simp] theorem State.modCur_trained (s : State) (f : Thread → Thread) : (s.modCur f).trained = s.trained := s.modThr_trained _ _ f
@[simp] theorem State.modCur_failedStacks (s : State) (f : Thread → Thread) : (s.modCur f).failedStacks = s.failedStacks := s.modThr_failedStacks _ _ f
@[simp] theorem State.modCur_dump (s : State) (f : Thread → Thread) : (s.modCur f).dump = s.dump := s.modThr_dump _ _ f
@[simp] theorem State.modCur_cur (s : State) (f : Thread → Thread) : (s.modCur f).cur = s.cur := s.modThr_cur _ _ f
@[simp] theorem State.modCur_turn (s : State) (f : Thread → Thread) : (s.modCur f).turn = s.turn := s.modThr_turn _ _ f
@[simp] theorem State.modCur_script (s : State) (f : Thread → Thread) : (s.modCur f).script = s.script := s.modThr_script _ _ f
@[simp] theorem State.modCur_nextId (s : State) (f : Thread → Thread) : (s.modCur f).nextId = s.nextId := s.modThr_nextId _ _ f
@[simp] theorem State.modCur_freeCtr (s : State) (f : Thread → Thread) : (s.modCur f).freeCtr = s.freeCtr := s.modThr_freeCtr _ _ f

/-! Register, predicate, warning and flag writes leave the thread's other fields as they are. -/
@[simp] theorem Thread.wr_p (t : Thread) (r : Reg) (v : W64) : (t.wr r v).p = t.p := by
  unfold Thread.wr; split <;> rfl
@[simp] theorem Thread.wr_pend (t : Thread) (r : Reg) (v : W64) : (t.wr r v).pend = t.pend := by
  unfold Thread.wr; split <;> rfl
@[simp] theorem Thread.wr_outs (t : Thread) (r : Reg) (v : W64) : (t.wr r v).outs = t.outs := by
  unfold Thread.wr; split <;> rfl
@[simp] theorem Thread.wr_pc (t : Thread) (r : Reg) (v : W64) : (t.wr r v).pc = t.pc := by
  unfold Thread.wr; split <;> rfl
@[simp] theorem Thread.wr_sys (t : Thread) (r : Reg) (v : W64) : (t.wr r v).sys = t.sys := by
  unfold Thread.wr; split <;> rfl
@[simp] theorem Thread.wr_tact (t : Thread) (r : Reg) (v : W64) : (t.wr r v).tact = t.tact := by
  unfold Thread.wr; split <;> rfl
@[simp] theorem Thread.wr_pmode (t : Thread) (r : Reg) (v : W64) : (t.wr r v).pmode = t.pmode := by
  unfold Thread.wr; split <;> rfl
@[simp] theorem Thread.wr_compute (t : Thread) (r : Reg) (v : W64) : (t.wr r v).compute = t.compute := by
  unfold Thread.wr; split <;> rfl
@[simp] theorem Thread.wr_win (t : Thread) (r : Reg) (v : W64) : (t.wr r v).win = t.win := by
  unfold Thread.wr; split <;> rfl
@[simp] theorem Thread.wr_cid (t : Thread) (r : Reg) (v : W64) : (t.wr r v).cid = t.cid := by
  unfold Thread.wr; split <;> rfl
@[simp] theorem Thread.wr_word0 (t : Thread) (r : Reg) (v : W64) : (t.wr r v).word0 = t.word0 := by
  unfold Thread.wr; split <;> rfl
@[simp] theorem Thread.wr_prio (t : Thread) (r : Reg) (v : W64) : (t.wr r v).prio = t.prio := by
  unfold Thread.wr; split <;> rfl
@[simp] theorem Thread.wr_succ (t : Thread) (r : Reg) (v : W64) : (t.wr r v).succ = t.succ := by
  unfold Thread.wr; split <;> rfl
@[simp] theorem Thread.wr_wait (t : Thread) (r : Reg) (v : W64) : (t.wr r v).wait = t.wait := by
  unfold Thread.wr; split <;> rfl
@[simp] theorem Thread.wr_susp (t : Thread) (r : Reg) (v : W64) : (t.wr r v).susp = t.susp := by
  unfold Thread.wr; split <;> rfl
@[simp] theorem Thread.wr_pin (t : Thread) (r : Reg) (v : W64) : (t.wr r v).pin = t.pin := by
  unfold Thread.wr; split <;> rfl
@[simp] theorem Thread.wr_evt (t : Thread) (r : Reg) (v : W64) : (t.wr r v).evt = t.evt := by
  unfold Thread.wr; split <;> rfl
@[simp] theorem Thread.wr_mark (t : Thread) (r : Reg) (v : W64) : (t.wr r v).mark = t.mark := by
  unfold Thread.wr; split <;> rfl
@[simp] theorem Thread.wr_readyAt (t : Thread) (r : Reg) (v : W64) : (t.wr r v).readyAt = t.readyAt := by
  unfold Thread.wr; split <;> rfl
@[simp] theorem Thread.wr_round (t : Thread) (r : Reg) (v : W64) : (t.wr r v).round = t.round := by
  unfold Thread.wr; split <;> rfl
@[simp] theorem Thread.wr_fflags (t : Thread) (r : Reg) (v : W64) : (t.wr r v).fflags = t.fflags := by
  unfold Thread.wr; split <;> rfl
@[simp] theorem Thread.wr_warn (t : Thread) (r : Reg) (v : W64) : (t.wr r v).warn = t.warn := by
  unfold Thread.wr; split <;> rfl
@[simp] theorem Thread.wr_feCount (t : Thread) (r : Reg) (v : W64) : (t.wr r v).feCount = t.feCount := by
  unfold Thread.wr; split <;> rfl
@[simp] theorem Thread.wr_feLimit (t : Thread) (r : Reg) (v : W64) : (t.wr r v).feLimit = t.feLimit := by
  unfold Thread.wr; split <;> rfl
@[simp] theorem Thread.wr_feTried (t : Thread) (r : Reg) (v : W64) : (t.wr r v).feTried = t.feTried := by
  unfold Thread.wr; split <;> rfl
@[simp] theorem Thread.wr_werr (t : Thread) (r : Reg) (v : W64) : (t.wr r v).werr = t.werr := by
  unfold Thread.wr; split <;> rfl
@[simp] theorem Thread.wr_vl (t : Thread) (r : Reg) (v : W64) : (t.wr r v).vl = t.vl := by
  unfold Thread.wr; split <;> rfl
@[simp] theorem Thread.wr_fmtA (t : Thread) (r : Reg) (v : W64) : (t.wr r v).fmtA = t.fmtA := by
  unfold Thread.wr; split <;> rfl
@[simp] theorem Thread.wr_fmtW (t : Thread) (r : Reg) (v : W64) : (t.wr r v).fmtW = t.fmtW := by
  unfold Thread.wr; split <;> rfl
@[simp] theorem Thread.wr_scaleA (t : Thread) (r : Reg) (v : W64) : (t.wr r v).scaleA = t.scaleA := by
  unfold Thread.wr; split <;> rfl
@[simp] theorem Thread.wr_scaleW (t : Thread) (r : Reg) (v : W64) : (t.wr r v).scaleW = t.scaleW := by
  unfold Thread.wr; split <;> rfl
@[simp] theorem Thread.wr_sparse (t : Thread) (r : Reg) (v : W64) : (t.wr r v).sparse = t.sparse := by
  unfold Thread.wr; split <;> rfl
@[simp] theorem Thread.wr_specarea (t : Thread) (r : Reg) (v : W64) : (t.wr r v).specarea = t.specarea := by
  unfold Thread.wr; split <;> rfl
@[simp] theorem Thread.wr_specfld (t : Thread) (r : Reg) (v : W64) : (t.wr r v).specfld = t.specfld := by
  unfold Thread.wr; split <;> rfl
@[simp] theorem Thread.wr_touched (t : Thread) (r : Reg) (v : W64) : (t.wr r v).touched = t.touched := by
  unfold Thread.wr; split <;> rfl
@[simp] theorem Thread.wr_workid (t : Thread) (r : Reg) (v : W64) : (t.wr r v).workid = t.workid := by
  unfold Thread.wr; split <;> rfl
@[simp] theorem Thread.wr_tcause (t : Thread) (r : Reg) (v : W64) : (t.wr r v).tcause = t.tcause := by
  unfold Thread.wr; split <;> rfl
@[simp] theorem Thread.wr_tpc (t : Thread) (r : Reg) (v : W64) : (t.wr r v).tpc = t.tpc := by
  unfold Thread.wr; split <;> rfl
@[simp] theorem Thread.wr_tval (t : Thread) (r : Reg) (v : W64) : (t.wr r v).tval = t.tval := by
  unfold Thread.wr; split <;> rfl
@[simp] theorem Thread.wr_ecost (t : Thread) (r : Reg) (v : W64) : (t.wr r v).ecost = t.ecost := by
  unfold Thread.wr; split <;> rfl
@[simp] theorem Thread.wr_ptim (t : Thread) (r : Reg) (v : W64) : (t.wr r v).ptim = t.ptim := by
  unfold Thread.wr; split <;> rfl
@[simp] theorem Thread.wr_pwdg (t : Thread) (r : Reg) (v : W64) : (t.wr r v).pwdg = t.pwdg := by
  unfold Thread.wr; split <;> rfl
@[simp] theorem Thread.wr_wake (t : Thread) (r : Reg) (v : W64) : (t.wr r v).wake = t.wake := by
  unfold Thread.wr; split <;> rfl
@[simp] theorem Thread.wr_fetchFault (t : Thread) (r : Reg) (v : W64) : (t.wr r v).fetchFault = t.fetchFault := by
  unfold Thread.wr; split <;> rfl
@[simp] theorem Thread.wr_issOwn (t : Thread) (r : Reg) (v : W64) : (t.wr r v).issOwn = t.issOwn := by
  unfold Thread.wr; split <;> rfl
@[simp] theorem Thread.wr_issLent (t : Thread) (r : Reg) (v : W64) : (t.wr r v).issLent = t.issLent := by
  unfold Thread.wr; split <;> rfl
@[simp] theorem Thread.wr_parked (t : Thread) (r : Reg) (v : W64) : (t.wr r v).parked = t.parked := by
  unfold Thread.wr; split <;> rfl
@[simp] theorem Thread.wr_passes (t : Thread) (r : Reg) (v : W64) : (t.wr r v).passes = t.passes := by
  unfold Thread.wr; split <;> rfl
@[simp] theorem Thread.wr_requests (t : Thread) (r : Reg) (v : W64) : (t.wr r v).requests = t.requests := by
  unfold Thread.wr; split <;> rfl
@[simp] theorem Thread.wr_stalls (t : Thread) (r : Reg) (v : W64) : (t.wr r v).stalls = t.stalls := by
  unfold Thread.wr; split <;> rfl
@[simp] theorem Thread.wr_spec (t : Thread) (r : Reg) (v : W64) : (t.wr r v).spec = t.spec := by
  unfold Thread.wr; split <;> rfl
@[simp] theorem Thread.wr_specEntry (t : Thread) (r : Reg) (v : W64) : (t.wr r v).specEntry = t.specEntry := by
  unfold Thread.wr; split <;> rfl
@[simp] theorem Thread.wr_specCause (t : Thread) (r : Reg) (v : W64) : (t.wr r v).specCause = t.specCause := by
  unfold Thread.wr; split <;> rfl
@[simp] theorem Thread.wr_rbk (t : Thread) (r : Reg) (v : W64) : (t.wr r v).rbk = t.rbk := by
  unfold Thread.wr; split <;> rfl
@[simp] theorem Thread.wr_cmt (t : Thread) (r : Reg) (v : W64) : (t.wr r v).cmt = t.cmt := by
  unfold Thread.wr; split <;> rfl
@[simp] theorem Thread.wr_outSince (t : Thread) (r : Reg) (v : W64) : (t.wr r v).outSince = t.outSince := by
  unfold Thread.wr; split <;> rfl
@[simp] theorem Thread.wr_vheld (t : Thread) (r : Reg) (v : W64) : (t.wr r v).vheld = t.vheld := by
  unfold Thread.wr; split <;> rfl
@[simp] theorem Thread.wr_spillBan (t : Thread) (r : Reg) (v : W64) : (t.wr r v).spillBan = t.spillBan := by
  unfold Thread.wr; split <;> rfl
@[simp] theorem Thread.wp_g (t : Thread) (n : Pred) (b : Bool) : (t.wp n b).g = t.g := by
  unfold Thread.wp; split <;> rfl
@[simp] theorem Thread.wp_pend (t : Thread) (n : Pred) (b : Bool) : (t.wp n b).pend = t.pend := by
  unfold Thread.wp; split <;> rfl
@[simp] theorem Thread.wp_outs (t : Thread) (n : Pred) (b : Bool) : (t.wp n b).outs = t.outs := by
  unfold Thread.wp; split <;> rfl
@[simp] theorem Thread.wp_pc (t : Thread) (n : Pred) (b : Bool) : (t.wp n b).pc = t.pc := by
  unfold Thread.wp; split <;> rfl
@[simp] theorem Thread.wp_sys (t : Thread) (n : Pred) (b : Bool) : (t.wp n b).sys = t.sys := by
  unfold Thread.wp; split <;> rfl
@[simp] theorem Thread.wp_tact (t : Thread) (n : Pred) (b : Bool) : (t.wp n b).tact = t.tact := by
  unfold Thread.wp; split <;> rfl
@[simp] theorem Thread.wp_pmode (t : Thread) (n : Pred) (b : Bool) : (t.wp n b).pmode = t.pmode := by
  unfold Thread.wp; split <;> rfl
@[simp] theorem Thread.wp_compute (t : Thread) (n : Pred) (b : Bool) : (t.wp n b).compute = t.compute := by
  unfold Thread.wp; split <;> rfl
@[simp] theorem Thread.wp_win (t : Thread) (n : Pred) (b : Bool) : (t.wp n b).win = t.win := by
  unfold Thread.wp; split <;> rfl
@[simp] theorem Thread.wp_cid (t : Thread) (n : Pred) (b : Bool) : (t.wp n b).cid = t.cid := by
  unfold Thread.wp; split <;> rfl
@[simp] theorem Thread.wp_word0 (t : Thread) (n : Pred) (b : Bool) : (t.wp n b).word0 = t.word0 := by
  unfold Thread.wp; split <;> rfl
@[simp] theorem Thread.wp_prio (t : Thread) (n : Pred) (b : Bool) : (t.wp n b).prio = t.prio := by
  unfold Thread.wp; split <;> rfl
@[simp] theorem Thread.wp_succ (t : Thread) (n : Pred) (b : Bool) : (t.wp n b).succ = t.succ := by
  unfold Thread.wp; split <;> rfl
@[simp] theorem Thread.wp_wait (t : Thread) (n : Pred) (b : Bool) : (t.wp n b).wait = t.wait := by
  unfold Thread.wp; split <;> rfl
@[simp] theorem Thread.wp_susp (t : Thread) (n : Pred) (b : Bool) : (t.wp n b).susp = t.susp := by
  unfold Thread.wp; split <;> rfl
@[simp] theorem Thread.wp_pin (t : Thread) (n : Pred) (b : Bool) : (t.wp n b).pin = t.pin := by
  unfold Thread.wp; split <;> rfl
@[simp] theorem Thread.wp_evt (t : Thread) (n : Pred) (b : Bool) : (t.wp n b).evt = t.evt := by
  unfold Thread.wp; split <;> rfl
@[simp] theorem Thread.wp_mark (t : Thread) (n : Pred) (b : Bool) : (t.wp n b).mark = t.mark := by
  unfold Thread.wp; split <;> rfl
@[simp] theorem Thread.wp_readyAt (t : Thread) (n : Pred) (b : Bool) : (t.wp n b).readyAt = t.readyAt := by
  unfold Thread.wp; split <;> rfl
@[simp] theorem Thread.wp_round (t : Thread) (n : Pred) (b : Bool) : (t.wp n b).round = t.round := by
  unfold Thread.wp; split <;> rfl
@[simp] theorem Thread.wp_fflags (t : Thread) (n : Pred) (b : Bool) : (t.wp n b).fflags = t.fflags := by
  unfold Thread.wp; split <;> rfl
@[simp] theorem Thread.wp_warn (t : Thread) (n : Pred) (b : Bool) : (t.wp n b).warn = t.warn := by
  unfold Thread.wp; split <;> rfl
@[simp] theorem Thread.wp_feCount (t : Thread) (n : Pred) (b : Bool) : (t.wp n b).feCount = t.feCount := by
  unfold Thread.wp; split <;> rfl
@[simp] theorem Thread.wp_feLimit (t : Thread) (n : Pred) (b : Bool) : (t.wp n b).feLimit = t.feLimit := by
  unfold Thread.wp; split <;> rfl
@[simp] theorem Thread.wp_feTried (t : Thread) (n : Pred) (b : Bool) : (t.wp n b).feTried = t.feTried := by
  unfold Thread.wp; split <;> rfl
@[simp] theorem Thread.wp_werr (t : Thread) (n : Pred) (b : Bool) : (t.wp n b).werr = t.werr := by
  unfold Thread.wp; split <;> rfl
@[simp] theorem Thread.wp_vl (t : Thread) (n : Pred) (b : Bool) : (t.wp n b).vl = t.vl := by
  unfold Thread.wp; split <;> rfl
@[simp] theorem Thread.wp_fmtA (t : Thread) (n : Pred) (b : Bool) : (t.wp n b).fmtA = t.fmtA := by
  unfold Thread.wp; split <;> rfl
@[simp] theorem Thread.wp_fmtW (t : Thread) (n : Pred) (b : Bool) : (t.wp n b).fmtW = t.fmtW := by
  unfold Thread.wp; split <;> rfl
@[simp] theorem Thread.wp_scaleA (t : Thread) (n : Pred) (b : Bool) : (t.wp n b).scaleA = t.scaleA := by
  unfold Thread.wp; split <;> rfl
@[simp] theorem Thread.wp_scaleW (t : Thread) (n : Pred) (b : Bool) : (t.wp n b).scaleW = t.scaleW := by
  unfold Thread.wp; split <;> rfl
@[simp] theorem Thread.wp_sparse (t : Thread) (n : Pred) (b : Bool) : (t.wp n b).sparse = t.sparse := by
  unfold Thread.wp; split <;> rfl
@[simp] theorem Thread.wp_specarea (t : Thread) (n : Pred) (b : Bool) : (t.wp n b).specarea = t.specarea := by
  unfold Thread.wp; split <;> rfl
@[simp] theorem Thread.wp_specfld (t : Thread) (n : Pred) (b : Bool) : (t.wp n b).specfld = t.specfld := by
  unfold Thread.wp; split <;> rfl
@[simp] theorem Thread.wp_touched (t : Thread) (n : Pred) (b : Bool) : (t.wp n b).touched = t.touched := by
  unfold Thread.wp; split <;> rfl
@[simp] theorem Thread.wp_workid (t : Thread) (n : Pred) (b : Bool) : (t.wp n b).workid = t.workid := by
  unfold Thread.wp; split <;> rfl
@[simp] theorem Thread.wp_tcause (t : Thread) (n : Pred) (b : Bool) : (t.wp n b).tcause = t.tcause := by
  unfold Thread.wp; split <;> rfl
@[simp] theorem Thread.wp_tpc (t : Thread) (n : Pred) (b : Bool) : (t.wp n b).tpc = t.tpc := by
  unfold Thread.wp; split <;> rfl
@[simp] theorem Thread.wp_tval (t : Thread) (n : Pred) (b : Bool) : (t.wp n b).tval = t.tval := by
  unfold Thread.wp; split <;> rfl
@[simp] theorem Thread.wp_ecost (t : Thread) (n : Pred) (b : Bool) : (t.wp n b).ecost = t.ecost := by
  unfold Thread.wp; split <;> rfl
@[simp] theorem Thread.wp_ptim (t : Thread) (n : Pred) (b : Bool) : (t.wp n b).ptim = t.ptim := by
  unfold Thread.wp; split <;> rfl
@[simp] theorem Thread.wp_pwdg (t : Thread) (n : Pred) (b : Bool) : (t.wp n b).pwdg = t.pwdg := by
  unfold Thread.wp; split <;> rfl
@[simp] theorem Thread.wp_wake (t : Thread) (n : Pred) (b : Bool) : (t.wp n b).wake = t.wake := by
  unfold Thread.wp; split <;> rfl
@[simp] theorem Thread.wp_fetchFault (t : Thread) (n : Pred) (b : Bool) : (t.wp n b).fetchFault = t.fetchFault := by
  unfold Thread.wp; split <;> rfl
@[simp] theorem Thread.wp_issOwn (t : Thread) (n : Pred) (b : Bool) : (t.wp n b).issOwn = t.issOwn := by
  unfold Thread.wp; split <;> rfl
@[simp] theorem Thread.wp_issLent (t : Thread) (n : Pred) (b : Bool) : (t.wp n b).issLent = t.issLent := by
  unfold Thread.wp; split <;> rfl
@[simp] theorem Thread.wp_parked (t : Thread) (n : Pred) (b : Bool) : (t.wp n b).parked = t.parked := by
  unfold Thread.wp; split <;> rfl
@[simp] theorem Thread.wp_passes (t : Thread) (n : Pred) (b : Bool) : (t.wp n b).passes = t.passes := by
  unfold Thread.wp; split <;> rfl
@[simp] theorem Thread.wp_requests (t : Thread) (n : Pred) (b : Bool) : (t.wp n b).requests = t.requests := by
  unfold Thread.wp; split <;> rfl
@[simp] theorem Thread.wp_stalls (t : Thread) (n : Pred) (b : Bool) : (t.wp n b).stalls = t.stalls := by
  unfold Thread.wp; split <;> rfl
@[simp] theorem Thread.wp_spec (t : Thread) (n : Pred) (b : Bool) : (t.wp n b).spec = t.spec := by
  unfold Thread.wp; split <;> rfl
@[simp] theorem Thread.wp_specEntry (t : Thread) (n : Pred) (b : Bool) : (t.wp n b).specEntry = t.specEntry := by
  unfold Thread.wp; split <;> rfl
@[simp] theorem Thread.wp_specCause (t : Thread) (n : Pred) (b : Bool) : (t.wp n b).specCause = t.specCause := by
  unfold Thread.wp; split <;> rfl
@[simp] theorem Thread.wp_rbk (t : Thread) (n : Pred) (b : Bool) : (t.wp n b).rbk = t.rbk := by
  unfold Thread.wp; split <;> rfl
@[simp] theorem Thread.wp_cmt (t : Thread) (n : Pred) (b : Bool) : (t.wp n b).cmt = t.cmt := by
  unfold Thread.wp; split <;> rfl
@[simp] theorem Thread.wp_outSince (t : Thread) (n : Pred) (b : Bool) : (t.wp n b).outSince = t.outSince := by
  unfold Thread.wp; split <;> rfl
@[simp] theorem Thread.wp_vheld (t : Thread) (n : Pred) (b : Bool) : (t.wp n b).vheld = t.vheld := by
  unfold Thread.wp; split <;> rfl
@[simp] theorem Thread.wp_spillBan (t : Thread) (n : Pred) (b : Bool) : (t.wp n b).spillBan = t.spillBan := by
  unfold Thread.wp; split <;> rfl
@[simp] theorem Thread.setWarn_g (t : Thread) (w : BitVec 9) : (t.setWarn w).g = t.g := rfl
@[simp] theorem Thread.setWarn_p (t : Thread) (w : BitVec 9) : (t.setWarn w).p = t.p := rfl
@[simp] theorem Thread.setWarn_pend (t : Thread) (w : BitVec 9) : (t.setWarn w).pend = t.pend := rfl
@[simp] theorem Thread.setWarn_outs (t : Thread) (w : BitVec 9) : (t.setWarn w).outs = t.outs := rfl
@[simp] theorem Thread.setWarn_pc (t : Thread) (w : BitVec 9) : (t.setWarn w).pc = t.pc := rfl
@[simp] theorem Thread.setWarn_sys (t : Thread) (w : BitVec 9) : (t.setWarn w).sys = t.sys := rfl
@[simp] theorem Thread.setWarn_tact (t : Thread) (w : BitVec 9) : (t.setWarn w).tact = t.tact := rfl
@[simp] theorem Thread.setWarn_pmode (t : Thread) (w : BitVec 9) : (t.setWarn w).pmode = t.pmode := rfl
@[simp] theorem Thread.setWarn_compute (t : Thread) (w : BitVec 9) : (t.setWarn w).compute = t.compute := rfl
@[simp] theorem Thread.setWarn_win (t : Thread) (w : BitVec 9) : (t.setWarn w).win = t.win := rfl
@[simp] theorem Thread.setWarn_cid (t : Thread) (w : BitVec 9) : (t.setWarn w).cid = t.cid := rfl
@[simp] theorem Thread.setWarn_word0 (t : Thread) (w : BitVec 9) : (t.setWarn w).word0 = t.word0 := rfl
@[simp] theorem Thread.setWarn_prio (t : Thread) (w : BitVec 9) : (t.setWarn w).prio = t.prio := rfl
@[simp] theorem Thread.setWarn_succ (t : Thread) (w : BitVec 9) : (t.setWarn w).succ = t.succ := rfl
@[simp] theorem Thread.setWarn_wait (t : Thread) (w : BitVec 9) : (t.setWarn w).wait = t.wait := rfl
@[simp] theorem Thread.setWarn_susp (t : Thread) (w : BitVec 9) : (t.setWarn w).susp = t.susp := rfl
@[simp] theorem Thread.setWarn_pin (t : Thread) (w : BitVec 9) : (t.setWarn w).pin = t.pin := rfl
@[simp] theorem Thread.setWarn_evt (t : Thread) (w : BitVec 9) : (t.setWarn w).evt = t.evt := rfl
@[simp] theorem Thread.setWarn_mark (t : Thread) (w : BitVec 9) : (t.setWarn w).mark = t.mark := rfl
@[simp] theorem Thread.setWarn_readyAt (t : Thread) (w : BitVec 9) : (t.setWarn w).readyAt = t.readyAt := rfl
@[simp] theorem Thread.setWarn_round (t : Thread) (w : BitVec 9) : (t.setWarn w).round = t.round := rfl
@[simp] theorem Thread.setWarn_fflags (t : Thread) (w : BitVec 9) : (t.setWarn w).fflags = t.fflags := rfl
@[simp] theorem Thread.setWarn_feCount (t : Thread) (w : BitVec 9) : (t.setWarn w).feCount = t.feCount := rfl
@[simp] theorem Thread.setWarn_feLimit (t : Thread) (w : BitVec 9) : (t.setWarn w).feLimit = t.feLimit := rfl
@[simp] theorem Thread.setWarn_feTried (t : Thread) (w : BitVec 9) : (t.setWarn w).feTried = t.feTried := rfl
@[simp] theorem Thread.setWarn_werr (t : Thread) (w : BitVec 9) : (t.setWarn w).werr = t.werr := rfl
@[simp] theorem Thread.setWarn_vl (t : Thread) (w : BitVec 9) : (t.setWarn w).vl = t.vl := rfl
@[simp] theorem Thread.setWarn_fmtA (t : Thread) (w : BitVec 9) : (t.setWarn w).fmtA = t.fmtA := rfl
@[simp] theorem Thread.setWarn_fmtW (t : Thread) (w : BitVec 9) : (t.setWarn w).fmtW = t.fmtW := rfl
@[simp] theorem Thread.setWarn_scaleA (t : Thread) (w : BitVec 9) : (t.setWarn w).scaleA = t.scaleA := rfl
@[simp] theorem Thread.setWarn_scaleW (t : Thread) (w : BitVec 9) : (t.setWarn w).scaleW = t.scaleW := rfl
@[simp] theorem Thread.setWarn_sparse (t : Thread) (w : BitVec 9) : (t.setWarn w).sparse = t.sparse := rfl
@[simp] theorem Thread.setWarn_specarea (t : Thread) (w : BitVec 9) : (t.setWarn w).specarea = t.specarea := rfl
@[simp] theorem Thread.setWarn_specfld (t : Thread) (w : BitVec 9) : (t.setWarn w).specfld = t.specfld := rfl
@[simp] theorem Thread.setWarn_touched (t : Thread) (w : BitVec 9) : (t.setWarn w).touched = t.touched := rfl
@[simp] theorem Thread.setWarn_workid (t : Thread) (w : BitVec 9) : (t.setWarn w).workid = t.workid := rfl
@[simp] theorem Thread.setWarn_tcause (t : Thread) (w : BitVec 9) : (t.setWarn w).tcause = t.tcause := rfl
@[simp] theorem Thread.setWarn_tpc (t : Thread) (w : BitVec 9) : (t.setWarn w).tpc = t.tpc := rfl
@[simp] theorem Thread.setWarn_tval (t : Thread) (w : BitVec 9) : (t.setWarn w).tval = t.tval := rfl
@[simp] theorem Thread.setWarn_ecost (t : Thread) (w : BitVec 9) : (t.setWarn w).ecost = t.ecost := rfl
@[simp] theorem Thread.setWarn_ptim (t : Thread) (w : BitVec 9) : (t.setWarn w).ptim = t.ptim := rfl
@[simp] theorem Thread.setWarn_pwdg (t : Thread) (w : BitVec 9) : (t.setWarn w).pwdg = t.pwdg := rfl
@[simp] theorem Thread.setWarn_wake (t : Thread) (w : BitVec 9) : (t.setWarn w).wake = t.wake := rfl
@[simp] theorem Thread.setWarn_fetchFault (t : Thread) (w : BitVec 9) : (t.setWarn w).fetchFault = t.fetchFault := rfl
@[simp] theorem Thread.setWarn_issOwn (t : Thread) (w : BitVec 9) : (t.setWarn w).issOwn = t.issOwn := rfl
@[simp] theorem Thread.setWarn_issLent (t : Thread) (w : BitVec 9) : (t.setWarn w).issLent = t.issLent := rfl
@[simp] theorem Thread.setWarn_parked (t : Thread) (w : BitVec 9) : (t.setWarn w).parked = t.parked := rfl
@[simp] theorem Thread.setWarn_passes (t : Thread) (w : BitVec 9) : (t.setWarn w).passes = t.passes := rfl
@[simp] theorem Thread.setWarn_requests (t : Thread) (w : BitVec 9) : (t.setWarn w).requests = t.requests := rfl
@[simp] theorem Thread.setWarn_stalls (t : Thread) (w : BitVec 9) : (t.setWarn w).stalls = t.stalls := rfl
@[simp] theorem Thread.setWarn_spec (t : Thread) (w : BitVec 9) : (t.setWarn w).spec = t.spec := rfl
@[simp] theorem Thread.setWarn_specEntry (t : Thread) (w : BitVec 9) : (t.setWarn w).specEntry = t.specEntry := rfl
@[simp] theorem Thread.setWarn_specCause (t : Thread) (w : BitVec 9) : (t.setWarn w).specCause = t.specCause := rfl
@[simp] theorem Thread.setWarn_rbk (t : Thread) (w : BitVec 9) : (t.setWarn w).rbk = t.rbk := rfl
@[simp] theorem Thread.setWarn_cmt (t : Thread) (w : BitVec 9) : (t.setWarn w).cmt = t.cmt := rfl
@[simp] theorem Thread.setWarn_outSince (t : Thread) (w : BitVec 9) : (t.setWarn w).outSince = t.outSince := rfl
@[simp] theorem Thread.setWarn_vheld (t : Thread) (w : BitVec 9) : (t.setWarn w).vheld = t.vheld := rfl
@[simp] theorem Thread.setWarn_spillBan (t : Thread) (w : BitVec 9) : (t.setWarn w).spillBan = t.spillBan := rfl
@[simp] theorem Thread.orFlags_g (t : Thread) (w : FFlags) : (t.orFlags w).g = t.g := rfl
@[simp] theorem Thread.orFlags_p (t : Thread) (w : FFlags) : (t.orFlags w).p = t.p := rfl
@[simp] theorem Thread.orFlags_pend (t : Thread) (w : FFlags) : (t.orFlags w).pend = t.pend := rfl
@[simp] theorem Thread.orFlags_outs (t : Thread) (w : FFlags) : (t.orFlags w).outs = t.outs := rfl
@[simp] theorem Thread.orFlags_pc (t : Thread) (w : FFlags) : (t.orFlags w).pc = t.pc := rfl
@[simp] theorem Thread.orFlags_sys (t : Thread) (w : FFlags) : (t.orFlags w).sys = t.sys := rfl
@[simp] theorem Thread.orFlags_tact (t : Thread) (w : FFlags) : (t.orFlags w).tact = t.tact := rfl
@[simp] theorem Thread.orFlags_pmode (t : Thread) (w : FFlags) : (t.orFlags w).pmode = t.pmode := rfl
@[simp] theorem Thread.orFlags_compute (t : Thread) (w : FFlags) : (t.orFlags w).compute = t.compute := rfl
@[simp] theorem Thread.orFlags_win (t : Thread) (w : FFlags) : (t.orFlags w).win = t.win := rfl
@[simp] theorem Thread.orFlags_cid (t : Thread) (w : FFlags) : (t.orFlags w).cid = t.cid := rfl
@[simp] theorem Thread.orFlags_word0 (t : Thread) (w : FFlags) : (t.orFlags w).word0 = t.word0 := rfl
@[simp] theorem Thread.orFlags_prio (t : Thread) (w : FFlags) : (t.orFlags w).prio = t.prio := rfl
@[simp] theorem Thread.orFlags_succ (t : Thread) (w : FFlags) : (t.orFlags w).succ = t.succ := rfl
@[simp] theorem Thread.orFlags_wait (t : Thread) (w : FFlags) : (t.orFlags w).wait = t.wait := rfl
@[simp] theorem Thread.orFlags_susp (t : Thread) (w : FFlags) : (t.orFlags w).susp = t.susp := rfl
@[simp] theorem Thread.orFlags_pin (t : Thread) (w : FFlags) : (t.orFlags w).pin = t.pin := rfl
@[simp] theorem Thread.orFlags_evt (t : Thread) (w : FFlags) : (t.orFlags w).evt = t.evt := rfl
@[simp] theorem Thread.orFlags_mark (t : Thread) (w : FFlags) : (t.orFlags w).mark = t.mark := rfl
@[simp] theorem Thread.orFlags_readyAt (t : Thread) (w : FFlags) : (t.orFlags w).readyAt = t.readyAt := rfl
@[simp] theorem Thread.orFlags_round (t : Thread) (w : FFlags) : (t.orFlags w).round = t.round := rfl
@[simp] theorem Thread.orFlags_warn (t : Thread) (w : FFlags) : (t.orFlags w).warn = t.warn := rfl
@[simp] theorem Thread.orFlags_feCount (t : Thread) (w : FFlags) : (t.orFlags w).feCount = t.feCount := rfl
@[simp] theorem Thread.orFlags_feLimit (t : Thread) (w : FFlags) : (t.orFlags w).feLimit = t.feLimit := rfl
@[simp] theorem Thread.orFlags_feTried (t : Thread) (w : FFlags) : (t.orFlags w).feTried = t.feTried := rfl
@[simp] theorem Thread.orFlags_werr (t : Thread) (w : FFlags) : (t.orFlags w).werr = t.werr := rfl
@[simp] theorem Thread.orFlags_vl (t : Thread) (w : FFlags) : (t.orFlags w).vl = t.vl := rfl
@[simp] theorem Thread.orFlags_fmtA (t : Thread) (w : FFlags) : (t.orFlags w).fmtA = t.fmtA := rfl
@[simp] theorem Thread.orFlags_fmtW (t : Thread) (w : FFlags) : (t.orFlags w).fmtW = t.fmtW := rfl
@[simp] theorem Thread.orFlags_scaleA (t : Thread) (w : FFlags) : (t.orFlags w).scaleA = t.scaleA := rfl
@[simp] theorem Thread.orFlags_scaleW (t : Thread) (w : FFlags) : (t.orFlags w).scaleW = t.scaleW := rfl
@[simp] theorem Thread.orFlags_sparse (t : Thread) (w : FFlags) : (t.orFlags w).sparse = t.sparse := rfl
@[simp] theorem Thread.orFlags_specarea (t : Thread) (w : FFlags) : (t.orFlags w).specarea = t.specarea := rfl
@[simp] theorem Thread.orFlags_specfld (t : Thread) (w : FFlags) : (t.orFlags w).specfld = t.specfld := rfl
@[simp] theorem Thread.orFlags_touched (t : Thread) (w : FFlags) : (t.orFlags w).touched = t.touched := rfl
@[simp] theorem Thread.orFlags_workid (t : Thread) (w : FFlags) : (t.orFlags w).workid = t.workid := rfl
@[simp] theorem Thread.orFlags_tcause (t : Thread) (w : FFlags) : (t.orFlags w).tcause = t.tcause := rfl
@[simp] theorem Thread.orFlags_tpc (t : Thread) (w : FFlags) : (t.orFlags w).tpc = t.tpc := rfl
@[simp] theorem Thread.orFlags_tval (t : Thread) (w : FFlags) : (t.orFlags w).tval = t.tval := rfl
@[simp] theorem Thread.orFlags_ecost (t : Thread) (w : FFlags) : (t.orFlags w).ecost = t.ecost := rfl
@[simp] theorem Thread.orFlags_ptim (t : Thread) (w : FFlags) : (t.orFlags w).ptim = t.ptim := rfl
@[simp] theorem Thread.orFlags_pwdg (t : Thread) (w : FFlags) : (t.orFlags w).pwdg = t.pwdg := rfl
@[simp] theorem Thread.orFlags_wake (t : Thread) (w : FFlags) : (t.orFlags w).wake = t.wake := rfl
@[simp] theorem Thread.orFlags_fetchFault (t : Thread) (w : FFlags) : (t.orFlags w).fetchFault = t.fetchFault := rfl
@[simp] theorem Thread.orFlags_issOwn (t : Thread) (w : FFlags) : (t.orFlags w).issOwn = t.issOwn := rfl
@[simp] theorem Thread.orFlags_issLent (t : Thread) (w : FFlags) : (t.orFlags w).issLent = t.issLent := rfl
@[simp] theorem Thread.orFlags_parked (t : Thread) (w : FFlags) : (t.orFlags w).parked = t.parked := rfl
@[simp] theorem Thread.orFlags_passes (t : Thread) (w : FFlags) : (t.orFlags w).passes = t.passes := rfl
@[simp] theorem Thread.orFlags_requests (t : Thread) (w : FFlags) : (t.orFlags w).requests = t.requests := rfl
@[simp] theorem Thread.orFlags_stalls (t : Thread) (w : FFlags) : (t.orFlags w).stalls = t.stalls := rfl
@[simp] theorem Thread.orFlags_spec (t : Thread) (w : FFlags) : (t.orFlags w).spec = t.spec := rfl
@[simp] theorem Thread.orFlags_specEntry (t : Thread) (w : FFlags) : (t.orFlags w).specEntry = t.specEntry := rfl
@[simp] theorem Thread.orFlags_specCause (t : Thread) (w : FFlags) : (t.orFlags w).specCause = t.specCause := rfl
@[simp] theorem Thread.orFlags_rbk (t : Thread) (w : FFlags) : (t.orFlags w).rbk = t.rbk := rfl
@[simp] theorem Thread.orFlags_cmt (t : Thread) (w : FFlags) : (t.orFlags w).cmt = t.cmt := rfl
@[simp] theorem Thread.orFlags_outSince (t : Thread) (w : FFlags) : (t.orFlags w).outSince = t.outSince := rfl
@[simp] theorem Thread.orFlags_vheld (t : Thread) (w : FFlags) : (t.orFlags w).vheld = t.vheld := rfl
@[simp] theorem Thread.orFlags_spillBan (t : Thread) (w : FFlags) : (t.orFlags w).spillBan = t.spillBan := rfl

/-! Updates of a tile that leave every field but one as it is. -/
@[simp] theorem Tile.setSlot_tenant (t : Tile) (q : Nat) (v : Slot) : (t.setSlot q v).tenant = t.tenant := rfl
@[simp] theorem Tile.setSlot_asid (t : Tile) (q : Nat) (v : Slot) : (t.setSlot q v).asid = t.asid := rfl
@[simp] theorem Tile.setSlot_tvec (t : Tile) (q : Nat) (v : Slot) : (t.setSlot q v).tvec = t.tvec := rfl
@[simp] theorem Tile.setSlot_sp (t : Tile) (q : Nat) (v : Slot) : (t.setSlot q v).sp = t.sp := rfl
@[simp] theorem Tile.setSlot_full (t : Tile) (q : Nat) (v : Slot) : (t.setSlot q v).full = t.full := rfl
@[simp] theorem Tile.setSlot_bad (t : Tile) (q : Nat) (v : Slot) : (t.setSlot q v).bad = t.bad := rfl
@[simp] theorem Tile.setSlot_soft (t : Tile) (q : Nat) (v : Slot) : (t.setSlot q v).soft = t.soft := rfl
@[simp] theorem Tile.setSlot_dir (t : Tile) (q : Nat) (v : Slot) : (t.setSlot q v).dir = t.dir := rfl
@[simp] theorem Tile.setSlot_badDir (t : Tile) (q : Nat) (v : Slot) : (t.setSlot q v).badDir = t.badDir := rfl
@[simp] theorem Tile.setSlot_wins (t : Tile) (q : Nat) (v : Slot) : (t.setSlot q v).wins = t.wins := rfl
@[simp] theorem Tile.setSlot_regions (t : Tile) (q : Nat) (v : Slot) : (t.setSlot q v).regions = t.regions := rfl
@[simp] theorem Tile.setSlot_mxq (t : Tile) (q : Nat) (v : Slot) : (t.setSlot q v).mxq = t.mxq := rfl
@[simp] theorem Tile.setSlot_ops (t : Tile) (q : Nat) (v : Slot) : (t.setSlot q v).ops = t.ops := rfl
@[simp] theorem Tile.setSlot_aux (t : Tile) (q : Nat) (v : Slot) : (t.setSlot q v).aux = t.aux := rfl
@[simp] theorem Tile.setSlot_routes (t : Tile) (q : Nat) (v : Slot) : (t.setSlot q v).routes = t.routes := rfl
@[simp] theorem Tile.setSlot_waitRoutes (t : Tile) (q : Nat) (v : Slot) : (t.setSlot q v).waitRoutes = t.waitRoutes := rfl
@[simp] theorem Tile.setSlot_grants (t : Tile) (q : Nat) (v : Slot) : (t.setSlot q v).grants = t.grants := rfl
@[simp] theorem Tile.setSlot_permits (t : Tile) (q : Nat) (v : Slot) : (t.setSlot q v).permits = t.permits := rfl
@[simp] theorem Tile.setSlot_ready (t : Tile) (q : Nat) (v : Slot) : (t.setSlot q v).ready = t.ready := rfl
@[simp] theorem Tile.setSlot_readySeq (t : Tile) (q : Nat) (v : Slot) : (t.setSlot q v).readySeq = t.readySeq := rfl
@[simp] theorem Tile.setSlot_spills (t : Tile) (q : Nat) (v : Slot) : (t.setSlot q v).spills = t.spills := rfl
@[simp] theorem Tile.setSlot_spilling (t : Tile) (q : Nat) (v : Slot) : (t.setSlot q v).spilling = t.spilling := rfl
@[simp] theorem Tile.setSlot_refilling (t : Tile) (q : Nat) (v : Slot) : (t.setSlot q v).refilling = t.refilling := rfl
@[simp] theorem Tile.setSlot_bars (t : Tile) (q : Nat) (v : Slot) : (t.setSlot q v).bars = t.bars := rfl
@[simp] theorem Tile.setSlot_timecmp (t : Tile) (q : Nat) (v : Slot) : (t.setSlot q v).timecmp = t.timecmp := rfl
@[simp] theorem Tile.setSlot_timSlot (t : Tile) (q : Nat) (v : Slot) : (t.setSlot q v).timSlot = t.timSlot := rfl
@[simp] theorem Tile.setSlot_cidNext (t : Tile) (q : Nat) (v : Slot) : (t.setSlot q v).cidNext = t.cidNext := rfl
@[simp] theorem Tile.setSlot_faults (t : Tile) (q : Nat) (v : Slot) : (t.setSlot q v).faults = t.faults := rfl
@[simp] theorem Tile.setSlot_icache (t : Tile) (q : Nat) (v : Slot) : (t.setSlot q v).icache = t.icache := rfl
@[simp] theorem Tile.setSlot_perfIdle (t : Tile) (q : Nat) (v : Slot) : (t.setSlot q v).perfIdle = t.perfIdle := rfl
@[simp] theorem Tile.setSlot_perfMx (t : Tile) (q : Nat) (v : Slot) : (t.setSlot q v).perfMx = t.perfMx := rfl
@[simp] theorem Tile.setSlot_turner (t : Tile) (q : Nat) (v : Slot) : (t.setSlot q v).turner = t.turner := rfl
@[simp] theorem Tile.setSlot_patch (t : Tile) (q : Nat) (v : Slot) : (t.setSlot q v).patch = t.patch := rfl
@[simp] theorem Tile.setSlot_splits (t : Tile) (q : Nat) (v : Slot) : (t.setSlot q v).splits = t.splits := rfl
@[simp] theorem Tile.setSlot_acted (t : Tile) (q : Nat) (v : Slot) : (t.setSlot q v).acted = t.acted := rfl
@[simp] theorem Tile.setSlot_age (t : Tile) (q : Nat) (v : Slot) : (t.setSlot q v).age = t.age := rfl
@[simp] theorem Tile.setSlot_mxUntil (t : Tile) (q : Nat) (v : Slot) : (t.setSlot q v).mxUntil = t.mxUntil := rfl
@[simp] theorem Tile.setSlot_bound (t : Tile) (q : Nat) (v : Slot) : (t.setSlot q v).bound = t.bound := rfl
@[simp] theorem Tile.setSlot_swapped (t : Tile) (q : Nat) (v : Slot) : (t.setSlot q v).swapped = t.swapped := rfl
@[simp] theorem Tile.setWin_tenant (t : Tile) (w : Nat) (v : Window) : (t.setWin w v).tenant = t.tenant := rfl
@[simp] theorem Tile.setWin_asid (t : Tile) (w : Nat) (v : Window) : (t.setWin w v).asid = t.asid := rfl
@[simp] theorem Tile.setWin_tvec (t : Tile) (w : Nat) (v : Window) : (t.setWin w v).tvec = t.tvec := rfl
@[simp] theorem Tile.setWin_sp (t : Tile) (w : Nat) (v : Window) : (t.setWin w v).sp = t.sp := rfl
@[simp] theorem Tile.setWin_full (t : Tile) (w : Nat) (v : Window) : (t.setWin w v).full = t.full := rfl
@[simp] theorem Tile.setWin_bad (t : Tile) (w : Nat) (v : Window) : (t.setWin w v).bad = t.bad := rfl
@[simp] theorem Tile.setWin_soft (t : Tile) (w : Nat) (v : Window) : (t.setWin w v).soft = t.soft := rfl
@[simp] theorem Tile.setWin_dir (t : Tile) (w : Nat) (v : Window) : (t.setWin w v).dir = t.dir := rfl
@[simp] theorem Tile.setWin_badDir (t : Tile) (w : Nat) (v : Window) : (t.setWin w v).badDir = t.badDir := rfl
@[simp] theorem Tile.setWin_regions (t : Tile) (w : Nat) (v : Window) : (t.setWin w v).regions = t.regions := rfl
@[simp] theorem Tile.setWin_mxq (t : Tile) (w : Nat) (v : Window) : (t.setWin w v).mxq = t.mxq := rfl
@[simp] theorem Tile.setWin_ops (t : Tile) (w : Nat) (v : Window) : (t.setWin w v).ops = t.ops := rfl
@[simp] theorem Tile.setWin_aux (t : Tile) (w : Nat) (v : Window) : (t.setWin w v).aux = t.aux := rfl
@[simp] theorem Tile.setWin_routes (t : Tile) (w : Nat) (v : Window) : (t.setWin w v).routes = t.routes := rfl
@[simp] theorem Tile.setWin_waitRoutes (t : Tile) (w : Nat) (v : Window) : (t.setWin w v).waitRoutes = t.waitRoutes := rfl
@[simp] theorem Tile.setWin_grants (t : Tile) (w : Nat) (v : Window) : (t.setWin w v).grants = t.grants := rfl
@[simp] theorem Tile.setWin_permits (t : Tile) (w : Nat) (v : Window) : (t.setWin w v).permits = t.permits := rfl
@[simp] theorem Tile.setWin_ready (t : Tile) (w : Nat) (v : Window) : (t.setWin w v).ready = t.ready := rfl
@[simp] theorem Tile.setWin_readySeq (t : Tile) (w : Nat) (v : Window) : (t.setWin w v).readySeq = t.readySeq := rfl
@[simp] theorem Tile.setWin_spills (t : Tile) (w : Nat) (v : Window) : (t.setWin w v).spills = t.spills := rfl
@[simp] theorem Tile.setWin_spilling (t : Tile) (w : Nat) (v : Window) : (t.setWin w v).spilling = t.spilling := rfl
@[simp] theorem Tile.setWin_refilling (t : Tile) (w : Nat) (v : Window) : (t.setWin w v).refilling = t.refilling := rfl
@[simp] theorem Tile.setWin_bars (t : Tile) (w : Nat) (v : Window) : (t.setWin w v).bars = t.bars := rfl
@[simp] theorem Tile.setWin_timecmp (t : Tile) (w : Nat) (v : Window) : (t.setWin w v).timecmp = t.timecmp := rfl
@[simp] theorem Tile.setWin_timSlot (t : Tile) (w : Nat) (v : Window) : (t.setWin w v).timSlot = t.timSlot := rfl
@[simp] theorem Tile.setWin_cidNext (t : Tile) (w : Nat) (v : Window) : (t.setWin w v).cidNext = t.cidNext := rfl
@[simp] theorem Tile.setWin_faults (t : Tile) (w : Nat) (v : Window) : (t.setWin w v).faults = t.faults := rfl
@[simp] theorem Tile.setWin_icache (t : Tile) (w : Nat) (v : Window) : (t.setWin w v).icache = t.icache := rfl
@[simp] theorem Tile.setWin_perfIdle (t : Tile) (w : Nat) (v : Window) : (t.setWin w v).perfIdle = t.perfIdle := rfl
@[simp] theorem Tile.setWin_perfMx (t : Tile) (w : Nat) (v : Window) : (t.setWin w v).perfMx = t.perfMx := rfl
@[simp] theorem Tile.setWin_slots (t : Tile) (w : Nat) (v : Window) : (t.setWin w v).slots = t.slots := rfl
@[simp] theorem Tile.setWin_turner (t : Tile) (w : Nat) (v : Window) : (t.setWin w v).turner = t.turner := rfl
@[simp] theorem Tile.setWin_patch (t : Tile) (w : Nat) (v : Window) : (t.setWin w v).patch = t.patch := rfl
@[simp] theorem Tile.setWin_splits (t : Tile) (w : Nat) (v : Window) : (t.setWin w v).splits = t.splits := rfl
@[simp] theorem Tile.setWin_acted (t : Tile) (w : Nat) (v : Window) : (t.setWin w v).acted = t.acted := rfl
@[simp] theorem Tile.setWin_age (t : Tile) (w : Nat) (v : Window) : (t.setWin w v).age = t.age := rfl
@[simp] theorem Tile.setWin_mxUntil (t : Tile) (w : Nat) (v : Window) : (t.setWin w v).mxUntil = t.mxUntil := rfl
@[simp] theorem Tile.setWin_bound (t : Tile) (w : Nat) (v : Window) : (t.setWin w v).bound = t.bound := rfl
@[simp] theorem Tile.setWin_swapped (t : Tile) (w : Nat) (v : Window) : (t.setWin w v).swapped = t.swapped := rfl
@[simp] theorem Tile.setRegion_tenant (t : Tile) (r : Nat) (v : Region) : (t.setRegion r v).tenant = t.tenant := rfl
@[simp] theorem Tile.setRegion_asid (t : Tile) (r : Nat) (v : Region) : (t.setRegion r v).asid = t.asid := rfl
@[simp] theorem Tile.setRegion_tvec (t : Tile) (r : Nat) (v : Region) : (t.setRegion r v).tvec = t.tvec := rfl
@[simp] theorem Tile.setRegion_sp (t : Tile) (r : Nat) (v : Region) : (t.setRegion r v).sp = t.sp := rfl
@[simp] theorem Tile.setRegion_full (t : Tile) (r : Nat) (v : Region) : (t.setRegion r v).full = t.full := rfl
@[simp] theorem Tile.setRegion_bad (t : Tile) (r : Nat) (v : Region) : (t.setRegion r v).bad = t.bad := rfl
@[simp] theorem Tile.setRegion_soft (t : Tile) (r : Nat) (v : Region) : (t.setRegion r v).soft = t.soft := rfl
@[simp] theorem Tile.setRegion_dir (t : Tile) (r : Nat) (v : Region) : (t.setRegion r v).dir = t.dir := rfl
@[simp] theorem Tile.setRegion_badDir (t : Tile) (r : Nat) (v : Region) : (t.setRegion r v).badDir = t.badDir := rfl
@[simp] theorem Tile.setRegion_wins (t : Tile) (r : Nat) (v : Region) : (t.setRegion r v).wins = t.wins := rfl
@[simp] theorem Tile.setRegion_mxq (t : Tile) (r : Nat) (v : Region) : (t.setRegion r v).mxq = t.mxq := rfl
@[simp] theorem Tile.setRegion_ops (t : Tile) (r : Nat) (v : Region) : (t.setRegion r v).ops = t.ops := rfl
@[simp] theorem Tile.setRegion_aux (t : Tile) (r : Nat) (v : Region) : (t.setRegion r v).aux = t.aux := rfl
@[simp] theorem Tile.setRegion_routes (t : Tile) (r : Nat) (v : Region) : (t.setRegion r v).routes = t.routes := rfl
@[simp] theorem Tile.setRegion_waitRoutes (t : Tile) (r : Nat) (v : Region) : (t.setRegion r v).waitRoutes = t.waitRoutes := rfl
@[simp] theorem Tile.setRegion_grants (t : Tile) (r : Nat) (v : Region) : (t.setRegion r v).grants = t.grants := rfl
@[simp] theorem Tile.setRegion_permits (t : Tile) (r : Nat) (v : Region) : (t.setRegion r v).permits = t.permits := rfl
@[simp] theorem Tile.setRegion_ready (t : Tile) (r : Nat) (v : Region) : (t.setRegion r v).ready = t.ready := rfl
@[simp] theorem Tile.setRegion_readySeq (t : Tile) (r : Nat) (v : Region) : (t.setRegion r v).readySeq = t.readySeq := rfl
@[simp] theorem Tile.setRegion_spills (t : Tile) (r : Nat) (v : Region) : (t.setRegion r v).spills = t.spills := rfl
@[simp] theorem Tile.setRegion_spilling (t : Tile) (r : Nat) (v : Region) : (t.setRegion r v).spilling = t.spilling := rfl
@[simp] theorem Tile.setRegion_refilling (t : Tile) (r : Nat) (v : Region) : (t.setRegion r v).refilling = t.refilling := rfl
@[simp] theorem Tile.setRegion_bars (t : Tile) (r : Nat) (v : Region) : (t.setRegion r v).bars = t.bars := rfl
@[simp] theorem Tile.setRegion_timecmp (t : Tile) (r : Nat) (v : Region) : (t.setRegion r v).timecmp = t.timecmp := rfl
@[simp] theorem Tile.setRegion_timSlot (t : Tile) (r : Nat) (v : Region) : (t.setRegion r v).timSlot = t.timSlot := rfl
@[simp] theorem Tile.setRegion_cidNext (t : Tile) (r : Nat) (v : Region) : (t.setRegion r v).cidNext = t.cidNext := rfl
@[simp] theorem Tile.setRegion_faults (t : Tile) (r : Nat) (v : Region) : (t.setRegion r v).faults = t.faults := rfl
@[simp] theorem Tile.setRegion_icache (t : Tile) (r : Nat) (v : Region) : (t.setRegion r v).icache = t.icache := rfl
@[simp] theorem Tile.setRegion_perfIdle (t : Tile) (r : Nat) (v : Region) : (t.setRegion r v).perfIdle = t.perfIdle := rfl
@[simp] theorem Tile.setRegion_perfMx (t : Tile) (r : Nat) (v : Region) : (t.setRegion r v).perfMx = t.perfMx := rfl
@[simp] theorem Tile.setRegion_slots (t : Tile) (r : Nat) (v : Region) : (t.setRegion r v).slots = t.slots := rfl
@[simp] theorem Tile.setRegion_turner (t : Tile) (r : Nat) (v : Region) : (t.setRegion r v).turner = t.turner := rfl
@[simp] theorem Tile.setRegion_patch (t : Tile) (r : Nat) (v : Region) : (t.setRegion r v).patch = t.patch := rfl
@[simp] theorem Tile.setRegion_splits (t : Tile) (r : Nat) (v : Region) : (t.setRegion r v).splits = t.splits := rfl
@[simp] theorem Tile.setRegion_acted (t : Tile) (r : Nat) (v : Region) : (t.setRegion r v).acted = t.acted := rfl
@[simp] theorem Tile.setRegion_age (t : Tile) (r : Nat) (v : Region) : (t.setRegion r v).age = t.age := rfl
@[simp] theorem Tile.setRegion_mxUntil (t : Tile) (r : Nat) (v : Region) : (t.setRegion r v).mxUntil = t.mxUntil := rfl
@[simp] theorem Tile.setRegion_bound (t : Tile) (r : Nat) (v : Region) : (t.setRegion r v).bound = t.bound := rfl
@[simp] theorem Tile.setRegion_swapped (t : Tile) (r : Nat) (v : Region) : (t.setRegion r v).swapped = t.swapped := rfl
@[simp] theorem Tile.setBar_tenant (t : Tile) (e : Nat) (v : BarEntry) : (t.setBar e v).tenant = t.tenant := rfl
@[simp] theorem Tile.setBar_asid (t : Tile) (e : Nat) (v : BarEntry) : (t.setBar e v).asid = t.asid := rfl
@[simp] theorem Tile.setBar_tvec (t : Tile) (e : Nat) (v : BarEntry) : (t.setBar e v).tvec = t.tvec := rfl
@[simp] theorem Tile.setBar_sp (t : Tile) (e : Nat) (v : BarEntry) : (t.setBar e v).sp = t.sp := rfl
@[simp] theorem Tile.setBar_full (t : Tile) (e : Nat) (v : BarEntry) : (t.setBar e v).full = t.full := rfl
@[simp] theorem Tile.setBar_bad (t : Tile) (e : Nat) (v : BarEntry) : (t.setBar e v).bad = t.bad := rfl
@[simp] theorem Tile.setBar_soft (t : Tile) (e : Nat) (v : BarEntry) : (t.setBar e v).soft = t.soft := rfl
@[simp] theorem Tile.setBar_dir (t : Tile) (e : Nat) (v : BarEntry) : (t.setBar e v).dir = t.dir := rfl
@[simp] theorem Tile.setBar_badDir (t : Tile) (e : Nat) (v : BarEntry) : (t.setBar e v).badDir = t.badDir := rfl
@[simp] theorem Tile.setBar_wins (t : Tile) (e : Nat) (v : BarEntry) : (t.setBar e v).wins = t.wins := rfl
@[simp] theorem Tile.setBar_regions (t : Tile) (e : Nat) (v : BarEntry) : (t.setBar e v).regions = t.regions := rfl
@[simp] theorem Tile.setBar_mxq (t : Tile) (e : Nat) (v : BarEntry) : (t.setBar e v).mxq = t.mxq := rfl
@[simp] theorem Tile.setBar_ops (t : Tile) (e : Nat) (v : BarEntry) : (t.setBar e v).ops = t.ops := rfl
@[simp] theorem Tile.setBar_aux (t : Tile) (e : Nat) (v : BarEntry) : (t.setBar e v).aux = t.aux := rfl
@[simp] theorem Tile.setBar_routes (t : Tile) (e : Nat) (v : BarEntry) : (t.setBar e v).routes = t.routes := rfl
@[simp] theorem Tile.setBar_waitRoutes (t : Tile) (e : Nat) (v : BarEntry) : (t.setBar e v).waitRoutes = t.waitRoutes := rfl
@[simp] theorem Tile.setBar_grants (t : Tile) (e : Nat) (v : BarEntry) : (t.setBar e v).grants = t.grants := rfl
@[simp] theorem Tile.setBar_permits (t : Tile) (e : Nat) (v : BarEntry) : (t.setBar e v).permits = t.permits := rfl
@[simp] theorem Tile.setBar_ready (t : Tile) (e : Nat) (v : BarEntry) : (t.setBar e v).ready = t.ready := rfl
@[simp] theorem Tile.setBar_readySeq (t : Tile) (e : Nat) (v : BarEntry) : (t.setBar e v).readySeq = t.readySeq := rfl
@[simp] theorem Tile.setBar_spills (t : Tile) (e : Nat) (v : BarEntry) : (t.setBar e v).spills = t.spills := rfl
@[simp] theorem Tile.setBar_spilling (t : Tile) (e : Nat) (v : BarEntry) : (t.setBar e v).spilling = t.spilling := rfl
@[simp] theorem Tile.setBar_refilling (t : Tile) (e : Nat) (v : BarEntry) : (t.setBar e v).refilling = t.refilling := rfl
@[simp] theorem Tile.setBar_timecmp (t : Tile) (e : Nat) (v : BarEntry) : (t.setBar e v).timecmp = t.timecmp := rfl
@[simp] theorem Tile.setBar_timSlot (t : Tile) (e : Nat) (v : BarEntry) : (t.setBar e v).timSlot = t.timSlot := rfl
@[simp] theorem Tile.setBar_cidNext (t : Tile) (e : Nat) (v : BarEntry) : (t.setBar e v).cidNext = t.cidNext := rfl
@[simp] theorem Tile.setBar_faults (t : Tile) (e : Nat) (v : BarEntry) : (t.setBar e v).faults = t.faults := rfl
@[simp] theorem Tile.setBar_icache (t : Tile) (e : Nat) (v : BarEntry) : (t.setBar e v).icache = t.icache := rfl
@[simp] theorem Tile.setBar_perfIdle (t : Tile) (e : Nat) (v : BarEntry) : (t.setBar e v).perfIdle = t.perfIdle := rfl
@[simp] theorem Tile.setBar_perfMx (t : Tile) (e : Nat) (v : BarEntry) : (t.setBar e v).perfMx = t.perfMx := rfl
@[simp] theorem Tile.setBar_slots (t : Tile) (e : Nat) (v : BarEntry) : (t.setBar e v).slots = t.slots := rfl
@[simp] theorem Tile.setBar_turner (t : Tile) (e : Nat) (v : BarEntry) : (t.setBar e v).turner = t.turner := rfl
@[simp] theorem Tile.setBar_patch (t : Tile) (e : Nat) (v : BarEntry) : (t.setBar e v).patch = t.patch := rfl
@[simp] theorem Tile.setBar_splits (t : Tile) (e : Nat) (v : BarEntry) : (t.setBar e v).splits = t.splits := rfl
@[simp] theorem Tile.setBar_acted (t : Tile) (e : Nat) (v : BarEntry) : (t.setBar e v).acted = t.acted := rfl
@[simp] theorem Tile.setBar_age (t : Tile) (e : Nat) (v : BarEntry) : (t.setBar e v).age = t.age := rfl
@[simp] theorem Tile.setBar_mxUntil (t : Tile) (e : Nat) (v : BarEntry) : (t.setBar e v).mxUntil = t.mxUntil := rfl
@[simp] theorem Tile.setBar_bound (t : Tile) (e : Nat) (v : BarEntry) : (t.setBar e v).bound = t.bound := rfl
@[simp] theorem Tile.setBar_swapped (t : Tile) (e : Nat) (v : BarEntry) : (t.setBar e v).swapped = t.swapped := rfl

end Sys2Proof.Machine
end

