-- ==== Sys2Proof/Laws/Issue.lean ====
section
/-! SUPPORT. Laws of tiles, slots and threads, and what the issue of a bundle does: it runs both halves on the counted issue, or takes the
trap of lowest rank. -/
namespace Sys2Proof.Machine

theorem Map.put_put {α : Type} (m : Map α) (k : Nat) (v w : α) : (m.put k v).put k w = m.put k w := by
  induction m with
  | nil => simp [Map.put]
  | cons e m ih =>
    obtain ⟨j, u⟩ := e
    simp only [Map.put]
    split
    · simp [Map.put]
    · split
      · simp [Map.put]
      · simp only [Map.put]; rw [if_neg ‹_›, if_neg ‹_›, ih]

/-! Tiles. -/
@[simp] theorem State.tile_setTile (s : State) (x : Nat) (t : Tile) : (s.setTile x t).tile x = t := Map.at_put_same _ _ _ _
theorem State.tile_setTile_other (s : State) (x y : Nat) (t : Tile) (h : y ≠ x) : (s.setTile x t).tile y = s.tile y := Map.at_put_other _ _ _ _ _ h
@[simp] theorem State.setTile_setTile (s : State) (x : Nat) (t u : Tile) : (s.setTile x t).setTile x u = s.setTile x u := by
  simp only [State.setTile, Map.put_put]
@[simp] theorem State.tile_modTile (s : State) (x : Nat) (f : Tile → Tile) : (s.modTile x f).tile x = f (s.tile x) := State.tile_setTile _ _ _
theorem State.tile_modTile_other (s : State) (x y : Nat) (f : Tile → Tile) (h : y ≠ x) : (s.modTile x f).tile y = s.tile y :=
  State.tile_setTile_other _ _ _ _ h
theorem State.modTile_modTile (s : State) (x : Nat) (f g : Tile → Tile) : (s.modTile x f).modTile x g = s.modTile x (g ∘ f) := by
  simp only [State.modTile, State.tile_setTile, State.setTile_setTile, Function.comp]

/-! Slots. -/
theorem Tile.setSlot_setSlot (t : Tile) (q : Nat) (v w : Slot) : (t.setSlot q v).setSlot q w = t.setSlot q w := by
  simp only [Tile.setSlot]
  congr 1
  apply Vector.ext
  intro i hi
  simp only [Vector.getElem_setIfInBounds]
  split <;> rfl
theorem Tile.slot_setSlot {t : Tile} {q : Nat} (v : Slot) (h : q < 8) : (t.setSlot q v).slot q = v := by
  simp [Tile.slot, Tile.setSlot, h]
theorem Tile.slot_setSlot_other (t : Tile) {q r : Nat} (v : Slot) (h : r ≠ q) : (t.setSlot q v).slot r = t.slot r := by
  simp [Tile.slot, Tile.setSlot, Ne.symm h]
theorem State.slot_lt {s : State} {x q : Nat} {t : Thread} (h : s.thr x q = some t) : q < 8 := by
  by_cases g : q < 8
  · exact g
  · simp [State.thr, State.slot, Tile.slot, g] at h
theorem State.setSlot_setSlot (s : State) (x q : Nat) (v w : Slot) : (s.setSlot x q v).setSlot x q w = s.setSlot x q w := by
  simp only [State.setSlot, State.modTile, State.tile_setTile, State.setTile_setTile, Tile.setSlot_setSlot]
theorem State.slot_setSlot {s : State} {x q : Nat} (v : Slot) (h : q < 8) : (s.setSlot x q v).slot x q = v := by
  simp only [State.slot, State.setSlot, State.tile_modTile, Tile.slot_setSlot v h]
theorem State.thr_setSlot {s : State} {x q : Nat} (v : Slot) (h : q < 8) : (s.setSlot x q v).thr x q = v.thr := by
  simp only [State.thr, State.slot_setSlot v h]

/-! The issuing thread. -/
@[simp] theorem State.tx_setSlot (s : State) (x q : Nat) (v : Slot) : (s.setSlot x q v).tx = s.tx := rfl
@[simp] theorem State.sx_setSlot (s : State) (x q : Nat) (v : Slot) : (s.setSlot x q v).sx = s.sx := rfl
@[simp] theorem State.tx_issued (s : State) (t : Thread) : (s.issued t).tx = s.tx := rfl
@[simp] theorem State.sx_issued (s : State) (t : Thread) : (s.issued t).sx = s.sx := rfl
theorem State.Issues.lt {s : State} {t : Thread} (h : s.Issues t) : s.sx < 8 := State.slot_lt h.1
theorem State.Issues.cthr {s : State} {t : Thread} (h : s.Issues t) : s.cthr = t := by simp [State.cthr, h.1]
theorem State.Issues.thr_issued {s : State} {t : Thread} (h : s.Issues t) (u : Thread) : (s.issued u).thr s.tx s.sx = some u := by
  simp only [State.issued, State.thr_setSlot _ h.lt]
theorem State.Issues.cthr_issued {s : State} {t : Thread} (h : s.Issues t) (u : Thread) : (s.issued u).cthr = u := by
  simp only [State.cthr, State.tx_issued, State.sx_issued, h.thr_issued u, Option.getD_some]
/-- Changing the issuing thread after an issue. -/
theorem State.Issues.modCur_issued {s : State} {t : Thread} (h : s.Issues t) (u : Thread) (f : Thread → Thread) :
    (s.issued u).modCur f = s.issued (f u) := by
  simp only [State.modCur, State.modThr, State.tx_issued, State.sx_issued, h.thr_issued u]
  simp only [State.issued, State.slot_setSlot _ h.lt, State.setSlot_setSlot]
/-- The counted issue. -/
theorem State.Issues.count {s : State} {t : Thread} (h : s.Issues t) : s.countIssue false = s.issued { t with issOwn := t.issOwn + 1 } := by
  have e : s.modCur (fun t => { t with issOwn := t.issOwn + 1 }) =
      s.setSlot s.tx s.sx { s.slot s.tx s.sx with thr := some { t with issOwn := t.issOwn + 1 } } := by
    simp only [State.modCur, State.modThr, h.1]
  simp only [State.countIssue, Bool.false_eq_true, ↓reduceIte, State.countWdog, e, State.tx_setSlot, State.sx_setSlot,
    State.slot_setSlot _ h.lt, State.setSlot_setSlot, State.issued]
theorem State.Issues.noCause {s : State} {t : Thread} (h : s.Issues t) : (!t.tact && (t.pwdg.isSome || t.ptim.isSome)) = false := by
  cases e : t.tact with
  | true => rfl
  | false => simp [h.2 e]
/-- An issue without failing check, outside what ends or pauses speculation, with no V half that a speculative `READ.B` keeps back, runs the halves on
the counted issue. -/
theorem State.Issues.run {s : State} {t : Thread} (h : s.Issues t) {w : W64} {wait : Bool} {hs hv : Half}
    (ht : bundleTraps w true hs hv s = []) (hg : t.speculative = true → hs.spec s = .go ∧ hv.spec s = .go)
    (h1 : hs.gate s = none) (h2 : hs.stops s = none) (h3 : (if hs.holds s then hv.sample s else none) = none) :
    s.issue false w wait true hs hv = hs.eff s (hv.eff s (s.issued { t.stepped with mark := wait })) := by
  have act : (if t.speculative then (if hs.spec s = .go then hv.spec s else hs.spec s) else SpecAct.go) = SpecAct.go := by
    split
    · rw [if_pos (hg ‹_›).1, (hg ‹_›).2]
    · rfl
  unfold State.issue
  simp only [h.cthr, h.noCause, Bool.false_eq_true, ↓reduceIte, ht, firstTrap, List.foldl_nil, act, reduceCtorEq, h1, h2, h3, h.count, h.modCur_issued,
    Thread.stepped]
/-- A failing check is taken, and neither half has an effect. -/
theorem State.Issues.trap {s : State} {t : Thread} (h : s.Issues t) {w : W64} {wait guard : Bool} {hs hv : Half} {tr : Trap}
    (ht : firstTrap (bundleTraps w guard hs hv s) = some tr) : s.issue false w wait guard hs hv = s.trapped tr := by
  unfold State.issue
  simp only [h.cthr, h.noCause, Bool.false_eq_true, ↓reduceIte, ht, State.trapped]
/-- No register of a list is pending. -/
theorem Thread.Clear.none {t : Thread} {rs : List Reg} (h : t.Clear rs) : t.hazards rs = [] := by
  have : rs.find? t.pending = Option.none := by
    rw [List.find?_eq_none]; intro r hr; simp [h r hr]
  simp [Thread.hazards, this]
theorem Thread.hazards_nil (t : Thread) : t.hazards [] = [] := rfl
/-- The failing checks of an S operation alone. -/
theorem State.Issues.trapsS {s : State} {t : Thread} (h : s.Issues t) (w : W64) (hs : Half) (hc : t.Clear (hs.srcs ++ hs.dsts))
    (hp : hs.priv s = true → t.sys = true) (hvec : hs.vec = true → t.compute = true) (hk : hs.checks s = []) :
    bundleTraps w true hs Half.none s = [] := by
  have hd : sameDst hs.dsts [] = [] := by
    unfold sameDst
    rw [List.find?_eq_none.mpr (by intro r _; simp)]
  have p : (hs.priv s && !t.sys) = false := by
    cases e : hs.priv s with
    | false => rfl
    | true => simp [hp e]
  have v : ((hs.vec || Half.none.vec) && !t.compute) = false := by
    cases e : hs.vec with
    | false => rfl
    | true => simp [hvec e]
  simp only [bundleTraps, h.cthr, v, p, hk, hc.none, Bool.false_eq_true, ↓reduceIte, List.nil_append, List.append_nil]
  rw [show Half.none.dsts = [] from rfl, show Half.none.srcs = [] from rfl, show Half.none.checks s = [] from rfl, hd]
  rfl
/-- An S operation alone that passes every check. -/
theorem State.Issues.runS {s : State} {t : Thread} (h : s.Issues t) (i : Instr) (hs : Half) (hc : t.Clear (hs.srcs ++ hs.dsts))
    (hp : hs.priv s = true → t.sys = true) (hvec : hs.vec = true → t.compute = true) (hk : hs.checks s = [])
    (hg : t.speculative = true → hs.spec s = .go) (h1 : hs.gate s = none) (h2 : hs.stops s = none) :
    s.issueS i hs = hs.eff s (s.issued t.stepped) := by
  unfold State.issueS
  rw [h.run (h.trapsS _ hs hc hp hvec hk) (fun e => ⟨hg e, rfl⟩) h1 h2 (by cases hs.holds s <;> rfl)]
  rfl
/-- One that only computes a register. -/
theorem State.Issues.alu {s : State} {t : Thread} (h : s.Issues t) (i : Instr) (rd : Reg) (srcs : List Reg) (f : Thread → W64)
    (hc : t.Clear (srcs ++ [rd])) : s.issueS i (.alu rd srcs f) = s.issued (t.stepped.wr rd (f t)) := by
  rw [h.runS i _ hc (by intro e; cases e) (by intro e; cases e) rfl (fun _ => rfl) rfl rfl]
  simp only [Half.alu, h.modCur_issued, h.cthr]
/-- One that changes only its own thread. -/
theorem State.Issues.own {s : State} {t : Thread} (h : s.Issues t) (i : Instr) (srcs dsts : List Reg) (f : Thread → Thread → Thread)
    (hc : t.Clear (srcs ++ dsts)) : s.issueS i (.own srcs dsts f) = s.issued (f t t.stepped) := by
  rw [h.runS i _ hc (by intro e; cases e) (by intro e; cases e) rfl (fun _ => rfl) rfl rfl]
  simp only [Half.own, h.modCur_issued, h.cthr]

/-! Registers. -/
theorem Thread.rd_wr (t : Thread) (r d : Reg) (v : W64) : (t.wr d v).rd r = if r = 0 then 0 else if r = d then v else t.rd r := by
  unfold Thread.rd Thread.wr
  by_cases hr : r = 0
  · rw [if_pos hr, if_pos hr]
  · rw [if_neg hr, if_neg hr]
    by_cases hd : d = 0
    · rw [if_pos hd, if_neg (fun e => hr (e.trans hd)), if_neg hr]
    · rw [if_neg hd, if_neg hr]
      by_cases e : r = d
      · subst e; simp
      · have : d.toNat ≠ r.toNat := fun h => e (BitVec.eq_of_toNat_eq h.symm)
        rw [if_neg e]
        exact Vector.getElem_set_ne d.isLt r.isLt this
theorem Thread.pr_wp (t : Thread) (n d : Pred) (b : Bool) : (t.wp d b).pr n = if n = 0 then true else if n = d then b else t.pr n := by
  have bit : ∀ i j : Fin 8, (1#8 <<< i.val).getLsbD j.val = decide (i = j) := by decide
  have z : ∀ m : Pred, m ≠ 0 → (m == 0) = false := fun m h => by simpa using h
  unfold Thread.pr Thread.wp
  by_cases hn : n = 0
  · rw [if_pos hn, hn]; rfl
  · rw [if_neg hn, z n hn, Bool.false_or]
    by_cases hd : d = 0
    · rw [if_pos hd, if_neg (fun e => hn (e.trans hd)), Bool.false_or]
    · rw [if_neg hd]
      have k : n.toNat < 8 := n.isLt
      have m : d.toNat < 8 := d.isLt
      have q := bit ⟨d.toNat, m⟩ ⟨n.toNat, k⟩
      simp only [Fin.mk.injEq] at q
      by_cases e : n = d
      · rw [if_pos e]
        have : d.toNat = n.toNat := by rw [e]
        cases b <;> simp only [Bool.false_eq_true, ↓reduceIte, BitVec.getLsbD_and, BitVec.getLsbD_or, BitVec.getLsbD_not, this, k] <;> simp [k]
      · rw [if_neg e, Bool.false_or]
        have : ¬ d.toNat = n.toNat := fun h => e (BitVec.eq_of_toNat_eq h.symm)
        cases b <;> simp only [Bool.false_eq_true, ↓reduceIte, BitVec.getLsbD_and, BitVec.getLsbD_or, BitVec.getLsbD_not, q, this, k] <;> simp

end Sys2Proof.Machine
end

