-- ==== Sys2Proof/Laws/PerInstr.lean ====
section
/-! SUPPORT. Decoding what the encoder writes, one lemma for each constructor of `Instr` (02_encoding.md R43 to R63). -/
set_option Elab.async false
set_option linter.unusedSimpArgs false

namespace Sys2Proof.Laws.RoundTrip
open Sys2Proof

/-- What the encoder writes for an operation, the decoder reads back: an S operation from its syllable, whatever the guard bits `g` above it,
a V operation from its syllable and extension. -/
def Statement (i : Instr) : Prop :=
  (∀ long s imm, encS i = some (long, s, imm) → i.wf = true →
    s < 33554432 ∧ imm < 4294967296 ∧ ∀ g, (if long then decSL (g * 33554432 + s) imm else decSR (g * 33554432 + s)) = some i) ∧
  (∀ o, i.vop = some o → i.wf = true →
    o.wf = true ∧ o.syllable < 4294967296 ∧ o.x < 536870912 ∧ decV o.kind.long o.syllable o.x = some o ∧ o.instr = i)

theorem boolBit (b : Bool) : (b.toNat == 1) = b := by cases b <;> rfl
theorem boolLt (b : Bool) : b.toNat < 2 := by cases b <;> decide
theorem codeLt (f : FFmt) : f.code < 3 := by cases f <;> decide
theorem codeBack (f : FFmt) : FFmt.ofCode f.code = f := by cases f <;> rfl
theorem noS {i : Instr} (hs : encS i = none) {A : Bool → Nat → Nat → Prop} : ∀ long s imm, encS i = some (long, s, imm) → i.wf = true → A long s imm := by
  intro _ _ _ h; rw [hs] at h; cases h
theorem noV {i : Instr} (hv : i.vop = none) {A : VOp → Prop} : ∀ o, i.vop = some o → i.wf = true → A o := by
  intro _ h; rw [hv] at h; cases h
theorem noEnc {i : Instr} (hs : encS i = none) (hv : i.vop = none) : Statement i := ⟨noS hs, noV hv⟩
theorem ofR {i : Instr} {s : Nat} (hs : encS i = some (false, s, 0)) (hv : i.vop = none)
    (h : i.wf = true → s < 33554432 ∧ ∀ g S, S = g * 33554432 + s → decSR S = some i) : Statement i := by
  refine ⟨fun _ _ _ e w => ?_, noV hv⟩
  rw [hs] at e; cases e
  refine ⟨(h w).1, by decide, fun g => ?_⟩
  rw [if_neg (by decide)]
  exact (h w).2 g _ rfl
theorem ofL {i : Instr} {s imm : Nat} (hs : encS i = some (true, s, imm)) (hv : i.vop = none)
    (h : i.wf = true → s < 33554432 ∧ imm < 4294967296 ∧ ∀ g S, S = g * 33554432 + s → decSL S imm = some i) : Statement i := by
  refine ⟨fun _ _ _ e w => ?_, noV hv⟩
  rw [hs] at e; cases e
  refine ⟨(h w).1, (h w).2.1, fun g => ?_⟩
  rw [if_pos rfl]
  exact (h w).2.2 g _ rfl
/-- The fields of a V syllable. -/
theorem syllable_fields (o : VOp) (c : Nat) (hc : o.kind.code = c) (h0 : c < 256) (hd : o.d < 32) (ha : o.a < 32) (hb : o.b < 32) (ht : o.t < 8)
    (hm : o.m < 32) : o.syllable < 4294967296 ∧ fld o.syllable 24 8 = c ∧ fld o.syllable 19 5 = o.d ∧ fld o.syllable 14 5 = o.a ∧
      fld o.syllable 9 5 = o.b ∧ fld o.syllable 6 3 = o.t ∧ fld o.syllable 5 1 = o.tn.toNat ∧ fld o.syllable 0 5 = o.m := by
  have := boolLt o.tn
  unfold VOp.syllable fld
  rw [hc]
  refine ⟨?_, ?_, ?_, ?_, ?_, ?_, ?_, ?_⟩ <;> omega
theorem decV_row (long : Bool) (v x : Nat) {k d a b t tn m lx} (h : vopRow (fld v 24 8) = some (k, long, [d, a, b, t, tn, m], lx)) :
    decV long v x = if long = long ∧ fld v 19 5 < d ∧ fld v 14 5 < a ∧ fld v 9 5 < b ∧ fld v 6 3 < t ∧ fld v 5 1 < tn ∧ fld v 0 5 < m ∧ x < lx then
      if k = .vpass then some ⟨k, 0, 0, 0, 0, false, fld v 0 24, x⟩
      else some ⟨k, fld v 19 5, fld v 14 5, fld v 9 5, fld v 6 3, fld v 5 1 == 1, fld v 0 5, x⟩
    else none := by unfold decV; rw [h]
theorem ofV {i : Instr} {o : VOp} {c d a b t tn m x : Nat} (hs : encS i = none) (hv : i.vop = some o) (hc : o.kind.code = c) (h0 : c < 256)
    (hr : vopRow c = some (o.kind, o.kind.long, [d, a, b, t, tn, m], x)) (hp : o.kind ≠ .vpass) (hd : o.d < 32 ∧ o.d < d) (ha : o.a < 32 ∧ o.a < a)
    (hb : o.b < 32 ∧ o.b < b) (ht : o.t < 8 ∧ o.t < t) (hn : o.tn.toNat < tn) (hm : o.m < 32 ∧ o.m < m) (hx : o.x < 536870912 ∧ o.x < x)
    (hw : i.wf = true → o.wf = true) (hi : o.instr = i) : Statement i := by
  refine ⟨noS hs, fun _ e w => ?_⟩
  rw [hv] at e; cases e
  obtain ⟨l, f0, f1, f2, f3, f4, f5, f6⟩ := syllable_fields o c hc h0 hd.1 ha.1 hb.1 ht.1 hm.1
  refine ⟨hw w, l, hx.1, ?_, hi⟩
  rw [decV_row _ _ _ (by rw [f0]; exact hr), f1, f2, f3, f4, f5, f6, if_pos ⟨rfl, hd.2, ha.2, hb.2, ht.2, hn, hm.2, hx.2⟩, if_neg hp, boolBit]

theorem majorR00 (s : Nat) (h : fld s 19 6 = 0x00) : decSR s = decSR00 s := by unfold decSR; rw [h]; rfl
theorem majorR01 (s : Nat) (h : fld s 19 6 = 0x01) : decSR s = decSR01 s := by unfold decSR; rw [h]; rfl
theorem majorL01 (s imm : Nat) (h : fld s 19 6 = 0x01) : decSL s imm = decSL01 s imm := by unfold decSL; rw [h]; rfl
theorem majorR10 (s : Nat) (h : fld s 19 6 = 0x10) : decSR s = decSR10 s := by unfold decSR; rw [h]; rfl
theorem majorR02 (s : Nat) (h : fld s 19 6 = 0x02) : decSR s = decSR02 s := by unfold decSR; rw [h]; rfl
theorem majorL02 (s imm : Nat) (h : fld s 19 6 = 0x02) : decSL s imm = decSL02 s imm := by unfold decSL; rw [h]; rfl
theorem majorR03 (s : Nat) (h : fld s 19 6 = 0x03) : decSR s = decSR03 s := by unfold decSR; rw [h]; rfl
theorem majorL03 (s imm : Nat) (h : fld s 19 6 = 0x03) : decSL s imm = decSL03 s imm := by unfold decSL; rw [h]; rfl
theorem majorR04 (s : Nat) (h : fld s 19 6 = 0x04) : decSR s = decSR04 s := by unfold decSR; rw [h]; rfl
theorem majorL04 (s imm : Nat) (h : fld s 19 6 = 0x04) : decSL s imm = decSL04 s imm := by unfold decSL; rw [h]; rfl
theorem majorL05 (s imm : Nat) (h : fld s 19 6 = 0x05) : decSL s imm = decSL05 s imm := by unfold decSL; rw [h]; rfl
theorem majorL06 (s imm : Nat) (h : fld s 19 6 = 0x06) : decSL s imm = decSL06 s imm := by unfold decSL; rw [h]; rfl
theorem majorR07 (s : Nat) (h : fld s 19 6 = 0x07) : decSR s = decSR07 s := by unfold decSR; rw [h]; rfl
theorem majorR08 (s : Nat) (h : fld s 19 6 = 0x08) : decSR s = decSR08 s := by unfold decSR; rw [h]; rfl
theorem majorL08 (s imm : Nat) (h : fld s 19 6 = 0x08) : decSL s imm = decSL08 s imm := by unfold decSL; rw [h]; rfl
theorem majorR09 (s : Nat) (h : fld s 19 6 = 0x09) : decSR s = decSR09 s := by unfold decSR; rw [h]; rfl
theorem majorL09 (s imm : Nat) (h : fld s 19 6 = 0x09) : decSL s imm = decSL09 s imm := by unfold decSL; rw [h]; rfl
theorem majorR0A (s : Nat) (h : fld s 19 6 = 0x0A) : decSR s = decSR0A s := by unfold decSR; rw [h]; rfl
theorem majorL0A (s imm : Nat) (h : fld s 19 6 = 0x0A) : decSL s imm = decSL0A s imm := by unfold decSL; rw [h]; rfl
theorem majorR0B (s : Nat) (h : fld s 19 6 = 0x0B) : decSR s = decSR0B s := by unfold decSR; rw [h]; rfl
theorem majorL0B (s imm : Nat) (h : fld s 19 6 = 0x0B) : decSL s imm = decSL0B s imm := by unfold decSL; rw [h]; rfl
theorem majorR0C (s : Nat) (h : fld s 19 6 = 0x0C) : decSR s = decSR0C s := by unfold decSR; rw [h]; rfl
theorem majorL0C (s imm : Nat) (h : fld s 19 6 = 0x0C) : decSL s imm = decSL0C s imm := by unfold decSL; rw [h]; rfl
theorem majorR11 (s : Nat) (h : fld s 19 6 = 0x11) : decSR s = decSR11 s := by unfold decSR; rw [h]; rfl
theorem majorR12 (s : Nat) (h : fld s 19 6 = 0x12) : decSR s = decSR12 s := by unfold decSR; rw [h]; rfl
theorem majorR13 (s : Nat) (h : fld s 19 6 = 0x13) : decSR s = decSR13 s := by unfold decSR; rw [h]; rfl
theorem majorR14 (s : Nat) (h : fld s 19 6 = 0x14) : decSR s = decSR14 s := by unfold decSR; rw [h]; rfl
theorem majorR15 (s : Nat) (h : fld s 19 6 = 0x15) : decSR s = decSR15 s := by unfold decSR; rw [h]; rfl
theorem majorR16 (s : Nat) (h : fld s 19 6 = 0x16) : decSR s = decSR16 s := by unfold decSR; rw [h]; rfl
theorem majorR17 (s : Nat) (h : fld s 19 6 = 0x17) : decSR s = decSR17 s := by unfold decSR; rw [h]; rfl
theorem majorR18 (s : Nat) (h : fld s 19 6 = 0x18) : decSR s = decSR18 s := by unfold decSR; rw [h]; rfl
theorem majorR19 (s : Nat) (h : fld s 19 6 = 0x19) : decSR s = decSR19 s := by unfold decSR; rw [h]; rfl
theorem majorR1A (s : Nat) (h : fld s 19 6 = 0x1A) : decSR s = decSR1A s := by unfold decSR; rw [h]; rfl
theorem majorR1B (s : Nat) (h : fld s 19 6 = 0x1B) : decSR s = decSR1B s := by unfold decSR; rw [h]; rfl
theorem majorR1C (s : Nat) (h : fld s 19 6 = 0x1C) : decSR s = decSR1C s := by unfold decSR; rw [h]; rfl
theorem majorR1D (s : Nat) (h : fld s 19 6 = 0x1D) : decSR s = decSR1D s := by unfold decSR; rw [h]; rfl
theorem majorR1E (s : Nat) (h : fld s 19 6 = 0x1E) : decSR s = decSR1E s := by unfold decSR; rw [h]; rfl
theorem majorR1F (s : Nat) (h : fld s 19 6 = 0x1F) : decSR s = decSR1F s := by unfold decSR; rw [h]; rfl
theorem majorR20 (s : Nat) (h : fld s 19 6 = 0x20) : decSR s = decSR20 s := by unfold decSR; rw [h]; rfl
theorem majorR21 (s : Nat) (h : fld s 19 6 = 0x21) : decSR s = decSR21 s := by unfold decSR; rw [h]; rfl
theorem majorR22 (s : Nat) (h : fld s 19 6 = 0x22) : decSR s = decSR22 s := by unfold decSR; rw [h]; rfl
theorem majorR23 (s : Nat) (h : fld s 19 6 = 0x23) : decSR s = decSRamo s := by unfold decSR; rw [h]; rfl
theorem majorR24 (s : Nat) (h : fld s 19 6 = 0x24) : decSR s = decSRamo s := by unfold decSR; rw [h]; rfl
theorem majorR25 (s : Nat) (h : fld s 19 6 = 0x25) : decSR s = decSRamo s := by unfold decSR; rw [h]; rfl
theorem majorR26 (s : Nat) (h : fld s 19 6 = 0x26) : decSR s = decSRamo s := by unfold decSR; rw [h]; rfl
theorem majorR27 (s : Nat) (h : fld s 19 6 = 0x27) : decSR s = decSR27 s := by unfold decSR; rw [h]; rfl
theorem majorR28 (s : Nat) (h : fld s 19 6 = 0x28) : decSR s = decSR28 s := by unfold decSR; rw [h]; rfl
theorem majorR29 (s : Nat) (h : fld s 19 6 = 0x29) : decSR s = decSR29 s := by unfold decSR; rw [h]; rfl
theorem majorR2A (s : Nat) (h : fld s 19 6 = 0x2A) : decSR s = decSR2A s := by unfold decSR; rw [h]; rfl
theorem majorR2B (s : Nat) (h : fld s 19 6 = 0x2B) : decSR s = decSR2B s := by unfold decSR; rw [h]; rfl
theorem majorR2C (s : Nat) (h : fld s 19 6 = 0x2C) : decSR s = decSR2C s := by unfold decSR; rw [h]; rfl
theorem majorR2D (s : Nat) (h : fld s 19 6 = 0x2D) : decSR s = decSR2D s := by unfold decSR; rw [h]; rfl
theorem majorR2E (s : Nat) (h : fld s 19 6 = 0x2E) : decSR s = decSR2E s := by unfold decSR; rw [h]; rfl
theorem majorR2F (s : Nat) (h : fld s 19 6 = 0x2F) : decSR s = decSR2F s := by unfold decSR; rw [h]; rfl
theorem majorR30 (s : Nat) (h : fld s 19 6 = 0x30) : decSR s = decSRcvt s := by unfold decSR; rw [h]; rfl
theorem majorR31 (s : Nat) (h : fld s 19 6 = 0x31) : decSR s = decSRcvt s := by unfold decSR; rw [h]; rfl
theorem majorR32 (s : Nat) (h : fld s 19 6 = 0x32) : decSR s = decSR32 s := by unfold decSR; rw [h]; rfl
theorem majorR33 (s : Nat) (h : fld s 19 6 = 0x33) : decSR s = decSR33 s := by unfold decSR; rw [h]; rfl
theorem majorR34 (s : Nat) (h : fld s 19 6 = 0x34) : decSR s = decSR34 s := by unfold decSR; rw [h]; rfl
theorem majorR35 (s : Nat) (h : fld s 19 6 = 0x35) : decSR s = decSR35 s := by unfold decSR; rw [h]; rfl
theorem majorR36 (s : Nat) (h : fld s 19 6 = 0x36) : decSR s = decSR36 s := by unfold decSR; rw [h]; rfl
theorem majorR37 (s : Nat) (h : fld s 19 6 = 0x37) : decSR s = decSR37 s := by unfold decSR; rw [h]; rfl
theorem majorR38 (s : Nat) (h : fld s 19 6 = 0x38) : decSR s = decSR38 s := by unfold decSR; rw [h]; rfl
theorem majorR39 (s : Nat) (h : fld s 19 6 = 0x39) : decSR s = decSR39 s := by unfold decSR; rw [h]; rfl
theorem majorR3A (s : Nat) (h : fld s 19 6 = 0x3A) : decSR s = decSR3A s := by unfold decSR; rw [h]; rfl
theorem majorR3B (s : Nat) (h : fld s 19 6 = 0x3B) : decSR s = decSR3B s := by unfold decSR; rw [h]; rfl
theorem majorR3C (s : Nat) (h : fld s 19 6 = 0x3C) : decSR s = decSR3C s := by unfold decSR; rw [h]; rfl
theorem majorR3D (s : Nat) (h : fld s 19 6 = 0x3D) : decSR s = decSR3D s := by unfold decSR; rw [h]; rfl
theorem majorL3D (s imm : Nat) (h : fld s 19 6 = 0x3D) : decSL s imm = decSL3D s imm := by unfold decSL; rw [h]; rfl

theorem form0 (c m f0 : Nat) (hm : m < 64) (hc : c = m * 524288 + f0 * 1) (hf0 : f0 < 524288) :
    c < 33554432 ∧ ∀ g S, S = g * 33554432 + (c) → fld S 19 6 = m ∧ fld S 0 19 = f0 ∧ fld S 0 4 = f0 % 16 := by
  subst hc
  refine ⟨by omega, fun g S h => ?_⟩
  subst h; unfold fld; refine ⟨?_, ?_, ?_⟩ <;> omega
theorem form1 (c m f0 x0 x1 x2 : Nat) (hm : m < 64) (hc : c = m * 524288 + f0 * 1) (hx0 : x0 < 32) (hx1 : x1 < 32) (hx2 : x2 < 32) (hf0 : f0 < 16) :
    c + x0 * 16384 + x1 * 512 + x2 * 16 < 33554432 ∧ ∀ g S, S = g * 33554432 + (c + x0 * 16384 + x1 * 512 + x2 * 16) → fld S 19 6 = m ∧ fld S 14 5 = x0 ∧ fld S 9 5 = x1 ∧ fld S 4 5 = x2 ∧ fld S 0 4 = f0 := by
  subst hc
  refine ⟨by omega, fun g S h => ?_⟩
  subst h; unfold fld; refine ⟨?_, ?_, ?_, ?_, ?_⟩ <;> omega
theorem form2 (c m f0 x0 x1 : Nat) (hm : m < 64) (hc : c = m * 524288 + f0 * 1) (hx0 : x0 < 32) (hx1 : x1 < 32) (hf0 : f0 < 512) :
    c + x0 * 16384 + x1 * 512 < 33554432 ∧ ∀ g S, S = g * 33554432 + (c + x0 * 16384 + x1 * 512) → fld S 19 6 = m ∧ fld S 14 5 = x0 ∧ fld S 9 5 = x1 ∧ fld S 0 9 = f0 ∧ fld S 0 4 = f0 % 16 := by
  subst hc
  refine ⟨by omega, fun g S h => ?_⟩
  subst h; unfold fld; refine ⟨?_, ?_, ?_, ?_, ?_⟩ <;> omega
theorem form3 (c m x0 x1 x2 : Nat) (hm : m < 64) (hc : c = m * 524288) (hx0 : x0 < 32) (hx1 : x1 < 32) (hx2 : x2 < 512) :
    c + x0 * 16384 + x1 * 512 + x2 < 33554432 ∧ ∀ g S, S = g * 33554432 + (c + x0 * 16384 + x1 * 512 + x2) → fld S 19 6 = m ∧ fld S 14 5 = x0 ∧ fld S 9 5 = x1 ∧ fld S 0 9 = x2 := by
  subst hc
  refine ⟨by omega, fun g S h => ?_⟩
  subst h; unfold fld; refine ⟨?_, ?_, ?_, ?_⟩ <;> omega
theorem form4 (c m f0 x0 x1 x2 x3 : Nat) (hm : m < 64) (hc : c = m * 524288 + f0 * 8) (hx0 : x0 < 32) (hx1 : x1 < 8) (hx2 : x2 < 32) (hx3 : x3 < 32) (hf0 : f0 < 2) :
    c + x0 * 16384 + x1 + x2 * 512 + x3 * 16 < 33554432 ∧ ∀ g S, S = g * 33554432 + (c + x0 * 16384 + x1 + x2 * 512 + x3 * 16) → fld S 19 6 = m ∧ fld S 14 5 = x0 ∧ fld S 0 3 = x1 ∧ fld S 9 5 = x2 ∧ fld S 4 5 = x3 ∧ fld S 3 1 = f0 := by
  subst hc
  refine ⟨by omega, fun g S h => ?_⟩
  subst h; unfold fld; refine ⟨?_, ?_, ?_, ?_, ?_, ?_⟩ <;> omega
theorem form5 (c m f0 x0 x1 x2 : Nat) (hm : m < 64) (hc : c = m * 524288 + f0 * 8) (hx0 : x0 < 32) (hx1 : x1 < 8) (hx2 : x2 < 32) (hf0 : f0 < 64) :
    c + x0 * 16384 + x1 + x2 * 512 < 33554432 ∧ ∀ g S, S = g * 33554432 + (c + x0 * 16384 + x1 + x2 * 512) → fld S 19 6 = m ∧ fld S 14 5 = x0 ∧ fld S 0 3 = x1 ∧ fld S 9 5 = x2 ∧ fld S 3 6 = f0 := by
  subst hc
  refine ⟨by omega, fun g S h => ?_⟩
  subst h; unfold fld; refine ⟨?_, ?_, ?_, ?_, ?_⟩ <;> omega
theorem form6 (c m f0 x0 x1 x2 x3 : Nat) (hm : m < 64) (hc : c = m * 524288 + f0 * 4) (hx0 : x0 < 32) (hx1 : x1 < 32) (hx2 : x2 < 32) (hx3 : x3 < 4) (hf0 : f0 < 4) :
    c + x0 * 16384 + x1 * 512 + x2 * 16 + x3 < 33554432 ∧ ∀ g S, S = g * 33554432 + (c + x0 * 16384 + x1 * 512 + x2 * 16 + x3) → fld S 19 6 = m ∧ fld S 14 5 = x0 ∧ fld S 9 5 = x1 ∧ fld S 4 5 = x2 ∧ fld S 0 2 = x3 ∧ fld S 2 2 = f0 := by
  subst hc
  refine ⟨by omega, fun g S h => ?_⟩
  subst h; unfold fld; refine ⟨?_, ?_, ?_, ?_, ?_, ?_⟩ <;> omega
theorem form7 (c m f0 x0 x1 x2 : Nat) (hm : m < 64) (hc : c = m * 524288 + f0 * 4) (hx0 : x0 < 32) (hx1 : x1 < 32) (hx2 : x2 < 4) (hf0 : f0 < 128) :
    c + x0 * 16384 + x1 * 512 + x2 < 33554432 ∧ ∀ g S, S = g * 33554432 + (c + x0 * 16384 + x1 * 512 + x2) → fld S 19 6 = m ∧ fld S 14 5 = x0 ∧ fld S 9 5 = x1 ∧ fld S 0 2 = x2 ∧ fld S 2 7 = f0 := by
  subst hc
  refine ⟨by omega, fun g S h => ?_⟩
  subst h; unfold fld; refine ⟨?_, ?_, ?_, ?_, ?_⟩ <;> omega
theorem form8 (c m f0 x0 : Nat) (hm : m < 64) (hc : c = m * 524288 + f0 * 1) (hx0 : x0 < 32) (hf0 : f0 < 16384) :
    c + x0 * 16384 < 33554432 ∧ ∀ g S, S = g * 33554432 + (c + x0 * 16384) → fld S 19 6 = m ∧ fld S 14 5 = x0 ∧ fld S 0 14 = f0 ∧ fld S 0 4 = f0 % 16 := by
  subst hc
  refine ⟨by omega, fun g S h => ?_⟩
  subst h; unfold fld; refine ⟨?_, ?_, ?_, ?_⟩ <;> omega
theorem form9 (c m f0 f1 f2 f3 x0 x1 x2 : Nat) (hm : m < 64) (hc : c = m * 524288 + f0 * 1 + f1 * 128 + f2 * 4096 + f3 * 131072) (hx0 : x0 < 8) (hx1 : x1 < 8) (hx2 : x2 < 8) (hf0 : f0 < 16) (hf1 : f1 < 4) (hf2 : f2 < 4) (hf3 : f3 < 4) :
    c + x0 * 16384 + x1 * 512 + x2 * 16 < 33554432 ∧ ∀ g S, S = g * 33554432 + (c + x0 * 16384 + x1 * 512 + x2 * 16) → fld S 19 6 = m ∧ fld S 14 3 = x0 ∧ fld S 9 3 = x1 ∧ fld S 4 3 = x2 ∧ fld S 0 4 = f0 ∧ fld S 7 2 = f1 ∧ fld S 12 2 = f2 ∧ fld S 17 2 = f3 := by
  subst hc
  refine ⟨by omega, fun g S h => ?_⟩
  subst h; unfold fld; refine ⟨?_, ?_, ?_, ?_, ?_, ?_, ?_, ?_⟩ <;> omega
theorem form10 (c m f0 f1 x0 : Nat) (hm : m < 64) (hc : c = m * 524288 + f0 * 1 + f1 * 16384) (hx0 : x0 < 32) (hf0 : f0 < 512) (hf1 : f1 < 32) :
    c + x0 * 512 < 33554432 ∧ ∀ g S, S = g * 33554432 + (c + x0 * 512) → fld S 19 6 = m ∧ fld S 9 5 = x0 ∧ fld S 0 9 = f0 ∧ fld S 14 5 = f1 ∧ fld S 0 4 = f0 % 16 := by
  subst hc
  refine ⟨by omega, fun g S h => ?_⟩
  subst h; unfold fld; refine ⟨?_, ?_, ?_, ?_, ?_⟩ <;> omega
theorem form11 (c m f0 f1 x0 x1 x2 x3 : Nat) (hm : m < 64) (hc : c = m * 524288 + f0 * 8 + f1 * 16384) (hx0 : x0 < 8) (hx1 : x1 < 8) (hx2 : x2 < 32) (hx3 : x3 < 32) (hf0 : f0 < 2) (hf1 : f1 < 4) :
    c + x0 * 65536 + x1 + x2 * 512 + x3 * 16 < 33554432 ∧ ∀ g S, S = g * 33554432 + (c + x0 * 65536 + x1 + x2 * 512 + x3 * 16) → fld S 19 6 = m ∧ fld S 16 3 = x0 ∧ fld S 0 3 = x1 ∧ fld S 9 5 = x2 ∧ fld S 4 5 = x3 ∧ fld S 3 1 = f0 ∧ fld S 14 2 = f1 := by
  subst hc
  refine ⟨by omega, fun g S h => ?_⟩
  subst h; unfold fld; refine ⟨?_, ?_, ?_, ?_, ?_, ?_, ?_⟩ <;> omega
theorem form12 (c m f0 f1 x0 x1 x2 : Nat) (hm : m < 64) (hc : c = m * 524288 + f0 * 8 + f1 * 16384) (hx0 : x0 < 8) (hx1 : x1 < 8) (hx2 : x2 < 32) (hf0 : f0 < 64) (hf1 : f1 < 4) :
    c + x0 * 65536 + x1 + x2 * 512 < 33554432 ∧ ∀ g S, S = g * 33554432 + (c + x0 * 65536 + x1 + x2 * 512) → fld S 19 6 = m ∧ fld S 16 3 = x0 ∧ fld S 0 3 = x1 ∧ fld S 9 5 = x2 ∧ fld S 3 6 = f0 ∧ fld S 14 2 = f1 := by
  subst hc
  refine ⟨by omega, fun g S h => ?_⟩
  subst h; unfold fld; refine ⟨?_, ?_, ?_, ?_, ?_, ?_⟩ <;> omega
theorem form13 (c m x0 x1 x2 x3 x4 x5 : Nat) (hm : m < 64) (hc : c = m * 524288) (hx0 : x0 < 4) (hx1 : x1 < 2) (hx2 : x2 < 2) (hx3 : x3 < 32) (hx4 : x4 < 32) (hx5 : x5 < 32) :
    c + x0 + x1 * 4 + x2 * 8 + x3 * 16384 + x4 * 512 + x5 * 16 < 33554432 ∧ ∀ g S, S = g * 33554432 + (c + x0 + x1 * 4 + x2 * 8 + x3 * 16384 + x4 * 512 + x5 * 16) → fld S 19 6 = m ∧ fld S 0 2 = x0 ∧ fld S 2 1 = x1 ∧ fld S 3 1 = x2 ∧ fld S 14 5 = x3 ∧ fld S 9 5 = x4 ∧ fld S 4 5 = x5 := by
  subst hc
  refine ⟨by omega, fun g S h => ?_⟩
  subst h; unfold fld; refine ⟨?_, ?_, ?_, ?_, ?_, ?_, ?_⟩ <;> omega
theorem form14 (c m f0 x0 x1 x2 x3 x4 : Nat) (hm : m < 64) (hc : c = m * 524288 + f0 * 4) (hx0 : x0 < 4) (hx1 : x1 < 2) (hx2 : x2 < 32) (hx3 : x3 < 32) (hx4 : x4 < 32) (hf0 : f0 < 2) :
    c + x0 + x1 * 8 + x2 * 16384 + x3 * 512 + x4 * 16 < 33554432 ∧ ∀ g S, S = g * 33554432 + (c + x0 + x1 * 8 + x2 * 16384 + x3 * 512 + x4 * 16) → fld S 19 6 = m ∧ fld S 0 2 = x0 ∧ fld S 3 1 = x1 ∧ fld S 14 5 = x2 ∧ fld S 9 5 = x3 ∧ fld S 4 5 = x4 ∧ fld S 2 1 = f0 := by
  subst hc
  refine ⟨by omega, fun g S h => ?_⟩
  subst h; unfold fld; refine ⟨?_, ?_, ?_, ?_, ?_, ?_, ?_⟩ <;> omega
theorem form15 (c m f0 x0 x1 : Nat) (hm : m < 64) (hc : c = m * 524288 + f0 * 16384) (hx0 : x0 < 32) (hx1 : x1 < 512) (hf0 : f0 < 32) :
    c + x0 * 512 + x1 < 33554432 ∧ ∀ g S, S = g * 33554432 + (c + x0 * 512 + x1) → fld S 19 6 = m ∧ fld S 9 5 = x0 ∧ fld S 0 9 = x1 ∧ fld S 14 5 = f0 := by
  subst hc
  refine ⟨by omega, fun g S h => ?_⟩
  subst h; unfold fld; refine ⟨?_, ?_, ?_, ?_⟩ <;> omega
theorem form16 (c m f0 x0 x1 x2 x3 x4 : Nat) (hm : m < 64) (hc : c = m * 524288 + f0 * 1) (hx0 : x0 < 2) (hx1 : x1 < 2) (hx2 : x2 < 32) (hx3 : x3 < 32) (hx4 : x4 < 32) (hf0 : f0 < 4) :
    c + x0 * 4 + x1 * 8 + x2 * 16384 + x3 * 512 + x4 * 16 < 33554432 ∧ ∀ g S, S = g * 33554432 + (c + x0 * 4 + x1 * 8 + x2 * 16384 + x3 * 512 + x4 * 16) → fld S 19 6 = m ∧ fld S 2 1 = x0 ∧ fld S 3 1 = x1 ∧ fld S 14 5 = x2 ∧ fld S 9 5 = x3 ∧ fld S 4 5 = x4 ∧ fld S 0 2 = f0 := by
  subst hc
  refine ⟨by omega, fun g S h => ?_⟩
  subst h; unfold fld; refine ⟨?_, ?_, ?_, ?_, ?_, ?_, ?_⟩ <;> omega
theorem form17 (c m f0 x0 x1 x2 x3 : Nat) (hm : m < 64) (hc : c = m * 524288 + f0 * 1) (hx0 : x0 < 4) (hx1 : x1 < 32) (hx2 : x2 < 32) (hx3 : x3 < 32) (hf0 : f0 < 4) :
    c + x0 * 4 + x1 * 16384 + x2 * 512 + x3 * 16 < 33554432 ∧ ∀ g S, S = g * 33554432 + (c + x0 * 4 + x1 * 16384 + x2 * 512 + x3 * 16) → fld S 19 6 = m ∧ fld S 2 2 = x0 ∧ fld S 14 5 = x1 ∧ fld S 9 5 = x2 ∧ fld S 4 5 = x3 ∧ fld S 0 2 = f0 := by
  subst hc
  refine ⟨by omega, fun g S h => ?_⟩
  subst h; unfold fld; refine ⟨?_, ?_, ?_, ?_, ?_, ?_⟩ <;> omega
theorem form18 (c m f0 f1 x0 x1 x2 : Nat) (hm : m < 64) (hc : c = m * 524288 + f0 * 1 + f1 * 16) (hx0 : x0 < 4) (hx1 : x1 < 32) (hx2 : x2 < 32) (hf0 : f0 < 4) (hf1 : f1 < 32) :
    c + x0 * 4 + x1 * 16384 + x2 * 512 < 33554432 ∧ ∀ g S, S = g * 33554432 + (c + x0 * 4 + x1 * 16384 + x2 * 512) → fld S 19 6 = m ∧ fld S 2 2 = x0 ∧ fld S 14 5 = x1 ∧ fld S 9 5 = x2 ∧ fld S 0 2 = f0 ∧ fld S 4 5 = f1 := by
  subst hc
  refine ⟨by omega, fun g S h => ?_⟩
  subst h; unfold fld; refine ⟨?_, ?_, ?_, ?_, ?_, ?_⟩ <;> omega
theorem form19 (c m f0 x0 x1 x2 x3 x4 : Nat) (hm : m < 64) (hc : c = m * 524288 + f0 * 8) (hx0 : x0 < 4) (hx1 : x1 < 8) (hx2 : x2 < 8) (hx3 : x3 < 32) (hx4 : x4 < 32) (hf0 : f0 < 2) :
    c + x0 * 16384 + x1 * 65536 + x2 + x3 * 512 + x4 * 16 < 33554432 ∧ ∀ g S, S = g * 33554432 + (c + x0 * 16384 + x1 * 65536 + x2 + x3 * 512 + x4 * 16) → fld S 19 6 = m ∧ fld S 14 2 = x0 ∧ fld S 16 3 = x1 ∧ fld S 0 3 = x2 ∧ fld S 9 5 = x3 ∧ fld S 4 5 = x4 ∧ fld S 3 1 = f0 := by
  subst hc
  refine ⟨by omega, fun g S h => ?_⟩
  subst h; unfold fld; refine ⟨?_, ?_, ?_, ?_, ?_, ?_, ?_⟩ <;> omega
theorem form20 (c m x0 : Nat) (hm : m < 64) (hc : c = m * 524288) (hx0 : x0 < 524288) :
    c + x0 < 33554432 ∧ ∀ g S, S = g * 33554432 + (c + x0) → fld S 19 6 = m ∧ fld S 0 19 = x0 := by
  subst hc
  refine ⟨by omega, fun g S h => ?_⟩
  subst h; unfold fld; refine ⟨?_, ?_⟩ <;> omega
theorem form21 (c m x0 x1 : Nat) (hm : m < 64) (hc : c = m * 524288) (hx0 : x0 < 32) (hx1 : x1 < 16384) :
    c + x0 * 16384 + x1 < 33554432 ∧ ∀ g S, S = g * 33554432 + (c + x0 * 16384 + x1) → fld S 19 6 = m ∧ fld S 14 5 = x0 ∧ fld S 0 14 = x1 := by
  subst hc
  refine ⟨by omega, fun g S h => ?_⟩
  subst h; unfold fld; refine ⟨?_, ?_, ?_⟩ <;> omega
theorem form22 (c m f0 f1 x0 x1 : Nat) (hm : m < 64) (hc : c = m * 524288 + f0 * 1 + f1 * 16384) (hx0 : x0 < 32) (hx1 : x1 < 32) (hf0 : f0 < 16) (hf1 : f1 < 32) :
    c + x0 * 512 + x1 * 16 < 33554432 ∧ ∀ g S, S = g * 33554432 + (c + x0 * 512 + x1 * 16) → fld S 19 6 = m ∧ fld S 9 5 = x0 ∧ fld S 4 5 = x1 ∧ fld S 0 4 = f0 ∧ fld S 14 5 = f1 := by
  subst hc
  refine ⟨by omega, fun g S h => ?_⟩
  subst h; unfold fld; refine ⟨?_, ?_, ?_, ?_, ?_⟩ <;> omega
theorem form23 (c m f0 f1 x0 x1 : Nat) (hm : m < 64) (hc : c = m * 524288 + f0 * 1 + f1 * 512) (hx0 : x0 < 32) (hx1 : x1 < 32) (hf0 : f0 < 16) (hf1 : f1 < 32) :
    c + x0 * 16384 + x1 * 16 < 33554432 ∧ ∀ g S, S = g * 33554432 + (c + x0 * 16384 + x1 * 16) → fld S 19 6 = m ∧ fld S 14 5 = x0 ∧ fld S 4 5 = x1 ∧ fld S 0 4 = f0 ∧ fld S 9 5 = f1 := by
  subst hc
  refine ⟨by omega, fun g S h => ?_⟩
  subst h; unfold fld; refine ⟨?_, ?_, ?_, ?_, ?_⟩ <;> omega

theorem nop : Statement .nop := by
  obtain ⟨l, F⟩ := form0 _ 0 0 (by decide) rfl (by decide)
  refine ofR rfl rfl fun w => ⟨l, fun g S h => ?_⟩
  have H := F g S h
  rw [majorR00 S H.1]
  simp [decSR00, H, boolBit, codeBack, codeLt]
theorem add (rd : Reg) (ra : Reg) (rb : Reg) : Statement (.add rd ra rb) := by
  obtain ⟨l, F⟩ := form1 _ 1 0 _ _ _ (by decide) rfl (rd.isLt) (ra.isLt) (rb.isLt) (by decide)
  refine ofR rfl rfl fun w => ⟨l, fun g S h => ?_⟩
  have H := F g S h
  rw [majorR01 S H.1]
  simp [decSR01, H, boolBit, codeBack, codeLt]
theorem addSl (rd : Reg) (ra : Reg) (imm : BitVec 32) : Statement (.addSl rd ra imm) := by
  obtain ⟨l, F⟩ := form2 _ 1 0 _ _ (by decide) rfl (rd.isLt) (ra.isLt) (by decide)
  refine ofL rfl rfl fun w => ⟨l, imm.isLt, fun g S h => ?_⟩
  have H := F g S h
  rw [majorL01 S _ H.1]
  simp [decSL01, H, boolBit, codeBack, codeLt]
theorem sub (rd : Reg) (ra : Reg) (rb : Reg) : Statement (.sub rd ra rb) := by
  obtain ⟨l, F⟩ := form1 _ 1 1 _ _ _ (by decide) rfl (rd.isLt) (ra.isLt) (rb.isLt) (by decide)
  refine ofR rfl rfl fun w => ⟨l, fun g S h => ?_⟩
  have H := F g S h
  rw [majorR01 S H.1]
  simp [decSR01, H, boolBit, codeBack, codeLt]
theorem subSl (rd : Reg) (ra : Reg) (imm : BitVec 32) : Statement (.subSl rd ra imm) := by
  obtain ⟨l, F⟩ := form2 _ 1 1 _ _ (by decide) rfl (rd.isLt) (ra.isLt) (by decide)
  refine ofL rfl rfl fun w => ⟨l, imm.isLt, fun g S h => ?_⟩
  have H := F g S h
  rw [majorL01 S _ H.1]
  simp [decSL01, H, boolBit, codeBack, codeLt]
theorem and (rd : Reg) (ra : Reg) (rb : Reg) : Statement (.and rd ra rb) := by
  obtain ⟨l, F⟩ := form1 _ 1 2 _ _ _ (by decide) rfl (rd.isLt) (ra.isLt) (rb.isLt) (by decide)
  refine ofR rfl rfl fun w => ⟨l, fun g S h => ?_⟩
  have H := F g S h
  rw [majorR01 S H.1]
  simp [decSR01, H, boolBit, codeBack, codeLt]
theorem andSl (rd : Reg) (ra : Reg) (imm : BitVec 32) : Statement (.andSl rd ra imm) := by
  obtain ⟨l, F⟩ := form2 _ 1 2 _ _ (by decide) rfl (rd.isLt) (ra.isLt) (by decide)
  refine ofL rfl rfl fun w => ⟨l, imm.isLt, fun g S h => ?_⟩
  have H := F g S h
  rw [majorL01 S _ H.1]
  simp [decSL01, H, boolBit, codeBack, codeLt]
theorem or (rd : Reg) (ra : Reg) (rb : Reg) : Statement (.or rd ra rb) := by
  obtain ⟨l, F⟩ := form1 _ 1 3 _ _ _ (by decide) rfl (rd.isLt) (ra.isLt) (rb.isLt) (by decide)
  refine ofR rfl rfl fun w => ⟨l, fun g S h => ?_⟩
  have H := F g S h
  rw [majorR01 S H.1]
  simp [decSR01, H, boolBit, codeBack, codeLt]
theorem orSl (rd : Reg) (ra : Reg) (imm : BitVec 32) : Statement (.orSl rd ra imm) := by
  obtain ⟨l, F⟩ := form2 _ 1 3 _ _ (by decide) rfl (rd.isLt) (ra.isLt) (by decide)
  refine ofL rfl rfl fun w => ⟨l, imm.isLt, fun g S h => ?_⟩
  have H := F g S h
  rw [majorL01 S _ H.1]
  simp [decSL01, H, boolBit, codeBack, codeLt]
theorem xor (rd : Reg) (ra : Reg) (rb : Reg) : Statement (.xor rd ra rb) := by
  obtain ⟨l, F⟩ := form1 _ 1 4 _ _ _ (by decide) rfl (rd.isLt) (ra.isLt) (rb.isLt) (by decide)
  refine ofR rfl rfl fun w => ⟨l, fun g S h => ?_⟩
  have H := F g S h
  rw [majorR01 S H.1]
  simp [decSR01, H, boolBit, codeBack, codeLt]
theorem xorSl (rd : Reg) (ra : Reg) (imm : BitVec 32) : Statement (.xorSl rd ra imm) := by
  obtain ⟨l, F⟩ := form2 _ 1 4 _ _ (by decide) rfl (rd.isLt) (ra.isLt) (by decide)
  refine ofL rfl rfl fun w => ⟨l, imm.isLt, fun g S h => ?_⟩
  have H := F g S h
  rw [majorL01 S _ H.1]
  simp [decSL01, H, boolBit, codeBack, codeLt]
theorem andn (rd : Reg) (ra : Reg) (rb : Reg) : Statement (.andn rd ra rb) := by
  obtain ⟨l, F⟩ := form1 _ 1 5 _ _ _ (by decide) rfl (rd.isLt) (ra.isLt) (rb.isLt) (by decide)
  refine ofR rfl rfl fun w => ⟨l, fun g S h => ?_⟩
  have H := F g S h
  rw [majorR01 S H.1]
  simp [decSR01, H, boolBit, codeBack, codeLt]
theorem andnSl (rd : Reg) (ra : Reg) (imm : BitVec 32) : Statement (.andnSl rd ra imm) := by
  obtain ⟨l, F⟩ := form2 _ 1 5 _ _ (by decide) rfl (rd.isLt) (ra.isLt) (by decide)
  refine ofL rfl rfl fun w => ⟨l, imm.isLt, fun g S h => ?_⟩
  have H := F g S h
  rw [majorL01 S _ H.1]
  simp [decSL01, H, boolBit, codeBack, codeLt]
theorem orn (rd : Reg) (ra : Reg) (rb : Reg) : Statement (.orn rd ra rb) := by
  obtain ⟨l, F⟩ := form1 _ 1 6 _ _ _ (by decide) rfl (rd.isLt) (ra.isLt) (rb.isLt) (by decide)
  refine ofR rfl rfl fun w => ⟨l, fun g S h => ?_⟩
  have H := F g S h
  rw [majorR01 S H.1]
  simp [decSR01, H, boolBit, codeBack, codeLt]
theorem ornSl (rd : Reg) (ra : Reg) (imm : BitVec 32) : Statement (.ornSl rd ra imm) := by
  obtain ⟨l, F⟩ := form2 _ 1 6 _ _ (by decide) rfl (rd.isLt) (ra.isLt) (by decide)
  refine ofL rfl rfl fun w => ⟨l, imm.isLt, fun g S h => ?_⟩
  have H := F g S h
  rw [majorL01 S _ H.1]
  simp [decSL01, H, boolBit, codeBack, codeLt]
theorem xnor (rd : Reg) (ra : Reg) (rb : Reg) : Statement (.xnor rd ra rb) := by
  obtain ⟨l, F⟩ := form1 _ 1 7 _ _ _ (by decide) rfl (rd.isLt) (ra.isLt) (rb.isLt) (by decide)
  refine ofR rfl rfl fun w => ⟨l, fun g S h => ?_⟩
  have H := F g S h
  rw [majorR01 S H.1]
  simp [decSR01, H, boolBit, codeBack, codeLt]
theorem xnorSl (rd : Reg) (ra : Reg) (imm : BitVec 32) : Statement (.xnorSl rd ra imm) := by
  obtain ⟨l, F⟩ := form2 _ 1 7 _ _ (by decide) rfl (rd.isLt) (ra.isLt) (by decide)
  refine ofL rfl rfl fun w => ⟨l, imm.isLt, fun g S h => ?_⟩
  have H := F g S h
  rw [majorL01 S _ H.1]
  simp [decSL01, H, boolBit, codeBack, codeLt]
theorem sll (rd : Reg) (ra : Reg) (rb : Reg) : Statement (.sll rd ra rb) := by
  obtain ⟨l, F⟩ := form1 _ 1 8 _ _ _ (by decide) rfl (rd.isLt) (ra.isLt) (rb.isLt) (by decide)
  refine ofR rfl rfl fun w => ⟨l, fun g S h => ?_⟩
  have H := F g S h
  rw [majorR01 S H.1]
  simp [decSR01, H, boolBit, codeBack, codeLt]
theorem sllSl (rd : Reg) (ra : Reg) (imm : BitVec 32) : Statement (.sllSl rd ra imm) := by
  obtain ⟨l, F⟩ := form2 _ 1 8 _ _ (by decide) rfl (rd.isLt) (ra.isLt) (by decide)
  refine ofL rfl rfl fun w => ⟨l, imm.isLt, fun g S h => ?_⟩
  have H := F g S h
  rw [majorL01 S _ H.1]
  simp [decSL01, H, boolBit, codeBack, codeLt]
theorem srl (rd : Reg) (ra : Reg) (rb : Reg) : Statement (.srl rd ra rb) := by
  obtain ⟨l, F⟩ := form1 _ 1 9 _ _ _ (by decide) rfl (rd.isLt) (ra.isLt) (rb.isLt) (by decide)
  refine ofR rfl rfl fun w => ⟨l, fun g S h => ?_⟩
  have H := F g S h
  rw [majorR01 S H.1]
  simp [decSR01, H, boolBit, codeBack, codeLt]
theorem srlSl (rd : Reg) (ra : Reg) (imm : BitVec 32) : Statement (.srlSl rd ra imm) := by
  obtain ⟨l, F⟩ := form2 _ 1 9 _ _ (by decide) rfl (rd.isLt) (ra.isLt) (by decide)
  refine ofL rfl rfl fun w => ⟨l, imm.isLt, fun g S h => ?_⟩
  have H := F g S h
  rw [majorL01 S _ H.1]
  simp [decSL01, H, boolBit, codeBack, codeLt]
theorem sra (rd : Reg) (ra : Reg) (rb : Reg) : Statement (.sra rd ra rb) := by
  obtain ⟨l, F⟩ := form1 _ 1 10 _ _ _ (by decide) rfl (rd.isLt) (ra.isLt) (rb.isLt) (by decide)
  refine ofR rfl rfl fun w => ⟨l, fun g S h => ?_⟩
  have H := F g S h
  rw [majorR01 S H.1]
  simp [decSR01, H, boolBit, codeBack, codeLt]
theorem sraSl (rd : Reg) (ra : Reg) (imm : BitVec 32) : Statement (.sraSl rd ra imm) := by
  obtain ⟨l, F⟩ := form2 _ 1 10 _ _ (by decide) rfl (rd.isLt) (ra.isLt) (by decide)
  refine ofL rfl rfl fun w => ⟨l, imm.isLt, fun g S h => ?_⟩
  have H := F g S h
  rw [majorL01 S _ H.1]
  simp [decSL01, H, boolBit, codeBack, codeLt]
theorem ror (rd : Reg) (ra : Reg) (rb : Reg) : Statement (.ror rd ra rb) := by
  obtain ⟨l, F⟩ := form1 _ 1 11 _ _ _ (by decide) rfl (rd.isLt) (ra.isLt) (rb.isLt) (by decide)
  refine ofR rfl rfl fun w => ⟨l, fun g S h => ?_⟩
  have H := F g S h
  rw [majorR01 S H.1]
  simp [decSR01, H, boolBit, codeBack, codeLt]
theorem rorSl (rd : Reg) (ra : Reg) (imm : BitVec 32) : Statement (.rorSl rd ra imm) := by
  obtain ⟨l, F⟩ := form2 _ 1 11 _ _ (by decide) rfl (rd.isLt) (ra.isLt) (by decide)
  refine ofL rfl rfl fun w => ⟨l, imm.isLt, fun g S h => ?_⟩
  have H := F g S h
  rw [majorL01 S _ H.1]
  simp [decSL01, H, boolBit, codeBack, codeLt]
theorem min (rd : Reg) (ra : Reg) (rb : Reg) : Statement (.min rd ra rb) := by
  obtain ⟨l, F⟩ := form1 _ 1 12 _ _ _ (by decide) rfl (rd.isLt) (ra.isLt) (rb.isLt) (by decide)
  refine ofR rfl rfl fun w => ⟨l, fun g S h => ?_⟩
  have H := F g S h
  rw [majorR01 S H.1]
  simp [decSR01, H, boolBit, codeBack, codeLt]
theorem minSl (rd : Reg) (ra : Reg) (imm : BitVec 32) : Statement (.minSl rd ra imm) := by
  obtain ⟨l, F⟩ := form2 _ 1 12 _ _ (by decide) rfl (rd.isLt) (ra.isLt) (by decide)
  refine ofL rfl rfl fun w => ⟨l, imm.isLt, fun g S h => ?_⟩
  have H := F g S h
  rw [majorL01 S _ H.1]
  simp [decSL01, H, boolBit, codeBack, codeLt]
theorem max (rd : Reg) (ra : Reg) (rb : Reg) : Statement (.max rd ra rb) := by
  obtain ⟨l, F⟩ := form1 _ 1 13 _ _ _ (by decide) rfl (rd.isLt) (ra.isLt) (rb.isLt) (by decide)
  refine ofR rfl rfl fun w => ⟨l, fun g S h => ?_⟩
  have H := F g S h
  rw [majorR01 S H.1]
  simp [decSR01, H, boolBit, codeBack, codeLt]
theorem maxSl (rd : Reg) (ra : Reg) (imm : BitVec 32) : Statement (.maxSl rd ra imm) := by
  obtain ⟨l, F⟩ := form2 _ 1 13 _ _ (by decide) rfl (rd.isLt) (ra.isLt) (by decide)
  refine ofL rfl rfl fun w => ⟨l, imm.isLt, fun g S h => ?_⟩
  have H := F g S h
  rw [majorL01 S _ H.1]
  simp [decSL01, H, boolBit, codeBack, codeLt]
theorem minz (rd : Reg) (ra : Reg) (rb : Reg) : Statement (.minz rd ra rb) := by
  obtain ⟨l, F⟩ := form1 _ 1 14 _ _ _ (by decide) rfl (rd.isLt) (ra.isLt) (rb.isLt) (by decide)
  refine ofR rfl rfl fun w => ⟨l, fun g S h => ?_⟩
  have H := F g S h
  rw [majorR01 S H.1]
  simp [decSR01, H, boolBit, codeBack, codeLt]
theorem minzSl (rd : Reg) (ra : Reg) (imm : BitVec 32) : Statement (.minzSl rd ra imm) := by
  obtain ⟨l, F⟩ := form2 _ 1 14 _ _ (by decide) rfl (rd.isLt) (ra.isLt) (by decide)
  refine ofL rfl rfl fun w => ⟨l, imm.isLt, fun g S h => ?_⟩
  have H := F g S h
  rw [majorL01 S _ H.1]
  simp [decSL01, H, boolBit, codeBack, codeLt]
theorem maxz (rd : Reg) (ra : Reg) (rb : Reg) : Statement (.maxz rd ra rb) := by
  obtain ⟨l, F⟩ := form1 _ 1 15 _ _ _ (by decide) rfl (rd.isLt) (ra.isLt) (rb.isLt) (by decide)
  refine ofR rfl rfl fun w => ⟨l, fun g S h => ?_⟩
  have H := F g S h
  rw [majorR01 S H.1]
  simp [decSR01, H, boolBit, codeBack, codeLt]
theorem maxzSl (rd : Reg) (ra : Reg) (imm : BitVec 32) : Statement (.maxzSl rd ra imm) := by
  obtain ⟨l, F⟩ := form2 _ 1 15 _ _ (by decide) rfl (rd.isLt) (ra.isLt) (by decide)
  refine ofL rfl rfl fun w => ⟨l, imm.isLt, fun g S h => ?_⟩
  have H := F g S h
  rw [majorL01 S _ H.1]
  simp [decSL01, H, boolBit, codeBack, codeLt]
theorem addi (rd : Reg) (ra : Reg) (imm : BitVec 9) : Statement (.addi rd ra imm) := by
  obtain ⟨l, F⟩ := form3 _ 16 _ _ _ (by decide) rfl (rd.isLt) (ra.isLt) (imm.isLt)
  refine ofR rfl rfl fun w => ⟨l, fun g S h => ?_⟩
  have H := F g S h
  rw [majorR10 S H.1]
  simp [decSR10, H, boolBit, codeBack, codeLt]
theorem mul (rd : Reg) (ra : Reg) (rb : Reg) : Statement (.mul rd ra rb) := by
  obtain ⟨l, F⟩ := form1 _ 2 0 _ _ _ (by decide) rfl (rd.isLt) (ra.isLt) (rb.isLt) (by decide)
  refine ofR rfl rfl fun w => ⟨l, fun g S h => ?_⟩
  have H := F g S h
  rw [majorR02 S H.1]
  simp [decSR02, H, boolBit, codeBack, codeLt]
theorem mulSl (rd : Reg) (ra : Reg) (imm : BitVec 32) : Statement (.mulSl rd ra imm) := by
  obtain ⟨l, F⟩ := form2 _ 2 0 _ _ (by decide) rfl (rd.isLt) (ra.isLt) (by decide)
  refine ofL rfl rfl fun w => ⟨l, imm.isLt, fun g S h => ?_⟩
  have H := F g S h
  rw [majorL02 S _ H.1]
  simp [decSL02, H, boolBit, codeBack, codeLt]
theorem mulh (rd : Reg) (ra : Reg) (rb : Reg) : Statement (.mulh rd ra rb) := by
  obtain ⟨l, F⟩ := form1 _ 2 1 _ _ _ (by decide) rfl (rd.isLt) (ra.isLt) (rb.isLt) (by decide)
  refine ofR rfl rfl fun w => ⟨l, fun g S h => ?_⟩
  have H := F g S h
  rw [majorR02 S H.1]
  simp [decSR02, H, boolBit, codeBack, codeLt]
theorem mulhSl (rd : Reg) (ra : Reg) (imm : BitVec 32) : Statement (.mulhSl rd ra imm) := by
  obtain ⟨l, F⟩ := form2 _ 2 1 _ _ (by decide) rfl (rd.isLt) (ra.isLt) (by decide)
  refine ofL rfl rfl fun w => ⟨l, imm.isLt, fun g S h => ?_⟩
  have H := F g S h
  rw [majorL02 S _ H.1]
  simp [decSL02, H, boolBit, codeBack, codeLt]
theorem mulhz (rd : Reg) (ra : Reg) (rb : Reg) : Statement (.mulhz rd ra rb) := by
  obtain ⟨l, F⟩ := form1 _ 2 2 _ _ _ (by decide) rfl (rd.isLt) (ra.isLt) (rb.isLt) (by decide)
  refine ofR rfl rfl fun w => ⟨l, fun g S h => ?_⟩
  have H := F g S h
  rw [majorR02 S H.1]
  simp [decSR02, H, boolBit, codeBack, codeLt]
theorem mulhzSl (rd : Reg) (ra : Reg) (imm : BitVec 32) : Statement (.mulhzSl rd ra imm) := by
  obtain ⟨l, F⟩ := form2 _ 2 2 _ _ (by decide) rfl (rd.isLt) (ra.isLt) (by decide)
  refine ofL rfl rfl fun w => ⟨l, imm.isLt, fun g S h => ?_⟩
  have H := F g S h
  rw [majorL02 S _ H.1]
  simp [decSL02, H, boolBit, codeBack, codeLt]
theorem mulhsz (rd : Reg) (ra : Reg) (rb : Reg) : Statement (.mulhsz rd ra rb) := by
  obtain ⟨l, F⟩ := form1 _ 2 3 _ _ _ (by decide) rfl (rd.isLt) (ra.isLt) (rb.isLt) (by decide)
  refine ofR rfl rfl fun w => ⟨l, fun g S h => ?_⟩
  have H := F g S h
  rw [majorR02 S H.1]
  simp [decSR02, H, boolBit, codeBack, codeLt]
theorem mulhszSl (rd : Reg) (ra : Reg) (imm : BitVec 32) : Statement (.mulhszSl rd ra imm) := by
  obtain ⟨l, F⟩ := form2 _ 2 3 _ _ (by decide) rfl (rd.isLt) (ra.isLt) (by decide)
  refine ofL rfl rfl fun w => ⟨l, imm.isLt, fun g S h => ?_⟩
  have H := F g S h
  rw [majorL02 S _ H.1]
  simp [decSL02, H, boolBit, codeBack, codeLt]
theorem div (rd : Reg) (ra : Reg) (rb : Reg) : Statement (.div rd ra rb) := by
  obtain ⟨l, F⟩ := form1 _ 2 4 _ _ _ (by decide) rfl (rd.isLt) (ra.isLt) (rb.isLt) (by decide)
  refine ofR rfl rfl fun w => ⟨l, fun g S h => ?_⟩
  have H := F g S h
  rw [majorR02 S H.1]
  simp [decSR02, H, boolBit, codeBack, codeLt]
theorem divSl (rd : Reg) (ra : Reg) (imm : BitVec 32) : Statement (.divSl rd ra imm) := by
  obtain ⟨l, F⟩ := form2 _ 2 4 _ _ (by decide) rfl (rd.isLt) (ra.isLt) (by decide)
  refine ofL rfl rfl fun w => ⟨l, imm.isLt, fun g S h => ?_⟩
  have H := F g S h
  rw [majorL02 S _ H.1]
  simp [decSL02, H, boolBit, codeBack, codeLt]
theorem divz (rd : Reg) (ra : Reg) (rb : Reg) : Statement (.divz rd ra rb) := by
  obtain ⟨l, F⟩ := form1 _ 2 5 _ _ _ (by decide) rfl (rd.isLt) (ra.isLt) (rb.isLt) (by decide)
  refine ofR rfl rfl fun w => ⟨l, fun g S h => ?_⟩
  have H := F g S h
  rw [majorR02 S H.1]
  simp [decSR02, H, boolBit, codeBack, codeLt]
theorem divzSl (rd : Reg) (ra : Reg) (imm : BitVec 32) : Statement (.divzSl rd ra imm) := by
  obtain ⟨l, F⟩ := form2 _ 2 5 _ _ (by decide) rfl (rd.isLt) (ra.isLt) (by decide)
  refine ofL rfl rfl fun w => ⟨l, imm.isLt, fun g S h => ?_⟩
  have H := F g S h
  rw [majorL02 S _ H.1]
  simp [decSL02, H, boolBit, codeBack, codeLt]
theorem rem (rd : Reg) (ra : Reg) (rb : Reg) : Statement (.rem rd ra rb) := by
  obtain ⟨l, F⟩ := form1 _ 2 6 _ _ _ (by decide) rfl (rd.isLt) (ra.isLt) (rb.isLt) (by decide)
  refine ofR rfl rfl fun w => ⟨l, fun g S h => ?_⟩
  have H := F g S h
  rw [majorR02 S H.1]
  simp [decSR02, H, boolBit, codeBack, codeLt]
theorem remSl (rd : Reg) (ra : Reg) (imm : BitVec 32) : Statement (.remSl rd ra imm) := by
  obtain ⟨l, F⟩ := form2 _ 2 6 _ _ (by decide) rfl (rd.isLt) (ra.isLt) (by decide)
  refine ofL rfl rfl fun w => ⟨l, imm.isLt, fun g S h => ?_⟩
  have H := F g S h
  rw [majorL02 S _ H.1]
  simp [decSL02, H, boolBit, codeBack, codeLt]
theorem remz (rd : Reg) (ra : Reg) (rb : Reg) : Statement (.remz rd ra rb) := by
  obtain ⟨l, F⟩ := form1 _ 2 7 _ _ _ (by decide) rfl (rd.isLt) (ra.isLt) (rb.isLt) (by decide)
  refine ofR rfl rfl fun w => ⟨l, fun g S h => ?_⟩
  have H := F g S h
  rw [majorR02 S H.1]
  simp [decSR02, H, boolBit, codeBack, codeLt]
theorem remzSl (rd : Reg) (ra : Reg) (imm : BitVec 32) : Statement (.remzSl rd ra imm) := by
  obtain ⟨l, F⟩ := form2 _ 2 7 _ _ (by decide) rfl (rd.isLt) (ra.isLt) (by decide)
  refine ofL rfl rfl fun w => ⟨l, imm.isLt, fun g S h => ?_⟩
  have H := F g S h
  rw [majorL02 S _ H.1]
  simp [decSL02, H, boolBit, codeBack, codeLt]
theorem clz (rd : Reg) (ra : Reg) : Statement (.clz rd ra) := by
  obtain ⟨l, F⟩ := form2 _ 2 8 _ _ (by decide) rfl (rd.isLt) (ra.isLt) (by decide)
  refine ofR rfl rfl fun w => ⟨l, fun g S h => ?_⟩
  have H := F g S h
  rw [majorR02 S H.1]
  simp [decSR02, H, boolBit, codeBack, codeLt]
theorem ctz (rd : Reg) (ra : Reg) : Statement (.ctz rd ra) := by
  obtain ⟨l, F⟩ := form2 _ 2 9 _ _ (by decide) rfl (rd.isLt) (ra.isLt) (by decide)
  refine ofR rfl rfl fun w => ⟨l, fun g S h => ?_⟩
  have H := F g S h
  rw [majorR02 S H.1]
  simp [decSR02, H, boolBit, codeBack, codeLt]
theorem popc (rd : Reg) (ra : Reg) : Statement (.popc rd ra) := by
  obtain ⟨l, F⟩ := form2 _ 2 10 _ _ (by decide) rfl (rd.isLt) (ra.isLt) (by decide)
  refine ofR rfl rfl fun w => ⟨l, fun g S h => ?_⟩
  have H := F g S h
  rw [majorR02 S H.1]
  simp [decSR02, H, boolBit, codeBack, codeLt]
theorem sxb (rd : Reg) (ra : Reg) : Statement (.sxb rd ra) := by
  obtain ⟨l, F⟩ := form2 _ 3 0 _ _ (by decide) rfl (rd.isLt) (ra.isLt) (by decide)
  refine ofR rfl rfl fun w => ⟨l, fun g S h => ?_⟩
  have H := F g S h
  rw [majorR03 S H.1]
  simp [decSR03, H, boolBit, codeBack, codeLt]
theorem sxh (rd : Reg) (ra : Reg) : Statement (.sxh rd ra) := by
  obtain ⟨l, F⟩ := form2 _ 3 1 _ _ (by decide) rfl (rd.isLt) (ra.isLt) (by decide)
  refine ofR rfl rfl fun w => ⟨l, fun g S h => ?_⟩
  have H := F g S h
  rw [majorR03 S H.1]
  simp [decSR03, H, boolBit, codeBack, codeLt]
theorem sxw (rd : Reg) (ra : Reg) : Statement (.sxw rd ra) := by
  obtain ⟨l, F⟩ := form2 _ 3 2 _ _ (by decide) rfl (rd.isLt) (ra.isLt) (by decide)
  refine ofR rfl rfl fun w => ⟨l, fun g S h => ?_⟩
  have H := F g S h
  rw [majorR03 S H.1]
  simp [decSR03, H, boolBit, codeBack, codeLt]
theorem zxb (rd : Reg) (ra : Reg) : Statement (.zxb rd ra) := by
  obtain ⟨l, F⟩ := form2 _ 3 3 _ _ (by decide) rfl (rd.isLt) (ra.isLt) (by decide)
  refine ofR rfl rfl fun w => ⟨l, fun g S h => ?_⟩
  have H := F g S h
  rw [majorR03 S H.1]
  simp [decSR03, H, boolBit, codeBack, codeLt]
theorem zxh (rd : Reg) (ra : Reg) : Statement (.zxh rd ra) := by
  obtain ⟨l, F⟩ := form2 _ 3 4 _ _ (by decide) rfl (rd.isLt) (ra.isLt) (by decide)
  refine ofR rfl rfl fun w => ⟨l, fun g S h => ?_⟩
  have H := F g S h
  rw [majorR03 S H.1]
  simp [decSR03, H, boolBit, codeBack, codeLt]
theorem zxw (rd : Reg) (ra : Reg) : Statement (.zxw rd ra) := by
  obtain ⟨l, F⟩ := form2 _ 3 5 _ _ (by decide) rfl (rd.isLt) (ra.isLt) (by decide)
  refine ofR rfl rfl fun w => ⟨l, fun g S h => ?_⟩
  have H := F g S h
  rw [majorR03 S H.1]
  simp [decSR03, H, boolBit, codeBack, codeLt]
theorem sel (rd : Reg) (pn : Pred) (ra : Reg) (rb : Reg) : Statement (.sel rd pn ra rb) := by
  obtain ⟨l, F⟩ := form4 _ 3 1 _ _ _ _ (by decide) rfl (rd.isLt) (pn.isLt) (ra.isLt) (rb.isLt) (by decide)
  refine ofR rfl rfl fun w => ⟨l, fun g S h => ?_⟩
  have H := F g S h
  rw [majorR03 S H.1]
  have b_rd := rd.isLt
  have b_pn := pn.isLt
  have b_ra := ra.isLt
  have b_rb := rb.isLt
  have q0 : ¬ fld S 0 9 = 0 := by unfold fld; omega
  have q1 : ¬ fld S 0 9 = 1 := by unfold fld; omega
  have q2 : ¬ fld S 0 9 = 2 := by unfold fld; omega
  have q3 : ¬ fld S 0 9 = 3 := by unfold fld; omega
  have q4 : ¬ fld S 0 9 = 4 := by unfold fld; omega
  have q5 : ¬ fld S 0 9 = 5 := by unfold fld; omega
  simp [decSR03, H, q0, q1, q2, q3, q4, q5, boolBit, codeBack, codeLt]
theorem selSl (rd : Reg) (pn : Pred) (ra : Reg) (imm : BitVec 32) : Statement (.selSl rd pn ra imm) := by
  obtain ⟨l, F⟩ := form5 _ 3 1 _ _ _ (by decide) rfl (rd.isLt) (pn.isLt) (ra.isLt) (by decide)
  refine ofL rfl rfl fun w => ⟨l, imm.isLt, fun g S h => ?_⟩
  have H := F g S h
  rw [majorL03 S _ H.1]
  simp [decSL03, H, boolBit, codeBack, codeLt]
theorem addx (rd : Reg) (ra : Reg) (rb : Reg) (sc : BitVec 2) : Statement (.addx rd ra rb sc) := by
  obtain ⟨l, F⟩ := form6 _ 4 0 _ _ _ _ (by decide) rfl (rd.isLt) (ra.isLt) (rb.isLt) (sc.isLt) (by decide)
  refine ofR rfl rfl fun w => ⟨l, fun g S h => ?_⟩
  have H := F g S h
  rw [majorR04 S H.1]
  simp [decSR04, H, boolBit, codeBack, codeLt]
theorem addxSl (rd : Reg) (ra : Reg) (imm : BitVec 32) (sc : BitVec 2) : Statement (.addxSl rd ra imm sc) := by
  obtain ⟨l, F⟩ := form7 _ 4 0 _ _ _ (by decide) rfl (rd.isLt) (ra.isLt) (sc.isLt) (by decide)
  refine ofL rfl rfl fun w => ⟨l, imm.isLt, fun g S h => ?_⟩
  have H := F g S h
  rw [majorL04 S _ H.1]
  simp [decSL04, H, boolBit, codeBack, codeLt]
theorem bfx (rd : Reg) (ra : Reg) (pos : BitVec 6) (width : BitVec 7) : Statement (.bfx rd ra pos width) := by
  obtain ⟨l, F⟩ := form2 _ 5 0 _ _ (by decide) rfl (rd.isLt) (ra.isLt) (by decide)
  have i_pos := pos.isLt
  have i_width := width.isLt
  refine ofL rfl rfl fun w => ⟨l, by omega, fun g S h => ?_⟩
  have H := F g S h
  rw [majorL05 S _ H.1]
  have k0 : fld (pos.toNat + width.toNat * 64) 0 6 = pos.toNat := by unfold fld; omega
  have k1 : fld (pos.toNat + width.toNat * 64) 6 7 = width.toNat := by unfold fld; omega
  have k2 : fld (pos.toNat + width.toNat * 64) 13 19 = 0 := by unfold fld; omega
  simp [decSL05, H, k0, k1, k2, boolBit, codeBack, codeLt]
theorem bfxz (rd : Reg) (ra : Reg) (pos : BitVec 6) (width : BitVec 7) : Statement (.bfxz rd ra pos width) := by
  obtain ⟨l, F⟩ := form2 _ 5 1 _ _ (by decide) rfl (rd.isLt) (ra.isLt) (by decide)
  have i_pos := pos.isLt
  have i_width := width.isLt
  refine ofL rfl rfl fun w => ⟨l, by omega, fun g S h => ?_⟩
  have H := F g S h
  rw [majorL05 S _ H.1]
  have k0 : fld (pos.toNat + width.toNat * 64) 0 6 = pos.toNat := by unfold fld; omega
  have k1 : fld (pos.toNat + width.toNat * 64) 6 7 = width.toNat := by unfold fld; omega
  have k2 : fld (pos.toNat + width.toNat * 64) 13 19 = 0 := by unfold fld; omega
  simp [decSL05, H, k0, k1, k2, boolBit, codeBack, codeLt]
theorem bfi (rd : Reg) (ra : Reg) (pos : BitVec 6) (width : BitVec 7) : Statement (.bfi rd ra pos width) := by
  obtain ⟨l, F⟩ := form2 _ 5 2 _ _ (by decide) rfl (rd.isLt) (ra.isLt) (by decide)
  have i_pos := pos.isLt
  have i_width := width.isLt
  refine ofL rfl rfl fun w => ⟨l, by omega, fun g S h => ?_⟩
  have H := F g S h
  rw [majorL05 S _ H.1]
  have k0 : fld (pos.toNat + width.toNat * 64) 0 6 = pos.toNat := by unfold fld; omega
  have k1 : fld (pos.toNat + width.toNat * 64) 6 7 = width.toNat := by unfold fld; omega
  have k2 : fld (pos.toNat + width.toNat * 64) 13 19 = 0 := by unfold fld; omega
  simp [decSL05, H, k0, k1, k2, boolBit, codeBack, codeLt]
theorem li (rd : Reg) (imm : BitVec 32) : Statement (.li rd imm) := by
  obtain ⟨l, F⟩ := form8 _ 6 0 _ (by decide) rfl (rd.isLt) (by decide)
  refine ofL rfl rfl fun w => ⟨l, imm.isLt, fun g S h => ?_⟩
  have H := F g S h
  rw [majorL06 S _ H.1]
  simp [decSL06, H, boolBit, codeBack, codeLt]
theorem liz (rd : Reg) (imm : BitVec 32) : Statement (.liz rd imm) := by
  obtain ⟨l, F⟩ := form8 _ 6 1 _ (by decide) rfl (rd.isLt) (by decide)
  refine ofL rfl rfl fun w => ⟨l, imm.isLt, fun g S h => ?_⟩
  have H := F g S h
  rw [majorL06 S _ H.1]
  simp [decSL06, H, boolBit, codeBack, codeLt]
theorem lih (rd : Reg) (imm : BitVec 32) : Statement (.lih rd imm) := by
  obtain ⟨l, F⟩ := form8 _ 6 2 _ (by decide) rfl (rd.isLt) (by decide)
  refine ofL rfl rfl fun w => ⟨l, imm.isLt, fun g S h => ?_⟩
  have H := F g S h
  rw [majorL06 S _ H.1]
  simp [decSL06, H, boolBit, codeBack, codeLt]
theorem pand (pd : Pred) (pa : Pred) (pb : Pred) : Statement (.pand pd pa pb) := by
  obtain ⟨l, F⟩ := form9 _ 7 0 0 0 0 _ _ _ (by decide) rfl (pd.isLt) (pa.isLt) (pb.isLt) (by decide) (by decide) (by decide) (by decide)
  refine ofR rfl rfl fun w => ⟨l, fun g S h => ?_⟩
  have H := F g S h
  rw [majorR07 S H.1]
  simp [decSR07, H, boolBit, codeBack, codeLt]
theorem por (pd : Pred) (pa : Pred) (pb : Pred) : Statement (.por pd pa pb) := by
  obtain ⟨l, F⟩ := form9 _ 7 1 0 0 0 _ _ _ (by decide) rfl (pd.isLt) (pa.isLt) (pb.isLt) (by decide) (by decide) (by decide) (by decide)
  refine ofR rfl rfl fun w => ⟨l, fun g S h => ?_⟩
  have H := F g S h
  rw [majorR07 S H.1]
  simp [decSR07, H, boolBit, codeBack, codeLt]
theorem pxor (pd : Pred) (pa : Pred) (pb : Pred) : Statement (.pxor pd pa pb) := by
  obtain ⟨l, F⟩ := form9 _ 7 2 0 0 0 _ _ _ (by decide) rfl (pd.isLt) (pa.isLt) (pb.isLt) (by decide) (by decide) (by decide) (by decide)
  refine ofR rfl rfl fun w => ⟨l, fun g S h => ?_⟩
  have H := F g S h
  rw [majorR07 S H.1]
  simp [decSR07, H, boolBit, codeBack, codeLt]
theorem pandn (pd : Pred) (pa : Pred) (pb : Pred) : Statement (.pandn pd pa pb) := by
  obtain ⟨l, F⟩ := form9 _ 7 3 0 0 0 _ _ _ (by decide) rfl (pd.isLt) (pa.isLt) (pb.isLt) (by decide) (by decide) (by decide) (by decide)
  refine ofR rfl rfl fun w => ⟨l, fun g S h => ?_⟩
  have H := F g S h
  rw [majorR07 S H.1]
  simp [decSR07, H, boolBit, codeBack, codeLt]
theorem porn (pd : Pred) (pa : Pred) (pb : Pred) : Statement (.porn pd pa pb) := by
  obtain ⟨l, F⟩ := form9 _ 7 4 0 0 0 _ _ _ (by decide) rfl (pd.isLt) (pa.isLt) (pb.isLt) (by decide) (by decide) (by decide) (by decide)
  refine ofR rfl rfl fun w => ⟨l, fun g S h => ?_⟩
  have H := F g S h
  rw [majorR07 S H.1]
  simp [decSR07, H, boolBit, codeBack, codeLt]
theorem pnor (pd : Pred) (pa : Pred) (pb : Pred) : Statement (.pnor pd pa pb) := by
  obtain ⟨l, F⟩ := form9 _ 7 5 0 0 0 _ _ _ (by decide) rfl (pd.isLt) (pa.isLt) (pb.isLt) (by decide) (by decide) (by decide) (by decide)
  refine ofR rfl rfl fun w => ⟨l, fun g S h => ?_⟩
  have H := F g S h
  rw [majorR07 S H.1]
  simp [decSR07, H, boolBit, codeBack, codeLt]
theorem pget (rd : Reg) : Statement (.pget rd) := by
  obtain ⟨l, F⟩ := form8 _ 7 6 _ (by decide) rfl (rd.isLt) (by decide)
  refine ofR rfl rfl fun w => ⟨l, fun g S h => ?_⟩
  have H := F g S h
  rw [majorR07 S H.1]
  simp [decSR07, H, boolBit, codeBack, codeLt]
theorem pput (ra : Reg) : Statement (.pput ra) := by
  obtain ⟨l, F⟩ := form10 _ 7 7 0 _ (by decide) rfl (ra.isLt) (by decide) (by decide)
  refine ofR rfl rfl fun w => ⟨l, fun g S h => ?_⟩
  have H := F g S h
  rw [majorR07 S H.1]
  have b_ra := ra.isLt
  have q0 : ¬ fld S 0 14 = 6 := by unfold fld; omega
  simp [decSR07, H, q0, boolBit, codeBack, codeLt]
theorem cmpEq (pt : Pred) (pf : Pred) (ra : Reg) (rb : Reg) : Statement (.cmpEq pt pf ra rb) := by
  obtain ⟨l, F⟩ := form11 _ 8 0 0 _ _ _ _ (by decide) rfl (pt.isLt) (pf.isLt) (ra.isLt) (rb.isLt) (by decide) (by decide)
  refine ofR rfl rfl fun w => ⟨l, fun g S h => ?_⟩
  have H := F g S h
  rw [majorR08 S H.1]
  simp [decSR08, H, boolBit, codeBack, codeLt]
theorem cmpEqSl (pt : Pred) (pf : Pred) (ra : Reg) (imm : BitVec 32) : Statement (.cmpEqSl pt pf ra imm) := by
  obtain ⟨l, F⟩ := form12 _ 8 0 0 _ _ _ (by decide) rfl (pt.isLt) (pf.isLt) (ra.isLt) (by decide) (by decide)
  refine ofL rfl rfl fun w => ⟨l, imm.isLt, fun g S h => ?_⟩
  have H := F g S h
  rw [majorL08 S _ H.1]
  simp [decSL08, H, boolBit, codeBack, codeLt]
theorem cmpLt (pt : Pred) (pf : Pred) (ra : Reg) (rb : Reg) : Statement (.cmpLt pt pf ra rb) := by
  obtain ⟨l, F⟩ := form11 _ 9 0 0 _ _ _ _ (by decide) rfl (pt.isLt) (pf.isLt) (ra.isLt) (rb.isLt) (by decide) (by decide)
  refine ofR rfl rfl fun w => ⟨l, fun g S h => ?_⟩
  have H := F g S h
  rw [majorR09 S H.1]
  simp [decSR09, H, boolBit, codeBack, codeLt]
theorem cmpLtSl (pt : Pred) (pf : Pred) (ra : Reg) (imm : BitVec 32) : Statement (.cmpLtSl pt pf ra imm) := by
  obtain ⟨l, F⟩ := form12 _ 9 0 0 _ _ _ (by decide) rfl (pt.isLt) (pf.isLt) (ra.isLt) (by decide) (by decide)
  refine ofL rfl rfl fun w => ⟨l, imm.isLt, fun g S h => ?_⟩
  have H := F g S h
  rw [majorL09 S _ H.1]
  simp [decSL09, H, boolBit, codeBack, codeLt]
theorem cmpLe (pt : Pred) (pf : Pred) (ra : Reg) (rb : Reg) : Statement (.cmpLe pt pf ra rb) := by
  obtain ⟨l, F⟩ := form11 _ 10 0 0 _ _ _ _ (by decide) rfl (pt.isLt) (pf.isLt) (ra.isLt) (rb.isLt) (by decide) (by decide)
  refine ofR rfl rfl fun w => ⟨l, fun g S h => ?_⟩
  have H := F g S h
  rw [majorR0A S H.1]
  simp [decSR0A, H, boolBit, codeBack, codeLt]
theorem cmpLeSl (pt : Pred) (pf : Pred) (ra : Reg) (imm : BitVec 32) : Statement (.cmpLeSl pt pf ra imm) := by
  obtain ⟨l, F⟩ := form12 _ 10 0 0 _ _ _ (by decide) rfl (pt.isLt) (pf.isLt) (ra.isLt) (by decide) (by decide)
  refine ofL rfl rfl fun w => ⟨l, imm.isLt, fun g S h => ?_⟩
  have H := F g S h
  rw [majorL0A S _ H.1]
  simp [decSL0A, H, boolBit, codeBack, codeLt]
theorem cmpLtz (pt : Pred) (pf : Pred) (ra : Reg) (rb : Reg) : Statement (.cmpLtz pt pf ra rb) := by
  obtain ⟨l, F⟩ := form11 _ 11 0 0 _ _ _ _ (by decide) rfl (pt.isLt) (pf.isLt) (ra.isLt) (rb.isLt) (by decide) (by decide)
  refine ofR rfl rfl fun w => ⟨l, fun g S h => ?_⟩
  have H := F g S h
  rw [majorR0B S H.1]
  simp [decSR0B, H, boolBit, codeBack, codeLt]
theorem cmpLtzSl (pt : Pred) (pf : Pred) (ra : Reg) (imm : BitVec 32) : Statement (.cmpLtzSl pt pf ra imm) := by
  obtain ⟨l, F⟩ := form12 _ 11 0 0 _ _ _ (by decide) rfl (pt.isLt) (pf.isLt) (ra.isLt) (by decide) (by decide)
  refine ofL rfl rfl fun w => ⟨l, imm.isLt, fun g S h => ?_⟩
  have H := F g S h
  rw [majorL0B S _ H.1]
  simp [decSL0B, H, boolBit, codeBack, codeLt]
theorem cmpLez (pt : Pred) (pf : Pred) (ra : Reg) (rb : Reg) : Statement (.cmpLez pt pf ra rb) := by
  obtain ⟨l, F⟩ := form11 _ 12 0 0 _ _ _ _ (by decide) rfl (pt.isLt) (pf.isLt) (ra.isLt) (rb.isLt) (by decide) (by decide)
  refine ofR rfl rfl fun w => ⟨l, fun g S h => ?_⟩
  have H := F g S h
  rw [majorR0C S H.1]
  simp [decSR0C, H, boolBit, codeBack, codeLt]
theorem cmpLezSl (pt : Pred) (pf : Pred) (ra : Reg) (imm : BitVec 32) : Statement (.cmpLezSl pt pf ra imm) := by
  obtain ⟨l, F⟩ := form12 _ 12 0 0 _ _ _ (by decide) rfl (pt.isLt) (pf.isLt) (ra.isLt) (by decide) (by decide)
  refine ofL rfl rfl fun w => ⟨l, imm.isLt, fun g S h => ?_⟩
  have H := F g S h
  rw [majorL0C S _ H.1]
  simp [decSL0C, H, boolBit, codeBack, codeLt]
theorem ldb (rd : Reg) (ra : Reg) (imm : BitVec 9) : Statement (.ldb rd ra imm) := by
  obtain ⟨l, F⟩ := form3 _ 17 _ _ _ (by decide) rfl (rd.isLt) (ra.isLt) (imm.isLt)
  refine ofR rfl rfl fun w => ⟨l, fun g S h => ?_⟩
  have H := F g S h
  rw [majorR11 S H.1]
  simp [decSR11, H, boolBit, codeBack, codeLt]
theorem ldbz (rd : Reg) (ra : Reg) (imm : BitVec 9) : Statement (.ldbz rd ra imm) := by
  obtain ⟨l, F⟩ := form3 _ 18 _ _ _ (by decide) rfl (rd.isLt) (ra.isLt) (imm.isLt)
  refine ofR rfl rfl fun w => ⟨l, fun g S h => ?_⟩
  have H := F g S h
  rw [majorR12 S H.1]
  simp [decSR12, H, boolBit, codeBack, codeLt]
theorem ldh (rd : Reg) (ra : Reg) (imm : BitVec 9) : Statement (.ldh rd ra imm) := by
  obtain ⟨l, F⟩ := form3 _ 19 _ _ _ (by decide) rfl (rd.isLt) (ra.isLt) (imm.isLt)
  refine ofR rfl rfl fun w => ⟨l, fun g S h => ?_⟩
  have H := F g S h
  rw [majorR13 S H.1]
  simp [decSR13, H, boolBit, codeBack, codeLt]
theorem ldhz (rd : Reg) (ra : Reg) (imm : BitVec 9) : Statement (.ldhz rd ra imm) := by
  obtain ⟨l, F⟩ := form3 _ 20 _ _ _ (by decide) rfl (rd.isLt) (ra.isLt) (imm.isLt)
  refine ofR rfl rfl fun w => ⟨l, fun g S h => ?_⟩
  have H := F g S h
  rw [majorR14 S H.1]
  simp [decSR14, H, boolBit, codeBack, codeLt]
theorem ldw (rd : Reg) (ra : Reg) (imm : BitVec 9) : Statement (.ldw rd ra imm) := by
  obtain ⟨l, F⟩ := form3 _ 21 _ _ _ (by decide) rfl (rd.isLt) (ra.isLt) (imm.isLt)
  refine ofR rfl rfl fun w => ⟨l, fun g S h => ?_⟩
  have H := F g S h
  rw [majorR15 S H.1]
  simp [decSR15, H, boolBit, codeBack, codeLt]
theorem ldwz (rd : Reg) (ra : Reg) (imm : BitVec 9) : Statement (.ldwz rd ra imm) := by
  obtain ⟨l, F⟩ := form3 _ 22 _ _ _ (by decide) rfl (rd.isLt) (ra.isLt) (imm.isLt)
  refine ofR rfl rfl fun w => ⟨l, fun g S h => ?_⟩
  have H := F g S h
  rw [majorR16 S H.1]
  simp [decSR16, H, boolBit, codeBack, codeLt]
theorem ldd (rd : Reg) (ra : Reg) (imm : BitVec 9) : Statement (.ldd rd ra imm) := by
  obtain ⟨l, F⟩ := form3 _ 23 _ _ _ (by decide) rfl (rd.isLt) (ra.isLt) (imm.isLt)
  refine ofR rfl rfl fun w => ⟨l, fun g S h => ?_⟩
  have H := F g S h
  rw [majorR17 S H.1]
  simp [decSR17, H, boolBit, codeBack, codeLt]
theorem stb (rd : Reg) (ra : Reg) (imm : BitVec 9) : Statement (.stb rd ra imm) := by
  obtain ⟨l, F⟩ := form3 _ 24 _ _ _ (by decide) rfl (rd.isLt) (ra.isLt) (imm.isLt)
  refine ofR rfl rfl fun w => ⟨l, fun g S h => ?_⟩
  have H := F g S h
  rw [majorR18 S H.1]
  simp [decSR18, H, boolBit, codeBack, codeLt]
theorem sth (rd : Reg) (ra : Reg) (imm : BitVec 9) : Statement (.sth rd ra imm) := by
  obtain ⟨l, F⟩ := form3 _ 25 _ _ _ (by decide) rfl (rd.isLt) (ra.isLt) (imm.isLt)
  refine ofR rfl rfl fun w => ⟨l, fun g S h => ?_⟩
  have H := F g S h
  rw [majorR19 S H.1]
  simp [decSR19, H, boolBit, codeBack, codeLt]
theorem stw (rd : Reg) (ra : Reg) (imm : BitVec 9) : Statement (.stw rd ra imm) := by
  obtain ⟨l, F⟩ := form3 _ 26 _ _ _ (by decide) rfl (rd.isLt) (ra.isLt) (imm.isLt)
  refine ofR rfl rfl fun w => ⟨l, fun g S h => ?_⟩
  have H := F g S h
  rw [majorR1A S H.1]
  simp [decSR1A, H, boolBit, codeBack, codeLt]
theorem std (rd : Reg) (ra : Reg) (imm : BitVec 9) : Statement (.std rd ra imm) := by
  obtain ⟨l, F⟩ := form3 _ 27 _ _ _ (by decide) rfl (rd.isLt) (ra.isLt) (imm.isLt)
  refine ofR rfl rfl fun w => ⟨l, fun g S h => ?_⟩
  have H := F g S h
  rw [majorR1B S H.1]
  simp [decSR1B, H, boolBit, codeBack, codeLt]
theorem ldx (sz : BitVec 2) (zx : Bool) (scaled : Bool) (rd : Reg) (ra : Reg) (rb : Reg) : Statement (.ldx sz zx scaled rd ra rb) := by
  obtain ⟨l, F⟩ := form13 _ 28 _ _ _ _ _ _ (by decide) rfl (sz.isLt) (boolLt zx) (boolLt scaled) (rd.isLt) (ra.isLt) (rb.isLt)
  refine ofR rfl rfl fun w => ⟨l, fun g S h => ?_⟩
  have H := F g S h
  rw [majorR1C S H.1]
  simp [decSR1C, H, boolBit, codeBack, codeLt]
theorem stx (sz : BitVec 2) (scaled : Bool) (rd : Reg) (ra : Reg) (rb : Reg) : Statement (.stx sz scaled rd ra rb) := by
  obtain ⟨l, F⟩ := form14 _ 29 0 _ _ _ _ _ (by decide) rfl (sz.isLt) (boolLt scaled) (rd.isLt) (ra.isLt) (rb.isLt) (by decide)
  refine ofR rfl rfl fun w => ⟨l, fun g S h => ?_⟩
  have H := F g S h
  rw [majorR1D S H.1]
  simp [decSR1D, H, boolBit, codeBack, codeLt]
theorem ldf (rd : Reg) (ra : Reg) (imm : BitVec 9) : Statement (.ldf rd ra imm) := by
  obtain ⟨l, F⟩ := form3 _ 30 _ _ _ (by decide) rfl (rd.isLt) (ra.isLt) (imm.isLt)
  refine ofR rfl rfl fun w => ⟨l, fun g S h => ?_⟩
  have H := F g S h
  rw [majorR1E S H.1]
  simp [decSR1E, H, boolBit, codeBack, codeLt]
theorem lde (rd : Reg) (ra : Reg) (imm : BitVec 9) : Statement (.lde rd ra imm) := by
  obtain ⟨l, F⟩ := form3 _ 31 _ _ _ (by decide) rfl (rd.isLt) (ra.isLt) (imm.isLt)
  refine ofR rfl rfl fun w => ⟨l, fun g S h => ?_⟩
  have H := F g S h
  rw [majorR1F S H.1]
  simp [decSR1F, H, boolBit, codeBack, codeLt]
theorem stf (rd : Reg) (ra : Reg) (imm : BitVec 9) : Statement (.stf rd ra imm) := by
  obtain ⟨l, F⟩ := form3 _ 32 _ _ _ (by decide) rfl (rd.isLt) (ra.isLt) (imm.isLt)
  refine ofR rfl rfl fun w => ⟨l, fun g S h => ?_⟩
  have H := F g S h
  rw [majorR20 S H.1]
  simp [decSR20, H, boolBit, codeBack, codeLt]
theorem ste (rd : Reg) (ra : Reg) (imm : BitVec 9) : Statement (.ste rd ra imm) := by
  obtain ⟨l, F⟩ := form3 _ 33 _ _ _ (by decide) rfl (rd.isLt) (ra.isLt) (imm.isLt)
  refine ofR rfl rfl fun w => ⟨l, fun g S h => ?_⟩
  have H := F g S h
  rw [majorR21 S H.1]
  simp [decSR21, H, boolBit, codeBack, codeLt]
theorem waitf (ra : Reg) (imm : BitVec 9) : Statement (.waitf ra imm) := by
  obtain ⟨l, F⟩ := form15 _ 34 0 _ _ (by decide) rfl (ra.isLt) (imm.isLt) (by decide)
  refine ofR rfl rfl fun w => ⟨l, fun g S h => ?_⟩
  have H := F g S h
  rw [majorR22 S H.1]
  simp [decSR22, H, boolBit, codeBack, codeLt]
theorem amoadd (wide : Bool) (noret : Bool) (rd : Reg) (ra : Reg) (rb : Reg) : Statement (.amoadd wide noret rd ra rb) := by
  refine ofR rfl rfl fun w => ?_
  have r1 := rd.isLt; have r2 := ra.isLt; have r3 := rb.isLt; have r4 := boolLt wide; have r5 := boolLt noret
  refine ⟨by omega, fun g S h => ?_⟩
  have a : fld S 19 6 = 0x23 + wide.toNat + 2 * noret.toNat := by unfold fld; omega
  have b : fld S 14 5 = rd.toNat ∧ fld S 9 5 = ra.toNat ∧ fld S 4 5 = rb.toNat ∧ fld S 0 4 = 0 := by unfold fld; omega
  obtain ⟨b, d, e, f⟩ := b
  cases wide <;> cases noret <;> simp only [Bool.toNat_false, Bool.toNat_true, Nat.mul_zero, Nat.mul_one, Nat.add_zero, Nat.reduceAdd] at a
  · rw [majorR23 S a]; simp [decSRamo, a, b, d, e, f]
  · rw [majorR25 S a]; simp [decSRamo, a, b, d, e, f]
  · rw [majorR24 S a]; simp [decSRamo, a, b, d, e, f]
  · rw [majorR26 S a]; simp [decSRamo, a, b, d, e, f]
theorem amomax (wide : Bool) (noret : Bool) (rd : Reg) (ra : Reg) (rb : Reg) : Statement (.amomax wide noret rd ra rb) := by
  refine ofR rfl rfl fun w => ?_
  have r1 := rd.isLt; have r2 := ra.isLt; have r3 := rb.isLt; have r4 := boolLt wide; have r5 := boolLt noret
  refine ⟨by omega, fun g S h => ?_⟩
  have a : fld S 19 6 = 0x23 + wide.toNat + 2 * noret.toNat := by unfold fld; omega
  have b : fld S 14 5 = rd.toNat ∧ fld S 9 5 = ra.toNat ∧ fld S 4 5 = rb.toNat ∧ fld S 0 4 = 1 := by unfold fld; omega
  obtain ⟨b, d, e, f⟩ := b
  cases wide <;> cases noret <;> simp only [Bool.toNat_false, Bool.toNat_true, Nat.mul_zero, Nat.mul_one, Nat.add_zero, Nat.reduceAdd] at a
  · rw [majorR23 S a]; simp [decSRamo, a, b, d, e, f]
  · rw [majorR25 S a]; simp [decSRamo, a, b, d, e, f]
  · rw [majorR24 S a]; simp [decSRamo, a, b, d, e, f]
  · rw [majorR26 S a]; simp [decSRamo, a, b, d, e, f]
theorem amomin (wide : Bool) (noret : Bool) (rd : Reg) (ra : Reg) (rb : Reg) : Statement (.amomin wide noret rd ra rb) := by
  refine ofR rfl rfl fun w => ?_
  have r1 := rd.isLt; have r2 := ra.isLt; have r3 := rb.isLt; have r4 := boolLt wide; have r5 := boolLt noret
  refine ⟨by omega, fun g S h => ?_⟩
  have a : fld S 19 6 = 0x23 + wide.toNat + 2 * noret.toNat := by unfold fld; omega
  have b : fld S 14 5 = rd.toNat ∧ fld S 9 5 = ra.toNat ∧ fld S 4 5 = rb.toNat ∧ fld S 0 4 = 2 := by unfold fld; omega
  obtain ⟨b, d, e, f⟩ := b
  cases wide <;> cases noret <;> simp only [Bool.toNat_false, Bool.toNat_true, Nat.mul_zero, Nat.mul_one, Nat.add_zero, Nat.reduceAdd] at a
  · rw [majorR23 S a]; simp [decSRamo, a, b, d, e, f]
  · rw [majorR25 S a]; simp [decSRamo, a, b, d, e, f]
  · rw [majorR24 S a]; simp [decSRamo, a, b, d, e, f]
  · rw [majorR26 S a]; simp [decSRamo, a, b, d, e, f]
theorem amomaxz (wide : Bool) (noret : Bool) (rd : Reg) (ra : Reg) (rb : Reg) : Statement (.amomaxz wide noret rd ra rb) := by
  refine ofR rfl rfl fun w => ?_
  have r1 := rd.isLt; have r2 := ra.isLt; have r3 := rb.isLt; have r4 := boolLt wide; have r5 := boolLt noret
  refine ⟨by omega, fun g S h => ?_⟩
  have a : fld S 19 6 = 0x23 + wide.toNat + 2 * noret.toNat := by unfold fld; omega
  have b : fld S 14 5 = rd.toNat ∧ fld S 9 5 = ra.toNat ∧ fld S 4 5 = rb.toNat ∧ fld S 0 4 = 3 := by unfold fld; omega
  obtain ⟨b, d, e, f⟩ := b
  cases wide <;> cases noret <;> simp only [Bool.toNat_false, Bool.toNat_true, Nat.mul_zero, Nat.mul_one, Nat.add_zero, Nat.reduceAdd] at a
  · rw [majorR23 S a]; simp [decSRamo, a, b, d, e, f]
  · rw [majorR25 S a]; simp [decSRamo, a, b, d, e, f]
  · rw [majorR24 S a]; simp [decSRamo, a, b, d, e, f]
  · rw [majorR26 S a]; simp [decSRamo, a, b, d, e, f]
theorem amominz (wide : Bool) (noret : Bool) (rd : Reg) (ra : Reg) (rb : Reg) : Statement (.amominz wide noret rd ra rb) := by
  refine ofR rfl rfl fun w => ?_
  have r1 := rd.isLt; have r2 := ra.isLt; have r3 := rb.isLt; have r4 := boolLt wide; have r5 := boolLt noret
  refine ⟨by omega, fun g S h => ?_⟩
  have a : fld S 19 6 = 0x23 + wide.toNat + 2 * noret.toNat := by unfold fld; omega
  have b : fld S 14 5 = rd.toNat ∧ fld S 9 5 = ra.toNat ∧ fld S 4 5 = rb.toNat ∧ fld S 0 4 = 4 := by unfold fld; omega
  obtain ⟨b, d, e, f⟩ := b
  cases wide <;> cases noret <;> simp only [Bool.toNat_false, Bool.toNat_true, Nat.mul_zero, Nat.mul_one, Nat.add_zero, Nat.reduceAdd] at a
  · rw [majorR23 S a]; simp [decSRamo, a, b, d, e, f]
  · rw [majorR25 S a]; simp [decSRamo, a, b, d, e, f]
  · rw [majorR24 S a]; simp [decSRamo, a, b, d, e, f]
  · rw [majorR26 S a]; simp [decSRamo, a, b, d, e, f]
theorem amoand (wide : Bool) (noret : Bool) (rd : Reg) (ra : Reg) (rb : Reg) : Statement (.amoand wide noret rd ra rb) := by
  refine ofR rfl rfl fun w => ?_
  have r1 := rd.isLt; have r2 := ra.isLt; have r3 := rb.isLt; have r4 := boolLt wide; have r5 := boolLt noret
  refine ⟨by omega, fun g S h => ?_⟩
  have a : fld S 19 6 = 0x23 + wide.toNat + 2 * noret.toNat := by unfold fld; omega
  have b : fld S 14 5 = rd.toNat ∧ fld S 9 5 = ra.toNat ∧ fld S 4 5 = rb.toNat ∧ fld S 0 4 = 5 := by unfold fld; omega
  obtain ⟨b, d, e, f⟩ := b
  cases wide <;> cases noret <;> simp only [Bool.toNat_false, Bool.toNat_true, Nat.mul_zero, Nat.mul_one, Nat.add_zero, Nat.reduceAdd] at a
  · rw [majorR23 S a]; simp [decSRamo, a, b, d, e, f]
  · rw [majorR25 S a]; simp [decSRamo, a, b, d, e, f]
  · rw [majorR24 S a]; simp [decSRamo, a, b, d, e, f]
  · rw [majorR26 S a]; simp [decSRamo, a, b, d, e, f]
theorem amoor (wide : Bool) (noret : Bool) (rd : Reg) (ra : Reg) (rb : Reg) : Statement (.amoor wide noret rd ra rb) := by
  refine ofR rfl rfl fun w => ?_
  have r1 := rd.isLt; have r2 := ra.isLt; have r3 := rb.isLt; have r4 := boolLt wide; have r5 := boolLt noret
  refine ⟨by omega, fun g S h => ?_⟩
  have a : fld S 19 6 = 0x23 + wide.toNat + 2 * noret.toNat := by unfold fld; omega
  have b : fld S 14 5 = rd.toNat ∧ fld S 9 5 = ra.toNat ∧ fld S 4 5 = rb.toNat ∧ fld S 0 4 = 6 := by unfold fld; omega
  obtain ⟨b, d, e, f⟩ := b
  cases wide <;> cases noret <;> simp only [Bool.toNat_false, Bool.toNat_true, Nat.mul_zero, Nat.mul_one, Nat.add_zero, Nat.reduceAdd] at a
  · rw [majorR23 S a]; simp [decSRamo, a, b, d, e, f]
  · rw [majorR25 S a]; simp [decSRamo, a, b, d, e, f]
  · rw [majorR24 S a]; simp [decSRamo, a, b, d, e, f]
  · rw [majorR26 S a]; simp [decSRamo, a, b, d, e, f]
theorem amoxor (wide : Bool) (noret : Bool) (rd : Reg) (ra : Reg) (rb : Reg) : Statement (.amoxor wide noret rd ra rb) := by
  refine ofR rfl rfl fun w => ?_
  have r1 := rd.isLt; have r2 := ra.isLt; have r3 := rb.isLt; have r4 := boolLt wide; have r5 := boolLt noret
  refine ⟨by omega, fun g S h => ?_⟩
  have a : fld S 19 6 = 0x23 + wide.toNat + 2 * noret.toNat := by unfold fld; omega
  have b : fld S 14 5 = rd.toNat ∧ fld S 9 5 = ra.toNat ∧ fld S 4 5 = rb.toNat ∧ fld S 0 4 = 7 := by unfold fld; omega
  obtain ⟨b, d, e, f⟩ := b
  cases wide <;> cases noret <;> simp only [Bool.toNat_false, Bool.toNat_true, Nat.mul_zero, Nat.mul_one, Nat.add_zero, Nat.reduceAdd] at a
  · rw [majorR23 S a]; simp [decSRamo, a, b, d, e, f]
  · rw [majorR25 S a]; simp [decSRamo, a, b, d, e, f]
  · rw [majorR24 S a]; simp [decSRamo, a, b, d, e, f]
  · rw [majorR26 S a]; simp [decSRamo, a, b, d, e, f]
theorem amoswap (wide : Bool) (noret : Bool) (rd : Reg) (ra : Reg) (rb : Reg) : Statement (.amoswap wide noret rd ra rb) := by
  refine ofR rfl rfl fun w => ?_
  have r1 := rd.isLt; have r2 := ra.isLt; have r3 := rb.isLt; have r4 := boolLt wide; have r5 := boolLt noret
  refine ⟨by omega, fun g S h => ?_⟩
  have a : fld S 19 6 = 0x23 + wide.toNat + 2 * noret.toNat := by unfold fld; omega
  have b : fld S 14 5 = rd.toNat ∧ fld S 9 5 = ra.toNat ∧ fld S 4 5 = rb.toNat ∧ fld S 0 4 = 8 := by unfold fld; omega
  obtain ⟨b, d, e, f⟩ := b
  cases wide <;> cases noret <;> simp only [Bool.toNat_false, Bool.toNat_true, Nat.mul_zero, Nat.mul_one, Nat.add_zero, Nat.reduceAdd] at a
  · rw [majorR23 S a]; simp [decSRamo, a, b, d, e, f]
  · rw [majorR25 S a]; simp [decSRamo, a, b, d, e, f]
  · rw [majorR24 S a]; simp [decSRamo, a, b, d, e, f]
  · rw [majorR26 S a]; simp [decSRamo, a, b, d, e, f]
theorem amocas (wide : Bool) (noret : Bool) (rd : Reg) (ra : Reg) (rb : Reg) : Statement (.amocas wide noret rd ra rb) := by
  refine ofR rfl rfl fun w => ?_
  have r1 := rd.isLt; have r2 := ra.isLt; have r3 := rb.isLt; have r4 := boolLt wide; have r5 := boolLt noret
  refine ⟨by omega, fun g S h => ?_⟩
  have a : fld S 19 6 = 0x23 + wide.toNat + 2 * noret.toNat := by unfold fld; omega
  have b : fld S 14 5 = rd.toNat ∧ fld S 9 5 = ra.toNat ∧ fld S 4 5 = rb.toNat ∧ fld S 0 4 = 9 := by unfold fld; omega
  obtain ⟨b, d, e, f⟩ := b
  cases wide <;> cases noret <;> simp only [Bool.toNat_false, Bool.toNat_true, Nat.mul_zero, Nat.mul_one, Nat.add_zero, Nat.reduceAdd] at a
  · rw [majorR23 S a]; simp [decSRamo, a, b, d, e, f]
  · rw [majorR25 S a]; simp [decSRamo, a, b, d, e, f]
  · rw [majorR24 S a]; simp [decSRamo, a, b, d, e, f]
  · rw [majorR26 S a]; simp [decSRamo, a, b, d, e, f]
theorem amofadd (half : Bool) (noret : Bool) (rd : Reg) (ra : Reg) (rb : Reg) : Statement (.amofadd half noret rd ra rb) := by
  obtain ⟨l, F⟩ := form16 _ 39 0 _ _ _ _ _ (by decide) rfl (boolLt half) (boolLt noret) (rd.isLt) (ra.isLt) (rb.isLt) (by decide)
  refine ofR rfl rfl fun w => ⟨l, fun g S h => ?_⟩
  have H := F g S h
  rw [majorR27 S H.1]
  simp [decSR27, H, boolBit, codeBack, codeLt]
theorem amofmax (half : Bool) (noret : Bool) (rd : Reg) (ra : Reg) (rb : Reg) : Statement (.amofmax half noret rd ra rb) := by
  obtain ⟨l, F⟩ := form16 _ 39 1 _ _ _ _ _ (by decide) rfl (boolLt half) (boolLt noret) (rd.isLt) (ra.isLt) (rb.isLt) (by decide)
  refine ofR rfl rfl fun w => ⟨l, fun g S h => ?_⟩
  have H := F g S h
  rw [majorR27 S H.1]
  simp [decSR27, H, boolBit, codeBack, codeLt]
theorem amofmin (half : Bool) (noret : Bool) (rd : Reg) (ra : Reg) (rb : Reg) : Statement (.amofmin half noret rd ra rb) := by
  obtain ⟨l, F⟩ := form16 _ 39 2 _ _ _ _ _ (by decide) rfl (boolLt half) (boolLt noret) (rd.isLt) (ra.isLt) (rb.isLt) (by decide)
  refine ofR rfl rfl fun w => ⟨l, fun g S h => ?_⟩
  have H := F g S h
  rw [majorR27 S H.1]
  simp [decSR27, H, boolBit, codeBack, codeLt]
theorem dlook (rd : Reg) (ra : Reg) : Statement (.dlook rd ra) := by
  obtain ⟨l, F⟩ := form2 _ 40 0 _ _ (by decide) rfl (rd.isLt) (ra.isLt) (by decide)
  refine ofR rfl rfl fun w => ⟨l, fun g S h => ?_⟩
  have H := F g S h
  rw [majorR28 S H.1]
  simp [decSR28, H, boolBit, codeBack, codeLt]
theorem dins (rd : Reg) (ra : Reg) (rb : Reg) : Statement (.dins rd ra rb) := by
  obtain ⟨l, F⟩ := form1 _ 40 1 _ _ _ (by decide) rfl (rd.isLt) (ra.isLt) (rb.isLt) (by decide)
  refine ofR rfl rfl fun w => ⟨l, fun g S h => ?_⟩
  have H := F g S h
  rw [majorR28 S H.1]
  have b_rd := rd.isLt
  have b_ra := ra.isLt
  have b_rb := rb.isLt
  have q0 : ¬ fld S 0 9 = 0 := by unfold fld; omega
  simp [decSR28, H, q0, boolBit, codeBack, codeLt]
theorem ddel (rd : Reg) (ra : Reg) : Statement (.ddel rd ra) := by
  obtain ⟨l, F⟩ := form2 _ 40 2 _ _ (by decide) rfl (rd.isLt) (ra.isLt) (by decide)
  refine ofR rfl rfl fun w => ⟨l, fun g S h => ?_⟩
  have H := F g S h
  rw [majorR28 S H.1]
  simp [decSR28, H, boolBit, codeBack, codeLt]
theorem fadd (fmt : FFmt) (rd : Reg) (ra : Reg) (rb : Reg) : Statement (.fadd fmt rd ra rb) := by
  obtain ⟨l, F⟩ := form17 _ 41 0 _ _ _ _ (by decide) rfl (Nat.lt_trans (codeLt fmt) (by decide)) (rd.isLt) (ra.isLt) (rb.isLt) (by decide)
  refine ofR rfl rfl fun w => ⟨l, fun g S h => ?_⟩
  have H := F g S h
  rw [majorR29 S H.1]
  simp [decSR29, H, boolBit, codeBack, codeLt]
theorem fsub (fmt : FFmt) (rd : Reg) (ra : Reg) (rb : Reg) : Statement (.fsub fmt rd ra rb) := by
  obtain ⟨l, F⟩ := form17 _ 41 1 _ _ _ _ (by decide) rfl (Nat.lt_trans (codeLt fmt) (by decide)) (rd.isLt) (ra.isLt) (rb.isLt) (by decide)
  refine ofR rfl rfl fun w => ⟨l, fun g S h => ?_⟩
  have H := F g S h
  rw [majorR29 S H.1]
  simp [decSR29, H, boolBit, codeBack, codeLt]
theorem fmul (fmt : FFmt) (rd : Reg) (ra : Reg) (rb : Reg) : Statement (.fmul fmt rd ra rb) := by
  obtain ⟨l, F⟩ := form17 _ 41 2 _ _ _ _ (by decide) rfl (Nat.lt_trans (codeLt fmt) (by decide)) (rd.isLt) (ra.isLt) (rb.isLt) (by decide)
  refine ofR rfl rfl fun w => ⟨l, fun g S h => ?_⟩
  have H := F g S h
  rw [majorR29 S H.1]
  simp [decSR29, H, boolBit, codeBack, codeLt]
theorem fma (fmt : FFmt) (rd : Reg) (ra : Reg) (rb : Reg) : Statement (.fma fmt rd ra rb) := by
  obtain ⟨l, F⟩ := form17 _ 41 3 _ _ _ _ (by decide) rfl (Nat.lt_trans (codeLt fmt) (by decide)) (rd.isLt) (ra.isLt) (rb.isLt) (by decide)
  refine ofR rfl rfl fun w => ⟨l, fun g S h => ?_⟩
  have H := F g S h
  rw [majorR29 S H.1]
  simp [decSR29, H, boolBit, codeBack, codeLt]
theorem fmin (fmt : FFmt) (rd : Reg) (ra : Reg) (rb : Reg) : Statement (.fmin fmt rd ra rb) := by
  obtain ⟨l, F⟩ := form17 _ 42 0 _ _ _ _ (by decide) rfl (Nat.lt_trans (codeLt fmt) (by decide)) (rd.isLt) (ra.isLt) (rb.isLt) (by decide)
  refine ofR rfl rfl fun w => ⟨l, fun g S h => ?_⟩
  have H := F g S h
  rw [majorR2A S H.1]
  simp [decSR2A, H, boolBit, codeBack, codeLt]
theorem fmax (fmt : FFmt) (rd : Reg) (ra : Reg) (rb : Reg) : Statement (.fmax fmt rd ra rb) := by
  obtain ⟨l, F⟩ := form17 _ 42 1 _ _ _ _ (by decide) rfl (Nat.lt_trans (codeLt fmt) (by decide)) (rd.isLt) (ra.isLt) (rb.isLt) (by decide)
  refine ofR rfl rfl fun w => ⟨l, fun g S h => ?_⟩
  have H := F g S h
  rw [majorR2A S H.1]
  simp [decSR2A, H, boolBit, codeBack, codeLt]
theorem fclass (fmt : FFmt) (rd : Reg) (ra : Reg) : Statement (.fclass fmt rd ra) := by
  obtain ⟨l, F⟩ := form18 _ 42 2 0 _ _ _ (by decide) rfl (Nat.lt_trans (codeLt fmt) (by decide)) (rd.isLt) (ra.isLt) (by decide) (by decide)
  refine ofR rfl rfl fun w => ⟨l, fun g S h => ?_⟩
  have H := F g S h
  rw [majorR2A S H.1]
  simp [decSR2A, H, boolBit, codeBack, codeLt]
theorem fcmpEq (fmt : FFmt) (pt : Pred) (pf : Pred) (ra : Reg) (rb : Reg) : Statement (.fcmpEq fmt pt pf ra rb) := by
  obtain ⟨l, F⟩ := form19 _ 43 0 _ _ _ _ _ (by decide) rfl (Nat.lt_trans (codeLt fmt) (by decide)) (pt.isLt) (pf.isLt) (ra.isLt) (rb.isLt) (by decide)
  refine ofR rfl rfl fun w => ⟨l, fun g S h => ?_⟩
  have H := F g S h
  rw [majorR2B S H.1]
  simp [decSR2B, H, boolBit, codeBack, codeLt]
theorem fcmpLt (fmt : FFmt) (pt : Pred) (pf : Pred) (ra : Reg) (rb : Reg) : Statement (.fcmpLt fmt pt pf ra rb) := by
  obtain ⟨l, F⟩ := form19 _ 44 0 _ _ _ _ _ (by decide) rfl (Nat.lt_trans (codeLt fmt) (by decide)) (pt.isLt) (pf.isLt) (ra.isLt) (rb.isLt) (by decide)
  refine ofR rfl rfl fun w => ⟨l, fun g S h => ?_⟩
  have H := F g S h
  rw [majorR2C S H.1]
  simp [decSR2C, H, boolBit, codeBack, codeLt]
theorem fcmpLe (fmt : FFmt) (pt : Pred) (pf : Pred) (ra : Reg) (rb : Reg) : Statement (.fcmpLe fmt pt pf ra rb) := by
  obtain ⟨l, F⟩ := form19 _ 45 0 _ _ _ _ _ (by decide) rfl (Nat.lt_trans (codeLt fmt) (by decide)) (pt.isLt) (pf.isLt) (ra.isLt) (rb.isLt) (by decide)
  refine ofR rfl rfl fun w => ⟨l, fun g S h => ?_⟩
  have H := F g S h
  rw [majorR2D S H.1]
  simp [decSR2D, H, boolBit, codeBack, codeLt]
theorem fcmpUn (fmt : FFmt) (pt : Pred) (pf : Pred) (ra : Reg) (rb : Reg) : Statement (.fcmpUn fmt pt pf ra rb) := by
  obtain ⟨l, F⟩ := form19 _ 46 0 _ _ _ _ _ (by decide) rfl (Nat.lt_trans (codeLt fmt) (by decide)) (pt.isLt) (pf.isLt) (ra.isLt) (rb.isLt) (by decide)
  refine ofR rfl rfl fun w => ⟨l, fun g S h => ?_⟩
  have H := F g S h
  rw [majorR2E S H.1]
  simp [decSR2E, H, boolBit, codeBack, codeLt]
theorem qbsE2m1 (rd : Reg) (ra : Reg) (rb : Reg) : Statement (.qbsE2m1 rd ra rb) := by
  obtain ⟨l, F⟩ := form1 _ 47 0 _ _ _ (by decide) rfl (rd.isLt) (ra.isLt) (rb.isLt) (by decide)
  refine ofR rfl rfl fun w => ⟨l, fun g S h => ?_⟩
  have H := F g S h
  rw [majorR2F S H.1]
  simp [decSR2F, H, boolBit, codeBack, codeLt]
theorem qbsE4m3 (rd : Reg) (ra : Reg) (rb : Reg) : Statement (.qbsE4m3 rd ra rb) := by
  obtain ⟨l, F⟩ := form1 _ 47 1 _ _ _ (by decide) rfl (rd.isLt) (ra.isLt) (rb.isLt) (by decide)
  refine ofR rfl rfl fun w => ⟨l, fun g S h => ?_⟩
  have H := F g S h
  rw [majorR2F S H.1]
  simp [decSR2F, H, boolBit, codeBack, codeLt]
theorem dqbsE2m1 (rd : Reg) (ra : Reg) (rb : Reg) : Statement (.dqbsE2m1 rd ra rb) := by
  obtain ⟨l, F⟩ := form1 _ 47 2 _ _ _ (by decide) rfl (rd.isLt) (ra.isLt) (rb.isLt) (by decide)
  refine ofR rfl rfl fun w => ⟨l, fun g S h => ?_⟩
  have H := F g S h
  rw [majorR2F S H.1]
  simp [decSR2F, H, boolBit, codeBack, codeLt]
theorem dqbsE4m3 (rd : Reg) (ra : Reg) (rb : Reg) : Statement (.dqbsE4m3 rd ra rb) := by
  obtain ⟨l, F⟩ := form1 _ 47 3 _ _ _ (by decide) rfl (rd.isLt) (ra.isLt) (rb.isLt) (by decide)
  refine ofR rfl rfl fun w => ⟨l, fun g S h => ?_⟩
  have H := F g S h
  rw [majorR2F S H.1]
  simp [decSR2F, H, boolBit, codeBack, codeLt]
theorem nisplit (rd : Reg) (ra : Reg) : Statement (.nisplit rd ra) := by
  obtain ⟨l, F⟩ := form2 _ 47 4 _ _ (by decide) rfl (rd.isLt) (ra.isLt) (by decide)
  refine ofR rfl rfl fun w => ⟨l, fun g S h => ?_⟩
  have H := F g S h
  rw [majorR2F S H.1]
  simp [decSR2F, H, boolBit, codeBack, codeLt]
theorem nijoin (rd : Reg) (ra : Reg) (rb : Reg) : Statement (.nijoin rd ra rb) := by
  obtain ⟨l, F⟩ := form1 _ 47 5 _ _ _ (by decide) rfl (rd.isLt) (ra.isLt) (rb.isLt) (by decide)
  refine ofR rfl rfl fun w => ⟨l, fun g S h => ?_⟩
  have H := F g S h
  rw [majorR2F S H.1]
  have b_rd := rd.isLt
  have b_ra := ra.isLt
  have b_rb := rb.isLt
  have q0 : ¬ fld S 0 9 = 4 := by unfold fld; omega
  simp [decSR2F, H, q0, boolBit, codeBack, codeLt]
theorem cvt (dst : Fmt) (src : Fmt) (rd : Reg) (ra : Reg) : Statement (.cvt dst src rd ra) := by
  refine ofR rfl rfl fun w => ?_
  have r1 := rd.isLt; have r2 := ra.isLt; have r3 := dst.isLt; have r4 := src.isLt
  refine ⟨by omega, fun g S h => ?_⟩
  obtain ⟨u, v, hu, hv, hq⟩ : ∃ u v, u < 2 ∧ v < 16 ∧ src.toNat = 16 * u + v := ⟨src.toNat / 16, src.toNat % 16, by omega, by omega, by omega⟩
  have h1 : src.toNat / 16 = u := by omega
  have h2 : src.toNat % 16 = v := by omega
  rw [h1, h2] at h
  have a0 : S / 2 ^ 19 = g * 64 + (0x30 + u) := by omega
  have a1 : S / 2 ^ 14 = (g * 64 + (0x30 + u)) * 32 + rd.toNat := by omega
  have a2 : S / 2 ^ 9 = ((g * 64 + (0x30 + u)) * 32 + rd.toNat) * 32 + ra.toNat := by omega
  have a3 : S / 2 ^ 4 = (((g * 64 + (0x30 + u)) * 32 + rd.toNat) * 32 + ra.toNat) * 32 + dst.toNat := by omega
  have a : fld S 19 6 = 0x30 + u := by unfold fld; rw [a0]; omega
  have b0 : fld S 19 1 = u := by unfold fld; rw [a0]; omega
  have b1 : fld S 0 4 = v := by unfold fld; omega
  have b : fld S 19 1 * 16 + fld S 0 4 = src.toNat := by rw [b0, b1]; omega
  have d : fld S 4 5 = dst.toNat := by unfold fld; rw [a3]; omega
  have e : fld S 14 5 = rd.toNat := by unfold fld; rw [a1]; omega
  have f : fld S 9 5 = ra.toNat := by unfold fld; rw [a2]; omega
  rcases (show u = 0 ∨ u = 1 by omega) with q | q <;> rw [q] at a
  · rw [majorR30 S a]; simp [decSRcvt, b, d, e, f]
  · rw [majorR31 S a]; simp [decSRcvt, b, d, e, f]
theorem br (disp : BitVec 19) : Statement (.br disp) := by
  obtain ⟨l, F⟩ := form20 _ 50 _ (by decide) rfl (disp.isLt)
  refine ofR rfl rfl fun w => ⟨l, fun g S h => ?_⟩
  have H := F g S h
  rw [majorR32 S H.1]
  simp [decSR32, H, boolBit, codeBack, codeLt]
theorem brl (disp : BitVec 19) : Statement (.brl disp) := by
  obtain ⟨l, F⟩ := form20 _ 51 _ (by decide) rfl (disp.isLt)
  refine ofR rfl rfl fun w => ⟨l, fun g S h => ?_⟩
  have H := F g S h
  rw [majorR33 S H.1]
  simp [decSR33, H, boolBit, codeBack, codeLt]
theorem loop (rc : Reg) (disp : BitVec 14) : Statement (.loop rc disp) := by
  obtain ⟨l, F⟩ := form21 _ 52 _ _ (by decide) rfl (rc.isLt) (disp.isLt)
  refine ofR rfl rfl fun w => ⟨l, fun g S h => ?_⟩
  have H := F g S h
  rw [majorR34 S H.1]
  simp [decSR34, H, boolBit, codeBack, codeLt]
theorem bz (rc : Reg) (disp : BitVec 14) : Statement (.bz rc disp) := by
  obtain ⟨l, F⟩ := form21 _ 53 _ _ (by decide) rfl (rc.isLt) (disp.isLt)
  refine ofR rfl rfl fun w => ⟨l, fun g S h => ?_⟩
  have H := F g S h
  rw [majorR35 S H.1]
  simp [decSR35, H, boolBit, codeBack, codeLt]
theorem bnz (rc : Reg) (disp : BitVec 14) : Statement (.bnz rc disp) := by
  obtain ⟨l, F⟩ := form21 _ 54 _ _ (by decide) rfl (rc.isLt) (disp.isLt)
  refine ofR rfl rfl fun w => ⟨l, fun g S h => ?_⟩
  have H := F g S h
  rw [majorR36 S H.1]
  simp [decSR36, H, boolBit, codeBack, codeLt]
theorem jr (ra : Reg) : Statement (.jr ra) := by
  obtain ⟨l, F⟩ := form10 _ 55 0 0 _ (by decide) rfl (ra.isLt) (by decide) (by decide)
  refine ofR rfl rfl fun w => ⟨l, fun g S h => ?_⟩
  have H := F g S h
  rw [majorR37 S H.1]
  simp [decSR37, H, boolBit, codeBack, codeLt]
theorem jrl (rd : Reg) (ra : Reg) : Statement (.jrl rd ra) := by
  obtain ⟨l, F⟩ := form2 _ 55 1 _ _ (by decide) rfl (rd.isLt) (ra.isLt) (by decide)
  refine ofR rfl rfl fun w => ⟨l, fun g S h => ?_⟩
  have H := F g S h
  rw [majorR37 S H.1]
  simp [decSR37, H, boolBit, codeBack, codeLt]
theorem mstat (rd : Reg) (ra : Reg) (rb : Reg) : Statement (.mstat rd ra rb) := by
  obtain ⟨l, F⟩ := form1 _ 56 0 _ _ _ (by decide) rfl (rd.isLt) (ra.isLt) (rb.isLt) (by decide)
  refine ofR rfl rfl fun w => ⟨l, fun g S h => ?_⟩
  have H := F g S h
  rw [majorR38 S H.1]
  simp [decSR38, H, boolBit, codeBack, codeLt]
theorem munstat (rd : Reg) (ra : Reg) : Statement (.munstat rd ra) := by
  obtain ⟨l, F⟩ := form2 _ 56 1 _ _ (by decide) rfl (rd.isLt) (ra.isLt) (by decide)
  refine ofR rfl rfl fun w => ⟨l, fun g S h => ?_⟩
  have H := F g S h
  rw [majorR38 S H.1]
  simp [decSR38, H, boolBit, codeBack, codeLt]
theorem mma (ra : Reg) : Statement (.mma ra) := by
  obtain ⟨l, F⟩ := form10 _ 56 2 0 _ (by decide) rfl (ra.isLt) (by decide) (by decide)
  refine ofR rfl rfl fun w => ⟨l, fun g S h => ?_⟩
  have H := F g S h
  rw [majorR38 S H.1]
  simp [decSR38, H, boolBit, codeBack, codeLt]
theorem macc (rd : Reg) (ra : Reg) : Statement (.macc rd ra) := by
  obtain ⟨l, F⟩ := form2 _ 56 3 _ _ (by decide) rfl (rd.isLt) (ra.isLt) (by decide)
  refine ofR rfl rfl fun w => ⟨l, fun g S h => ?_⟩
  have H := F g S h
  rw [majorR38 S H.1]
  simp [decSR38, H, boolBit, codeBack, codeLt]
theorem mrd (ra : Reg) : Statement (.mrd ra) := by
  obtain ⟨l, F⟩ := form10 _ 56 4 0 _ (by decide) rfl (ra.isLt) (by decide) (by decide)
  refine ofR rfl rfl fun w => ⟨l, fun g S h => ?_⟩
  have H := F g S h
  rw [majorR38 S H.1]
  simp [decSR38, H, boolBit, codeBack, codeLt]
theorem mrdv (ra : Reg) : Statement (.mrdv ra) := by
  obtain ⟨l, F⟩ := form10 _ 56 5 0 _ (by decide) rfl (ra.isLt) (by decide) (by decide)
  refine ofR rfl rfl fun w => ⟨l, fun g S h => ?_⟩
  have H := F g S h
  rw [majorR38 S H.1]
  simp [decSR38, H, boolBit, codeBack, codeLt]
theorem mstatus (rd : Reg) (ra : Reg) : Statement (.mstatus rd ra) := by
  obtain ⟨l, F⟩ := form2 _ 56 6 _ _ (by decide) rfl (rd.isLt) (ra.isLt) (by decide)
  refine ofR rfl rfl fun w => ⟨l, fun g S h => ?_⟩
  have H := F g S h
  rw [majorR38 S H.1]
  simp [decSR38, H, boolBit, codeBack, codeLt]
theorem put (rd : Reg) (ra : Reg) : Statement (.put rd ra) := by
  obtain ⟨l, F⟩ := form2 _ 57 0 _ _ (by decide) rfl (rd.isLt) (ra.isLt) (by decide)
  refine ofR rfl rfl fun w => ⟨l, fun g S h => ?_⟩
  have H := F g S h
  rw [majorR39 S H.1]
  simp [decSR39, H, boolBit, codeBack, codeLt]
theorem putI (rd : Reg) (ra : Reg) : Statement (.putI rd ra) := by
  obtain ⟨l, F⟩ := form2 _ 57 1 _ _ (by decide) rfl (rd.isLt) (ra.isLt) (by decide)
  refine ofR rfl rfl fun w => ⟨l, fun g S h => ?_⟩
  have H := F g S h
  rw [majorR39 S H.1]
  simp [decSR39, H, boolBit, codeBack, codeLt]
theorem putR (rd : Reg) (ra : Reg) : Statement (.putR rd ra) := by
  obtain ⟨l, F⟩ := form2 _ 57 2 _ _ (by decide) rfl (rd.isLt) (ra.isLt) (by decide)
  refine ofR rfl rfl fun w => ⟨l, fun g S h => ?_⟩
  have H := F g S h
  rw [majorR39 S H.1]
  simp [decSR39, H, boolBit, codeBack, codeLt]
theorem putG (rd : Reg) (ra : Reg) : Statement (.putG rd ra) := by
  obtain ⟨l, F⟩ := form2 _ 57 3 _ _ (by decide) rfl (rd.isLt) (ra.isLt) (by decide)
  refine ofR rfl rfl fun w => ⟨l, fun g S h => ?_⟩
  have H := F g S h
  rw [majorR39 S H.1]
  simp [decSR39, H, boolBit, codeBack, codeLt]
theorem readB (rd : Reg) (ra : Reg) : Statement (.readB rd ra) := by
  obtain ⟨l, F⟩ := form2 _ 57 4 _ _ (by decide) rfl (rd.isLt) (ra.isLt) (by decide)
  refine ofR rfl rfl fun w => ⟨l, fun g S h => ?_⟩
  have H := F g S h
  rw [majorR39 S H.1]
  simp [decSR39, H, boolBit, codeBack, codeLt]
theorem readP (rd : Reg) (ra : Reg) : Statement (.readP rd ra) := by
  obtain ⟨l, F⟩ := form2 _ 57 5 _ _ (by decide) rfl (rd.isLt) (ra.isLt) (by decide)
  refine ofR rfl rfl fun w => ⟨l, fun g S h => ?_⟩
  have H := F g S h
  rw [majorR39 S H.1]
  simp [decSR39, H, boolBit, codeBack, codeLt]
theorem readC (rd : Reg) (ra : Reg) : Statement (.readC rd ra) := by
  obtain ⟨l, F⟩ := form2 _ 57 6 _ _ (by decide) rfl (rd.isLt) (ra.isLt) (by decide)
  refine ofR rfl rfl fun w => ⟨l, fun g S h => ?_⟩
  have H := F g S h
  rw [majorR39 S H.1]
  simp [decSR39, H, boolBit, codeBack, codeLt]
theorem takeB (rd : Reg) (ra : Reg) : Statement (.takeB rd ra) := by
  obtain ⟨l, F⟩ := form2 _ 57 7 _ _ (by decide) rfl (rd.isLt) (ra.isLt) (by decide)
  refine ofR rfl rfl fun w => ⟨l, fun g S h => ?_⟩
  have H := F g S h
  rw [majorR39 S H.1]
  simp [decSR39, H, boolBit, codeBack, codeLt]
theorem takeP (rd : Reg) (ra : Reg) : Statement (.takeP rd ra) := by
  obtain ⟨l, F⟩ := form2 _ 57 8 _ _ (by decide) rfl (rd.isLt) (ra.isLt) (by decide)
  refine ofR rfl rfl fun w => ⟨l, fun g S h => ?_⟩
  have H := F g S h
  rw [majorR39 S H.1]
  simp [decSR39, H, boolBit, codeBack, codeLt]
theorem takeC (rd : Reg) (ra : Reg) : Statement (.takeC rd ra) := by
  obtain ⟨l, F⟩ := form2 _ 57 9 _ _ (by decide) rfl (rd.isLt) (ra.isLt) (by decide)
  refine ofR rfl rfl fun w => ⟨l, fun g S h => ?_⟩
  have H := F g S h
  rw [majorR39 S H.1]
  simp [decSR39, H, boolBit, codeBack, codeLt]
theorem takeN (rd : Reg) (ra : Reg) (rb : Reg) : Statement (.takeN rd ra rb) := by
  obtain ⟨l, F⟩ := form1 _ 57 10 _ _ _ (by decide) rfl (rd.isLt) (ra.isLt) (rb.isLt) (by decide)
  refine ofR rfl rfl fun w => ⟨l, fun g S h => ?_⟩
  have H := F g S h
  rw [majorR39 S H.1]
  have b_rd := rd.isLt
  have b_ra := ra.isLt
  have b_rb := rb.isLt
  have q0 : ¬ fld S 0 9 = 0 := by unfold fld; omega
  have q1 : ¬ fld S 0 9 = 1 := by unfold fld; omega
  have q2 : ¬ fld S 0 9 = 2 := by unfold fld; omega
  have q3 : ¬ fld S 0 9 = 3 := by unfold fld; omega
  have q4 : ¬ fld S 0 9 = 4 := by unfold fld; omega
  have q5 : ¬ fld S 0 9 = 5 := by unfold fld; omega
  have q6 : ¬ fld S 0 9 = 6 := by unfold fld; omega
  have q7 : ¬ fld S 0 9 = 7 := by unfold fld; omega
  have q8 : ¬ fld S 0 9 = 8 := by unfold fld; omega
  have q9 : ¬ fld S 0 9 = 9 := by unfold fld; omega
  simp [decSR39, H, q0, q1, q2, q3, q4, q5, q6, q7, q8, q9, boolBit, codeBack, codeLt]
theorem range (rd : Reg) (ra : Reg) : Statement (.range rd ra) := by
  obtain ⟨l, F⟩ := form2 _ 57 11 _ _ (by decide) rfl (rd.isLt) (ra.isLt) (by decide)
  refine ofR rfl rfl fun w => ⟨l, fun g S h => ?_⟩
  have H := F g S h
  rw [majorR39 S H.1]
  simp [decSR39, H, boolBit, codeBack, codeLt]
theorem accO (rd : Reg) (ra : Reg) : Statement (.accO rd ra) := by
  obtain ⟨l, F⟩ := form2 _ 57 12 _ _ (by decide) rfl (rd.isLt) (ra.isLt) (by decide)
  refine ofR rfl rfl fun w => ⟨l, fun g S h => ?_⟩
  have H := F g S h
  rw [majorR39 S H.1]
  simp [decSR39, H, boolBit, codeBack, codeLt]
theorem accA (rd : Reg) (ra : Reg) (rb : Reg) : Statement (.accA rd ra rb) := by
  obtain ⟨l, F⟩ := form1 _ 57 13 _ _ _ (by decide) rfl (rd.isLt) (ra.isLt) (rb.isLt) (by decide)
  refine ofR rfl rfl fun w => ⟨l, fun g S h => ?_⟩
  have H := F g S h
  rw [majorR39 S H.1]
  have b_rd := rd.isLt
  have b_ra := ra.isLt
  have b_rb := rb.isLt
  have q0 : ¬ fld S 0 9 = 0 := by unfold fld; omega
  have q1 : ¬ fld S 0 9 = 1 := by unfold fld; omega
  have q2 : ¬ fld S 0 9 = 2 := by unfold fld; omega
  have q3 : ¬ fld S 0 9 = 3 := by unfold fld; omega
  have q4 : ¬ fld S 0 9 = 4 := by unfold fld; omega
  have q5 : ¬ fld S 0 9 = 5 := by unfold fld; omega
  have q6 : ¬ fld S 0 9 = 6 := by unfold fld; omega
  have q7 : ¬ fld S 0 9 = 7 := by unfold fld; omega
  have q8 : ¬ fld S 0 9 = 8 := by unfold fld; omega
  have q9 : ¬ fld S 0 9 = 9 := by unfold fld; omega
  have q10 : ¬ fld S 0 9 = 11 := by unfold fld; omega
  have q11 : ¬ fld S 0 9 = 12 := by unfold fld; omega
  simp [decSR39, H, q0, q1, q2, q3, q4, q5, q6, q7, q8, q9, q10, q11, boolBit, codeBack, codeLt]
theorem ctrO (rd : Reg) (ra : Reg) : Statement (.ctrO rd ra) := by
  obtain ⟨l, F⟩ := form2 _ 57 14 _ _ (by decide) rfl (rd.isLt) (ra.isLt) (by decide)
  refine ofR rfl rfl fun w => ⟨l, fun g S h => ?_⟩
  have H := F g S h
  rw [majorR39 S H.1]
  simp [decSR39, H, boolBit, codeBack, codeLt]
theorem ctrA (rd : Reg) (ra : Reg) (rb : Reg) : Statement (.ctrA rd ra rb) := by
  obtain ⟨l, F⟩ := form1 _ 57 15 _ _ _ (by decide) rfl (rd.isLt) (ra.isLt) (rb.isLt) (by decide)
  refine ofR rfl rfl fun w => ⟨l, fun g S h => ?_⟩
  have H := F g S h
  rw [majorR39 S H.1]
  have b_rd := rd.isLt
  have b_ra := ra.isLt
  have b_rb := rb.isLt
  have q0 : ¬ fld S 0 9 = 0 := by unfold fld; omega
  have q1 : ¬ fld S 0 9 = 1 := by unfold fld; omega
  have q2 : ¬ fld S 0 9 = 2 := by unfold fld; omega
  have q3 : ¬ fld S 0 9 = 3 := by unfold fld; omega
  have q4 : ¬ fld S 0 9 = 4 := by unfold fld; omega
  have q5 : ¬ fld S 0 9 = 5 := by unfold fld; omega
  have q6 : ¬ fld S 0 9 = 6 := by unfold fld; omega
  have q7 : ¬ fld S 0 9 = 7 := by unfold fld; omega
  have q8 : ¬ fld S 0 9 = 8 := by unfold fld; omega
  have q9 : ¬ fld S 0 9 = 9 := by unfold fld; omega
  have q10 : ¬ fld S 0 9 = 11 := by unfold fld; omega
  have q11 : ¬ fld S 0 9 = 12 := by unfold fld; omega
  have q12 : ¬ fld S 0 9 = 14 := by unfold fld; omega
  simp [decSR39, H, q0, q1, q2, q3, q4, q5, q6, q7, q8, q9, q10, q11, q12, boolBit, codeBack, codeLt]
theorem tcancel (rd : Reg) (ra : Reg) : Statement (.tcancel rd ra) := by
  obtain ⟨l, F⟩ := form2 _ 58 0 _ _ (by decide) rfl (rd.isLt) (ra.isLt) (by decide)
  refine ofR rfl rfl fun w => ⟨l, fun g S h => ?_⟩
  have H := F g S h
  rw [majorR3A S H.1]
  simp [decSR3A, H, boolBit, codeBack, codeLt]
theorem tfence : Statement .tfence := by
  obtain ⟨l, F⟩ := form0 _ 58 1 (by decide) rfl (by decide)
  refine ofR rfl rfl fun w => ⟨l, fun g S h => ?_⟩
  have H := F g S h
  rw [majorR3A S H.1]
  have q0 : ¬ fld S 0 9 = 0 := by unfold fld; omega
  simp [decSR3A, H, q0, boolBit, codeBack, codeLt]
theorem copyin (rd : Reg) (ra : Reg) : Statement (.copyin rd ra) := by
  obtain ⟨l, F⟩ := form2 _ 58 2 _ _ (by decide) rfl (rd.isLt) (ra.isLt) (by decide)
  refine ofR rfl rfl fun w => ⟨l, fun g S h => ?_⟩
  have H := F g S h
  rw [majorR3A S H.1]
  have b_rd := rd.isLt
  have b_ra := ra.isLt
  have q0 : ¬ fld S 0 19 = 1 := by unfold fld; omega
  simp [decSR3A, H, q0, boolBit, codeBack, codeLt]
theorem copyout (rd : Reg) (ra : Reg) : Statement (.copyout rd ra) := by
  obtain ⟨l, F⟩ := form2 _ 58 3 _ _ (by decide) rfl (rd.isLt) (ra.isLt) (by decide)
  refine ofR rfl rfl fun w => ⟨l, fun g S h => ?_⟩
  have H := F g S h
  rw [majorR3A S H.1]
  have b_rd := rd.isLt
  have b_ra := ra.isLt
  have q0 : ¬ fld S 0 19 = 1 := by unfold fld; omega
  simp [decSR3A, H, q0, boolBit, codeBack, codeLt]
theorem copyr (rd : Reg) (ra : Reg) : Statement (.copyr rd ra) := by
  obtain ⟨l, F⟩ := form2 _ 58 4 _ _ (by decide) rfl (rd.isLt) (ra.isLt) (by decide)
  refine ofR rfl rfl fun w => ⟨l, fun g S h => ?_⟩
  have H := F g S h
  rw [majorR3A S H.1]
  have b_rd := rd.isLt
  have b_ra := ra.isLt
  have q0 : ¬ fld S 0 19 = 1 := by unfold fld; omega
  simp [decSR3A, H, q0, boolBit, codeBack, codeLt]
theorem freeze (rd : Reg) (ra : Reg) : Statement (.freeze rd ra) := by
  obtain ⟨l, F⟩ := form2 _ 58 5 _ _ (by decide) rfl (rd.isLt) (ra.isLt) (by decide)
  refine ofR rfl rfl fun w => ⟨l, fun g S h => ?_⟩
  have H := F g S h
  rw [majorR3A S H.1]
  have b_rd := rd.isLt
  have b_ra := ra.isLt
  have q0 : ¬ fld S 0 19 = 1 := by unfold fld; omega
  simp [decSR3A, H, q0, boolBit, codeBack, codeLt]
theorem split (rd : Reg) (ra : Reg) : Statement (.split rd ra) := by
  obtain ⟨l, F⟩ := form2 _ 58 6 _ _ (by decide) rfl (rd.isLt) (ra.isLt) (by decide)
  refine ofR rfl rfl fun w => ⟨l, fun g S h => ?_⟩
  have H := F g S h
  rw [majorR3A S H.1]
  have b_rd := rd.isLt
  have b_ra := ra.isLt
  have q0 : ¬ fld S 0 19 = 1 := by unfold fld; omega
  simp [decSR3A, H, q0, boolBit, codeBack, codeLt]
theorem tstat (rd : Reg) (ra : Reg) : Statement (.tstat rd ra) := by
  obtain ⟨l, F⟩ := form2 _ 58 7 _ _ (by decide) rfl (rd.isLt) (ra.isLt) (by decide)
  refine ofR rfl rfl fun w => ⟨l, fun g S h => ?_⟩
  have H := F g S h
  rw [majorR3A S H.1]
  have b_rd := rd.isLt
  have b_ra := ra.isLt
  have q0 : ¬ fld S 0 19 = 1 := by unfold fld; omega
  simp [decSR3A, H, q0, boolBit, codeBack, codeLt]
theorem bars (rd : Reg) (ra : Reg) : Statement (.bars rd ra) := by
  obtain ⟨l, F⟩ := form2 _ 59 0 _ _ (by decide) rfl (rd.isLt) (ra.isLt) (by decide)
  refine ofR rfl rfl fun w => ⟨l, fun g S h => ?_⟩
  have H := F g S h
  rw [majorR3B S H.1]
  simp [decSR3B, H, boolBit, codeBack, codeLt]
theorem barr (ra : Reg) : Statement (.barr ra) := by
  obtain ⟨l, F⟩ := form10 _ 59 1 0 _ (by decide) rfl (ra.isLt) (by decide) (by decide)
  refine ofR rfl rfl fun w => ⟨l, fun g S h => ?_⟩
  have H := F g S h
  rw [majorR3B S H.1]
  simp [decSR3B, H, boolBit, codeBack, codeLt]
theorem barw (ra : Reg) : Statement (.barw ra) := by
  obtain ⟨l, F⟩ := form10 _ 59 2 0 _ (by decide) rfl (ra.isLt) (by decide) (by decide)
  refine ofR rfl rfl fun w => ⟨l, fun g S h => ?_⟩
  have H := F g S h
  rw [majorR3B S H.1]
  simp [decSR3B, H, boolBit, codeBack, codeLt]
theorem spend : Statement .spend := by
  obtain ⟨l, F⟩ := form0 _ 59 3 (by decide) rfl (by decide)
  refine ofR rfl rfl fun w => ⟨l, fun g S h => ?_⟩
  have H := F g S h
  rw [majorR3B S H.1]
  have q0 : ¬ fld S 0 9 = 0 := by unfold fld; omega
  have q1 : ¬ fld S 0 9 = 1 := by unfold fld; omega
  have q2 : ¬ fld S 0 9 = 2 := by unfold fld; omega
  simp [decSR3B, H, q0, q1, q2, boolBit, codeBack, codeLt]
theorem spst (rd : Reg) : Statement (.spst rd) := by
  obtain ⟨l, F⟩ := form8 _ 59 4 _ (by decide) rfl (rd.isLt) (by decide)
  refine ofR rfl rfl fun w => ⟨l, fun g S h => ?_⟩
  have H := F g S h
  rw [majorR3B S H.1]
  have b_rd := rd.isLt
  have q0 : ¬ fld S 0 9 = 0 := by unfold fld; omega
  have q1 : ¬ fld S 0 9 = 1 := by unfold fld; omega
  have q2 : ¬ fld S 0 9 = 2 := by unfold fld; omega
  have q3 : ¬ fld S 0 19 = 3 := by unfold fld; omega
  simp [decSR3B, H, q0, q1, q2, q3, boolBit, codeBack, codeLt]
theorem fence (ra : Reg) : Statement (.fence ra) := by
  obtain ⟨l, F⟩ := form10 _ 59 5 0 _ (by decide) rfl (ra.isLt) (by decide) (by decide)
  refine ofR rfl rfl fun w => ⟨l, fun g S h => ?_⟩
  have H := F g S h
  rw [majorR3B S H.1]
  have b_ra := ra.isLt
  have q0 : ¬ fld S 0 19 = 3 := by unfold fld; omega
  have q1 : ¬ fld S 0 14 = 4 := by unfold fld; omega
  simp [decSR3B, H, q0, q1, boolBit, codeBack, codeLt]
theorem yield : Statement .yield := by
  obtain ⟨l, F⟩ := form0 _ 59 6 (by decide) rfl (by decide)
  refine ofR rfl rfl fun w => ⟨l, fun g S h => ?_⟩
  have H := F g S h
  rw [majorR3B S H.1]
  have q0 : ¬ fld S 0 9 = 0 := by unfold fld; omega
  have q1 : ¬ fld S 0 9 = 1 := by unfold fld; omega
  have q2 : ¬ fld S 0 9 = 2 := by unfold fld; omega
  have q3 : ¬ fld S 0 14 = 4 := by unfold fld; omega
  have q4 : ¬ fld S 0 9 = 5 := by unfold fld; omega
  simp [decSR3B, H, q0, q1, q2, q3, q4, boolBit, codeBack, codeLt]
theorem sleep (rd : Reg) (ra : Reg) : Statement (.sleep rd ra) := by
  obtain ⟨l, F⟩ := form2 _ 59 7 _ _ (by decide) rfl (rd.isLt) (ra.isLt) (by decide)
  refine ofR rfl rfl fun w => ⟨l, fun g S h => ?_⟩
  have H := F g S h
  rw [majorR3B S H.1]
  have b_rd := rd.isLt
  have b_ra := ra.isLt
  have q0 : ¬ fld S 0 19 = 3 := by unfold fld; omega
  have q1 : ¬ fld S 0 14 = 4 := by unfold fld; omega
  have q2 : ¬ fld S 0 19 = 6 := by unfold fld; omega
  simp [decSR3B, H, q0, q1, q2, boolBit, codeBack, codeLt]
theorem wake (ra : Reg) : Statement (.wake ra) := by
  obtain ⟨l, F⟩ := form10 _ 59 8 0 _ (by decide) rfl (ra.isLt) (by decide) (by decide)
  refine ofR rfl rfl fun w => ⟨l, fun g S h => ?_⟩
  have H := F g S h
  rw [majorR3B S H.1]
  have b_ra := ra.isLt
  have q0 : ¬ fld S 0 19 = 3 := by unfold fld; omega
  have q1 : ¬ fld S 0 14 = 4 := by unfold fld; omega
  have q2 : ¬ fld S 0 19 = 6 := by unfold fld; omega
  simp [decSR3B, H, q0, q1, q2, boolBit, codeBack, codeLt]
theorem spawn (rd : Reg) (ra : Reg) (rb : Reg) : Statement (.spawn rd ra rb) := by
  obtain ⟨l, F⟩ := form1 _ 60 0 _ _ _ (by decide) rfl (rd.isLt) (ra.isLt) (rb.isLt) (by decide)
  refine ofR rfl rfl fun w => ⟨l, fun g S h => ?_⟩
  have H := F g S h
  rw [majorR3C S H.1]
  simp [decSR3C, H, boolBit, codeBack, codeLt]
theorem send (rd : Reg) (ra : Reg) (rb : Reg) : Statement (.send rd ra rb) := by
  obtain ⟨l, F⟩ := form1 _ 60 1 _ _ _ (by decide) rfl (rd.isLt) (ra.isLt) (rb.isLt) (by decide)
  refine ofR rfl rfl fun w => ⟨l, fun g S h => ?_⟩
  have H := F g S h
  rw [majorR3C S H.1]
  simp [decSR3C, H, boolBit, codeBack, codeLt]
theorem exit : Statement .exit := by
  obtain ⟨l, F⟩ := form0 _ 60 2 (by decide) rfl (by decide)
  refine ofR rfl rfl fun w => ⟨l, fun g S h => ?_⟩
  have H := F g S h
  rw [majorR3C S H.1]
  simp [decSR3C, H, boolBit, codeBack, codeLt]
theorem prio (ra : Reg) : Statement (.prio ra) := by
  obtain ⟨l, F⟩ := form10 _ 60 3 0 _ (by decide) rfl (ra.isLt) (by decide) (by decide)
  refine ofR rfl rfl fun w => ⟨l, fun g S h => ?_⟩
  have H := F g S h
  rw [majorR3C S H.1]
  have b_ra := ra.isLt
  have q0 : ¬ fld S 0 19 = 2 := by unfold fld; omega
  simp [decSR3C, H, q0, boolBit, codeBack, codeLt]
theorem susp (rd : Reg) (ra : Reg) (rb : Reg) : Statement (.susp rd ra rb) := by
  obtain ⟨l, F⟩ := form1 _ 60 4 _ _ _ (by decide) rfl (rd.isLt) (ra.isLt) (rb.isLt) (by decide)
  refine ofR rfl rfl fun w => ⟨l, fun g S h => ?_⟩
  have H := F g S h
  rw [majorR3C S H.1]
  have b_rd := rd.isLt
  have b_ra := ra.isLt
  have b_rb := rb.isLt
  have q0 : ¬ fld S 0 19 = 2 := by unfold fld; omega
  have q1 : ¬ fld S 0 9 = 3 := by unfold fld; omega
  simp [decSR3C, H, q0, q1, boolBit, codeBack, codeLt]
theorem resume (rd : Reg) (ra : Reg) : Statement (.resume rd ra) := by
  obtain ⟨l, F⟩ := form2 _ 60 5 _ _ (by decide) rfl (rd.isLt) (ra.isLt) (by decide)
  refine ofR rfl rfl fun w => ⟨l, fun g S h => ?_⟩
  have H := F g S h
  rw [majorR3C S H.1]
  have b_rd := rd.isLt
  have b_ra := ra.isLt
  have q0 : ¬ fld S 0 19 = 2 := by unfold fld; omega
  simp [decSR3C, H, q0, boolBit, codeBack, codeLt]
theorem free (rd : Reg) (ra : Reg) : Statement (.free rd ra) := by
  obtain ⟨l, F⟩ := form2 _ 60 6 _ _ (by decide) rfl (rd.isLt) (ra.isLt) (by decide)
  refine ofR rfl rfl fun w => ⟨l, fun g S h => ?_⟩
  have H := F g S h
  rw [majorR3C S H.1]
  have b_rd := rd.isLt
  have b_ra := ra.isLt
  have q0 : ¬ fld S 0 19 = 2 := by unfold fld; omega
  simp [decSR3C, H, q0, boolBit, codeBack, codeLt]
theorem rdctx (rd : Reg) (ra : Reg) (rb : Reg) : Statement (.rdctx rd ra rb) := by
  obtain ⟨l, F⟩ := form1 _ 60 7 _ _ _ (by decide) rfl (rd.isLt) (ra.isLt) (rb.isLt) (by decide)
  refine ofR rfl rfl fun w => ⟨l, fun g S h => ?_⟩
  have H := F g S h
  rw [majorR3C S H.1]
  have b_rd := rd.isLt
  have b_ra := ra.isLt
  have b_rb := rb.isLt
  have q0 : ¬ fld S 0 19 = 2 := by unfold fld; omega
  have q1 : ¬ fld S 0 9 = 3 := by unfold fld; omega
  have q2 : ¬ fld S 0 9 = 5 := by unfold fld; omega
  have q3 : ¬ fld S 0 9 = 6 := by unfold fld; omega
  simp [decSR3C, H, q0, q1, q2, q3, boolBit, codeBack, codeLt]
theorem wrctx (rd : Reg) (ra : Reg) (rb : Reg) : Statement (.wrctx rd ra rb) := by
  obtain ⟨l, F⟩ := form1 _ 60 8 _ _ _ (by decide) rfl (rd.isLt) (ra.isLt) (rb.isLt) (by decide)
  refine ofR rfl rfl fun w => ⟨l, fun g S h => ?_⟩
  have H := F g S h
  rw [majorR3C S H.1]
  have b_rd := rd.isLt
  have b_ra := ra.isLt
  have b_rb := rb.isLt
  have q0 : ¬ fld S 0 19 = 2 := by unfold fld; omega
  have q1 : ¬ fld S 0 9 = 3 := by unfold fld; omega
  have q2 : ¬ fld S 0 9 = 5 := by unfold fld; omega
  have q3 : ¬ fld S 0 9 = 6 := by unfold fld; omega
  simp [decSR3C, H, q0, q1, q2, q3, boolBit, codeBack, codeLt]
theorem lend (ra : Reg) : Statement (.lend ra) := by
  obtain ⟨l, F⟩ := form10 _ 60 9 0 _ (by decide) rfl (ra.isLt) (by decide) (by decide)
  refine ofR rfl rfl fun w => ⟨l, fun g S h => ?_⟩
  have H := F g S h
  rw [majorR3C S H.1]
  have b_ra := ra.isLt
  have q0 : ¬ fld S 0 19 = 2 := by unfold fld; omega
  simp [decSR3C, H, q0, boolBit, codeBack, codeLt]
theorem timer (ra : Reg) (rb : Reg) : Statement (.timer ra rb) := by
  obtain ⟨l, F⟩ := form22 _ 60 10 0 _ _ (by decide) rfl (ra.isLt) (rb.isLt) (by decide) (by decide)
  refine ofR rfl rfl fun w => ⟨l, fun g S h => ?_⟩
  have H := F g S h
  rw [majorR3C S H.1]
  have b_ra := ra.isLt
  have b_rb := rb.isLt
  have q0 : ¬ fld S 0 19 = 2 := by unfold fld; omega
  have q1 : ¬ fld S 0 9 = 3 := by unfold fld; omega
  have q2 : ¬ fld S 0 9 = 5 := by unfold fld; omega
  have q3 : ¬ fld S 0 9 = 6 := by unfold fld; omega
  have q4 : ¬ fld S 0 9 = 9 := by unfold fld; omega
  simp [decSR3C, H, q0, q1, q2, q3, q4, boolBit, codeBack, codeLt]
theorem crget (rd : Reg) (rb : Reg) : Statement (.crget rd rb) := by
  obtain ⟨l, F⟩ := form23 _ 61 0 0 _ _ (by decide) rfl (rd.isLt) (rb.isLt) (by decide) (by decide)
  refine ofR rfl rfl fun w => ⟨l, fun g S h => ?_⟩
  have H := F g S h
  rw [majorR3D S H.1]
  simp [decSR3D, H, boolBit, codeBack, codeLt]
theorem crgetSl (rd : Reg) (num : BitVec 12) : Statement (.crgetSl rd num) := by
  obtain ⟨l, F⟩ := form8 _ 61 0 _ (by decide) rfl (rd.isLt) (by decide)
  have i_num := num.isLt
  refine ofL rfl rfl fun w => ⟨l, by omega, fun g S h => ?_⟩
  have H := F g S h
  rw [majorL3D S _ H.1]
  have k0 : fld (num.toNat) 0 12 = num.toNat := by unfold fld; omega
  have k1 : fld (num.toNat) 12 20 = 0 := by unfold fld; omega
  simp [decSL3D, H, k0, k1, boolBit, codeBack, codeLt]
theorem crset (ra : Reg) (rb : Reg) : Statement (.crset ra rb) := by
  obtain ⟨l, F⟩ := form22 _ 61 1 0 _ _ (by decide) rfl (ra.isLt) (rb.isLt) (by decide) (by decide)
  refine ofR rfl rfl fun w => ⟨l, fun g S h => ?_⟩
  have H := F g S h
  rw [majorR3D S H.1]
  simp [decSR3D, H, boolBit, codeBack, codeLt]
theorem crsetSl (ra : Reg) (num : BitVec 12) : Statement (.crsetSl ra num) := by
  obtain ⟨l, F⟩ := form10 _ 61 1 0 _ (by decide) rfl (ra.isLt) (by decide) (by decide)
  have i_num := num.isLt
  refine ofL rfl rfl fun w => ⟨l, by omega, fun g S h => ?_⟩
  have H := F g S h
  rw [majorL3D S _ H.1]
  have k0 : fld (num.toNat) 0 12 = num.toNat := by unfold fld; omega
  have k1 : fld (num.toNat) 12 20 = 0 := by unfold fld; omega
  have b_ra := ra.isLt
  have q0 : ¬ fld S 0 14 = 0 := by unfold fld; omega
  simp [decSL3D, H, k0, k1, q0, boolBit, codeBack, codeLt]
theorem trap (ra : Reg) (rb : Reg) : Statement (.trap ra rb) := by
  obtain ⟨l, F⟩ := form22 _ 61 2 0 _ _ (by decide) rfl (ra.isLt) (rb.isLt) (by decide) (by decide)
  refine ofR rfl rfl fun w => ⟨l, fun g S h => ?_⟩
  have H := F g S h
  rw [majorR3D S H.1]
  simp [decSR3D, H, boolBit, codeBack, codeLt]
theorem rft : Statement .rft := by
  obtain ⟨l, F⟩ := form0 _ 61 3 (by decide) rfl (by decide)
  refine ofR rfl rfl fun w => ⟨l, fun g S h => ?_⟩
  have H := F g S h
  rw [majorR3D S H.1]
  simp [decSR3D, H, boolBit, codeBack, codeLt]
theorem svc (ra : Reg) : Statement (.svc ra) := by
  obtain ⟨l, F⟩ := form10 _ 61 4 0 _ (by decide) rfl (ra.isLt) (by decide) (by decide)
  refine ofR rfl rfl fun w => ⟨l, fun g S h => ?_⟩
  have H := F g S h
  rw [majorR3D S H.1]
  have b_ra := ra.isLt
  have q0 : ¬ fld S 0 19 = 3 := by unfold fld; omega
  simp [decSR3D, H, q0, boolBit, codeBack, codeLt]
theorem brk (ra : Reg) : Statement (.brk ra) := by
  obtain ⟨l, F⟩ := form10 _ 61 5 0 _ (by decide) rfl (ra.isLt) (by decide) (by decide)
  refine ofR rfl rfl fun w => ⟨l, fun g S h => ?_⟩
  have H := F g S h
  rw [majorR3D S H.1]
  have b_ra := ra.isLt
  have q0 : ¬ fld S 0 19 = 3 := by unfold fld; omega
  simp [decSR3D, H, q0, boolBit, codeBack, codeLt]
theorem tlbinv (rd : Reg) (ra : Reg) (rb : Reg) : Statement (.tlbinv rd ra rb) := by
  obtain ⟨l, F⟩ := form1 _ 61 6 _ _ _ (by decide) rfl (rd.isLt) (ra.isLt) (rb.isLt) (by decide)
  refine ofR rfl rfl fun w => ⟨l, fun g S h => ?_⟩
  have H := F g S h
  rw [majorR3D S H.1]
  have b_rd := rd.isLt
  have b_ra := ra.isLt
  have b_rb := rb.isLt
  have q0 : ¬ fld S 0 19 = 3 := by unfold fld; omega
  have q1 : ¬ fld S 0 9 = 4 := by unfold fld; omega
  have q2 : ¬ fld S 0 9 = 5 := by unfold fld; omega
  simp [decSR3D, H, q0, q1, q2, boolBit, codeBack, codeLt]
theorem asid (ra : Reg) : Statement (.asid ra) := by
  obtain ⟨l, F⟩ := form10 _ 61 7 0 _ (by decide) rfl (ra.isLt) (by decide) (by decide)
  refine ofR rfl rfl fun w => ⟨l, fun g S h => ?_⟩
  have H := F g S h
  rw [majorR3D S H.1]
  have b_ra := ra.isLt
  have q0 : ¬ fld S 0 19 = 3 := by unfold fld; omega
  simp [decSR3D, H, q0, boolBit, codeBack, codeLt]
theorem notify (ra : Reg) : Statement (.notify ra) := by
  obtain ⟨l, F⟩ := form10 _ 61 8 0 _ (by decide) rfl (ra.isLt) (by decide) (by decide)
  refine ofR rfl rfl fun w => ⟨l, fun g S h => ?_⟩
  have H := F g S h
  rw [majorR3D S H.1]
  have b_ra := ra.isLt
  have q0 : ¬ fld S 0 19 = 3 := by unfold fld; omega
  simp [decSR3D, H, q0, boolBit, codeBack, codeLt]
theorem perf (rd : Reg) (ra : Reg) : Statement (.perf rd ra) := by
  obtain ⟨l, F⟩ := form2 _ 61 9 _ _ (by decide) rfl (rd.isLt) (ra.isLt) (by decide)
  refine ofR rfl rfl fun w => ⟨l, fun g S h => ?_⟩
  have H := F g S h
  rw [majorR3D S H.1]
  have b_rd := rd.isLt
  have b_ra := ra.isLt
  have q0 : ¬ fld S 0 19 = 3 := by unfold fld; omega
  simp [decSR3D, H, q0, boolBit, codeBack, codeLt]
theorem wdog (ra : Reg) : Statement (.wdog ra) := by
  obtain ⟨l, F⟩ := form10 _ 61 10 0 _ (by decide) rfl (ra.isLt) (by decide) (by decide)
  refine ofR rfl rfl fun w => ⟨l, fun g S h => ?_⟩
  have H := F g S h
  rw [majorR3D S H.1]
  have b_ra := ra.isLt
  have q0 : ¬ fld S 0 19 = 3 := by unfold fld; omega
  simp [decSR3D, H, q0, boolBit, codeBack, codeLt]
theorem halt (ra : Reg) : Statement (.halt ra) := by
  obtain ⟨l, F⟩ := form10 _ 61 11 0 _ (by decide) rfl (ra.isLt) (by decide) (by decide)
  refine ofR rfl rfl fun w => ⟨l, fun g S h => ?_⟩
  have H := F g S h
  rw [majorR3D S H.1]
  have b_ra := ra.isLt
  have q0 : ¬ fld S 0 19 = 3 := by unfold fld; omega
  simp [decSR3D, H, q0, boolBit, codeBack, codeLt]
theorem illegalEncoding (w : W64) : Statement (.illegalEncoding w) := noEnc rfl rfl
theorem vnop : Statement .vnop := by
  exact ofV (c := 0x00) rfl rfl rfl (by decide) rfl (by simp) (by constructor <;> (try dsimp only) <;> first | decide | omega) (by constructor <;> (try dsimp only) <;> first | decide | omega) (by constructor <;> (try dsimp only) <;> first | decide | omega) (by constructor <;> (try dsimp only) <;> first | decide | omega) (by (try dsimp only) <;> first | decide | omega) (by constructor <;> (try dsimp only) <;> first | decide | omega) (by constructor <;> (try dsimp only) <;> first | decide | omega) (fun w => by simp_all [VOp.wf, Instr.wf, fmtOk]) (by simp [VOp.instr])
theorem vfld (d : Fld) (a : Reg) : Statement (.vfld d a) := by
  have h_d := d.isLt
  have h_a := a.isLt
  exact ofV (c := 0x01) rfl rfl rfl (by decide) rfl (by simp) (by constructor <;> (try dsimp only) <;> first | decide | omega) (by constructor <;> (try dsimp only) <;> first | decide | omega) (by constructor <;> (try dsimp only) <;> first | decide | omega) (by constructor <;> (try dsimp only) <;> first | decide | omega) (by (try dsimp only) <;> first | decide | omega) (by constructor <;> (try dsimp only) <;> first | decide | omega) (by constructor <;> (try dsimp only) <;> first | decide | omega) (fun w => by simp_all [VOp.wf, Instr.wf, fmtOk]) (by simp [VOp.instr])
theorem vfldi (d : Fld) (start : BitVec 8) (width : BitVec 9) : Statement (.vfldi d start width) := by
  have h_d := d.isLt
  have h_start := start.isLt
  have h_width := width.isLt
  have k0 : fld (start.toNat + width.toNat * 256) 0 8 = start.toNat := by unfold fld; omega
  have k1 : fld (start.toNat + width.toNat * 256) 8 9 = width.toNat := by unfold fld; omega
  exact ofV (c := 0x02) rfl rfl rfl (by decide) rfl (by simp) (by constructor <;> (try dsimp only) <;> first | decide | omega) (by constructor <;> (try dsimp only) <;> first | decide | omega) (by constructor <;> (try dsimp only) <;> first | decide | omega) (by constructor <;> (try dsimp only) <;> first | decide | omega) (by (try dsimp only) <;> first | decide | omega) (by constructor <;> (try dsimp only) <;> first | decide | omega) (by constructor <;> (try dsimp only) <;> first | decide | omega) (fun w => by simp_all [VOp.wf, Instr.wf, fmtOk]) (by simp [VOp.instr, k0, k1])
theorem vfcpy (d : Fld) (a : Fld) : Statement (.vfcpy d a) := by
  have h_d := d.isLt
  have h_a := a.isLt
  exact ofV (c := 0x03) rfl rfl rfl (by decide) rfl (by simp) (by constructor <;> (try dsimp only) <;> first | decide | omega) (by constructor <;> (try dsimp only) <;> first | decide | omega) (by constructor <;> (try dsimp only) <;> first | decide | omega) (by constructor <;> (try dsimp only) <;> first | decide | omega) (by (try dsimp only) <;> first | decide | omega) (by constructor <;> (try dsimp only) <;> first | decide | omega) (by constructor <;> (try dsimp only) <;> first | decide | omega) (fun w => by simp_all [VOp.wf, Instr.wf, fmtOk]) (by simp [VOp.instr])
theorem vvl (a : Reg) : Statement (.vvl a) := by
  have h_a := a.isLt
  exact ofV (c := 0x04) rfl rfl rfl (by decide) rfl (by simp) (by constructor <;> (try dsimp only) <;> first | decide | omega) (by constructor <;> (try dsimp only) <;> first | decide | omega) (by constructor <;> (try dsimp only) <;> first | decide | omega) (by constructor <;> (try dsimp only) <;> first | decide | omega) (by (try dsimp only) <;> first | decide | omega) (by constructor <;> (try dsimp only) <;> first | decide | omega) (by constructor <;> (try dsimp only) <;> first | decide | omega) (fun w => by simp_all [VOp.wf, Instr.wf, fmtOk]) (by simp [VOp.instr])
theorem vvli (rows : BitVec 13) : Statement (.vvli rows) := by
  have h_rows := rows.isLt
  have k0 : fld (rows.toNat) 0 13 = rows.toNat := by unfold fld; omega
  exact ofV (c := 0x05) rfl rfl rfl (by decide) rfl (by simp) (by constructor <;> (try dsimp only) <;> first | decide | omega) (by constructor <;> (try dsimp only) <;> first | decide | omega) (by constructor <;> (try dsimp only) <;> first | decide | omega) (by constructor <;> (try dsimp only) <;> first | decide | omega) (by (try dsimp only) <;> first | decide | omega) (by constructor <;> (try dsimp only) <;> first | decide | omega) (by constructor <;> (try dsimp only) <;> first | decide | omega) (fun w => by simp_all [VOp.wf, Instr.wf, fmtOk]) (by simp [VOp.instr, k0])
theorem vfrd (d : Reg) (a : Fld) : Statement (.vfrd d a) := by
  have h_d := d.isLt
  have h_a := a.isLt
  exact ofV (c := 0x06) rfl rfl rfl (by decide) rfl (by simp) (by constructor <;> (try dsimp only) <;> first | decide | omega) (by constructor <;> (try dsimp only) <;> first | decide | omega) (by constructor <;> (try dsimp only) <;> first | decide | omega) (by constructor <;> (try dsimp only) <;> first | decide | omega) (by (try dsimp only) <;> first | decide | omega) (by constructor <;> (try dsimp only) <;> first | decide | omega) (by constructor <;> (try dsimp only) <;> first | decide | omega) (fun w => by simp_all [VOp.wf, Instr.wf, fmtOk]) (by simp [VOp.instr])
theorem vld (d : Fld) (a : Reg) (t : TagN) (tn : Bool) (m : Fmt) : Statement (.vld d a t tn m) := by
  have h_d := d.isLt
  have h_a := a.isLt
  have h_t := t.isLt
  have h_tn := boolLt tn
  have h_m := m.isLt
  exact ofV (c := 0x08) rfl rfl rfl (by decide) rfl (by simp) (by constructor <;> (try dsimp only) <;> first | decide | omega) (by constructor <;> (try dsimp only) <;> first | decide | omega) (by constructor <;> (try dsimp only) <;> first | decide | omega) (by constructor <;> (try dsimp only) <;> first | decide | omega) (by (try dsimp only) <;> first | decide | omega) (by constructor <;> (try dsimp only) <;> first | decide | omega) (by constructor <;> (try dsimp only) <;> first | decide | omega) (fun w => by simp_all [VOp.wf, Instr.wf, fmtOk]) (by simp [VOp.instr])
theorem vst (d : Fld) (a : Reg) (t : TagN) (tn : Bool) (m : Fmt) : Statement (.vst d a t tn m) := by
  have h_d := d.isLt
  have h_a := a.isLt
  have h_t := t.isLt
  have h_tn := boolLt tn
  have h_m := m.isLt
  exact ofV (c := 0x09) rfl rfl rfl (by decide) rfl (by simp) (by constructor <;> (try dsimp only) <;> first | decide | omega) (by constructor <;> (try dsimp only) <;> first | decide | omega) (by constructor <;> (try dsimp only) <;> first | decide | omega) (by constructor <;> (try dsimp only) <;> first | decide | omega) (by (try dsimp only) <;> first | decide | omega) (by constructor <;> (try dsimp only) <;> first | decide | omega) (by constructor <;> (try dsimp only) <;> first | decide | omega) (fun w => by simp_all [VOp.wf, Instr.wf, fmtOk]) (by simp [VOp.instr])
theorem vlds (d : Fld) (a : Reg) (b : Reg) (t : TagN) (tn : Bool) (m : Fmt) : Statement (.vlds d a b t tn m) := by
  have h_d := d.isLt
  have h_a := a.isLt
  have h_b := b.isLt
  have h_t := t.isLt
  have h_tn := boolLt tn
  have h_m := m.isLt
  exact ofV (c := 0x0A) rfl rfl rfl (by decide) rfl (by simp) (by constructor <;> (try dsimp only) <;> first | decide | omega) (by constructor <;> (try dsimp only) <;> first | decide | omega) (by constructor <;> (try dsimp only) <;> first | decide | omega) (by constructor <;> (try dsimp only) <;> first | decide | omega) (by (try dsimp only) <;> first | decide | omega) (by constructor <;> (try dsimp only) <;> first | decide | omega) (by constructor <;> (try dsimp only) <;> first | decide | omega) (fun w => by simp_all [VOp.wf, Instr.wf, fmtOk]) (by simp [VOp.instr])
theorem vsts (d : Fld) (a : Reg) (b : Reg) (t : TagN) (tn : Bool) (m : Fmt) : Statement (.vsts d a b t tn m) := by
  have h_d := d.isLt
  have h_a := a.isLt
  have h_b := b.isLt
  have h_t := t.isLt
  have h_tn := boolLt tn
  have h_m := m.isLt
  exact ofV (c := 0x0B) rfl rfl rfl (by decide) rfl (by simp) (by constructor <;> (try dsimp only) <;> first | decide | omega) (by constructor <;> (try dsimp only) <;> first | decide | omega) (by constructor <;> (try dsimp only) <;> first | decide | omega) (by constructor <;> (try dsimp only) <;> first | decide | omega) (by (try dsimp only) <;> first | decide | omega) (by constructor <;> (try dsimp only) <;> first | decide | omega) (by constructor <;> (try dsimp only) <;> first | decide | omega) (fun w => by simp_all [VOp.wf, Instr.wf, fmtOk]) (by simp [VOp.instr])
theorem vldr (d : Fld) (a : Reg) (b : Reg) (t : TagN) (tn : Bool) (m : Fmt) : Statement (.vldr d a b t tn m) := by
  have h_d := d.isLt
  have h_a := a.isLt
  have h_b := b.isLt
  have h_t := t.isLt
  have h_tn := boolLt tn
  have h_m := m.isLt
  exact ofV (c := 0x0C) rfl rfl rfl (by decide) rfl (by simp) (by constructor <;> (try dsimp only) <;> first | decide | omega) (by constructor <;> (try dsimp only) <;> first | decide | omega) (by constructor <;> (try dsimp only) <;> first | decide | omega) (by constructor <;> (try dsimp only) <;> first | decide | omega) (by (try dsimp only) <;> first | decide | omega) (by constructor <;> (try dsimp only) <;> first | decide | omega) (by constructor <;> (try dsimp only) <;> first | decide | omega) (fun w => by simp_all [VOp.wf, Instr.wf, fmtOk]) (by simp [VOp.instr])
theorem vstr (d : Fld) (a : Reg) (b : Reg) (t : TagN) (tn : Bool) (m : Fmt) : Statement (.vstr d a b t tn m) := by
  have h_d := d.isLt
  have h_a := a.isLt
  have h_b := b.isLt
  have h_t := t.isLt
  have h_tn := boolLt tn
  have h_m := m.isLt
  exact ofV (c := 0x0D) rfl rfl rfl (by decide) rfl (by simp) (by constructor <;> (try dsimp only) <;> first | decide | omega) (by constructor <;> (try dsimp only) <;> first | decide | omega) (by constructor <;> (try dsimp only) <;> first | decide | omega) (by constructor <;> (try dsimp only) <;> first | decide | omega) (by (try dsimp only) <;> first | decide | omega) (by constructor <;> (try dsimp only) <;> first | decide | omega) (by constructor <;> (try dsimp only) <;> first | decide | omega) (fun w => by simp_all [VOp.wf, Instr.wf, fmtOk]) (by simp [VOp.instr])
theorem vget (d : Reg) (a : Fld) (b : Reg) (t : TagN) (tn : Bool) (m : Fmt) : Statement (.vget d a b t tn m) := by
  have h_d := d.isLt
  have h_a := a.isLt
  have h_b := b.isLt
  have h_t := t.isLt
  have h_tn := boolLt tn
  have h_m := m.isLt
  exact ofV (c := 0x0E) rfl rfl rfl (by decide) rfl (by simp) (by constructor <;> (try dsimp only) <;> first | decide | omega) (by constructor <;> (try dsimp only) <;> first | decide | omega) (by constructor <;> (try dsimp only) <;> first | decide | omega) (by constructor <;> (try dsimp only) <;> first | decide | omega) (by (try dsimp only) <;> first | decide | omega) (by constructor <;> (try dsimp only) <;> first | decide | omega) (by constructor <;> (try dsimp only) <;> first | decide | omega) (fun w => by simp_all [VOp.wf, Instr.wf, fmtOk]) (by simp [VOp.instr])
theorem vput (d : Fld) (a : Reg) (b : Reg) (t : TagN) (tn : Bool) (m : Fmt) : Statement (.vput d a b t tn m) := by
  have h_d := d.isLt
  have h_a := a.isLt
  have h_b := b.isLt
  have h_t := t.isLt
  have h_tn := boolLt tn
  have h_m := m.isLt
  exact ofV (c := 0x0F) rfl rfl rfl (by decide) rfl (by simp) (by constructor <;> (try dsimp only) <;> first | decide | omega) (by constructor <;> (try dsimp only) <;> first | decide | omega) (by constructor <;> (try dsimp only) <;> first | decide | omega) (by constructor <;> (try dsimp only) <;> first | decide | omega) (by (try dsimp only) <;> first | decide | omega) (by constructor <;> (try dsimp only) <;> first | decide | omega) (by constructor <;> (try dsimp only) <;> first | decide | omega) (fun w => by simp_all [VOp.wf, Instr.wf, fmtOk]) (by simp [VOp.instr])
theorem vbc (d : Fld) (a : Reg) (t : TagN) (tn : Bool) (m : Fmt) : Statement (.vbc d a t tn m) := by
  have h_d := d.isLt
  have h_a := a.isLt
  have h_t := t.isLt
  have h_tn := boolLt tn
  have h_m := m.isLt
  exact ofV (c := 0x10) rfl rfl rfl (by decide) rfl (by simp) (by constructor <;> (try dsimp only) <;> first | decide | omega) (by constructor <;> (try dsimp only) <;> first | decide | omega) (by constructor <;> (try dsimp only) <;> first | decide | omega) (by constructor <;> (try dsimp only) <;> first | decide | omega) (by (try dsimp only) <;> first | decide | omega) (by constructor <;> (try dsimp only) <;> first | decide | omega) (by constructor <;> (try dsimp only) <;> first | decide | omega) (fun w => by simp_all [VOp.wf, Instr.wf, fmtOk]) (by simp [VOp.instr])
theorem vbci (d : Fld) (t : TagN) (tn : Bool) (m : Fmt) (imm : BitVec 29) : Statement (.vbci d t tn m imm) := by
  have h_d := d.isLt
  have h_t := t.isLt
  have h_tn := boolLt tn
  have h_m := m.isLt
  have h_imm := imm.isLt
  have k0 : fld (imm.toNat) 0 29 = imm.toNat := by unfold fld; omega
  exact ofV (c := 0x11) rfl rfl rfl (by decide) rfl (by simp) (by constructor <;> (try dsimp only) <;> first | decide | omega) (by constructor <;> (try dsimp only) <;> first | decide | omega) (by constructor <;> (try dsimp only) <;> first | decide | omega) (by constructor <;> (try dsimp only) <;> first | decide | omega) (by (try dsimp only) <;> first | decide | omega) (by constructor <;> (try dsimp only) <;> first | decide | omega) (by constructor <;> (try dsimp only) <;> first | decide | omega) (fun w => by simp_all [VOp.wf, Instr.wf, fmtOk]) (by simp [VOp.instr, k0])
theorem vcopy (d : Fld) (a : Fld) (t : TagN) (tn : Bool) : Statement (.vcopy d a t tn) := by
  have h_d := d.isLt
  have h_a := a.isLt
  have h_t := t.isLt
  have h_tn := boolLt tn
  exact ofV (c := 0x12) rfl rfl rfl (by decide) rfl (by simp) (by constructor <;> (try dsimp only) <;> first | decide | omega) (by constructor <;> (try dsimp only) <;> first | decide | omega) (by constructor <;> (try dsimp only) <;> first | decide | omega) (by constructor <;> (try dsimp only) <;> first | decide | omega) (by (try dsimp only) <;> first | decide | omega) (by constructor <;> (try dsimp only) <;> first | decide | omega) (by constructor <;> (try dsimp only) <;> first | decide | omega) (fun w => by simp_all [VOp.wf, Instr.wf, fmtOk]) (by simp [VOp.instr])
theorem vtand (d : TagN) (a : TagN) (b : TagN) (t : TagN) (tn : Bool) : Statement (.vtand d a b t tn) := by
  have h_d := d.isLt
  have h_a := a.isLt
  have h_b := b.isLt
  have h_t := t.isLt
  have h_tn := boolLt tn
  exact ofV (c := 0x18) rfl rfl rfl (by decide) rfl (by simp) (by constructor <;> (try dsimp only) <;> first | decide | omega) (by constructor <;> (try dsimp only) <;> first | decide | omega) (by constructor <;> (try dsimp only) <;> first | decide | omega) (by constructor <;> (try dsimp only) <;> first | decide | omega) (by (try dsimp only) <;> first | decide | omega) (by constructor <;> (try dsimp only) <;> first | decide | omega) (by constructor <;> (try dsimp only) <;> first | decide | omega) (fun w => by simp_all [VOp.wf, Instr.wf, fmtOk]) (by simp [VOp.instr])
theorem vtor (d : TagN) (a : TagN) (b : TagN) (t : TagN) (tn : Bool) : Statement (.vtor d a b t tn) := by
  have h_d := d.isLt
  have h_a := a.isLt
  have h_b := b.isLt
  have h_t := t.isLt
  have h_tn := boolLt tn
  exact ofV (c := 0x19) rfl rfl rfl (by decide) rfl (by simp) (by constructor <;> (try dsimp only) <;> first | decide | omega) (by constructor <;> (try dsimp only) <;> first | decide | omega) (by constructor <;> (try dsimp only) <;> first | decide | omega) (by constructor <;> (try dsimp only) <;> first | decide | omega) (by (try dsimp only) <;> first | decide | omega) (by constructor <;> (try dsimp only) <;> first | decide | omega) (by constructor <;> (try dsimp only) <;> first | decide | omega) (fun w => by simp_all [VOp.wf, Instr.wf, fmtOk]) (by simp [VOp.instr])
theorem vtxor (d : TagN) (a : TagN) (b : TagN) (t : TagN) (tn : Bool) : Statement (.vtxor d a b t tn) := by
  have h_d := d.isLt
  have h_a := a.isLt
  have h_b := b.isLt
  have h_t := t.isLt
  have h_tn := boolLt tn
  exact ofV (c := 0x1A) rfl rfl rfl (by decide) rfl (by simp) (by constructor <;> (try dsimp only) <;> first | decide | omega) (by constructor <;> (try dsimp only) <;> first | decide | omega) (by constructor <;> (try dsimp only) <;> first | decide | omega) (by constructor <;> (try dsimp only) <;> first | decide | omega) (by (try dsimp only) <;> first | decide | omega) (by constructor <;> (try dsimp only) <;> first | decide | omega) (by constructor <;> (try dsimp only) <;> first | decide | omega) (fun w => by simp_all [VOp.wf, Instr.wf, fmtOk]) (by simp [VOp.instr])
theorem vtandn (d : TagN) (a : TagN) (b : TagN) (t : TagN) (tn : Bool) : Statement (.vtandn d a b t tn) := by
  have h_d := d.isLt
  have h_a := a.isLt
  have h_b := b.isLt
  have h_t := t.isLt
  have h_tn := boolLt tn
  exact ofV (c := 0x1B) rfl rfl rfl (by decide) rfl (by simp) (by constructor <;> (try dsimp only) <;> first | decide | omega) (by constructor <;> (try dsimp only) <;> first | decide | omega) (by constructor <;> (try dsimp only) <;> first | decide | omega) (by constructor <;> (try dsimp only) <;> first | decide | omega) (by (try dsimp only) <;> first | decide | omega) (by constructor <;> (try dsimp only) <;> first | decide | omega) (by constructor <;> (try dsimp only) <;> first | decide | omega) (fun w => by simp_all [VOp.wf, Instr.wf, fmtOk]) (by simp [VOp.instr])
theorem vtset (d : TagN) (t : TagN) (tn : Bool) : Statement (.vtset d t tn) := by
  have h_d := d.isLt
  have h_t := t.isLt
  have h_tn := boolLt tn
  exact ofV (c := 0x1C) rfl rfl rfl (by decide) rfl (by simp) (by constructor <;> (try dsimp only) <;> first | decide | omega) (by constructor <;> (try dsimp only) <;> first | decide | omega) (by constructor <;> (try dsimp only) <;> first | decide | omega) (by constructor <;> (try dsimp only) <;> first | decide | omega) (by (try dsimp only) <;> first | decide | omega) (by constructor <;> (try dsimp only) <;> first | decide | omega) (by constructor <;> (try dsimp only) <;> first | decide | omega) (fun w => by simp_all [VOp.wf, Instr.wf, fmtOk]) (by simp [VOp.instr])
theorem vtclr (d : TagN) (t : TagN) (tn : Bool) : Statement (.vtclr d t tn) := by
  have h_d := d.isLt
  have h_t := t.isLt
  have h_tn := boolLt tn
  exact ofV (c := 0x1D) rfl rfl rfl (by decide) rfl (by simp) (by constructor <;> (try dsimp only) <;> first | decide | omega) (by constructor <;> (try dsimp only) <;> first | decide | omega) (by constructor <;> (try dsimp only) <;> first | decide | omega) (by constructor <;> (try dsimp only) <;> first | decide | omega) (by (try dsimp only) <;> first | decide | omega) (by constructor <;> (try dsimp only) <;> first | decide | omega) (by constructor <;> (try dsimp only) <;> first | decide | omega) (fun w => by simp_all [VOp.wf, Instr.wf, fmtOk]) (by simp [VOp.instr])
theorem vtfirst (d : TagN) (t : TagN) (tn : Bool) : Statement (.vtfirst d t tn) := by
  have h_d := d.isLt
  have h_t := t.isLt
  have h_tn := boolLt tn
  exact ofV (c := 0x1E) rfl rfl rfl (by decide) rfl (by simp) (by constructor <;> (try dsimp only) <;> first | decide | omega) (by constructor <;> (try dsimp only) <;> first | decide | omega) (by constructor <;> (try dsimp only) <;> first | decide | omega) (by constructor <;> (try dsimp only) <;> first | decide | omega) (by (try dsimp only) <;> first | decide | omega) (by constructor <;> (try dsimp only) <;> first | decide | omega) (by constructor <;> (try dsimp only) <;> first | decide | omega) (fun w => by simp_all [VOp.wf, Instr.wf, fmtOk]) (by simp [VOp.instr])
theorem vtcount (d : Reg) (t : TagN) (tn : Bool) : Statement (.vtcount d t tn) := by
  have h_d := d.isLt
  have h_t := t.isLt
  have h_tn := boolLt tn
  exact ofV (c := 0x1F) rfl rfl rfl (by decide) rfl (by simp) (by constructor <;> (try dsimp only) <;> first | decide | omega) (by constructor <;> (try dsimp only) <;> first | decide | omega) (by constructor <;> (try dsimp only) <;> first | decide | omega) (by constructor <;> (try dsimp only) <;> first | decide | omega) (by (try dsimp only) <;> first | decide | omega) (by constructor <;> (try dsimp only) <;> first | decide | omega) (by constructor <;> (try dsimp only) <;> first | decide | omega) (fun w => by simp_all [VOp.wf, Instr.wf, fmtOk]) (by simp [VOp.instr])
theorem vtany (d : Reg) (t : TagN) (tn : Bool) : Statement (.vtany d t tn) := by
  have h_d := d.isLt
  have h_t := t.isLt
  have h_tn := boolLt tn
  exact ofV (c := 0x20) rfl rfl rfl (by decide) rfl (by simp) (by constructor <;> (try dsimp only) <;> first | decide | omega) (by constructor <;> (try dsimp only) <;> first | decide | omega) (by constructor <;> (try dsimp only) <;> first | decide | omega) (by constructor <;> (try dsimp only) <;> first | decide | omega) (by (try dsimp only) <;> first | decide | omega) (by constructor <;> (try dsimp only) <;> first | decide | omega) (by constructor <;> (try dsimp only) <;> first | decide | omega) (fun w => by simp_all [VOp.wf, Instr.wf, fmtOk]) (by simp [VOp.instr])
theorem vceq (d : TagN) (a : Fld) (b : Fld) (t : TagN) (tn : Bool) (m : Fmt) : Statement (.vceq d a b t tn m) := by
  have h_d := d.isLt
  have h_a := a.isLt
  have h_b := b.isLt
  have h_t := t.isLt
  have h_tn := boolLt tn
  have h_m := m.isLt
  exact ofV (c := 0x28) rfl rfl rfl (by decide) rfl (by simp) (by constructor <;> (try dsimp only) <;> first | decide | omega) (by constructor <;> (try dsimp only) <;> first | decide | omega) (by constructor <;> (try dsimp only) <;> first | decide | omega) (by constructor <;> (try dsimp only) <;> first | decide | omega) (by (try dsimp only) <;> first | decide | omega) (by constructor <;> (try dsimp only) <;> first | decide | omega) (by constructor <;> (try dsimp only) <;> first | decide | omega) (fun w => by simp_all [VOp.wf, Instr.wf, fmtOk]) (by simp [VOp.instr])
theorem vclt (d : TagN) (a : Fld) (b : Fld) (t : TagN) (tn : Bool) (m : Fmt) : Statement (.vclt d a b t tn m) := by
  have h_d := d.isLt
  have h_a := a.isLt
  have h_b := b.isLt
  have h_t := t.isLt
  have h_tn := boolLt tn
  have h_m := m.isLt
  exact ofV (c := 0x29) rfl rfl rfl (by decide) rfl (by simp) (by constructor <;> (try dsimp only) <;> first | decide | omega) (by constructor <;> (try dsimp only) <;> first | decide | omega) (by constructor <;> (try dsimp only) <;> first | decide | omega) (by constructor <;> (try dsimp only) <;> first | decide | omega) (by (try dsimp only) <;> first | decide | omega) (by constructor <;> (try dsimp only) <;> first | decide | omega) (by constructor <;> (try dsimp only) <;> first | decide | omega) (fun w => by simp_all [VOp.wf, Instr.wf, fmtOk]) (by simp [VOp.instr])
theorem vcle (d : TagN) (a : Fld) (b : Fld) (t : TagN) (tn : Bool) (m : Fmt) : Statement (.vcle d a b t tn m) := by
  have h_d := d.isLt
  have h_a := a.isLt
  have h_b := b.isLt
  have h_t := t.isLt
  have h_tn := boolLt tn
  have h_m := m.isLt
  exact ofV (c := 0x2A) rfl rfl rfl (by decide) rfl (by simp) (by constructor <;> (try dsimp only) <;> first | decide | omega) (by constructor <;> (try dsimp only) <;> first | decide | omega) (by constructor <;> (try dsimp only) <;> first | decide | omega) (by constructor <;> (try dsimp only) <;> first | decide | omega) (by (try dsimp only) <;> first | decide | omega) (by constructor <;> (try dsimp only) <;> first | decide | omega) (by constructor <;> (try dsimp only) <;> first | decide | omega) (fun w => by simp_all [VOp.wf, Instr.wf, fmtOk]) (by simp [VOp.instr])
theorem vadd (d : Fld) (a : Fld) (b : Fld) (t : TagN) (tn : Bool) (m : Fmt) : Statement (.vadd d a b t tn m) := by
  have h_d := d.isLt
  have h_a := a.isLt
  have h_b := b.isLt
  have h_t := t.isLt
  have h_tn := boolLt tn
  have h_m := m.isLt
  exact ofV (c := 0x30) rfl rfl rfl (by decide) rfl (by simp) (by constructor <;> (try dsimp only) <;> first | decide | omega) (by constructor <;> (try dsimp only) <;> first | decide | omega) (by constructor <;> (try dsimp only) <;> first | decide | omega) (by constructor <;> (try dsimp only) <;> first | decide | omega) (by (try dsimp only) <;> first | decide | omega) (by constructor <;> (try dsimp only) <;> first | decide | omega) (by constructor <;> (try dsimp only) <;> first | decide | omega) (fun w => by simp_all [VOp.wf, Instr.wf, fmtOk]) (by simp [VOp.instr])
theorem vsub (d : Fld) (a : Fld) (b : Fld) (t : TagN) (tn : Bool) (m : Fmt) : Statement (.vsub d a b t tn m) := by
  have h_d := d.isLt
  have h_a := a.isLt
  have h_b := b.isLt
  have h_t := t.isLt
  have h_tn := boolLt tn
  have h_m := m.isLt
  exact ofV (c := 0x31) rfl rfl rfl (by decide) rfl (by simp) (by constructor <;> (try dsimp only) <;> first | decide | omega) (by constructor <;> (try dsimp only) <;> first | decide | omega) (by constructor <;> (try dsimp only) <;> first | decide | omega) (by constructor <;> (try dsimp only) <;> first | decide | omega) (by (try dsimp only) <;> first | decide | omega) (by constructor <;> (try dsimp only) <;> first | decide | omega) (by constructor <;> (try dsimp only) <;> first | decide | omega) (fun w => by simp_all [VOp.wf, Instr.wf, fmtOk]) (by simp [VOp.instr])
theorem vneg (d : Fld) (a : Fld) (t : TagN) (tn : Bool) (m : Fmt) : Statement (.vneg d a t tn m) := by
  have h_d := d.isLt
  have h_a := a.isLt
  have h_t := t.isLt
  have h_tn := boolLt tn
  have h_m := m.isLt
  exact ofV (c := 0x32) rfl rfl rfl (by decide) rfl (by simp) (by constructor <;> (try dsimp only) <;> first | decide | omega) (by constructor <;> (try dsimp only) <;> first | decide | omega) (by constructor <;> (try dsimp only) <;> first | decide | omega) (by constructor <;> (try dsimp only) <;> first | decide | omega) (by (try dsimp only) <;> first | decide | omega) (by constructor <;> (try dsimp only) <;> first | decide | omega) (by constructor <;> (try dsimp only) <;> first | decide | omega) (fun w => by simp_all [VOp.wf, Instr.wf, fmtOk]) (by simp [VOp.instr])
theorem vabs (d : Fld) (a : Fld) (t : TagN) (tn : Bool) (m : Fmt) : Statement (.vabs d a t tn m) := by
  have h_d := d.isLt
  have h_a := a.isLt
  have h_t := t.isLt
  have h_tn := boolLt tn
  have h_m := m.isLt
  exact ofV (c := 0x33) rfl rfl rfl (by decide) rfl (by simp) (by constructor <;> (try dsimp only) <;> first | decide | omega) (by constructor <;> (try dsimp only) <;> first | decide | omega) (by constructor <;> (try dsimp only) <;> first | decide | omega) (by constructor <;> (try dsimp only) <;> first | decide | omega) (by (try dsimp only) <;> first | decide | omega) (by constructor <;> (try dsimp only) <;> first | decide | omega) (by constructor <;> (try dsimp only) <;> first | decide | omega) (fun w => by simp_all [VOp.wf, Instr.wf, fmtOk]) (by simp [VOp.instr])
theorem vmin (d : Fld) (a : Fld) (b : Fld) (t : TagN) (tn : Bool) (m : Fmt) : Statement (.vmin d a b t tn m) := by
  have h_d := d.isLt
  have h_a := a.isLt
  have h_b := b.isLt
  have h_t := t.isLt
  have h_tn := boolLt tn
  have h_m := m.isLt
  exact ofV (c := 0x34) rfl rfl rfl (by decide) rfl (by simp) (by constructor <;> (try dsimp only) <;> first | decide | omega) (by constructor <;> (try dsimp only) <;> first | decide | omega) (by constructor <;> (try dsimp only) <;> first | decide | omega) (by constructor <;> (try dsimp only) <;> first | decide | omega) (by (try dsimp only) <;> first | decide | omega) (by constructor <;> (try dsimp only) <;> first | decide | omega) (by constructor <;> (try dsimp only) <;> first | decide | omega) (fun w => by simp_all [VOp.wf, Instr.wf, fmtOk]) (by simp [VOp.instr])
theorem vmax (d : Fld) (a : Fld) (b : Fld) (t : TagN) (tn : Bool) (m : Fmt) : Statement (.vmax d a b t tn m) := by
  have h_d := d.isLt
  have h_a := a.isLt
  have h_b := b.isLt
  have h_t := t.isLt
  have h_tn := boolLt tn
  have h_m := m.isLt
  exact ofV (c := 0x35) rfl rfl rfl (by decide) rfl (by simp) (by constructor <;> (try dsimp only) <;> first | decide | omega) (by constructor <;> (try dsimp only) <;> first | decide | omega) (by constructor <;> (try dsimp only) <;> first | decide | omega) (by constructor <;> (try dsimp only) <;> first | decide | omega) (by (try dsimp only) <;> first | decide | omega) (by constructor <;> (try dsimp only) <;> first | decide | omega) (by constructor <;> (try dsimp only) <;> first | decide | omega) (fun w => by simp_all [VOp.wf, Instr.wf, fmtOk]) (by simp [VOp.instr])
theorem vmul (d : Fld) (a : Fld) (b : Fld) (t : TagN) (tn : Bool) (m : Fmt) : Statement (.vmul d a b t tn m) := by
  have h_d := d.isLt
  have h_a := a.isLt
  have h_b := b.isLt
  have h_t := t.isLt
  have h_tn := boolLt tn
  have h_m := m.isLt
  exact ofV (c := 0x36) rfl rfl rfl (by decide) rfl (by simp) (by constructor <;> (try dsimp only) <;> first | decide | omega) (by constructor <;> (try dsimp only) <;> first | decide | omega) (by constructor <;> (try dsimp only) <;> first | decide | omega) (by constructor <;> (try dsimp only) <;> first | decide | omega) (by (try dsimp only) <;> first | decide | omega) (by constructor <;> (try dsimp only) <;> first | decide | omega) (by constructor <;> (try dsimp only) <;> first | decide | omega) (fun w => by simp_all [VOp.wf, Instr.wf, fmtOk]) (by simp [VOp.instr])
theorem vand (d : Fld) (a : Fld) (b : Fld) (t : TagN) (tn : Bool) (m : Fmt) : Statement (.vand d a b t tn m) := by
  have h_d := d.isLt
  have h_a := a.isLt
  have h_b := b.isLt
  have h_t := t.isLt
  have h_tn := boolLt tn
  have h_m := m.isLt
  exact ofV (c := 0x37) rfl rfl rfl (by decide) rfl (by simp) (by constructor <;> (try dsimp only) <;> first | decide | omega) (by constructor <;> (try dsimp only) <;> first | decide | omega) (by constructor <;> (try dsimp only) <;> first | decide | omega) (by constructor <;> (try dsimp only) <;> first | decide | omega) (by (try dsimp only) <;> first | decide | omega) (by constructor <;> (try dsimp only) <;> first | decide | omega) (by constructor <;> (try dsimp only) <;> first | decide | omega) (fun w => by simp_all [VOp.wf, Instr.wf, fmtOk]) (by simp [VOp.instr])
theorem vor (d : Fld) (a : Fld) (b : Fld) (t : TagN) (tn : Bool) (m : Fmt) : Statement (.vor d a b t tn m) := by
  have h_d := d.isLt
  have h_a := a.isLt
  have h_b := b.isLt
  have h_t := t.isLt
  have h_tn := boolLt tn
  have h_m := m.isLt
  exact ofV (c := 0x38) rfl rfl rfl (by decide) rfl (by simp) (by constructor <;> (try dsimp only) <;> first | decide | omega) (by constructor <;> (try dsimp only) <;> first | decide | omega) (by constructor <;> (try dsimp only) <;> first | decide | omega) (by constructor <;> (try dsimp only) <;> first | decide | omega) (by (try dsimp only) <;> first | decide | omega) (by constructor <;> (try dsimp only) <;> first | decide | omega) (by constructor <;> (try dsimp only) <;> first | decide | omega) (fun w => by simp_all [VOp.wf, Instr.wf, fmtOk]) (by simp [VOp.instr])
theorem vxor (d : Fld) (a : Fld) (b : Fld) (t : TagN) (tn : Bool) (m : Fmt) : Statement (.vxor d a b t tn m) := by
  have h_d := d.isLt
  have h_a := a.isLt
  have h_b := b.isLt
  have h_t := t.isLt
  have h_tn := boolLt tn
  have h_m := m.isLt
  exact ofV (c := 0x39) rfl rfl rfl (by decide) rfl (by simp) (by constructor <;> (try dsimp only) <;> first | decide | omega) (by constructor <;> (try dsimp only) <;> first | decide | omega) (by constructor <;> (try dsimp only) <;> first | decide | omega) (by constructor <;> (try dsimp only) <;> first | decide | omega) (by (try dsimp only) <;> first | decide | omega) (by constructor <;> (try dsimp only) <;> first | decide | omega) (by constructor <;> (try dsimp only) <;> first | decide | omega) (fun w => by simp_all [VOp.wf, Instr.wf, fmtOk]) (by simp [VOp.instr])
theorem vnot (d : Fld) (a : Fld) (t : TagN) (tn : Bool) (m : Fmt) : Statement (.vnot d a t tn m) := by
  have h_d := d.isLt
  have h_a := a.isLt
  have h_t := t.isLt
  have h_tn := boolLt tn
  have h_m := m.isLt
  exact ofV (c := 0x3A) rfl rfl rfl (by decide) rfl (by simp) (by constructor <;> (try dsimp only) <;> first | decide | omega) (by constructor <;> (try dsimp only) <;> first | decide | omega) (by constructor <;> (try dsimp only) <;> first | decide | omega) (by constructor <;> (try dsimp only) <;> first | decide | omega) (by (try dsimp only) <;> first | decide | omega) (by constructor <;> (try dsimp only) <;> first | decide | omega) (by constructor <;> (try dsimp only) <;> first | decide | omega) (fun w => by simp_all [VOp.wf, Instr.wf, fmtOk]) (by simp [VOp.instr])
theorem vshl (d : Fld) (a : Fld) (b : BitVec 5) (t : TagN) (tn : Bool) (m : Fmt) : Statement (.vshl d a b t tn m) := by
  have h_d := d.isLt
  have h_a := a.isLt
  have h_b := b.isLt
  have h_t := t.isLt
  have h_tn := boolLt tn
  have h_m := m.isLt
  exact ofV (c := 0x3B) rfl rfl rfl (by decide) rfl (by simp) (by constructor <;> (try dsimp only) <;> first | decide | omega) (by constructor <;> (try dsimp only) <;> first | decide | omega) (by constructor <;> (try dsimp only) <;> first | decide | omega) (by constructor <;> (try dsimp only) <;> first | decide | omega) (by (try dsimp only) <;> first | decide | omega) (by constructor <;> (try dsimp only) <;> first | decide | omega) (by constructor <;> (try dsimp only) <;> first | decide | omega) (fun w => by simp_all [VOp.wf, Instr.wf, fmtOk]) (by simp [VOp.instr])
theorem vshr (d : Fld) (a : Fld) (b : BitVec 5) (t : TagN) (tn : Bool) (m : Fmt) : Statement (.vshr d a b t tn m) := by
  have h_d := d.isLt
  have h_a := a.isLt
  have h_b := b.isLt
  have h_t := t.isLt
  have h_tn := boolLt tn
  have h_m := m.isLt
  exact ofV (c := 0x3C) rfl rfl rfl (by decide) rfl (by simp) (by constructor <;> (try dsimp only) <;> first | decide | omega) (by constructor <;> (try dsimp only) <;> first | decide | omega) (by constructor <;> (try dsimp only) <;> first | decide | omega) (by constructor <;> (try dsimp only) <;> first | decide | omega) (by (try dsimp only) <;> first | decide | omega) (by constructor <;> (try dsimp only) <;> first | decide | omega) (by constructor <;> (try dsimp only) <;> first | decide | omega) (fun w => by simp_all [VOp.wf, Instr.wf, fmtOk]) (by simp [VOp.instr])
theorem vsel (d : Fld) (a : Fld) (b : Fld) (t : TagN) (tn : Bool) (m : Fmt) : Statement (.vsel d a b t tn m) := by
  have h_d := d.isLt
  have h_a := a.isLt
  have h_b := b.isLt
  have h_t := t.isLt
  have h_tn := boolLt tn
  have h_m := m.isLt
  exact ofV (c := 0x3D) rfl rfl rfl (by decide) rfl (by simp) (by constructor <;> (try dsimp only) <;> first | decide | omega) (by constructor <;> (try dsimp only) <;> first | decide | omega) (by constructor <;> (try dsimp only) <;> first | decide | omega) (by constructor <;> (try dsimp only) <;> first | decide | omega) (by (try dsimp only) <;> first | decide | omega) (by constructor <;> (try dsimp only) <;> first | decide | omega) (by constructor <;> (try dsimp only) <;> first | decide | omega) (fun w => by simp_all [VOp.wf, Instr.wf, fmtOk]) (by simp [VOp.instr])
theorem vfadd (d : Fld) (a : Fld) (b : Fld) (t : TagN) (tn : Bool) (m : Fmt) : Statement (.vfadd d a b t tn m) := by
  have h_d := d.isLt
  have h_a := a.isLt
  have h_b := b.isLt
  have h_t := t.isLt
  have h_tn := boolLt tn
  have h_m := m.isLt
  exact ofV (c := 0x40) rfl rfl rfl (by decide) rfl (by simp) (by constructor <;> (try dsimp only) <;> first | decide | omega) (by constructor <;> (try dsimp only) <;> first | decide | omega) (by constructor <;> (try dsimp only) <;> first | decide | omega) (by constructor <;> (try dsimp only) <;> first | decide | omega) (by (try dsimp only) <;> first | decide | omega) (by constructor <;> (try dsimp only) <;> first | decide | omega) (by constructor <;> (try dsimp only) <;> first | decide | omega) (fun w => by simp_all [VOp.wf, Instr.wf, fmtOk]) (by simp [VOp.instr])
theorem vfsub (d : Fld) (a : Fld) (b : Fld) (t : TagN) (tn : Bool) (m : Fmt) : Statement (.vfsub d a b t tn m) := by
  have h_d := d.isLt
  have h_a := a.isLt
  have h_b := b.isLt
  have h_t := t.isLt
  have h_tn := boolLt tn
  have h_m := m.isLt
  exact ofV (c := 0x41) rfl rfl rfl (by decide) rfl (by simp) (by constructor <;> (try dsimp only) <;> first | decide | omega) (by constructor <;> (try dsimp only) <;> first | decide | omega) (by constructor <;> (try dsimp only) <;> first | decide | omega) (by constructor <;> (try dsimp only) <;> first | decide | omega) (by (try dsimp only) <;> first | decide | omega) (by constructor <;> (try dsimp only) <;> first | decide | omega) (by constructor <;> (try dsimp only) <;> first | decide | omega) (fun w => by simp_all [VOp.wf, Instr.wf, fmtOk]) (by simp [VOp.instr])
theorem vfmul (d : Fld) (a : Fld) (b : Fld) (t : TagN) (tn : Bool) (m : Fmt) : Statement (.vfmul d a b t tn m) := by
  have h_d := d.isLt
  have h_a := a.isLt
  have h_b := b.isLt
  have h_t := t.isLt
  have h_tn := boolLt tn
  have h_m := m.isLt
  exact ofV (c := 0x42) rfl rfl rfl (by decide) rfl (by simp) (by constructor <;> (try dsimp only) <;> first | decide | omega) (by constructor <;> (try dsimp only) <;> first | decide | omega) (by constructor <;> (try dsimp only) <;> first | decide | omega) (by constructor <;> (try dsimp only) <;> first | decide | omega) (by (try dsimp only) <;> first | decide | omega) (by constructor <;> (try dsimp only) <;> first | decide | omega) (by constructor <;> (try dsimp only) <;> first | decide | omega) (fun w => by simp_all [VOp.wf, Instr.wf, fmtOk]) (by simp [VOp.instr])
theorem vfmin (d : Fld) (a : Fld) (b : Fld) (t : TagN) (tn : Bool) (m : Fmt) : Statement (.vfmin d a b t tn m) := by
  have h_d := d.isLt
  have h_a := a.isLt
  have h_b := b.isLt
  have h_t := t.isLt
  have h_tn := boolLt tn
  have h_m := m.isLt
  exact ofV (c := 0x43) rfl rfl rfl (by decide) rfl (by simp) (by constructor <;> (try dsimp only) <;> first | decide | omega) (by constructor <;> (try dsimp only) <;> first | decide | omega) (by constructor <;> (try dsimp only) <;> first | decide | omega) (by constructor <;> (try dsimp only) <;> first | decide | omega) (by (try dsimp only) <;> first | decide | omega) (by constructor <;> (try dsimp only) <;> first | decide | omega) (by constructor <;> (try dsimp only) <;> first | decide | omega) (fun w => by simp_all [VOp.wf, Instr.wf, fmtOk]) (by simp [VOp.instr])
theorem vfmax (d : Fld) (a : Fld) (b : Fld) (t : TagN) (tn : Bool) (m : Fmt) : Statement (.vfmax d a b t tn m) := by
  have h_d := d.isLt
  have h_a := a.isLt
  have h_b := b.isLt
  have h_t := t.isLt
  have h_tn := boolLt tn
  have h_m := m.isLt
  exact ofV (c := 0x44) rfl rfl rfl (by decide) rfl (by simp) (by constructor <;> (try dsimp only) <;> first | decide | omega) (by constructor <;> (try dsimp only) <;> first | decide | omega) (by constructor <;> (try dsimp only) <;> first | decide | omega) (by constructor <;> (try dsimp only) <;> first | decide | omega) (by (try dsimp only) <;> first | decide | omega) (by constructor <;> (try dsimp only) <;> first | decide | omega) (by constructor <;> (try dsimp only) <;> first | decide | omega) (fun w => by simp_all [VOp.wf, Instr.wf, fmtOk]) (by simp [VOp.instr])
theorem vfceq (d : TagN) (a : Fld) (b : Fld) (t : TagN) (tn : Bool) (m : Fmt) : Statement (.vfceq d a b t tn m) := by
  have h_d := d.isLt
  have h_a := a.isLt
  have h_b := b.isLt
  have h_t := t.isLt
  have h_tn := boolLt tn
  have h_m := m.isLt
  exact ofV (c := 0x45) rfl rfl rfl (by decide) rfl (by simp) (by constructor <;> (try dsimp only) <;> first | decide | omega) (by constructor <;> (try dsimp only) <;> first | decide | omega) (by constructor <;> (try dsimp only) <;> first | decide | omega) (by constructor <;> (try dsimp only) <;> first | decide | omega) (by (try dsimp only) <;> first | decide | omega) (by constructor <;> (try dsimp only) <;> first | decide | omega) (by constructor <;> (try dsimp only) <;> first | decide | omega) (fun w => by simp_all [VOp.wf, Instr.wf, fmtOk]) (by simp [VOp.instr])
theorem vfclt (d : TagN) (a : Fld) (b : Fld) (t : TagN) (tn : Bool) (m : Fmt) : Statement (.vfclt d a b t tn m) := by
  have h_d := d.isLt
  have h_a := a.isLt
  have h_b := b.isLt
  have h_t := t.isLt
  have h_tn := boolLt tn
  have h_m := m.isLt
  exact ofV (c := 0x46) rfl rfl rfl (by decide) rfl (by simp) (by constructor <;> (try dsimp only) <;> first | decide | omega) (by constructor <;> (try dsimp only) <;> first | decide | omega) (by constructor <;> (try dsimp only) <;> first | decide | omega) (by constructor <;> (try dsimp only) <;> first | decide | omega) (by (try dsimp only) <;> first | decide | omega) (by constructor <;> (try dsimp only) <;> first | decide | omega) (by constructor <;> (try dsimp only) <;> first | decide | omega) (fun w => by simp_all [VOp.wf, Instr.wf, fmtOk]) (by simp [VOp.instr])
theorem vfcle (d : TagN) (a : Fld) (b : Fld) (t : TagN) (tn : Bool) (m : Fmt) : Statement (.vfcle d a b t tn m) := by
  have h_d := d.isLt
  have h_a := a.isLt
  have h_b := b.isLt
  have h_t := t.isLt
  have h_tn := boolLt tn
  have h_m := m.isLt
  exact ofV (c := 0x47) rfl rfl rfl (by decide) rfl (by simp) (by constructor <;> (try dsimp only) <;> first | decide | omega) (by constructor <;> (try dsimp only) <;> first | decide | omega) (by constructor <;> (try dsimp only) <;> first | decide | omega) (by constructor <;> (try dsimp only) <;> first | decide | omega) (by (try dsimp only) <;> first | decide | omega) (by constructor <;> (try dsimp only) <;> first | decide | omega) (by constructor <;> (try dsimp only) <;> first | decide | omega) (fun w => by simp_all [VOp.wf, Instr.wf, fmtOk]) (by simp [VOp.instr])
theorem vlut8 (d : Fld) (a : Fld) (t : TagN) (tn : Bool) (m : Fmt) : Statement (.vlut8 d a t tn m) := by
  have h_d := d.isLt
  have h_a := a.isLt
  have h_t := t.isLt
  have h_tn := boolLt tn
  have h_m := m.isLt
  exact ofV (c := 0x48) rfl rfl rfl (by decide) rfl (by simp) (by constructor <;> (try dsimp only) <;> first | decide | omega) (by constructor <;> (try dsimp only) <;> first | decide | omega) (by constructor <;> (try dsimp only) <;> first | decide | omega) (by constructor <;> (try dsimp only) <;> first | decide | omega) (by (try dsimp only) <;> first | decide | omega) (by constructor <;> (try dsimp only) <;> first | decide | omega) (by constructor <;> (try dsimp only) <;> first | decide | omega) (fun w => by simp_all [VOp.wf, Instr.wf, fmtOk]) (by simp [VOp.instr])
theorem vlut16 (d : Fld) (a : Fld) (t : TagN) (tn : Bool) (m : Fmt) : Statement (.vlut16 d a t tn m) := by
  have h_d := d.isLt
  have h_a := a.isLt
  have h_t := t.isLt
  have h_tn := boolLt tn
  have h_m := m.isLt
  exact ofV (c := 0x49) rfl rfl rfl (by decide) rfl (by simp) (by constructor <;> (try dsimp only) <;> first | decide | omega) (by constructor <;> (try dsimp only) <;> first | decide | omega) (by constructor <;> (try dsimp only) <;> first | decide | omega) (by constructor <;> (try dsimp only) <;> first | decide | omega) (by (try dsimp only) <;> first | decide | omega) (by constructor <;> (try dsimp only) <;> first | decide | omega) (by constructor <;> (try dsimp only) <;> first | decide | omega) (fun w => by simp_all [VOp.wf, Instr.wf, fmtOk]) (by simp [VOp.instr])
theorem vsfn (d : Fld) (a : Fld) (b : BitVec 3) (t : TagN) (tn : Bool) (m : Fmt) : Statement (.vsfn d a b t tn m) := by
  have h_d := d.isLt
  have h_a := a.isLt
  have h_b := b.isLt
  have h_t := t.isLt
  have h_tn := boolLt tn
  have h_m := m.isLt
  exact ofV (c := 0x4A) rfl rfl rfl (by decide) rfl (by simp) (by constructor <;> (try dsimp only) <;> first | decide | omega) (by constructor <;> (try dsimp only) <;> first | decide | omega) (by constructor <;> (try dsimp only) <;> first | decide | omega) (by constructor <;> (try dsimp only) <;> first | decide | omega) (by (try dsimp only) <;> first | decide | omega) (by constructor <;> (try dsimp only) <;> first | decide | omega) (by constructor <;> (try dsimp only) <;> first | decide | omega) (fun w => by simp_all [VOp.wf, Instr.wf, fmtOk]) (by simp [VOp.instr])
theorem vcvt (d : Fld) (a : Fld) (b : Fmt) (t : TagN) (tn : Bool) (m : Fmt) : Statement (.vcvt d a b t tn m) := by
  have h_d := d.isLt
  have h_a := a.isLt
  have h_b := b.isLt
  have h_t := t.isLt
  have h_tn := boolLt tn
  have h_m := m.isLt
  exact ofV (c := 0x4B) rfl rfl rfl (by decide) rfl (by simp) (by constructor <;> (try dsimp only) <;> first | decide | omega) (by constructor <;> (try dsimp only) <;> first | decide | omega) (by constructor <;> (try dsimp only) <;> first | decide | omega) (by constructor <;> (try dsimp only) <;> first | decide | omega) (by (try dsimp only) <;> first | decide | omega) (by constructor <;> (try dsimp only) <;> first | decide | omega) (by constructor <;> (try dsimp only) <;> first | decide | omega) (fun w => by simp_all [VOp.wf, Instr.wf, fmtOk]) (by simp [VOp.instr])
theorem vrmax (d : TagN) (a : Fld) (t : TagN) (tn : Bool) (m : Fmt) : Statement (.vrmax d a t tn m) := by
  have h_d := d.isLt
  have h_a := a.isLt
  have h_t := t.isLt
  have h_tn := boolLt tn
  have h_m := m.isLt
  exact ofV (c := 0x50) rfl rfl rfl (by decide) rfl (by simp) (by constructor <;> (try dsimp only) <;> first | decide | omega) (by constructor <;> (try dsimp only) <;> first | decide | omega) (by constructor <;> (try dsimp only) <;> first | decide | omega) (by constructor <;> (try dsimp only) <;> first | decide | omega) (by (try dsimp only) <;> first | decide | omega) (by constructor <;> (try dsimp only) <;> first | decide | omega) (by constructor <;> (try dsimp only) <;> first | decide | omega) (fun w => by simp_all [VOp.wf, Instr.wf, fmtOk]) (by simp [VOp.instr])
theorem vrmin (d : TagN) (a : Fld) (t : TagN) (tn : Bool) (m : Fmt) : Statement (.vrmin d a t tn m) := by
  have h_d := d.isLt
  have h_a := a.isLt
  have h_t := t.isLt
  have h_tn := boolLt tn
  have h_m := m.isLt
  exact ofV (c := 0x51) rfl rfl rfl (by decide) rfl (by simp) (by constructor <;> (try dsimp only) <;> first | decide | omega) (by constructor <;> (try dsimp only) <;> first | decide | omega) (by constructor <;> (try dsimp only) <;> first | decide | omega) (by constructor <;> (try dsimp only) <;> first | decide | omega) (by (try dsimp only) <;> first | decide | omega) (by constructor <;> (try dsimp only) <;> first | decide | omega) (by constructor <;> (try dsimp only) <;> first | decide | omega) (fun w => by simp_all [VOp.wf, Instr.wf, fmtOk]) (by simp [VOp.instr])
theorem vrsum (d : Reg) (a : Fld) (t : TagN) (tn : Bool) (m : Fmt) : Statement (.vrsum d a t tn m) := by
  have h_d := d.isLt
  have h_a := a.isLt
  have h_t := t.isLt
  have h_tn := boolLt tn
  have h_m := m.isLt
  exact ofV (c := 0x52) rfl rfl rfl (by decide) rfl (by simp) (by constructor <;> (try dsimp only) <;> first | decide | omega) (by constructor <;> (try dsimp only) <;> first | decide | omega) (by constructor <;> (try dsimp only) <;> first | decide | omega) (by constructor <;> (try dsimp only) <;> first | decide | omega) (by (try dsimp only) <;> first | decide | omega) (by constructor <;> (try dsimp only) <;> first | decide | omega) (by constructor <;> (try dsimp only) <;> first | decide | omega) (fun w => by simp_all [VOp.wf, Instr.wf, fmtOk]) (by simp [VOp.instr])
theorem vrfsum (d : Reg) (a : Fld) (t : TagN) (tn : Bool) (m : Fmt) : Statement (.vrfsum d a t tn m) := by
  have h_d := d.isLt
  have h_a := a.isLt
  have h_t := t.isLt
  have h_tn := boolLt tn
  have h_m := m.isLt
  exact ofV (c := 0x53) rfl rfl rfl (by decide) rfl (by simp) (by constructor <;> (try dsimp only) <;> first | decide | omega) (by constructor <;> (try dsimp only) <;> first | decide | omega) (by constructor <;> (try dsimp only) <;> first | decide | omega) (by constructor <;> (try dsimp only) <;> first | decide | omega) (by (try dsimp only) <;> first | decide | omega) (by constructor <;> (try dsimp only) <;> first | decide | omega) (by constructor <;> (try dsimp only) <;> first | decide | omega) (fun w => by simp_all [VOp.wf, Instr.wf, fmtOk]) (by simp [VOp.instr])
theorem vqbs (d : Fld) (a : Fld) (b : Fld) (t : TagN) (tn : Bool) (m : Fmt) : Statement (.vqbs d a b t tn m) := by
  have h_d := d.isLt
  have h_a := a.isLt
  have h_b := b.isLt
  have h_t := t.isLt
  have h_tn := boolLt tn
  have h_m := m.isLt
  exact ofV (c := 0x58) rfl rfl rfl (by decide) rfl (by simp) (by constructor <;> (try dsimp only) <;> first | decide | omega) (by constructor <;> (try dsimp only) <;> first | decide | omega) (by constructor <;> (try dsimp only) <;> first | decide | omega) (by constructor <;> (try dsimp only) <;> first | decide | omega) (by (try dsimp only) <;> first | decide | omega) (by constructor <;> (try dsimp only) <;> first | decide | omega) (by constructor <;> (try dsimp only) <;> first | decide | omega) (fun w => by simp_all [VOp.wf, Instr.wf, fmtOk]) (by simp [VOp.instr])
theorem vdqbs (d : Fld) (a : Fld) (b : Fld) (t : TagN) (tn : Bool) (m : Fmt) : Statement (.vdqbs d a b t tn m) := by
  have h_d := d.isLt
  have h_a := a.isLt
  have h_b := b.isLt
  have h_t := t.isLt
  have h_tn := boolLt tn
  have h_m := m.isLt
  exact ofV (c := 0x59) rfl rfl rfl (by decide) rfl (by simp) (by constructor <;> (try dsimp only) <;> first | decide | omega) (by constructor <;> (try dsimp only) <;> first | decide | omega) (by constructor <;> (try dsimp only) <;> first | decide | omega) (by constructor <;> (try dsimp only) <;> first | decide | omega) (by (try dsimp only) <;> first | decide | omega) (by constructor <;> (try dsimp only) <;> first | decide | omega) (by constructor <;> (try dsimp only) <;> first | decide | omega) (fun w => by simp_all [VOp.wf, Instr.wf, fmtOk]) (by simp [VOp.instr])
theorem voutl (d : TagN) (a : Fld) (b : Fld) (t : TagN) (tn : Bool) (m : Fmt) : Statement (.voutl d a b t tn m) := by
  have h_d := d.isLt
  have h_a := a.isLt
  have h_b := b.isLt
  have h_t := t.isLt
  have h_tn := boolLt tn
  have h_m := m.isLt
  exact ofV (c := 0x5A) rfl rfl rfl (by decide) rfl (by simp) (by constructor <;> (try dsimp only) <;> first | decide | omega) (by constructor <;> (try dsimp only) <;> first | decide | omega) (by constructor <;> (try dsimp only) <;> first | decide | omega) (by constructor <;> (try dsimp only) <;> first | decide | omega) (by (try dsimp only) <;> first | decide | omega) (by constructor <;> (try dsimp only) <;> first | decide | omega) (by constructor <;> (try dsimp only) <;> first | decide | omega) (fun w => by simp_all [VOp.wf, Instr.wf, fmtOk]) (by simp [VOp.instr])
theorem vpass (lo : BitVec 24) (x : BitVec 29) : Statement (.vpass lo x) := by
  refine ⟨noS rfl, fun _ e w => ?_⟩
  cases e
  have h1 := lo.isLt; have h2 := x.isLt
  refine ⟨by simpa [VOp.wf, Instr.wf] using w, ?_, h2, ?_, by simp [VOp.instr]⟩
  · simp only [VOp.syllable, VKind.code, Bool.toNat_false]; omega
  · simp only [VOp.syllable, VKind.code, Bool.toNat_false]
    generalize hS : 96 * 16777216 + 0 * 524288 + 0 * 16384 + 0 * 512 + 0 * 64 + 0 * 32 + lo.toNat = S
    have a : fld S 24 8 = 0x60 := by unfold fld; omega
    have b : fld S 0 24 = lo.toNat := by unfold fld; omega
    have b1 : fld S 19 5 < 32 := by unfold fld; omega
    have b2 : fld S 14 5 < 32 := by unfold fld; omega
    have b3 : fld S 9 5 < 32 := by unfold fld; omega
    have b4 : fld S 6 3 < 8 := by unfold fld; omega
    have b5 : fld S 5 1 < 2 := by unfold fld; omega
    have b6 : fld S 0 5 < 32 := by unfold fld; omega
    unfold decV
    rw [a]
    simp only [vopRow, VKind.long, b1, b2, b3, b4, b5, b6, b, h2, and_self, ↓reduceIte]
theorem vseq (first : BitVec 7) (cnt : BitVec 7) : Statement (.vseq first cnt) := by
  have h_first := first.isLt
  have h_cnt := cnt.isLt
  have k0 : fld (first.toNat + cnt.toNat * 128) 0 7 = first.toNat := by unfold fld; omega
  have k1 : fld (first.toNat + cnt.toNat * 128) 7 7 = cnt.toNat := by unfold fld; omega
  exact ofV (c := 0x61) rfl rfl rfl (by decide) rfl (by simp) (by constructor <;> (try dsimp only) <;> first | decide | omega) (by constructor <;> (try dsimp only) <;> first | decide | omega) (by constructor <;> (try dsimp only) <;> first | decide | omega) (by constructor <;> (try dsimp only) <;> first | decide | omega) (by (try dsimp only) <;> first | decide | omega) (by constructor <;> (try dsimp only) <;> first | decide | omega) (by constructor <;> (try dsimp only) <;> first | decide | omega) (fun w => by simp_all [VOp.wf, Instr.wf, fmtOk]) (by simp [VOp.instr, k0, k1])
theorem vucload (a : Reg) (t : TagN) (tn : Bool) : Statement (.vucload a t tn) := by
  have h_a := a.isLt
  have h_t := t.isLt
  have h_tn := boolLt tn
  exact ofV (c := 0x62) rfl rfl rfl (by decide) rfl (by simp) (by constructor <;> (try dsimp only) <;> first | decide | omega) (by constructor <;> (try dsimp only) <;> first | decide | omega) (by constructor <;> (try dsimp only) <;> first | decide | omega) (by constructor <;> (try dsimp only) <;> first | decide | omega) (by (try dsimp only) <;> first | decide | omega) (by constructor <;> (try dsimp only) <;> first | decide | omega) (by constructor <;> (try dsimp only) <;> first | decide | omega) (fun w => by simp_all [VOp.wf, Instr.wf, fmtOk]) (by simp [VOp.instr])
theorem pendingTrapTaken (tile : Nat) (slot : Nat) : Statement (.pendingTrapTaken tile slot) := noEnc rfl rfl
theorem watchdogExpiry (tile : Nat) (slot : Nat) : Statement (.watchdogExpiry tile slot) := noEnc rfl rfl
theorem timerFire (tile : Nat) : Statement (.timerFire tile) := noEnc rfl rfl
theorem sleepTimeout (tile : Nat) (cid : Nat) : Statement (.sleepTimeout tile cid) := noEnc rfl rfl
theorem bundleFill (tile : Nat) (va : Nat) : Statement (.bundleFill tile va) := noEnc rfl rfl
theorem packetBind (tile : Nat) : Statement (.packetBind tile) := noEnc rfl rfl
theorem refillImageArrived (tile : Nat) (cid : Nat) : Statement (.refillImageArrived tile cid) := noEnc rfl rfl
theorem spillStart (tile : Nat) : Statement (.spillStart tile) := noEnc rfl rfl
theorem spillDone (tile : Nat) : Statement (.spillDone tile) := noEnc rfl rfl
theorem energyRefill (die : Nat) : Statement (.energyRefill die) := noEnc rfl rfl
theorem vopStart (tile : Nat) (win : Nat) : Statement (.vopStart tile win) := noEnc rfl rfl
theorem transferStart (tile : Nat) (win : Nat) : Statement (.transferStart tile win) := noEnc rfl rfl
theorem vopComplete (tile : Nat) (win : Nat) : Statement (.vopComplete tile win) := noEnc rfl rfl
theorem mxStart (tile : Nat) (op : Nat) : Statement (.mxStart tile op) := noEnc rfl rfl
theorem mxComplete (tile : Nat) (op : Nat) : Statement (.mxComplete tile op) := noEnc rfl rfl
theorem requestRoute (tile : Nat) (op : Nat) : Statement (.requestRoute tile op) := noEnc rfl rfl
theorem routeFetchDone (who : Agent) (tenant : Nat) (space : Nat) : Statement (.routeFetchDone who tenant space) := noEnc rfl rfl
theorem switchCombine (m1 : Nat) (m2 : Nat) : Statement (.switchCombine m1 m2) := noEnc rfl rfl
theorem replySplit (m : Nat) : Statement (.replySplit m) := noEnc rfl rfl
theorem homePut (m : Nat) : Statement (.homePut m) := noEnc rfl rfl
theorem homeRead (m : Nat) : Statement (.homeRead m) := noEnc rfl rfl
theorem homeTake (m : Nat) : Statement (.homeTake m) := noEnc rfl rfl
theorem homeRangeTake (m : Nat) : Statement (.homeRangeTake m) := noEnc rfl rfl
theorem homeRangeCreate (m : Nat) : Statement (.homeRangeCreate m) := noEnc rfl rfl
theorem homeAccCreate (m : Nat) : Statement (.homeAccCreate m) := noEnc rfl rfl
theorem homeAccContrib (m : Nat) : Statement (.homeAccContrib m) := noEnc rfl rfl
theorem homeCtrCreate (m : Nat) : Statement (.homeCtrCreate m) := noEnc rfl rfl
theorem homeCtrArrival (m : Nat) : Statement (.homeCtrArrival m) := noEnc rfl rfl
theorem homeCancel (m : Nat) : Statement (.homeCancel m) := noEnc rfl rfl
theorem homeBarrierRegister (m : Nat) : Statement (.homeBarrierRegister m) := noEnc rfl rfl
theorem homeResetCancel (m : Nat) : Statement (.homeResetCancel m) := noEnc rfl rfl
theorem deadlineExpiry (home : Nat) (place : Nat) : Statement (.deadlineExpiry home place) := noEnc rfl rfl
theorem pathPermit (m : Nat) : Statement (.pathPermit m) := noEnc rfl rfl
theorem payloadStream (m : Nat) : Statement (.payloadStream m) := noEnc rfl rfl
theorem tileDelivery (m : Nat) : Statement (.tileDelivery m) := noEnc rfl rfl
theorem tupleReply (m : Nat) : Statement (.tupleReply m) := noEnc rfl rfl
theorem readyQueueArrival (m : Nat) : Statement (.readyQueueArrival m) := noEnc rfl rfl
theorem heldPacketSend (m : Nat) : Statement (.heldPacketSend m) := noEnc rfl rfl
theorem watchNotify (m : Nat) : Statement (.watchNotify m) := noEnc rfl rfl
theorem specRollback (tile : Nat) (slot : Nat) : Statement (.specRollback tile slot) := noEnc rfl rfl
theorem releaseNotice (m : Nat) : Statement (.releaseNotice m) := noEnc rfl rfl
theorem commitDrainEnd (tile : Nat) (slot : Nat) : Statement (.commitDrainEnd tile slot) := noEnc rfl rfl
theorem barrierArrival (tile : Nat) (cid : Nat) : Statement (.barrierArrival tile cid) := noEnc rfl rfl
theorem tfenceComplete (tile : Nat) (cid : Nat) : Statement (.tfenceComplete tile cid) := noEnc rfl rfl
theorem fenceComplete (tile : Nat) (cid : Nat) : Statement (.fenceComplete tile cid) := noEnc rfl rfl
theorem exitComplete (tile : Nat) (cid : Nat) : Statement (.exitComplete tile cid) := noEnc rfl rfl
theorem notifySend (tile : Nat) (cid : Nat) : Statement (.notifySend tile cid) := noEnc rfl rfl
theorem launchTake (m : Nat) : Statement (.launchTake m) := noEnc rfl rfl
theorem launchAdmit (die : Nat) : Statement (.launchAdmit die) := noEnc rfl rfl
theorem launchWaiterRetry (die : Nat) (tenant : Nat) : Statement (.launchWaiterRetry die tenant) := noEnc rfl rfl
theorem copyStart (tile : Nat) (op : Nat) : Statement (.copyStart tile op) := noEnc rfl rfl
theorem pageFaultResolved (m : Nat) : Statement (.pageFaultResolved m) := noEnc rfl rfl
theorem copyComplete (tile : Nat) (op : Nat) : Statement (.copyComplete tile op) := noEnc rfl rfl
theorem freezeEffect (tile : Nat) (op : Nat) : Statement (.freezeEffect tile op) := noEnc rfl rfl
theorem tlbinvComplete (tile : Nat) (op : Nat) : Statement (.tlbinvComplete tile op) := noEnc rfl rfl
theorem homeSplitRequest (m : Nat) : Statement (.homeSplitRequest m) := noEnc rfl rfl
theorem splitTargetReply (m : Nat) : Statement (.splitTargetReply m) := noEnc rfl rfl
theorem splitCopyRx (m : Nat) : Statement (.splitCopyRx m) := noEnc rfl rfl
theorem splitInvalidateRx (m : Nat) : Statement (.splitInvalidateRx m) := noEnc rfl rfl
theorem cutOver (home : Nat) : Statement (.cutOver home) := noEnc rfl rfl
theorem splitCutoverMark (m : Nat) : Statement (.splitCutoverMark m) := noEnc rfl rfl
theorem routeInvalidate (m : Nat) : Statement (.routeInvalidate m) := noEnc rfl rfl
theorem spirePacketRx (port : Nat) (pkt : SpirePacket) : Statement (.spirePacketRx port pkt) := noEnc rfl rfl
theorem spireContextFetched (ctx : Nat) : Statement (.spireContextFetched ctx) := noEnc rfl rfl
theorem spireAckTimer (ctx : Nat) : Statement (.spireAckTimer ctx) := noEnc rfl rfl
theorem spireAckRx (port : Nat) (pkt : SpirePacket) : Statement (.spireAckRx port pkt) := noEnc rfl rfl
theorem spireRetxTimeout (ctx : Nat) (psn : Nat) : Statement (.spireRetxTimeout ctx psn) := noEnc rfl rfl
theorem remoteCopyAgent (m : Nat) : Statement (.remoteCopyAgent m) := noEnc rfl rfl
theorem hostPutGo (port : Nat) (fn : Nat) (slot : Nat) (word : W64) : Statement (.hostPutGo port fn slot word) := noEnc rfl rfl
theorem hostTakeGo (port : Nat) (fn : Nat) (slot : Nat) (word : W64) : Statement (.hostTakeGo port fn slot word) := noEnc rfl rfl
theorem hostTakeComplete (m : Nat) : Statement (.hostTakeComplete m) := noEnc rfl rfl
theorem tileResetToTenant (port : Nat) (tile : BitVec 32) (tenant : Nat) : Statement (.tileResetToTenant port tile tenant) := noEnc rfl rfl
theorem tileResetNoTenant (port : Nat) (tile : BitVec 32) : Statement (.tileResetNoTenant port tile) := noEnc rfl rfl
theorem slotReset (port : Nat) (tile : BitVec 32) (idx : Nat) : Statement (.slotReset port tile idx) := noEnc rfl rfl
theorem windowReset (port : Nat) (tile : BitVec 32) (idx : Nat) : Statement (.windowReset port tile idx) := noEnc rfl rfl
theorem regionReset (port : Nat) (tile : BitVec 32) (idx : Nat) : Statement (.regionReset port tile idx) := noEnc rfl rfl
theorem copyEngineReset (port : Nat) (tile : BitVec 32) : Statement (.copyEngineReset port tile) := noEnc rfl rfl
theorem tenantRecordWrite (port : Nat) (tenant : Nat) (off : Nat) (val : W64) : Statement (.tenantRecordWrite port tenant off val) := noEnc rfl rfl
theorem peerRecordWrite (port : Nat) (ctx : Nat) (word : Nat) (val : W64) : Statement (.peerRecordWrite port ctx word val) := noEnc rfl rfl
theorem pkgConfigWrite (port : Nat) (off : Nat) (val : W64) : Statement (.pkgConfigWrite port off val) := noEnc rfl rfl
theorem registerWrite (port : Nat) (fn : Nat) (bar : Nat) (off : Nat) (val : W64) : Statement (.registerWrite port fn bar off val) := noEnc rfl rfl
theorem mctpControl (cmd : Nat) (arg : Nat) : Statement (.mctpControl cmd arg) := noEnc rfl rfl
theorem pldmBase (cmd : Nat) : Statement (.pldmBase cmd) := noEnc rfl rfl
theorem pldmPlatform (cmd : Nat) (arg : Nat) : Statement (.pldmPlatform cmd arg) := noEnc rfl rfl
theorem getPackageConfig (off : Nat) (len : Nat) : Statement (.getPackageConfig off len) := noEnc rfl rfl
theorem setPackageConfig (off : Nat) (bytes : List Byte) : Statement (.setPackageConfig off bytes) := noEnc rfl rfl
theorem firmwareTransfer (secver : Nat) (code : W64) (patch : W64) (tables : W64) : Statement (.firmwareTransfer secver code patch tables) := noEnc rfl rfl
theorem firmwareActivate (raise : Bool) : Statement (.firmwareActivate raise) := noEnc rfl rfl
theorem selfTestFail : Statement .selfTestFail := noEnc rfl rfl
theorem cancelUpdate : Statement .cancelUpdate := noEnc rfl rfl
theorem rolloutLimit : Statement .rolloutLimit := noEnc rfl rfl
theorem tilePatch (tile : Nat) : Statement (.tilePatch tile) := noEnc rfl rfl
theorem launchTableSwap (die : Nat) : Statement (.launchTableSwap die) := noEnc rfl rfl
theorem getVersion : Statement .getVersion := noEnc rfl rfl
theorem getCapabilities : Statement .getCapabilities := noEnc rfl rfl
theorem negotiateAlgorithms (asym : Nat) (hash : Nat) : Statement (.negotiateAlgorithms asym hash) := noEnc rfl rfl
theorem getDigests : Statement .getDigests := noEnc rfl rfl
theorem getCertificate (slot : Nat) (off : Nat) (len : Nat) : Statement (.getCertificate slot off len) := noEnc rfl rfl
theorem challenge (slot : Nat) (nonce : Key) : Statement (.challenge slot nonce) := noEnc rfl rfl
theorem getMeasurements (index : Nat) (nonce : Key) : Statement (.getMeasurements index nonce) := noEnc rfl rfl
theorem telemetrySample (r : Sensors) : Statement (.telemetrySample r) := noEnc rfl rfl
theorem energyPlannerStep : Statement .energyPlannerStep := noEnc rfl rfl
theorem packageReset (badWins : List (Nat × Nat)) : Statement (.packageReset badWins) := noEnc rfl rfl
theorem fullRateSwitch (failed : List Nat) : Statement (.fullRateSwitch failed) := noEnc rfl rfl
theorem dieReset (die : Nat) : Statement (.dieReset die) := noEnc rfl rfl
theorem homeReset (home : Nat) : Statement (.homeReset home) := noEnc rfl rfl
theorem tileResetMctp (tile : Nat) : Statement (.tileResetMctp tile) := noEnc rfl rfl
theorem spirePortReset (port : Nat) : Statement (.spirePortReset port) := noEnc rfl rfl
theorem hostPortReset (port : Nat) : Statement (.hostPortReset port) := noEnc rfl rfl
theorem functionReset (port : Nat) (fn : Nat) : Statement (.functionReset port fn) := noEnc rfl rfl
theorem mgmtReset : Statement .mgmtReset := noEnc rfl rfl
theorem fatalEntry (cause : Nat) : Statement (.fatalEntry cause) := noEnc rfl rfl
theorem enAssert : Statement .enAssert := noEnc rfl rfl
theorem enDeassert : Statement .enDeassert := noEnc rfl rfl
theorem inputFault : Statement .inputFault := noEnc rfl rfl
theorem thermtrip : Statement .thermtrip := noEnc rfl rfl
theorem hostPayloadPulled (port : Nat) (fn : Nat) (slot : Nat) (bytes : List Byte) : Statement (.hostPayloadPulled port fn slot bytes) := noEnc rfl rfl
theorem hostPutReply (m : Nat) : Statement (.hostPutReply m) := noEnc rfl rfl
theorem deliveryAcknowledge (m : Nat) : Statement (.deliveryAcknowledge m) := noEnc rfl rfl
theorem targetRoomExhausted (m : Nat) : Statement (.targetRoomExhausted m) := noEnc rfl rfl
theorem spireLinkUp (port : Nat) : Statement (.spireLinkUp port) := noEnc rfl rfl
theorem hostPortLinkUp (port : Nat) (width : Nat) (rate : Nat) : Statement (.hostPortLinkUp port width rate) := noEnc rfl rfl
theorem inputInRange : Statement .inputInRange := noEnc rfl rfl
theorem atsInvalidate (port : Nat) (fn : Nat) (addr : Nat) : Statement (.atsInvalidate port fn addr) := noEnc rfl rfl

end Sys2Proof.Laws.RoundTrip
end

