-- ==== Sys2Proof/Tests/Slice0.lean ====
section
/-! SUPPORT. The model's own tests: decoding against the manual's worked encodings, terms that the operand checks refuse, single steps, and for
every statement a state and operands that meet its hypotheses. -/
set_option linter.unusedSimpArgs false
namespace Sys2Proof.Tests
set_option Elab.async false
open Sys2Proof Sys2Proof.Machine

/-! A small package: the issuing thread `t` in slot 0 of tile 0, the tile changed by `f`. -/
def regs (l : List (Nat × W64)) : Vector W64 32 := l.foldl (fun g e => g.setIfInBounds e.1 e.2) (Vector.replicate 32 0)
def th (l : List (Nat × W64) := []) : Thread := { g := regs l, compute := true, vl := 4096, pc := 0x1000 }
def tenantOne : TenantRec := Vector.ofFn fun i => if i.val = 0 then 0x8000000028000007 else if i.val = 4 then 0x320064 else if i.val = 6 then 0x5000 else 0
def demo (t : Thread) (f : Tile → Tile := id) : State :=
  let s := State.reset.withFetchWord 64 0
  let s := ({ s with tenants := [(0, tenantOne)] }).modTile 0 f
  s.setSlot 0 0 { s.slot 0 0 with thr := some t }
theorem issues {t : Thread} {f : Tile → Tile} (h : t.pwdg = none ∧ t.ptim = none) : (demo t f).Issues t :=
  ⟨State.thr_setSlot _ (by decide), fun _ => h⟩
theorem clear {t : Thread} (h : t.pend = []) (rs : List Reg) : t.Clear rs := by
  intro r _; simp [Thread.pending, h]

/-! Decoding: words that the manual's tables of worked encodings give (02_encoding.md to 13_system.md). -/
theorem test_decode_nop : decode 0x0000000000000000 = .ok ⟨false, 0, false, .nop, .vnop⟩ := rfl
theorem test_decode_integer : decodeInstr 0x0011D09200000000 = some (.mulhz 7 8 9) ∧ decodeInstr 0x0020864300000000 = some (.addx 2 3 4 3) ∧
    decode 0x0818443D00000000 = .ok ⟨false, 2, false, .sel 1 5 2 3, .vnop⟩ ∧ decodeInstr 0x2028C80100000308 = some (.bfxz 3 4 8 12) ∧
    decodeInstr 0x0038443300000000 = some (.pandn 1 2 3) := ⟨rfl, rfl, rfl, rfl, rfl⟩
theorem test_decode_float : decodeInstr 0x014A96CB00000000 = some (.fma .bf16 10 11 12) ∧
    decodeInstr 0x01634A6400000000 = some (.fcmpLt .fp16 3 4 5 6) ∧ decodeInstr 0x01814C8B00000000 = some (.cvt 8 11 5 6) ∧
    decodeInstr 0x0178864000000000 = some (.qbsE2m1 2 3 4) ∧ decodeInstr 0x0178C80400000000 = some (.nisplit 3 4) := ⟨rfl, rfl, rfl, rfl, rfl⟩
theorem test_decode_branch : decodeInstr 0x01A53FFD00000000 = some (.loop 20 (-3)) := rfl
theorem test_decode_load : decodeInstr 0x00A8C80400000000 = some (.ldw 3 4 4) ∧ decodeInstr 0x00D893FF00000000 = some (.std 2 9 (-1)) ∧
    decodeInstr 0x00E0C85E00000000 = some (.ldx 2 true true 3 4 5) ∧ decodeInstr 0x01018E0100000000 = some (.stf 6 7 1) ∧
    decode 0x0AF2540000000000 = .ok ⟨false, 2, true, .ldf 9 10 0, .vnop⟩ := ⟨rfl, rfl, rfl, rfl, rfl⟩
theorem test_decode_atomic : decodeInstr 0x01214C7900000000 = some (.amocas true false 5 6 7) ∧
    decodeInstr 0x01280E8400000000 = some (.amominz false true 0 7 8) ∧ decodeInstr 0x01388E8000000000 = some (.amofadd false false 2 7 8) ∧
    decodeInstr 0x01380E8D00000000 = some (.amofmax true true 0 7 8) ∧ decodeInstr 0x0140C85100000000 = some (.dins 3 4 5) := ⟨rfl, rfl, rfl, rfl, rfl⟩
theorem test_decode_matrix : decodeInstr 0x01C10A6000000000 = some (.mstat 4 5 6) ∧ decodeInstr 0x01C10A0100000000 = some (.munstat 4 5) ∧
    decodeInstr 0x01C0120200000000 = some (.mma 9) ∧ decodeInstr 0x01C0CE0300000000 = some (.macc 3 7) ∧
    decode 0x05C0120400000000 = .ok ⟨false, 1, false, .mrd 9, .vnop⟩ ∧ decodeInstr 0x01C0140500000000 = some (.mrdv 10) ∧
    decodeInstr 0x01C08E0600000000 = some (.mstatus 2 7) := ⟨rfl, rfl, rfl, rfl, rfl, rfl, rfl⟩
theorem test_decode_tuple : decodeInstr 0x01C9880100000000 = some (.putI 6 4) ∧ decodeInstr 0x01C9CA0700000000 = some (.takeB 7 5) ∧
    decodeInstr 0x01C8C85A00000000 = some (.takeN 3 4 5) ∧ decodeInstr 0x01C9D00600000000 = some (.readC 7 8) ∧
    decodeInstr 0x01C812AF00000000 = some (.ctrA 0 9 10) ∧ decodeInstr 0x01D0000100000000 = some .tfence ∧
    decodeInstr 0x01D0860300000000 = some (.copyout 2 3) ∧ decode 0x05D10A0700000000 = .ok ⟨false, 1, false, .tstat 4 5, .vnop⟩ ∧
    decodeInstr 0x01D0860600000000 = some (.split 2 3) := ⟨rfl, rfl, rfl, rfl, rfl, rfl, rfl, rfl, rfl⟩
theorem test_decode_sync : decodeInstr 0x01D8920000000000 = some (.bars 2 9) ∧ decodeInstr 0x01D8120100000000 = some (.barr 9) ∧
    decode 0x09D8120200000000 = .ok ⟨false, 2, false, .barw 9, .vnop⟩ ∧ decodeInstr 0x01D8000300000000 = some .spend ∧
    decodeInstr 0x01D9400400000000 = some (.spst 5) ∧ decodeInstr 0x01D8000500000000 = some (.fence 0) ∧ decodeInstr 0x01D8000600000000 = some .yield ∧
    decode 0x07D8C80700000000 = .ok ⟨false, 1, true, .sleep 3 4, .vnop⟩ ∧ decodeInstr 0x01D80C0800000000 = some (.wake 6) :=
  ⟨rfl, rfl, rfl, rfl, rfl, rfl, rfl, rfl, rfl⟩
theorem test_decode_task : decodeInstr 0x01E0864000000000 = some (.spawn 2 3 4) ∧ decodeInstr 0x01E0864100000000 = some (.send 2 3 4) ∧
    decode 0x09E0000200000000 = .ok ⟨false, 2, false, .exit, .vnop⟩ ∧ decodeInstr 0x01E00A0300000000 = some (.prio 5) ∧
    decodeInstr 0x01E18E8400000000 = some (.susp 6 7 8) ∧ decodeInstr 0x01E08C0500000000 = some (.resume 2 6) ∧
    decodeInstr 0x01E08C0600000000 = some (.free 2 6) ∧ decodeInstr 0x01E254B700000000 = some (.rdctx 9 10 11) ∧
    decodeInstr 0x01E254B800000000 = some (.wrctx 9 10 11) ∧ decodeInstr 0x01E0060900000000 = some (.lend 3) ∧
    decodeInstr 0x01E0085A00000000 = some (.timer 4 5) := ⟨rfl, rfl, rfl, rfl, rfl, rfl, rfl, rfl, rfl, rfl, rfl⟩
theorem test_decode_system : decodeInstr 0x21E9400000000010 = some (.crgetSl 5 0x010) ∧ decodeInstr 0x21E80C0100000001 = some (.crsetSl 6 0x001) ∧
    decodeInstr 0x01E9C08000000000 = some (.crget 7 8) ∧ decodeInstr 0x01E8043200000000 = some (.trap 2 3) ∧ decodeInstr 0x01E8000300000000 = some .rft ∧
    decodeInstr 0x01E8080400000000 = some (.svc 4) ∧ decodeInstr 0x01E8864600000000 = some (.tlbinv 2 3 4) ∧
    decodeInstr 0x01E80E0700000000 = some (.asid 7) ∧ decodeInstr 0x01E8120800000000 = some (.notify 9) ∧
    decodeInstr 0x01E8C80900000000 = some (.perf 3 4) ∧ decodeInstr 0x01E80C0A00000000 = some (.wdog 6) ∧
    decode 0x0DE80A0B00000000 = .ok ⟨false, 3, false, .halt 5, .vnop⟩ := ⟨rfl, rfl, rfl, rfl, rfl, rfl, rfl, rfl, rfl, rfl, rfl, rfl⟩
theorem test_decode_window : decodeInstr 0x0000000029100240 = some (.vclt 2 0 1 1 false 0) ∧
    decodeInstr 0x000000005328C088 = some (.vrfsum 5 3 2 false 8) ∧ decodeInstr 0x000000006201C000 = some (.vucload 7 0 false) ∧
    decodeInstr 0x4000102002200000 = some (.vfldi 4 32 16) ∧ decodeInstr 0x4000100061000000 = some (.vseq 0 32) ∧
    decodeInstr 0x4400410C601B047B = some (.vpass 0x1B047B 0x0400410C) := ⟨rfl, rfl, rfl, rfl, rfl, rfl⟩

/-! Ill-formed words and terms are refused by name (02_encoding.md R45, R63). -/
theorem test_kind_refused : decode 0x6000000000000000 = .error .kind := rfl
theorem test_major_refused : decode 0x0070000000000000 = .error .sHalf := rfl
theorem test_reserved_refused : decode 0x0010D09A00000000 = .error .sHalf ∧ decode 0x0011500F00000000 = .error .sHalf := ⟨rfl, rfl⟩
theorem test_vop_refused : decode 0x00000000FF000000 = .error .vHalf := rfl
theorem test_width_refused : decode 0x2028C80100000008 = .error .operand ∧ decode 0x2028C80100001048 = .error .operand := ⟨rfl, rfl⟩

/-! Terms that the operand checks refuse, one for each check. -/
theorem test_wf_instructions : (Instr.bfx 1 2 3 0).wf = false ∧ (Instr.bfi 1 2 3 65).wf = false ∧ (Instr.cvt 25 0 1 2).wf = false ∧
    (Instr.cvt 0 31 1 2).wf = false ∧ (Instr.amoadd true true 1 2 3).wf = false ∧ (Instr.amofmin true true 1 2 3).wf = false ∧
    (Instr.crgetSl 1 0x006).wf = false ∧ (Instr.crsetSl 1 0x0A0).wf = false := ⟨rfl, rfl, rfl, rfl, rfl, rfl, rfl, rfl⟩
theorem test_wf_windows : (Instr.vfldi 1 0 0).wf = false ∧ (Instr.vfldi 1 0 257).wf = false ∧ (Instr.vadd 1 2 3 0 false 25).wf = false ∧
    (Instr.vbci 1 0 false 11 256).wf = false ∧ (Instr.vbci 1 0 false 16 2).wf = false ∧ (Instr.vpass 0 (BitVec.ofNat 29 (264 * 65536))).wf = false ∧
    (Instr.vcvt 1 2 26 0 false 8).wf = false := by decide +kernel
theorem test_wf_events : (Instr.vopStart 768 0).wf = false ∧ (Instr.vopStart 0 4).wf = false ∧ (Instr.specRollback 0 8).wf = false ∧
    (Instr.fenceComplete 0 65536).wf = false ∧ (Instr.energyRefill 4).wf = false ∧ (Instr.homeReset 32).wf = false ∧
    (Instr.spireAckTimer 65536).wf = false ∧ (Instr.spireLinkUp 8).wf = false ∧ (Instr.hostPortReset 2).wf = false ∧
    (Instr.functionReset 0 256).wf = false ∧ (Instr.registerWrite 0 257 0 0 0).wf = false ∧ (Instr.hostPutGo 0 1 64 0).wf = false ∧
    (Instr.tileResetNoTenant 0 192).wf = false ∧ (Instr.windowReset 0 0 4).wf = false ∧ (Instr.tenantRecordWrite 0 256 0 0).wf = false ∧
    (Instr.getCertificate 8 0 0).wf = false := ⟨rfl, rfl, rfl, rfl, rfl, rfl, rfl, rfl, rfl, rfl, rfl, rfl, rfl, rfl, rfl, rfl⟩

/-! Hypotheses of the statements are met: the integer, predicate and branch instructions. -/
theorem witness_IntegerResult_binary : Binary.of (.divz 1 2 3) = some (.divz, 1, 2, .inl 3) ∧ (demo th).Issues th ∧ th.Clear [2, 1, 3] :=
  ⟨rfl, issues ⟨rfl, rfl⟩, clear rfl _⟩
theorem witness_IntegerResult_register : (∃ f, registerRule (.lih 0 5) = some ([0], 0, f)) ∧ (demo th).Issues th ∧ th.Clear [0, 0] :=
  ⟨⟨_, rfl⟩, issues ⟨rfl, rfl⟩, clear rfl _⟩
theorem witness_IntegerResult_field : (∃ f, fieldRule (.bfxz 1 2 63 64) = some (2, 1, 63, 64, f)) ∧ (Instr.bfxz 1 2 63 64).wf = true ∧
    (demo th).Issues th ∧ th.Clear [2, 1] := ⟨⟨_, rfl⟩, rfl, issues ⟨rfl, rfl⟩, clear rfl _⟩
theorem witness_DivisionCorners_zero : (demo th).Issues th ∧ th.Clear [2, 3, 1] ∧ th.rd 3 = 0 := ⟨issues ⟨rfl, rfl⟩, clear rfl _, rfl⟩
theorem witness_DivisionCorners_overflow : let t := th [(2, 0x8000000000000000), (3, 0xFFFFFFFFFFFFFFFF)]
    (demo t).Issues t ∧ t.Clear [2, 3, 1] ∧ t.rd 2 = 0x8000000000000000 ∧ t.rd 3 = 0xFFFFFFFFFFFFFFFF :=
  ⟨issues ⟨rfl, rfl⟩, clear rfl _, rfl, rfl⟩
theorem witness_PredicateResult_logic : (demo th).Issues th ∧ ∃ f, predicateRule (.pnor 0 1 2) = some (0, 1, 2, f) := ⟨issues ⟨rfl, rfl⟩, _, rfl⟩
theorem witness_PredicateResult_put : (demo th).Issues th ∧ th.Clear [7] := ⟨issues ⟨rfl, rfl⟩, clear rfl _⟩
theorem witness_PredicateResult_compare : (∃ f, compareRule (.cmpLezSl 3 3 1 5) = some (3, 3, 1, .inr 5, true, f)) ∧ (demo th).Issues th ∧ th.Clear [1] :=
  ⟨⟨_, rfl⟩, issues ⟨rfl, rfl⟩, clear rfl _⟩
theorem witness_BranchResult : (∃ w n, branchRule (.loop 4 (-3)) = some ([4], w, n)) ∧ (demo th).Issues th ∧ th.Clear [4] :=
  ⟨⟨_, _, rfl⟩, issues ⟨rfl, rfl⟩, clear rfl _⟩

/-! Scratchpad accesses. -/
def t64 : Thread := th [(2, 64), (3, 0x1122334455667788), (4, 63), (5, 0x100000), (6, 8192)]
def specOf (t : Thread) : Spec :=
  { st := .active, no := 0, drainEnd := 0, entry := 0, cause := 0, resume := 0x1008, g := t.g, p := 0, round := 0, fmtA := 0, fmtW := 0, scaleA := 0, scaleW := 0, sparse := 0,
    vl := 0, fds := Vector.replicate 32 {}, area := 0, fld := 0, buf := [], puts := [], reads := [], watches := [], holds := [], written := [],
    susp := false, pin := false }
def tSpec : Thread := { t64 with spec := some (specOf t64) }
theorem witness_LoadResult : (∃ m e w, loadRule (.ldd 1 2 0) = some (m, 1, e, w) ∧ t64.Clear (1 :: m.regs) ∧
    accessTrap (demo t64).ctile (m.addr t64) m.n m.ecc = none) ∧ (demo t64).Issues t64 :=
  ⟨⟨_, _, _, rfl, clear rfl _, rfl⟩, issues ⟨rfl, rfl⟩⟩
theorem witness_StoreResult : ∃ m, storeRule (.stb 3 2 0x1FF) = some (m, 3) ∧ (demo t64).Issues t64 ∧ t64.Clear (3 :: m.regs) ∧ t64.spec = none ∧
    t64.wait = .none ∧ (demo t64).ctile.sp.wf = true ∧ accessTrap (demo t64).ctile (m.addr t64) m.n m.ecc = none :=
  ⟨_, rfl, issues ⟨rfl, rfl⟩, clear rfl _, rfl, rfl, rfl, rfl⟩
theorem witness_StoreResult_speculative : ∃ m sp, storeRule (.std 3 2 0) = some (m, 3) ∧ (demo tSpec).Issues tSpec ∧ tSpec.Clear (3 :: m.regs) ∧
    tSpec.spec = some sp ∧ sp.st = .active ∧ accessTrap (demo tSpec).ctile (m.addr tSpec) m.n m.ecc = none ∧
    areaHas sp.area (m.addr tSpec) m.n = false ∧ areaHas sp.area (m.addr tSpec / 64 * 64) 64 = false ∧ sp.used + 1 ≤ 64 :=
  ⟨_, _, rfl, issues ⟨rfl, rfl⟩, clear rfl _, rfl, rfl, rfl, rfl, rfl, by decide⟩
theorem witness_FullEmptyResult : ∃ m d c a, fullEmptyRule (.ste 3 2 0) = some (m, some false, d, c, a) ∧ (demo t64).Issues t64 ∧
    t64.Clear (d.toList ++ c.toList ++ m.regs) ∧ t64.spec = none ∧ t64.wait = .none ∧ (demo t64).ctile.sp.wf = true ∧
    accessTrap (demo t64).ctile (m.addr t64) 8 true = none ∧ decide (m.addr t64 / 8 ∈ (demo t64).ctile.full) = false :=
  ⟨_, _, _, _, rfl, issues ⟨rfl, rfl⟩, clear rfl _, rfl, rfl, rfl, rfl, rfl⟩
def waitsFor (t : Thread) : Prop := ∃ m d c a, fullEmptyRule (.ldf 3 2 0) = some (m, some true, d, c, a) ∧ (demo t).Issues t ∧
    t.Clear (d.toList ++ c.toList ++ m.regs) ∧ t.spec = none ∧ accessTrap (demo t).ctile (m.addr t) 8 true = none ∧
    decide (m.addr t / 8 ∈ (demo t).ctile.full) = !true
theorem witness_FullEmptyResult_first : waitsFor t64 ∧ t64.feTried = false := ⟨⟨_, _, _, _, rfl, issues ⟨rfl, rfl⟩, clear rfl _, rfl, rfl, rfl⟩, rfl⟩
theorem witness_FullEmptyResult_again : let t := { t64 with feTried := true, feLimit := 7 }
    waitsFor t ∧ t.feTried = true ∧ (t.feLimit ≠ min (t.feCount + 1) 0xFFFF ∨ t.feLimit = 0) :=
  ⟨⟨_, _, _, _, rfl, issues ⟨rfl, rfl⟩, clear rfl _, rfl, rfl, rfl⟩, rfl, .inl (by decide)⟩
theorem witness_FullEmptyResult_limit : let t := { t64 with feTried := true, feLimit := 1 }
    waitsFor t ∧ t.feTried = true ∧ t.feLimit = min (t.feCount + 1) 0xFFFF ∧ t.feLimit ≠ 0 ∧ t.tact = false :=
  ⟨⟨_, _, _, _, rfl, issues ⟨rfl, rfl⟩, clear rfl _, rfl, rfl, rfl⟩, rfl, rfl, by decide, rfl⟩
theorem witness_AtomicResult : atomicRule (.amocas true false 1 2 3) = some (true, false, 1, 2, 3, true, false) ∧
    (Instr.amocas true false 1 2 3).wf = true ∧ (demo t64).Issues t64 ∧
    t64.Clear [2, 3, 1] ∧ t64.spec = none ∧ t64.wait = .none ∧ (demo t64).ctile.sp.wf = true ∧
    accessTrap (demo t64).ctile (t64.rd 2).toNat 8 true = none := ⟨rfl, rfl, issues ⟨rfl, rfl⟩, clear rfl _, rfl, rfl, rfl, rfl⟩
theorem witness_AtomicResult_float : (∃ f, atomicFloatRule (.amofmax true true 0 2 3) = some (true, true, 0, 2, 3, f)) ∧
    (Instr.amofmax true true 0 2 3).wf = true ∧ (demo t64).Issues t64 ∧
    t64.Clear [2, 3, 0] ∧ t64.spec = none ∧ t64.wait = .none ∧ (demo t64).ctile.sp.wf = true ∧
    accessTrap (demo t64).ctile (t64.rd 2).toNat 2 true = none := ⟨⟨_, rfl⟩, rfl, issues ⟨rfl, rfl⟩, clear rfl _, rfl, rfl, rfl, rfl⟩
def bank1 (t : Tile) : Tile := t.setRegion 0 { st := .ready, b0 := 1, kb := 1, nb := 1 }
def badEight (t : Tile) : Tile := { t with bad := [8] }
theorem witness_AccessTrapTaken_load : ∃ m e w, loadRule (.ldd 1 4 0) = some (m, 1, e, w) ∧ (demo t64).Issues t64 ∧ t64.Clear ([1] ++ m.regs) ∧
    accessTrap (demo t64).ctile (m.addr t64) m.n m.ecc = some ⟨5, 3, 63⟩ := ⟨_, _, _, rfl, issues ⟨rfl, rfl⟩, clear rfl _, by decide +kernel⟩
theorem witness_AccessTrapTaken_store : ∃ m, storeRule (.std 1 5 0) = some (m, 1) ∧ (demo t64).Issues t64 ∧ t64.Clear ([1] ++ m.regs) ∧
    accessTrap (demo t64).ctile (m.addr t64) m.n m.ecc = some ⟨6, 4, 0x100000⟩ := ⟨_, rfl, issues ⟨rfl, rfl⟩, clear rfl _, by decide +kernel⟩
theorem witness_AccessTrapTaken_fullEmpty : ∃ m f d c a, fullEmptyRule (.ldf 1 6 0) = some (m, f, d, c, a) ∧ (demo t64 bank1).Issues t64 ∧
    t64.Clear (d.toList ++ c.toList ++ m.regs) ∧ accessTrap (demo t64 bank1).ctile (m.addr t64) m.n m.ecc = some ⟨7, 5, 8192⟩ :=
  ⟨_, _, _, _, _, rfl, issues ⟨rfl, rfl⟩, clear rfl _, by decide +kernel⟩
theorem witness_AccessTrapTaken_atomic : atomicRule (.amoadd true false 1 2 3) = some (true, false, 1, 2, 3, false, false) ∧
    (demo t64 badEight).Issues t64 ∧ t64.Clear ([1] ++ [2, 3]) ∧ accessTrap (demo t64 badEight).ctile (t64.rd 2).toNat 8 true = some ⟨10, 10, 64⟩ :=
  ⟨rfl, issues ⟨rfl, rfl⟩, clear rfl _, by decide +kernel⟩
theorem witness_AccessTrapTaken_float : (∃ f, atomicFloatRule (.amofadd false false 1 4 3) = some (false, false, 1, 4, 3, f)) ∧ (demo t64).Issues t64 ∧
    t64.Clear ([1] ++ [4, 3]) ∧ accessTrap (demo t64).ctile (t64.rd 4).toNat 4 true = some ⟨5, 3, 63⟩ :=
  ⟨⟨_, rfl⟩, issues ⟨rfl, rfl⟩, clear rfl _, by decide +kernel⟩
theorem witness_AccessTrapTaken_bank : let l := (demo t64 bank1).ctile
    (l.region 0).st ≠ .free ∧ (l.region 0).b0 ≤ 1 ∧ 1 < (l.region 0).b0 + (l.region 0).kb * (l.region 0).nb ∧ 16383 / 8192 = 1 ∧ 16383 < Config.spSize ∧
    16383 % 1 = 0 := by decide +kernel
theorem witness_DirectoryResult : (demo t64).Issues t64 ∧ t64.Clear [1, 2, 3] ∧ t64.spec = none ∧ (demo t64).ctile.badDir = [] ∧
    (demo t64).ctile.dir.length < 256 := ⟨issues ⟨rfl, rfl⟩, clear rfl _, rfl, rfl, by decide⟩
def fullDir (t : Tile) : Tile := { t with dir := (List.range 256).map fun i => (BitVec.ofNat 64 (i + 1000), 0) }
theorem witness_DirectoryResult_full : (demo t64 fullDir).Issues t64 ∧ ((demo t64 fullDir).ctile.dir.find? fun e => e.1 == t64.rd 2) = none ∧
    256 ≤ (demo t64 fullDir).ctile.dir.length ∧ (demo t64 fullDir).ctile.badDir = [] := ⟨issues ⟨rfl, rfl⟩, by decide +kernel, by decide +kernel, rfl⟩

/-! Floating point. -/
theorem witness_FloatEncoding_decoding : let f : FloatFormat := ⟨12, 5, 2, 15, true, 0x7B⟩
    f ∈ floatFormats ∧ 0x7D < 2 ^ fmtWidth f.code ∧ f.isNan 0x7D = true ∧ f.isInf 0xFC = true ∧ f.isNan 1 = false ∧ f.isInf 1 = false := by decide +kernel
theorem witness_FloatEncoding_unsigned : (⟨24, 5, 3, 15, false, 0xFE⟩ : FloatFormat) ∈ floatFormats ∧ 0 < 1 ∧ 3 < 4 ∧
    (⟨24, 5, 3, 15, false, 0xFE⟩ : FloatFormat).signed = false := by decide +kernel
theorem witness_FloatEncoding_rounding : (⟨11, 4, 3, 7, true, 0x7E⟩ : FloatFormat) ∈ floatFormats ∧ (true || !true) = true ∧
    (roundVal 11 (.fin true 500 1 0) 0).2.getLsbD 2 = true ∧ (roundVal 11 (.fin true 1 1000 0) 0).2.getLsbD 2 = false := by decide +kernel
/-- 500 lies beyond the largest number of E4M3 and beyond the one that would follow it; 449 beyond the largest alone. -/
theorem witness_FloatEncoding_over : let f : FloatFormat := ⟨11, 4, 3, 7, true, 0x7E⟩
    f ∈ floatFormats ∧ f.value f.max = 448 ∧ (2 : Rat) ^ ((f.expo f.max : Int) - f.bias - f.m) = 32 ∧ (448 : Rat) < 449 ∧ ¬ ((448 : Rat) + 32 ≤ 449) ∧
    (448 : Rat) + (448 + 32) < 2 * 500 := by decide +kernel
def tFl : Thread := th [(2, 0x3F800000), (3, 0xFF800000), (4, 0), (5, 0x7FC00000), (6, 0x80000000)]
theorem witness_FloatArithmetic : farRule (.fma .fp32 6 2 4) = some (3, .fp32, 6, 2, 4) ∧ (demo tFl).Issues tFl ∧ tFl.Clear [2, 4, 6] ∧
    (val 8 (tFl.rd 2).toNat).isFin = true ∧ (val 8 (tFl.rd 4).toNat).isFin = true ∧ (val 8 (tFl.rd 6).toNat).isFin = true :=
  ⟨rfl, issues ⟨rfl, rfl⟩, clear rfl _, by decide +kernel, by decide +kernel, by decide +kernel⟩
theorem witness_FloatArithmetic_special : farRule (.fmul .fp32 1 3 4) = some (2, .fp32, 1, 3, 4) ∧ (demo tFl).Issues tFl ∧ tFl.Clear [3, 4, 1] ∧
    farSpecial 2 (val 8 (tFl.rd 3).toNat) (val 8 (tFl.rd 4).toNat) (val 8 (tFl.rd 1).toNat) = some (none, NV) :=
  ⟨rfl, issues ⟨rfl, rfl⟩, clear rfl _, by decide +kernel⟩
theorem witness_FloatArithmetic_codes : 10 ∈ [8, 9, 10] ∧ farSpecial 3 (val 10 0x7F80) (val 10 0) (val 10 0x3F80) = some (none, NV) ∧
    (val 10 0x3F80).isFin = true ∧ (val 10 0x8001).isFin = true := by decide +kernel
theorem witness_FloatComparison_selection : minMaxRule (.fmin .fp32 1 4 6) = some (false, .fp32, 1, 4, 6) ∧ (demo tFl).Issues tFl ∧ tFl.Clear [4, 6, 1] :=
  ⟨rfl, issues ⟨rfl, rfl⟩, clear rfl _⟩
theorem witness_FloatComparison_class : (⟨9, 5, 10, 15, true, 0x7BFF⟩ : FloatFormat) ∈ floatFormats ∧ 9 = fmtNo .fp16 ∧ (demo tFl).Issues tFl ∧
    tFl.Clear [5, 1] := ⟨by decide, rfl, issues ⟨rfl, rfl⟩, clear rfl _⟩
theorem witness_FloatComparison_compare : (∃ f, floatCompareRule (.fcmpLe .fp32 2 2 5 4) = some (.fp32, 2, 2, 5, 4, f, true)) ∧ (demo tFl).Issues tFl ∧
    tFl.Clear [5, 4] := ⟨⟨_, rfl⟩, issues ⟨rfl, rfl⟩, clear rfl _⟩
theorem witness_ConversionResult : (Instr.cvt 24 8 1 2).wf = true ∧ (demo tFl).Issues tFl ∧ tFl.Clear [2, 1] := ⟨rfl, issues ⟨rfl, rfl⟩, clear rfl _⟩
theorem witness_BlockConversion_nan : 13 ∈ [13, 11] ∧ [Val.nan false] ≠ [] ∧ (∀ x ∈ [Val.nan false], ∀ s n d e, x = .fin s n d e → 0 < d) ∧
    ∃ x ∈ [Val.nan false], x.isNan = true := by simp [Val.isNan]
theorem witness_BlockConversion_zero : 11 ∈ [13, 11] ∧ (∀ x ∈ [Val.fin true 0 1 0], ∀ s n d e, x = .fin s n d e → 0 < d) ∧
    ∀ x ∈ [Val.fin true 0 1 0], x.isZero = true := by simp [Val.isZero]
theorem witness_BlockConversion_numbers : let xs := [Val.fin false 3 1 4, .inf true]
    (∀ x ∈ xs, ∀ s n d e, x = .fin s n d e → 0 < d) ∧ (∀ x ∈ xs, x.isNan = false) ∧ ∃ x ∈ xs, x.isZero = false := by simp [Val.isNan, Val.isZero]
theorem witness_BlockConversion_places : ∀ ef ∈ [13, 11], 0xFE < 256 ∧ 15 < 2 ^ fmtWidth ef ∧ (List.replicate 16 15).length = 16 ∧
    ∀ e ∈ List.replicate 16 15, e < 2 ^ fmtWidth ef := by decide
def tQ : Thread := th [(2, 64), (3, 0xFFFF7)]
theorem witness_BlockConversion : (.qbsE2m1 1 2 3, 13, false) ∈ [((.qbsE2m1 1 2 3 : Instr), 13, false)] ∧ (demo tQ).Issues tQ ∧ tQ.Clear [2, 3, 1] ∧
    tQ.spec = none ∧ (demo tQ).ctile.sp.wf = true ∧ (tQ.rd 2).toNat % 64 = 0 ∧ (tQ.rd 2).toNat + 64 ≤ Config.spSize ∧
    (tQ.rd 3).toNat + 9 ≤ Config.spSize ∧ (demo tQ).ctile.statIn 64 64 = none ∧ (demo tQ).ctile.statIn 0xFFFF7 9 = none ∧
    (demo tQ).ctile.badIn 64 64 = none ∧ (demo tQ).ctile.badIn 0xFFFF7 9 = none :=
  ⟨.head _, issues ⟨rfl, rfl⟩, clear rfl _, rfl, rfl, by decide +kernel⟩

/-! Traps and system instructions. -/
def tSys : Thread := { th [(2, 100), (3, 149), (4, 150), (5, 4), (6, 0x8000), (7, 7), (8, 8)] with sys := true }
def tApp : Thread := { tSys with sys := false }
theorem witness_TrapEntry : ∃ b, (demo tApp).Issues tApp ∧ tApp.speculative = false ∧ tApp.tact = false ∧ decode 0x01E8080400000000 = .ok b ∧
    firstTrap (bundleTraps 0x01E8080400000000 (guardHolds tApp b) (halfOf b.s) (halfV b.v) (demo tApp)) = some ⟨11, 12, 150⟩ :=
  ⟨_, issues ⟨rfl, rfl⟩, rfl, rfl, rfl, by decide +kernel⟩
theorem witness_StatusRegister : (demo tSys).Issues tSys ∧ tSys.Clear [3] ∧ tSys.sys = true ∧ tSys.spec = none ∧ 7 < 8 ∧ tSys.win < 4 :=
  ⟨issues ⟨rfl, rfl⟩, clear rfl _, rfl, rfl, by decide, by decide⟩
theorem witness_TrapInstructions : (demo tApp).Issues tApp ∧ tApp.Clear [2, 3] ∧ tApp.spec = none ∧ tApp.tact = false :=
  ⟨issues ⟨rfl, rfl⟩, clear rfl _, rfl, rfl⟩
theorem witness_TrapInstructions_speculative : (demo tSpec).Issues tSpec ∧ tSpec.Clear [2] ∧ tSpec.speculative = true := ⟨issues ⟨rfl, rfl⟩, clear rfl _, rfl⟩
theorem witness_TrapInstructions_handler : let t := { tSys with tact := true }
    (demo t).Issues t ∧ t.Clear [2] ∧ t.speculative = false ∧ t.tact = true := ⟨issues ⟨rfl, rfl⟩, clear rfl _, rfl, rfl⟩
theorem witness_TrapInstructions_return : (demo tSys).Issues tSys ∧ tSys.sys = true ∧ tSys.spec = none := ⟨issues ⟨rfl, rfl⟩, rfl, rfl⟩
def system0 (t : Thread) : Prop := (demo t).Issues t ∧ t.Clear [2, 3, 1] ∧ t.Clear [4, 6, 1] ∧ t.Clear [5, 8, 1] ∧ t.spec = none ∧ t.wait = .none ∧ t.sys = true
theorem witness_SystemOperations : system0 tSys ∧ recHasAsid ((demo tSys).tenantRec ((demo tSys).tenantOf 0)) ((tSys.rd 2).toNat % 8192) = true ∧
    recHasAsid ((demo tSys).tenantRec ((demo tSys).tenantOf 0)) ((tSys.rd 3).toNat % 8192) = true ∧
    recHasAsid ((demo tSys).tenantRec ((demo tSys).tenantOf 0)) ((tSys.rd 4).toNat % 8192) = false ∧ (tSys.rd 7).toNat % 256 ≤ 7 ∧
    (tSys.rd 8).toNat % 256 > 7 ∧ (tSys.rd 6).getLsbD 15 = true ∧ (tSys.rd 2).getLsbD 15 = false ∧ (tSys.rd 2).getLsbD 13 = false ∧
    (tSys.rd 2).getLsbD 14 = false :=
  ⟨⟨issues ⟨rfl, rfl⟩, clear rfl _, clear rfl _, clear rfl _, rfl, rfl, rfl⟩, by decide +kernel, by decide +kernel, by decide +kernel,
    by decide +kernel, by decide +kernel, by decide +kernel⟩
def put0 : TOp :=
  { id := 5, kind := .put, cid := 0, asid := 0, desc := {}, dAddr := 64, rd := 0, arg := 0, packet := [], stage := .queued, dest := 0, performed := false,
    gdDone := false, spec := false, prog := 0 }
def busyPut (t : Tile) : Tile := { t with ops := [put0] }
theorem witness_SystemOperations_notify : (tSys.rd 5).toNat % 4096 < recVcount ((demo tSys).tenantRec ((demo tSys).tenantOf 0)) ∧
    (demo tSys busyPut).fenced 0 tSys.cid = false ∧ (demo tSys).fenced 0 tSys.cid = true ∧ (demo tSys).ctile.slotOf tSys.cid = some 0 ∧
    (demo tSys busyPut).ctile.slotOf tSys.cid = some 0 ∧ (tSys.rd 8).toNat % 4096 ≥ recVcount ((demo tSys).tenantRec ((demo tSys).tenantOf 0)) := by
  decide +kernel
theorem witness_SystemOperations_notifyBusy : (demo tSys busyPut).Issues tSys := issues ⟨rfl, rfl⟩
theorem witness_SystemOperations_privileged : (demo tApp).Issues tApp ∧ tApp.sys = false ∧ (0x053#12).toNat ∈ [0x000, 0x050, 0x051, 0x052, 0x053, 0x061] :=
  ⟨issues ⟨rfl, rfl⟩, rfl, by decide⟩
theorem witness_IssueOfABundle : (demo th).Issues th := issues ⟨rfl, rfl⟩
theorem witness_IssueOfABundle_guard : ∃ b, (demo th).Issues th ∧ decode 0x0818443D00000000 = .ok b ∧ guardHolds th b = false ∧ b.v = VOp.vnop :=
  ⟨_, issues ⟨rfl, rfl⟩, rfl, by decide +kernel, rfl⟩
theorem witness_IssueOfABundle_window : ∃ b, (demo th).Issues th ∧ decode 0x0818443D30004400 = .ok b ∧ guardHolds th b = false ∧
    (Instr.vadd 0 1 2 0 false 0).vop = some b.v ∧ (Instr.vadd 0 1 2 0 false 0).wf = true ∧ th.compute = true ∧ th.spec = none ∧
    th.Clear (vGSrcs b.v ++ (vGDst b.v).toList) ∧ vChecks b.v (demo th) = [] := ⟨_, issues ⟨rfl, rfl⟩, rfl, by decide +kernel, rfl, rfl, rfl, rfl, clear rfl _, rfl⟩
def tPend : Thread := { t64 with pend := [(2, 9)], outs := [9] }
theorem witness_IssueOfABundle_pending : Binary.of (.add 1 2 3) = some (.add, 1, 2, .inl 3) ∧ (demo tPend).Issues tPend ∧ 2 ∈ [2, 1, 3] ∧
    tPend.pending 2 = true ∧ (∀ q ∈ [2, 1, 3], tPend.pending q = true → q = 2) ∧ (∃ f, registerRule (.clz 1 2) = some ([2], 1, f)) ∧
    (∃ m e w, loadRule (.ldb 1 2 0) = some (m, 1, e, w)) ∧ (∃ m, storeRule (.stb 1 2 0) = some (m, 1)) ∧
    ∃ f, compareRule (.cmpEq 1 2 2 3) = some (1, 2, 2, .inl 3, false, f) :=
  ⟨rfl, issues ⟨rfl, rfl⟩, by decide, by decide, by decide, ⟨_, rfl⟩, ⟨_, _, _, rfl⟩, ⟨_, rfl⟩, _, rfl⟩
theorem witness_ControlRegisters_read : (demo tSys).Issues tSys ∧ tSys.Clear [7, 1] ∧ (crAccess 0x091).isSome = true ∧ 0x091 ≠ 0x080 ∧ 0x091 ≠ 0x090 ∧
    (tSys.rd 7).toNat % 4096 = 7 ∧ crAccess 7 = none := ⟨issues ⟨rfl, rfl⟩, clear rfl _, by decide, by decide, by decide, rfl, by decide⟩
theorem witness_ControlRegisters_write : (demo tSys).Issues tSys ∧ tSys.Clear [2, 3] ∧ tSys.spec = none ∧ tSys.sys = true ∧ tSys.compute = true ∧
    crAccess 0x040 = some .ro ∧ (tSys.rd 5).toNat % 4096 = 0x004 := ⟨issues ⟨rfl, rfl⟩, clear rfl _, rfl, rfl, rfl, by decide, rfl⟩

/-! Tuple, copy and matrix operations at issue. -/
def desc (l : List (Nat × Nat)) (m : Memory) : Memory := l.foldl (fun m e => m.writeN (0x4000 + 8 * e.1) 8 e.2) m
def withDesc (l : List (Nat × Nat)) (t : Tile) : Tile := { t with sp := desc l t.sp }
def tDesc : Thread := { th [(1, 0x10AA3), (2, 0x8000), (9, 0x4000), (10, 7), (11, 0x4001), (12, 0xFFFFFFFF), (13, 0x100000000), (14, 0xFFFF000000004000)] with sys := true }
def plainDesc (t : Tile) : Tile := withDesc [(9, 2 ^ 43)] t
def granted (t : Tile) : Tile := { plainDesc t with grants := [(0, true), (0x4000, true)] }
def sDesc : State := demo tDesc plainDesc
def sGranted : State := demo tDesc granted
theorem witness_DescriptorIssue : descriptorRule (.put 5 9) = some (.put, 5, 9, none) ∧ sDesc.Issues tDesc ∧ tDesc.Clear [5, 9] ∧ tDesc.spec = none ∧
    sDesc.ctile.soft = [] ∧ descChecks .put 9 none sDesc = [] ∧ descChecks .takeN 9 (some 10) sDesc = [] ∧ descChecks .readB 9 none sDesc = [] :=
  ⟨rfl, issues ⟨rfl, rfl⟩, clear rfl _, rfl, rfl, by decide +kernel⟩
theorem witness_DescriptorIssue_grant : descriptorRule (.putG 5 9) = some (.putG, 5, 9, none) ∧ sGranted.Issues tDesc ∧
    sGranted.ctile.soft = [] ∧ descChecks .putG 9 none sGranted = [] ∧ sGranted.ctile.hasGrant (sGranted.seenN tDesc (0x4000 + 8 * 14) 8) = true :=
  ⟨rfl, issues ⟨rfl, rfl⟩, rfl, by decide +kernel⟩
theorem witness_DescriptorIssue_traps : sDesc.Issues tDesc ∧ (tDesc.rd 11).toNat % 64 ≠ 0 ∧ descChecks .putG 9 none sDesc = [⟨8, 14, 0⟩] :=
  ⟨issues ⟨rfl, rfl⟩, by decide +kernel⟩
def tDefer : Thread := { tDesc with spec := some (specOf tDesc) }
theorem witness_DescriptorIssue_deferred : let s := demo tDefer plainDesc
    descriptorRule (.put 0 9) = some (.put, 0, 9, none) ∧ s.Issues tDefer ∧ tDefer.Clear [0, 9] ∧ tDefer.spec = some (specOf tDesc) ∧
    (specOf tDesc).st = .active ∧ s.ctile.soft = [] ∧ descChecks .put 9 none s = [] ∧ (specOf tDesc).used + 2 ≤ 64 ∧
    s.descField tDefer ((tDefer.rd 9).toNat % 2 ^ 20) 9 43 1 = 1 :=
  ⟨rfl, issues ⟨rfl, rfl⟩, clear rfl _, rfl, rfl, rfl, by decide +kernel⟩
theorem witness_HandleIssue : (sGranted.Issues tDesc ∧ tDesc.Clear [9, 10, 5] ∧ tDesc.Clear [14, 12, 5]) ∧ tDesc.spec = none ∧ sGranted.ctile.soft = [] ∧
    1 ≤ (tDesc.rd 12).toNat ∧ (tDesc.rd 12).toNat < 2 ^ 32 ∧ (tDesc.rd 13).toNat = 2 ^ 32 ∧ sGranted.ctile.hasGrant (tDesc.rd 9) = true ∧
    sGranted.ctile.hasGrant (tDesc.rd 10) = false ∧ tDesc.sys = true ∧ homeNameOk ((tDesc.rd 9).toNat / 2 ^ 32) = true ∧
    homeNameOk ((tDesc.rd 14).toNat / 2 ^ 32) = false :=
  ⟨⟨issues ⟨rfl, rfl⟩, clear rfl _, clear rfl _⟩, rfl, by decide +kernel⟩
theorem witness_HandleIssue_split : let s := demo tDesc fun t => withDesc [(0, 0x55 + 0x00010003 * 2 ^ 32), (4, 0x5008)] { t with grants := [(0x4000, true)] }
    s.Issues tDesc ∧ s.ctile.soft = [] ∧ splitChecks 9 s = [] := ⟨issues ⟨rfl, rfl⟩, rfl, by decide +kernel⟩
theorem witness_HandleIssue_fence : sDesc.Issues tDesc ∧ tDesc.wait = .none ∧ tDesc.susp = false ∧ tDesc.spillBan = false ∧
    sDesc.ctile.slotOf tDesc.cid = some sDesc.sx ∧ sDesc.fenced 0 tDesc.cid = true ∧ (demo tDesc busyPut).fenced 0 tDesc.cid = false :=
  ⟨issues ⟨rfl, rfl⟩, rfl, rfl, rfl, by decide +kernel⟩
theorem witness_MatrixIssue : sDesc.Issues tDesc ∧ tDesc.Clear [9, 2, 5] ∧ tDesc.spec = none ∧ matrixRule (.macc 5 9) = some (.macc, 5, 9) ∧
    matrixDescRule (.mma 9) = some (.mma, 9) ∧ sDesc.ctile.span ((tDesc.rd 9).toNat % 2 ^ 20) 64 64 false = [] ∧ tDesc.compute = true ∧ tDesc.win < 4 :=
  ⟨issues ⟨rfl, rfl⟩, clear rfl _, rfl, rfl, rfl, by decide +kernel⟩
theorem witness_MatrixIssue_control : let t := { tDesc with compute := false }
    (demo t).Issues t ∧ t.Clear [9, 2, 5] ∧ t.spec = none ∧ t.compute = false := ⟨issues ⟨rfl, rfl⟩, clear rfl _, rfl, rfl⟩
theorem witness_MatrixIssue_claim : mstatChecks 1 2 sDesc = [] := by decide +kernel

/-! Synchronisation and tasks. -/
def second (u : Thread) (f : Tile → Tile := id) (l : Tile) : Tile := f { l with slots := l.slots.set 1 { thr := some { u with cid := 1 } } }
def tBar : Thread := th [(9, 0x50000004D), (10, 8), (11, 1), (12, 0xFFFFFFFF), (13, 0x23), (14, 0x26), (15, 0x1000)]
def bars (b : BarEntry) (n : Nat) (l : Tile) : Tile := { l with bars := (Vector.replicate 16 { used := true, handle := 1 }).setIfInBounds n b }
def registered (r : BitVec 8) : Tile → Tile := bars { used := true, handle := 0x50000004D, reg := r } 15
theorem witness_BarrierInstructions : (demo tBar).Issues tBar ∧ tBar.Clear [9, 5] ∧ tBar.spec = none ∧ (demo tBar).ctile.slotOf tBar.cid = some (demo tBar).sx ∧
    (demo tBar).ctile.barOf (tBar.rd 9) = none ∧ (demo tBar).ctile.freeBar = some 0 ∧ homeNameOk ((tBar.rd 9).toNat / 2 ^ 32 % 2 ^ 32) = true ∧
    (demo tBar).isLocal ((tBar.rd 9).toNat / 2 ^ 32 % 2 ^ 32) = true :=
  ⟨issues ⟨rfl, rfl⟩, clear rfl _, rfl, by decide +kernel⟩
theorem witness_BarrierInstructions_full : (demo tBar (bars { used := true } 3)).Issues tBar ∧ (demo tBar (bars { used := true } 3)).ctile.barOf (tBar.rd 9) = none ∧
    (demo tBar (bars { used := true } 3)).ctile.freeBar = none := ⟨issues ⟨rfl, rfl⟩, by decide +kernel⟩
theorem witness_BarrierInstructions_known : (demo tBar (registered 2)).Issues tBar ∧ (demo tBar (registered 2)).ctile.barOf (tBar.rd 9) = some 15 ∧
    ((demo tBar (registered 2)).ctile.bar 15).pending = [] ∧ ((demo tBar (registered 2)).ctile.bar 15).reg.getLsbD (demo tBar).sx = false :=
  ⟨issues ⟨rfl, rfl⟩, by decide +kernel⟩
theorem witness_BarrierInstructions_arrive : (demo tBar (registered 1)).Issues tBar ∧ tBar.Clear [9] ∧ tBar.spec = none ∧ tBar.wait = .none ∧ tBar.susp = false ∧
    (demo tBar (registered 1)).ctile.slotOf tBar.cid = some (demo tBar (registered 1)).sx ∧ (demo tBar (registered 1)).ctile.barOf (tBar.rd 9) = some 15 ∧
    ((demo tBar (registered 1)).ctile.bar 15).reg.getLsbD (demo tBar).sx = true ∧ tBar.outs = [] ∧ (demo tBar (registered 1)).fenced 0 tBar.cid = true ∧
    tBar.win < 4 ∧ tBar.compute = true ∧ (demo tBar (registered 1)).ctile.spilling ≠ some tBar.cid ∧
    ((demo tBar (registered 1)).ctile.win tBar.win).queue = [] ∧
    ((demo tBar (registered 1)).ctile.win tBar.win).busy = none := ⟨issues ⟨rfl, rfl⟩, clear rfl _, rfl, rfl, rfl, by decide +kernel⟩
theorem witness_BarrierInstructions_outstanding : let t := { tBar with outs := [5] }
    (demo t (registered 1)).Issues t ∧ t.Clear [9] ∧ t.outs ≠ [] ∧ (demo t (registered 1)).ctile.barOf (t.rd 9) = some 15 :=
  ⟨issues ⟨rfl, rfl⟩, clear rfl _, by decide, by decide +kernel⟩
def tEnds : Thread := { tBar with spec := some (specOf tBar) }
theorem witness_SpeculationEnds : (demo tEnds).Issues tEnds ∧ tEnds.spec = some (specOf tBar) ∧ (specOf tBar).st = .active ∧ tEnds.Clear [5, 10, 11] ∧
    (demo tEnds).ctile.badDir = [] ∧ accessTrap (demo tEnds).ctile (ruleDisp (tEnds.rd 10) 1 8) 8 true = none ∧
    accessTrap (demo tEnds).ctile (tEnds.rd 10).toNat 8 true = none ∧ tEnds.rbk < 256 ∧ tEnds.cmt < 256 ∧ (specOf tBar).used ≤ 64 :=
  ⟨issues ⟨rfl, rfl⟩, rfl, rfl, clear rfl _, by decide +kernel⟩
theorem witness_SpeculationEnds_outside : (demo tBar).Issues tBar ∧ tBar.Clear [5] ∧ tBar.spec = none := ⟨issues ⟨rfl, rfl⟩, clear rfl _, rfl⟩
def sleepOp (o : TOp) : TOp := { o with kind := .sleep, cid := 1, rd := 5, stage := .registered, gdDone := false }
def readyOne (t : Tile) : Tile :=
  { t with ready := [⟨[0xC4], 0, 7⟩], slots := t.slots.map fun q => { q with thr := some { cid := 99 } } }
theorem witness_WaitsAndWakes : (demo tBar).Issues tBar ∧ tBar.Clear [9, 5] ∧ tBar.spec = none ∧ tBar.wait = .none ∧ tBar.susp = false ∧ tBar.spillBan = false ∧
    (demo tBar).ctile.slotOf tBar.cid = some (demo tBar).sx ∧ (demo tBar).ctile.fenceOps tBar.cid ((tBar.rd 9).toNat % 16) = [] ∧
    (demo tBar).ctile.starving tBar.prio.toNat = none ∧ tBar.wake = false ∧ (demo tBar).thr 0 ((tBar.rd 9).toNat % 8) = none :=
  ⟨issues ⟨rfl, rfl⟩, clear rfl _, rfl, rfl, rfl, rfl, by decide +kernel⟩
theorem witness_WaitsAndWakes_parks : (demo tBar busyPut).ctile.fenceOps tBar.cid ((tBar.rd 15).toNat % 16) = [5] ∧
    (demo tBar busyPut).ctile.live 5 = true ∧ (demo tBar readyOne).ctile.starving tBar.prio.toNat = some ⟨[0xC4], 0, 7⟩ ∧
    (demo tBar readyOne).ctile.slotOf tBar.cid = some 0 ∧ ({ tBar with wake := true } : Thread).wake = true := by decide +kernel
theorem witness_WaitsAndWakes_wake : let s := demo tBar (second {})
    1 = (tBar.rd 11).toNat % 8 ∧ 1 ≠ s.sx ∧ s.thr s.tx 1 = some { cid := 1 } ∧ s.ctile.slotOf 1 = some 1 ∧ 1 ≠ tBar.cid := by decide +kernel
theorem witness_WaitsAndWakes_sleeper : let s := demo tBar (second { wait := .sleep 5 none, pend := [(5, 5)] } fun l => { l with ops := [sleepOp put0] })
    s.thr s.tx 1 = some { cid := 1, wait := .sleep 5 none, pend := [(5, 5)] } ∧ s.ctile.slotOf 1 = some 1 ∧
    s.ctile.ops.find? (fun o => o.id == 5) = some (sleepOp put0) ∧ (sleepOp put0).cid = 1 ∧ (sleepOp put0).gdDone = false ∧
    ((sleepOp put0).rd, 5) ∈ [((5 : Reg), 5)] ∧ (sleepOp put0).id = 5 := by decide +kernel
def packet (l : Tile) : Tile := { l with sp := l.sp.writeN 0x1000 8 (4 + 1 * 256 + 2 ^ 14 + 0x2000 * 2 ^ 16) }
theorem witness_ThreadControl : (demo tBar packet).Issues tBar ∧ tBar.Clear [15, 11, 5] ∧ tBar.spec = none ∧ (demo tBar packet).ctile.soft = [] ∧
    packetChecks 15 (demo tBar packet) = [] ∧ (demo tBar packet).thr 0 ((tBar.rd 11).toNat % 8) = none ∧
    (demo tBar packet).ctile.freeWin.isSome = true ∧ (tBar.rd 12).toNat % 2 ^ 32 = 0xFFFFFFFF ∧ (tBar.rd 11).toNat % 2 ^ 32 ≠ 0xFFFFFFFF ∧
    (demo tBar packet).tileOf ((tBar.rd 11).toNat % 2 ^ 32) = some 1 := ⟨issues ⟨rfl, rfl⟩, clear rfl _, rfl, rfl, by decide +kernel⟩
theorem witness_ThreadControl_miss : (demo tBar fun l => packet (second {} id l)).Issues tBar ∧ packetChecks 15 (demo tBar (second {} packet)) = [] ∧
    (demo tBar (second {} packet)).thr 0 ((tBar.rd 11).toNat % 8) ≠ none := ⟨issues ⟨rfl, rfl⟩, by decide +kernel⟩
theorem witness_ThreadControl_exit : (demo tBar).Issues tBar ∧ tBar.spec = none ∧ tBar.susp = false ∧ (demo tBar).ctile.slotOf tBar.cid = some (demo tBar).sx ∧
    (demo tBar).fenced 0 tBar.cid = true ∧ (demo tBar busyPut).fenced 0 tBar.cid = false ∧ tBar.succ = [] ∧ tBar.win < 4 :=
  ⟨issues ⟨rfl, rfl⟩, by decide +kernel⟩
def suspended : Thread := { susp := true }
theorem witness_Suspension : (demo tBar).Issues tBar ∧ tBar.Clear [11, 10, 5] ∧ tBar.spec = none ∧ (demo tBar).thr 0 ((tBar.rd 11).toNat % 8) = none ∧
    (tBar.rd 10).toNat % 8 = (demo tBar).sx ∧ (demo tBar).ctile.suspended ((tBar.rd 11).toNat % 2 ^ 16) = false ∧ 0x026 < (0x27 : Nat) :=
  ⟨issues ⟨rfl, rfl⟩, clear rfl _, rfl, by decide +kernel⟩
theorem witness_Suspension_other : let s := demo tBar (second {})
    s.Issues tBar ∧ (tBar.rd 11).toNat % 8 ≠ s.sx ∧ s.thr s.tx ((tBar.rd 11).toNat % 8) = some { cid := 1 } := ⟨issues ⟨rfl, rfl⟩, by decide +kernel⟩
theorem witness_Suspension_suspended : let s := demo tBar (second suspended)
    s.Issues tBar ∧ s.ctile.slotOf ((tBar.rd 11).toNat % 2 ^ 16) = some 1 ∧ s.thr s.tx 1 = some { suspended with cid := 1 } ∧ 1 ≠ s.sx ∧
    tBar.cid ≠ (tBar.rd 11).toNat % 2 ^ 16 ∧ (tBar.rd 11).toNat % 8 = 1 ∧ (tBar.rd 13).toNat % 8192 = 0x023 ∧ (tBar.rd 14).toNat % 8192 = 0x026 ∧
    (tBar.rd 15).toNat % 8192 = 0x1000 ∧ (tBar.rd 10).toNat % 8192 < 32 := ⟨issues ⟨rfl, rfl⟩, by decide +kernel⟩

/-! Windows. -/
def entry (o : VOp) : VEntry := ⟨55, 0, o, ⟨0, 32⟩, ⟨32, 32⟩, ⟨64, 32⟩, 100, 0, 4095, 4095, [], false, false, none⟩
def tWin : Thread := { th [(2, 0x4000), (3, 256 * 256 + 1), (4, 4097)] with outs := [55], pend := [(5, 55)] }
def windowed (v : Window) (l : Tile) : Tile := { l with wins := Vector.replicate 4 v, turner := [(3, 0)] }
def winState (v : Window) : State := (demo tWin (windowed v)).modDie 0 fun d => { d with reserve := 1000000000 }
def vop (k : VKind) (m : Nat) : VOp := ⟨k, 7, 1, 2, 0, false, m, 3⟩
theorem witness_WindowFieldResult : ∀ o ∈ [vop .vadd 2, vop .vbc 2, vop .vbci 3, vop .vsel 8, vop .vqbs 14],
    (winState { queue := [entry o] }).Starts 0 3 (entry o) [] ∧ (entry o).quiet = false ∧ vQuiet o = false := by
  unfold State.Starts; decide +kernel
theorem witness_WindowFieldResult_special : specialRule 0 (val 9 0x8000) = some (.inf true, DZ) ∧ (specialRule 2 (val 9 0x4000)) = none ∧
    (val 9 0x4400).rat = (2 : Rat) ^ (2 : Int) ∧ (val 9 0x4200).rat = (3 : Int) ∧ specialRule 4 (val 9 0x4400) = none ∧
    specialRule 3 (val 9 0x4200) = none := by decide +kernel
theorem witness_WindowFieldResult_rule : ∃ r, windowRule .vadd 2 2 = some r := ⟨_, rfl⟩
theorem witness_WindowTagResult : ∀ o ∈ [vop .vceq 2, vop .vtfirst 0, vop .vrmax 8, vop .vrmin 6],
    (winState { queue := [entry o] }).Starts 0 3 (entry o) [] ∧ (entry o).quiet = false ∧ vQuiet o = false ∧ o.d < 8 := by
  unfold State.Starts; decide +kernel
theorem witness_WindowTagResult_rule : ∃ f, windowTagRule .vceq 2 = some f := ⟨_, rfl⟩
theorem witness_WindowRegisterResult : ∀ o ∈ [vop .vfrd 0, vop .vtcount 0, vop .vtany 0, vop .vget 2, vop .vrsum 2, vop .vput 2],
    (winState { queue := [entry o] }).Starts 0 3 (entry o) [] ∧ (entry o).quiet = false ∧ vQuiet o = false := by
  unfold State.Starts; decide +kernel
def numbered (a b : Row) (o : VOp) : Window := { queue := [entry o], rows := [(0, a), (1, b)] }
def chosenValues (v : Window) (o : VOp) : List Val :=
  (v.all.filter fun p => (entry o).selects p.1 p.2).map fun p => val o.m ((entry o).fa.get (fmtWidth o.m) p.2)
theorem witness_WindowRegisterResult_sum : let o := vop .vrfsum 8
    (winState (numbered 0x3F80000000000000 0 o)).Starts 0 3 (entry o) [] ∧ vQuiet o = false ∧ isFPA o.m = true ∧
    (chosenValues (numbered 0x3F80000000000000 0 o) o).all Val.isFin = true := by unfold State.Starts; decide +kernel
theorem witness_WindowRegisterResult_infinite : let o := vop .vrfsum 8
    let v := numbered 0x7F80000000000000 0xFF80000000000000 o
    (winState v).Starts 0 3 (entry o) [] ∧ vQuiet o = false ∧ isFPA o.m = true ∧ (chosenValues v o).any Val.isNan = false ∧
    (chosenValues v o).any (fun y => y.isInf && y.sign) = true ∧ (chosenValues v o).any (fun y => y.isInf && !y.sign) = true ∧
    (chosenValues v o).all Val.isFin = false := by unfold State.Starts; decide +kernel
def running (k : VKind) (m : Nat) (served : Bool) : VBusy := ⟨entry ⟨k, 5, 1, 2, 0, false, m, 3⟩, some 9, 1, served, 0⟩
theorem witness_WindowRegisterResult_complete : let s := winState { busy := some (running .vtcount 0 true) }
    s.stopped = false ∧ 3 < 4 ∧ ((s.tile 0).win 3).busy = some (running .vtcount 0 true) ∧ (running .vtcount 0 true).served = true ∧ (running .vtcount 0 true).due ≤ s.cycleOf 0 ∧
    (running .vtcount 0 true).e.mx = none ∧ 5 = (vGDst (running .vtcount 0 true).e.op).getD 0 ∧
    (s.tile 0).thread (running .vtcount 0 true).e.cid = some tWin ∧ tWin.wait ≠ .tuple (running .vtcount 0 true).e.id := by decide +kernel
theorem witness_WindowPasses : ∀ o ∈ [vop .vpass 0, vop .vseq 0],
    (winState { queue := [entry o] }).Starts 0 3 (entry o) [] ∧ (entry o).quiet = false := by unfold State.Starts; decide +kernel
theorem witness_WindowIssue : (Instr.vadd 0 1 2 0 true 2).wf = true ∧ (Instr.vadd 0 1 2 0 true 2).vop = some ⟨.vadd, 0, 1, 2, 0, true, 2, 0⟩ ∧ (demo tWin).Issues tWin ∧ tWin.compute = true ∧
    tWin.win < 4 ∧ tWin.spec = none ∧ tWin.Clear [3] ∧ tWin.Clear [4] ∧
    tWin.Clear (vGSrcs ⟨.vadd, 0, 1, 2, 0, true, 2, 0⟩ ++ (vGDst ⟨.vadd, 0, 1, 2, 0, true, 2, 0⟩).toList) ∧
    vChecks ⟨.vadd, 0, 1, 2, 0, true, 2, 0⟩ (demo tWin) = [] ∧ 256 < (tWin.rd 3).toNat % 256 + (tWin.rd 3).toNat / 256 % 512 ∧ 4096 < (tWin.rd 4).toNat :=
  ⟨rfl, rfl, issues ⟨rfl, rfl⟩, rfl, by decide, rfl, by unfold Thread.Clear; decide, by unfold Thread.Clear; decide, by unfold Thread.Clear; decide,
    by decide +kernel⟩
theorem witness_WindowIssue_control : let t := { tWin with compute := false }
    (demo t).Issues t ∧ t.compute = false ∧ VKind.vadd ≠ .vnop := ⟨issues ⟨rfl, rfl⟩, rfl, by decide⟩
theorem noStat {v : Window} (k : Nat) : ((winState v).tile 0).stat k = false := rfl
theorem witness_WindowTransfers_banks : ∀ k, (((winState { busy := some (running .vst 2 false) }).modDie 0 fun d => { d with cycle := 1 }).tile 0).stat k = false :=
  fun _ => noStat _
theorem witness_WindowTransfers : ∀ k ∈ [VKind.vld, .vst, .vlds, .vsts, .vldr, .vstr, .vucload],
    let s := (winState { busy := some (running k 2 false) }).modDie 0 fun d => { d with cycle := 1 }
    s.stopped = false ∧ (s.tile 0).turner = [(3, 0)] ∧ 0 < s.cycleOf 0 ∧ ((s.tile 0).win 3).busy = some (running k 2 false) ∧ (running k 2 false).served = false ∧
    (running k 2 false).e.mx = none ∧ (running k 2 false).e.spec = false ∧ (s.tile 0).bad = [] ∧ (s.tile 0).sp.wf := by decide +kernel

/-! Events. -/
def tenantTwo : TenantRec := tenantOne.set 8 (0x8000000000000000 + 50 * 2 ^ 20 + 100)
/-- Tenant 0 with one window of DRAM, a region table whose region 1 is [0x30000, 0x50000) in state `rs`, an on-chip translation of the low 4 GiB. -/
def world (t : Thread) (f : Tile → Tile := id) (rs : Nat := 2) : State :=
  let s := demo t fun l => f { l with tenant := some 0 }
  let d : Memory := (Memory.writeN [] (6553600 + 16) 8 (3 * 65536 + 3)).writeN (6553600 + 24) 8 (2 + rs * 2 ^ 32)
  let s := { s with tenants := [(0, tenantTwo)], tlb := [(0, 0, 2 ^ 32, 0, 15), (100, 0, 2 ^ 32, 0, 15)], dram := d }
  s.modDie 0 fun v => { v with reserve := 1000000000 }
/-- The hypotheses that the statements about a thread's events share, for slot 0 of tile 0. -/
def eventsOf (s : State) (t : Thread) : Prop :=
  s.stopped = false ∧ s.thr 0 0 = some t ∧ (s.tile 0).slotOf t.cid = some 0 ∧ t.susp = false ∧ t.spillBan = false
def tCause : Thread := { th with pwdg := some 4, ptim := some 9 }
theorem witness_ThreadEvents_causes : let t := { tCause with pwdg := none }
    eventsOf (demo tCause) tCause ∧ tCause.running = true ∧ tCause.tact = false ∧ tCause.spec = none ∧ eventsOf (demo t) t ∧ t.running = true ∧
    t.pwdg = none ∧ t.ptim = some 9 := by unfold eventsOf; decide +kernel
theorem witness_ThreadEvents_clocks : let f : Tile → Tile := fun l => { l with timecmp := 1, timSlot := 0 }
    let s := (demo th f).setSlot 0 0 { thr := some th, wdogLimit := 7, wdogCount := 7 }
    let s := s.modDie 0 fun d => { d with cycle := 5 }
    eventsOf s th ∧ ((s.tile 0).slot 0).wdogLimit = 7 ∧ (s.tile 0).timSlot.toNat = 0 ∧ (s.tile 0).timecmp ≠ 0 ∧ (s.tile 0).timecmp.toNat ≤ s.cycleOf 0 := by
  unfold eventsOf; decide +kernel
def tSleep : Thread := { th with wait := .sleep 5 (some 0), outs := [5], pend := [(5, 5)] }
def ownSleep : TOp := { sleepOp put0 with cid := 0 }
theorem witness_ThreadEvents_sleep : let s := demo tSleep fun l => { l with ops := [ownSleep] }
    eventsOf s tSleep ∧ (s.tile 0).ops.find? (fun o => o.id == 5) = some ownSleep ∧ ownSleep.id = 5 ∧ ownSleep.cid = tSleep.cid ∧ ownSleep.gdDone = false ∧
    0 ≤ s.cycleOf 0 := by unfold eventsOf; decide +kernel
theorem witness_ThreadEvents_waits : ∀ w ∈ [Wait.arrive 15 false, .tfence, .fence [900], .exit, .notify 3], let t := { th with wait := w }
    eventsOf (demo t (registered 1)) t ∧ (demo t (registered 1)).fenced 0 t.cid = true ∧ t.outs = [] ∧ t.succ = [] ∧
    ([900] : List Nat).any ((demo t (registered 1)).tile 0).live = false ∧ t.win < 4 := by unfold eventsOf; decide +kernel
def packetThree : Ready := ⟨[0xC4, 1, 2, 3], 0, 0⟩
def tVictim : Thread := { th with compute := false, wait := .tfence }
/-- Every other slot taken by a running thread, one packet waiting. -/
def crowded (l : Tile) : Tile := { l with ready := [packetThree], slots := Vector.replicate 8 { thr := some { cid := 9 } } }
theorem witness_ThreadEvents_spill : let s := world tVictim crowded
    eventsOf s tVictim ∧ (s.tile 0).spilling = none ∧ (s.tile 0).spills.length < 256 ∧ tVictim.spec = none ∧
    (s.tile 0).wantsRoom = some packetThree ∧ (s.tile 0).victim packetThree = some tVictim := by unfold eventsOf; decide +kernel
theorem witness_ThreadEvents_spillEnd : let s := world tVictim fun l => { crowded l with spilling := some 0 }
    eventsOf s tVictim ∧ (s.tile 0).spilling = some tVictim.cid ∧ tVictim.compute = false ∧
    s.covers (dieOf 0) (s.imageCost 0 tVictim (lowestFree ((s.tile 0).spills.map Spilled.place)) (lowestFree (s.tile 0).cplaces)) = true ∧
    ∃ ps z, s.imagePieces 0 tVictim (lowestFree ((s.tile 0).spills.map Spilled.place)) (lowestFree (s.tile 0).cplaces) pW = (.ok (ps, []), z) ∧
      z.tile 0 = s.tile 0 := by
  intro s
  refine ⟨by unfold eventsOf; decide +kernel, rfl, rfl, by decide +kernel, ?_⟩
  have h : (match s.imagePieces 0 tVictim (lowestFree ((s.tile 0).spills.map Spilled.place)) (lowestFree (s.tile 0).cplaces) pW with
    | (.ok (_, []), z) => decide (z.tile 0 = s.tile 0)
    | _ => false) = true := by decide +kernel
  split at h
  · exact ⟨_, _, ‹_›, of_decide_eq_true h⟩
  · contradiction
theorem witness_ThreadEvents_refill : let s := demo th fun l => { l with refilling := [0, 3] }
    eventsOf s th ∧ (s.tile 0).refilling.contains th.cid = true := by unfold eventsOf; decide +kernel
/-- One message on its way to tile 0. -/
def arriving (s : State) (src dst : Agent) (b : Body) : State := { s with nextId := 200, net := [⟨88, src, dst, 0, 0, 0, 0, false, b, none⟩] }
theorem witness_ThreadEvents_watch : let s := arriving (demo tSpec) (.home 3) (.tile 0) (.notify 0 0 7)
    ∃ a, eventsOf s tSpec ∧ s.msg 88 = some a ∧ s.deliverable a = true ∧ a.dst = .tile 0 ∧ a.body = .notify tSpec.cid (specOf t64).no 7 ∧
      tSpec.spec = some (specOf t64) ∧ (specOf t64).st = .active :=
  ⟨⟨88, .home 3, .tile 0, 0, 0, 0, 0, false, .notify 0 0 7, none⟩, by unfold eventsOf; decide +kernel⟩
def tRoll (st : SpecState) : Thread := { th with compute := false, wait := .spec, spec := some { specOf th with st := st, entry := 15, cause := 5 } }
theorem witness_ThreadEvents_roll : ∀ b ∈ [0, 1], ∀ st ∈ [SpecState.rolling, .committing], let s := demo (tRoll st) (bars { used := true, reg := 1, arr := b } 15)
    eventsOf s (tRoll st) ∧ (tRoll st).compute = false ∧ (tRoll st).outs = [] ∧ (s.tile 0).queued ≤ 64 ∧ (specOf th).drainEnd ≤ s.cycleOf 0 ∧
    ((s.tile 0).bar 15).arr.getLsbD 0 = b.getLsbD 0 := by unfold eventsOf; decide +kernel
def tRelease : Thread := { th with wait := .release 15 }
def tCommit : Thread := { th with spec := some { specOf th with entry := 15, buf := [⟨256, [(0, 7)]⟩] } }
theorem witness_ThreadEvents_release : ∀ t ∈ [tRelease, tCommit],
    let s := arriving (demo t fun l => { bars { used := true, handle := 0x50000004D, reg := 1, phase := 8 } 15 l with tenant := some 0 }) (.home 5) (.tile 0)
      (.release 0x50000004D 9)
    ∃ a, eventsOf s t ∧ s.msg 88 = some a ∧ s.deliverable a = true ∧ a.dst = .tile 0 ∧ a.body = .release 0x50000004D 9 ∧
      (s.tile 0).barOf 0x50000004D = some 15 ∧ (s.tile 0).tenant = some a.tenant ∧ s.earlierRelease a 0x50000004D 9 = false ∧
      t.vheld = none ∧ (s.tile 0).stat (bankOf 256) = false ∧ (s.tile 0).bad = [] ∧ (s.tile 0).sp.wf ∧
      (∀ r, r < 8 → r ≠ 0 → s.thr 0 r = none) := by
  intro t h s
  refine ⟨⟨88, .home 5, .tile 0, 0, 0, 0, 0, false, .release 0x50000004D 9, none⟩, ?_⟩
  revert t h; unfold eventsOf; decide +kernel
def tFetch : Thread := { th with pc := 0x30000 }
theorem witness_ThreadEvents_line : let s := world tFetch
    ∃ z, s.service = .full ∧ (s.tile 0).tenant.isSome = true ∧ (s.tile 0).wantsLine (0x30000 / 64) = true ∧
      s.inFrozen (s.tenantOf 0) (0x30000 / 64 * 64) 64 = true ∧
      s.xlate (dieOf 0) (s.tenantOf 0) (s.tile 0).asid (0x30000 / 64 * 64) pX = (.ok 0x30000 (2 ^ 32 - 0x30000), z) ∧ z.badLine 0x30000 64 = false :=
  ⟨_, rfl, rfl, by decide +kernel, by decide +kernel, rfl, by decide +kernel⟩
theorem witness_ThreadEvents_bind : let s := demo th fun l => { l with ready := [packetThree], acted := true }
    s.stopped = false ∧ (s.tile 0).ready = [packetThree] ∧ (s.tile 0).spills = [] ∧ (s.tile 0).freeSlot = some 1 ∧ (s.tile 0).acted = true ∧ (s.tile 0).bound = false ∧ pktCompute packetThree.words = false ∧
    (s.die 3).refillAt ≤ (s.die 3).cycle.toNat := by decide +kernel
theorem witness_ThreadEvents_refillOf : let s := demo th
    s.stopped = false ∧ (∀ p, ∀ f ∈ (s.port p).fns, f.2.ops = []) ∧ (∀ e ∈ s.peers, e.2.txq = [] ∧ e.2.parts = []) ∧ (s.tile 0).ready = [] ∧
    (s.tile 0).spills = [] := by
  refine ⟨rfl, fun p f h => ?_, fun e h => (by cases h), rfl, rfl⟩
  have : (demo th).port p = {} := by
    change (Vector.replicate 2 ({} : HostPort))[p]?.getD {} = {}
    rw [Vector.getElem?_replicate]; split <;> rfl
  rw [this] at h; cases h

/-! Homes, routing, messages. -/
def keyA : Key := keyOf [7, 9]
def keyB : Key := keyOf [7, 4]
def wants (k : Key) (take : Bool) (f : Form) : Get := ⟨take, f, k, BitVec.allOnes 256, 0, [], 0, false, 4, 40, 2, false⟩
def held (p : Nat) (k : Key) (c : Cell) : Entry := ⟨p, p + 3, 0, k, p, c, 8, 77, none, [], none⟩
def takeWaiter : Watch := ⟨3, 5, .takeWaiter, 0, wants keyA true .blocking, .tile 6, 44, 0, 0, 20, []⟩
def home0 : Home := { entries := [held 1 keyA (.tuple (.inline [1, 2, 3, 4])), held 2 keyB (.range 10 50)], insSeq := 9 }
def sentMail (n : Nat) (b : Body) : Msg := ⟨88, .tile 4, .home 3, 0, 0, 0, n, false, b, none⟩
def mail (b : Body) : Msg := sentMail 0 b
/-- Home 3 holding `v`, a request of tile 4 on its way there, `n` bytes of whose payload have come. -/
def atHome (v : Home) (b : Body) (n : Nat := 0) (f : Tile → Tile := id) : State :=
  (({ (demo th).modTile 4 f with nextId := 200, net := [sentMail n b], service := .reduced } : State).setHome 3 v).modDie 0 fun d => { d with cycle := 33 }
def givenTuple : Tuple := ⟨keyA, .inline [9, 9], 3, 99⟩
def poolTuple : Tuple := ⟨keyA, .pool (List.replicate 70 5), 3, 99⟩
theorem witness_HomeTuples : ∀ b ∈ [Body.get 51 (wants keyA true .polling), .get 51 (wants keyA false .blocking), .resetCancel, .tookAck 60 0 false],
    (atHome home0 b).Served 88 3 4 (mail b) ∧ home0.watches = [] ∧ home0.removals = [] ∧ home0.aux = [] ∧
    home0.oldest 0 (wants keyA true .polling) = some (held 1 keyA (.tuple (.inline [1, 2, 3, 4]))) ∧ home0.forwards = [] := by
  unfold State.Served State.Arrives; decide +kernel
theorem witness_HomeTuples_put : let b := Body.put 50 givenTuple
    (atHome home0 b 2).Served 88 3 4 (sentMail 2 b) ∧ streamWaits (sentMail 2 b) = false ∧ home0.watches = [] ∧
    ((atHome home0 b 2).dropMsg 88).putRoom 3 (sentMail 2 b) 50 givenTuple = some [] := by
  unfold State.Served State.Arrives; decide +kernel
theorem witness_HomeTuples_admit : ∀ t ∈ [givenTuple, poolTuple], let b := Body.put 50 t
    (atHome home0 b).Served 88 3 4 (mail b) ∧ streamWaits (mail b) = true ∧ (mail b).perm = false ∧ home0.indexRoom 1 = true ∧
    ((atHome home0 b).poolRoom 3 0 (tupleBlocks t)).isSome = true := by unfold State.Served State.Arrives; decide +kernel
theorem witness_HomeTuples_full : let b := Body.put 50 poolTuple
    let s := fun n => { atHome home0 b n with service := .full }
    (∀ n ∈ [0, 70], (s n).Served 88 3 4 (sentMail n b)) ∧ streamWaits (mail b) = true ∧ streamWaits (sentMail 70 b) = false ∧
    (s 0).poolRoom 3 0 (tupleBlocks poolTuple) = none ∧ ((s 70).dropMsg 88).putRoom 3 (sentMail 70 b) 50 poolTuple = none := by
  unfold State.Served State.Arrives; decide +kernel
theorem witness_HomeTuples_stream : let b := Body.put 50 poolTuple
    let s := atHome home0 b 0 fun l => { l with permits := [(50, 2, .home 3)] }
    s.Served 88 3 4 (mail b) ∧ streamWaits (mail b) = true ∧ (s.tile 4).permits.find? (fun p => p.1 == 50) = some (50, 2, .home 3) ∧
    s.covers (dieOf 4) 0 = true := by unfold State.Served State.Arrives; decide +kernel
theorem witness_HomeTuples_absent : ∀ f ∈ [Form.polling, .blocking], let b := Body.get 51 (wants (keyOf [5]) true f)
    (atHome home0 b).Served 88 3 4 (mail b) ∧ home0.oldest 0 (wants (keyOf [5]) true f) = none ∧ home0.watchRoom 1 = true := by
  unfold State.Served State.Arrives; decide +kernel
/-- A put whose payload has come, at a home that holds watch `w`. -/
def watched (w : Watch) : State := atHome { home0 with watches := [w] } (.put 50 givenTuple) 2
def specWatch : Watch := { takeWaiter with kind := .spec }
theorem witness_HomeTuples_waiter : ∀ w ∈ [takeWaiter, specWatch], let a := sentMail 2 (.put 50 givenTuple)
    (watched w).Served 88 3 4 a ∧ streamWaits a = false ∧ w.tenant = 0 ∧ w.who = .tile 6 ∧ keyMatch w.get.tmpl w.get.care givenTuple.key = true ∧
    ((watched w).dropMsg 88).putRoom 3 a 50 givenTuple = some [] := by unfold State.Served State.Arrives; decide +kernel
theorem witness_HomeTuples_due : takeWaiter.get.form = .blocking ∧ takeWaiter.get.take = true ∧ takeWaiter.kind = .takeWaiter ∧ takeWaiter.due ≠ 0 ∧
    takeWaiter.due ≤ ((watched takeWaiter).die 0).cycle.toNat ∧ ((watched takeWaiter).home 3).watches.find? (fun w => w.place == 3) = some takeWaiter := by
  decide +kernel
/-- The reply of a put that notifies a watch waits until the notification has been taken (R339). -/
theorem test_reply_waits_for_notification : (let u := (watched specWatch).homePut 88
    let ready := fun (s : State) => s.net.map fun m => (isNotify m.body, s.deliverable m)
    (ready u, (u.net.find? fun m => isNotify m.body).map fun m => ready (u.notifyAt m.id))) =
    ([(true, true), (false, false)], some [(false, true)]) := by decide +kernel
def contWaiter : Watch := { takeWaiter with kind := .takeCont, get := wants keyB true .cont }
def cancelHandle : W64 := handleOf 3 0 3 5
theorem witness_HomeTuples_cancel : let v := { home0 with watches := [contWaiter] }
    (atHome v (.cancel 52 cancelHandle)).Served 88 3 4 (mail (.cancel 52 cancelHandle)) ∧ v.moved = [] ∧ cancelHandle.toNat / 2 ^ 31 % 2 = 0 ∧
    v.watches.find? (fun w => w.tenant == 0 && isContW w.kind && w.place == hPlace cancelHandle && w.gen == hGen cancelHandle) = some contWaiter ∧
    home0.watches.find? (fun w => w.tenant == 0 && isContW w.kind && w.place == hPlace cancelHandle && w.gen == hGen cancelHandle) = none := by
  unfold State.Served State.Arrives; decide +kernel
def removal : Removal := ⟨60, .tile 4, 0, none, givenTuple, none, []⟩
theorem witness_HomeTuples_ack : let v := { home0 with removals := [removal] }
    (atHome v (.tookAck 60 0 false)).Served 88 3 4 (mail (.tookAck 60 0 false)) ∧
    v.removals.find? (fun r => r.op == 60 && r.who == .tile 4) = some removal := by unfold State.Served State.Arrives; decide +kernel
def one0 : Comb := .one (.tile 4) 54 1 false
theorem witness_HomeCells : ∀ b ∈ [Body.rangeNew 53 keyB 3 9, .rangeNew 53 keyA 3 9, .rangeNew 53 keyA 9 9, .accNew 53 keyB 4 2 16 8 5,
      .accNew 53 keyA 4 2 16 8 5, .ctrNew 53 keyA 4 false [4, 5] 6, .ctrNew 53 keyA 4 false [4, 5] 0xFFFF0000, .ctrNew 53 keyA 4 true [4, 5] 6,
      .rangeTake keyB 40 one0, .rangeTake keyA 4 one0, .ctrAdd 9 1 one0],
    (atHome home0 b).Served 88 3 4 (mail b) ∧ home0.moved = [] ∧ home0.cellAt 0 keyB = some (held 2 keyB (.range 10 50)) ∧ home0.cellAt 0 keyA = none ∧
    home0.indexRoom 1 = true ∧ home0.byHandle 0 9 = none := by unfold State.Served State.Arrives; decide +kernel
theorem witness_HomeCells_room : let s := fun (v : Service) => ({ atHome home0 .resetCancel with service := v } : State)
    (∀ z ∈ [[], [256], (List.replicate 3 (payBlocks 100)).flatten], ((s .reduced).poolRoom 3 0 z).isSome = true) ∧
    (∀ z ∈ [[256], (List.replicate 3 (payBlocks 100)).flatten], (s .full).poolRoom 3 0 z = none) ∧
    targetNameOk 6 = true ∧ targetNameOk 0xFFFF0000 = false := by decide +kernel
def accHome (n : Nat) : Home := { home0 with entries := [held 6 keyA (.acc n 1 4 [(1, [1, 0, 0, 0])])] }
theorem witness_HomeCells_sum : let got := (List.range 8).reverse.map fun i => (i, bytesOfNat 16 (i + 1))
    8 ∈ [1, 2, 4, 8] ∧ 8 % 8 = 0 ∧ 16 % (fmtWidth 3 / 8) = 0 ∧ (got.map Prod.fst).Nodup ∧ (∀ g ∈ got, g.2.length = 16) ∧
    (∀ i < 8, i ∈ got.map Prod.fst) ∧ 1 < 16 / (fmtWidth 3 / 8) ∧ ∀ g ∈ got, (fun _ => 0) g.1 = elemOf (fmtWidth 3 / 8) g.2 1 := by decide +kernel
theorem witness_HomeCells_contribution : ∀ i ∈ [0, 3], ∀ n ∈ [2, 3], let b := Body.accAdd 55 keyA i [1, 2, 3, 4]
    (atHome (accHome n) b 4).Served 88 3 4 (sentMail 4 b) ∧ streamWaits (sentMail 4 b) = false ∧ (accHome n).moved = [] ∧ (accHome n).watches = [] ∧
    (accHome n).cellAt 0 keyA = some (held 6 keyA (.acc n 1 4 [(1, [1, 0, 0, 0])])) := by unfold State.Served State.Arrives; decide +kernel
def cellHome (c : Cell) : Home := { home0 with entries := [held 6 keyA c] }
def cellHandle (c : Cell) : W64 := entryHandle (held 6 keyA c) 3
theorem witness_HomeCells_arrival : ∀ c ∈ [Cell.join 5 2 [0x804, 1, 2, 3] 4, .barrier 5 2 9 [(.tile 8, 77)]], ∀ n ∈ [2, 3],
    let b := Body.ctrAdd (cellHandle c) n one0
    (atHome (cellHome c) b).Served 88 3 4 (mail b) ∧ (cellHome c).byHandle 0 (cellHandle c) = some (held 6 keyA c) ∧
    (atHome (cellHome c) b).tileOf (4#32).toNat = some 4 := by unfold State.Served State.Arrives; decide +kernel
theorem witness_HomeCells_register : let c := Cell.barrier 5 2 9 [(.tile 8, 77)]
    (atHome (cellHome c) (.barReg 56 (cellHandle c) 79)).Served 88 3 4 (mail (.barReg 56 (cellHandle c) 79)) ∧
    (cellHome c).byHandle 0 (cellHandle c) = some (held 6 keyA c) ∧ (cellHome c).watchRoom 1 = true := by
  unfold State.Served State.Arrives; decide +kernel
def descA : Desc := { key := keyA, care := BitVec.allOnes 256, addr := 0x4010, flags := 8, fmt := 3, plen := 5, ctag := 777, deadline := 6, cw := 0x4100, p3 := 90 }
def ask (k : TKind) (st : Stage) : TOp := { put0 with kind := k, desc := descA, stage := st, prog := 3, rd := 5 }
def tAsk : Thread := { th with outs := [5], pend := [(5, 5)] }
def asking (o : TOp) (b : Body) (f : Tile → Tile := id) : State :=
  { arriving (demo tAsk fun l => f { l with ops := [o], tenant := some 0 }) (.home 3) (.tile 0) b with service := .reduced }
/-- Where a queued request goes inside the package, if it goes. -/
def goesTo (s : State) (o : TOp) : Option (Agent × Nat) :=
  match s.destOf 0 o with
  | .goes (.peer _ _) _ => none
  | .goes who name => some (who, name)
  | _ => none
theorem witness_RequestRouting : ∀ k ∈ [TKind.put, .putI, .range, .takeN, .readB, .ctrA, .tcancel, .send], let o := ask k .queued
    let s := (asking o .resetCancel).modDie 0 fun d => { d with reserve := 100000 }
    s.stopped = false ∧ (s.tile 0).op 5 = some o ∧ o.stage = .queued ∧ isCopy o.kind = false ∧ (s.tile 0).mayRoute o = true ∧
    s.covers (dieOf 0) (ruleRequestCost o) = true ∧ (s.tile 0).sampleFault o = none ∧ o.spec = false ∧ (goesTo s o).isSome = true := by decide +kernel
theorem witness_RequestRouting_fails : let o := { ask .readP .queued with desc := { descA with care := 5 } }
    let s := (asking o .resetCancel).modDie 0 fun d => { d with reserve := 1000 }
    ∃ st, s.destOf 0 o = .fail st ∧ (s.tile 0).op 5 = some o ∧ hasWord o = false ∧ o.gdDone = false ∧ s.thr 0 0 = some tAsk ∧ (s.tile 0).slotOf o.cid = some 0 ∧
      tAsk.cid = o.cid ∧ tAsk.wait ≠ .tuple 5 := ⟨stMISROUTE, by decide +kernel⟩
/-- The hypotheses on the fetch of a route for space 7, which both statements about requests share. -/
theorem witness_RequestRouting_fetch : let o := ask .put .queued
    let s := world tAsk fun l => { l with ops := [o] }
    ∃ z, s.service = .full ∧ (s.tile 0).tenant = some 0 ∧ (s.tile 0).ops.find? (fun o => o.stage == .queued && o.space == some 7) = some o ∧
      (s.tile 0).route 0 7 = none ∧ (s.tile 0).waitRoutes = [] ∧ s.fetchRoute (dieOf 0) 0 o.asid 7 = (⟨0, 7, false, 0, []⟩, z) ∧ z.tile 0 = s.tile 0 := by
  intro o s
  refine ⟨(s.fetchRoute (dieOf 0) 0 o.asid 7).2, by decide +kernel, by decide +kernel, by decide +kernel, by decide +kernel, by decide +kernel, ?_,
    by decide +kernel⟩
  exact Prod.ext (by decide +kernel) rfl
def inbox (b : Body) (f : Tile → Tile := id) : State := asking (ask .takeB .sent) b f
def letter (b : Body) : Msg := ⟨88, .home 3, .tile 0, 0, 0, 0, 0, false, b, none⟩
theorem witness_RequestRouting_invalidate : let b := Body.routeInval 7
    (inbox b).Arrives 88 (letter b) ∧ ((inbox b).tile 0).tenant = some 0 := by unfold State.Arrives; decide +kernel
/-- Requests of tiles 4 and 6 for one cell, in the order that `up` says, and the switch where they meet. -/
def pairOf (take up : Bool) : Msg × Msg :=
  let b := fun (x op n : Nat) => if take then Body.rangeTake 5 n (.one (.tile x) op n false) else .ctrAdd 5 n (.one (.tile x) op n false)
  let m := fun (i x op n : Nat) => (⟨i, .tile x, .home 3, 0, 0, 0, 0, false, b x op n, none⟩ : Msg)
  if up then (m 88 4 1 4, m 70 6 2 9) else (m 70 6 2 9, m 88 4 1 4)
def meeting (p : Msg × Msg) : State := { demo th with net := [p.1, p.2], nextId := 200 }
theorem witness_RequestRouting_switch : ∀ take ∈ [true, false], ∀ up ∈ [true, false], let p := pairOf take up
    let s := meeting p
    s.stopped = false ∧ p.1.id ≠ p.2.id ∧ p.1.dst = p.2.dst ∧ p.1.tenant = p.2.tenant ∧ p.1.hops = 0 ∧ p.2.hops = 0 ∧
    (s.meet 3 (srcsOf p.1) (srcsOf p.2)).map Prod.snd = some up ∧ (∀ w ∈ s.meet 3 (srcsOf p.1) (srcsOf p.2), s.combining w.1 < 16) ∧
    srcsOf p.1 = [p.1.src] ∧ srcsOf p.2 = [p.2.src] ∧ s.msg p.1.id = some p.1 ∧ s.msg p.2.id = some p.2 ∧ 4 + 9 < 2 ^ 40 := by decide +kernel
theorem witness_RoutingCompletes_route : let o := ask .put .queued
    let s := (asking o .resetCancel).modDie 0 fun d => { d with reserve := 100000 }
    ∃ who name, s.destOf 0 o = .goes who name ∧ (∀ c w, who ≠ .peer c w) ∧ s.stopped = false ∧ (s.tile 0).op 5 = some o ∧ (s.tile 0).mayRoute o = true ∧
      s.covers (dieOf 0) (ruleRequestCost o) = true ∧ (s.tile 0).sampleFault o = none :=
  ⟨.home 0, 0, by decide +kernel, fun _ _ h => (by cases h), by decide +kernel⟩
theorem witness_RoutingCompletes_combine : ∀ take ∈ [true, false], ∀ up ∈ [true, false], let p := pairOf take up
    p.1.id ≠ p.2.id ∧ ∀ r ∈ (meeting p).net, r.id ≠ p.1.id → r.id ≠ p.2.id → sameWay p.1 r = false ∧ sameWay p.2 r = false := by decide +kernel
/-- A reply to two askers whose requests combined at switch 9. -/
def splitWord (take : Bool) : Body :=
  let w := Comb.two 9 (.one (.tile 4) 1 4 false) (.one (.tile 6) 2 9 false)
  if take then .rangeReply 100 13 0 w false else .ctrReply 0 w false
def replying (take : Bool) : State := { demo th with nextId := 200, net := [⟨88, .home 3, .tile 4, 0, 0, 0, 0, false, splitWord take, none⟩] }
theorem witness_RoutingCompletes_split : ∀ take ∈ [true, false], (replying take).stopped = false ∧ ((replying take).msg 88).map Msg.body = some (splitWord take) ∧
    askOf (.one (.tile 4) 1 4 false) + askOf (.one (.tile 6) 2 9 false) = 13 ∧ 0 < askOf (.one (.tile 4) 1 4 false) ∧
    headAgent (.one (.tile 6) 2 9 false) = .tile 6 := by decide +kernel
theorem witness_RoutingCompletes_held (take : Bool) : (replying take).NoneHeld ∧ ∀ k w, Agent.tile 4 ≠ .peer k w ∧ Agent.tile 6 ≠ .peer k w := by
  refine ⟨fun r h c w e => ?_, fun k w => ⟨fun h => (by cases h), fun h => (by cases h)⟩⟩
  cases h with
  | head => cases e
  | tail _ h => cases h
theorem witness_RoutingCompletes_invalidate : ∀ dst ∈ [Agent.tile 0, .host 1 0],
    let s := { demo th (fun l => { l with tenant := some 0 }) with nextId := 200, net := [⟨88, .home 3, dst, 0, 0, 0, 0, false, .routeInval 7, none⟩] }
    s.Arrives 88 ⟨88, .home 3, dst, 0, 0, 0, 0, false, .routeInval 7, none⟩ ∧ (s.tile 0).tenant = some 0 := by unfold State.Arrives; decide +kernel
def given4 (n : Nat) : Delivery := ⟨5, 0, some ⟨keyA, .inline [1, 2, 3, 4], 3, 9⟩, (List.replicate n 7), 12, true, none, false, []⟩
def streamed (d : Delivery) : Msg := { letter (.deliver d) with sent := d.bytes.length }
/-- A delivery whose payload has come in. -/
def delivered (d : Delivery) (o : TOp := ask .takeB .sent) (f : Tile → Tile := id) : State := { asking o .resetCancel f with net := [streamed d] }
theorem witness_TileMessages_permit : let b := Body.permit 5 4
    (inbox b).Arrives 88 (letter b) ∧ ((inbox b).tile 0).sp.wf ∧ ((inbox b).tile 0).bad = [] := by unfold State.Arrives; decide +kernel
theorem witness_TileMessages_stream : let b := Body.deliver (given4 4)
    let s := (inbox b fun l => { l with permits := [(5, 1, .home 3)] }).modDie 0 fun d => { d with reserve := 100000 }
    s.Arrives 88 (letter b) ∧ (s.tile 0).op 5 = some (ask .takeB .sent) ∧ 0 < (given4 4).bytes.length ∧
    (s.tile 0).permits.find? (fun p => p.1 == 5) = some (5, 1, .home 3) ∧ (s.tile 0).refuses (ask .takeB .sent) (given4 4) = false ∧
    s.covers (dieOf 0) (receiveCost (given4 4) 4) = true := by unfold State.Arrives; decide +kernel
theorem witness_TileMessages_delivery : ∀ n ∈ [0, 4], let d := given4 n
    let s := delivered d
    let o := ask .takeB .sent
    s.Arrives 88 (streamed d) ∧ (s.tile 0).op 5 = some o ∧ (s.tile 0).refuses o d = false ∧ o.desc.flag fKb = false ∧ o.desc.flag fSb = false ∧
    hasWord o = false ∧ hasDesc o.kind = true ∧ o.gdDone = false ∧ (s.tile 0).stat (bankOf (o.dAddr + 0x78)) = false ∧ s.thr 0 0 = some tAsk ∧
    (s.tile 0).slotOf o.cid = some 0 ∧ tAsk.cid = o.cid ∧ tAsk.spec = none ∧ tAsk.susp = false ∧ tAsk.spillBan = false := by
  unfold State.Arrives; decide +kernel
theorem witness_TileMessages_reply : ∀ k ∈ [TKind.range, .accO, .accA, .ctrA, .tcancel, .send, .readP, .takeP, .ctrO], ∀ fl ∈ [(8 : BitVec 5), 0],
    let o := { ask k .sent with desc := { descA with flags := fl } }
    let s := asking o (.reply 5 14 9 false)
    s.Arrives 88 (letter (.reply 5 14 9 false)) ∧ (s.tile 0).aux = [] ∧ (s.tile 0).op 5 = some o ∧ o.gdDone = false ∧ s.thr 0 0 = some tAsk ∧
    (s.tile 0).slotOf o.cid = some 0 ∧ tAsk.cid = o.cid ∧ tAsk.wait = .none ∧ tAsk.spec = none ∧ (s.tile 0).stat (bankOf o.desc.cw) = false := by
  unfold State.Arrives; decide +kernel
def parcel (n : Nat) : Msg := { letter (.packet [0xC4, 1, 2, 3] (some 4) none) with sent := n }
theorem witness_TileMessages_packet : ∀ n ∈ [0, 1], let s := { inbox .resetCancel with net := [parcel n] }
    s.Arrives 88 (parcel n) ∧ (s.tile 0).tenant = some (parcel n).tenant ∧ pktCompute [0xC4, 1, 2, 3] = false ∧ (s.tile 0).roomFor [0xC4, 1, 2, 3] = true := by
  unfold State.Arrives; decide +kernel
theorem witness_TileMessages_packetRefused : let s := { inbox .resetCancel (fun l => { l with tenant := none }) with net := [parcel 0] }
    s.Arrives 88 (parcel 0) ∧ (s.tile 0).tenant ≠ some (parcel 0).tenant := by unfold State.Arrives; decide +kernel
theorem witness_TileMessages_packetHeld :
    let s := { inbox .resetCancel (fun l => { l with ready := (List.range 64).map fun j => ⟨[0xC4, 1, 2, 3], 0, j⟩ }) with net := [parcel 0] }
    s.Arrives 88 (parcel 0) ∧ (s.tile 0).tenant = some 0 ∧ (s.tile 0).roomFor [0xC4, 1, 2, 3] = false := by unfold State.Arrives; decide +kernel
theorem witness_TileMessages_pager : let t := { tAsk with wait := .pager 64 }
    let d : Delivery := { given4 8 with op := 70, take := false }
    let s := { demo t (fun l => { l with aux := [(70, .resolve 4096 (.fetch 64 0) (.home 3))] }) with nextId := 200, net := [streamed d] }
    s.Arrives 88 (streamed d) ∧ (s.tile 0).aux.find d.op = some (.resolve 4096 (.fetch 64 0) (.home 3)) ∧ d.status = 0 ∧ natOfBytes (d.bytes.take 8) ≠ 0 ∧
    d.bytes.length ≤ (streamed d).sent ∧ s.thr 0 0 = some t ∧ t.pc / 64 = 64 ∧ t.pc % 8 = 0 ∧ t.susp = false ∧ t.spillBan = false := by
  unfold State.Arrives; decide +kernel

/-! Matrix banks. -/
def mx (k : MxKind) : MxOp :=
  { id := 5, kind := k, cid := 0, rd := 5, ra := 0x3002, rb := 0x8000, fmtA := 0, fmtW := 23, scaleA := 0, scaleW := 0, sparse := 0, win := 0, spec := false,
    area := 0, sfld := 0, started := false, gd := 9, cw := none, flags := 0, status := 0, region := 2, banks := 0, writes := [] }
def regionA (st : RegionSt) (sparse : Nat) : Region := { st := st, b0 := 100, kb := 1, nb := 1, wfmt := 23, sparse := sparse }
def matrixWorld (o : MxOp) (r : Region) (f : Memory → Memory := id) : State :=
  world tAsk fun l => { l.setRegion 2 r with mxq := [o], sp := f l.sp }
theorem witness_MatrixEvents : ∀ k ∈ [MxKind.macc, .mstatus, .munstat, .mstat], ∀ st ∈ [RegionSt.ready, .free], let s := matrixWorld (mx k) (regionA st 0)
    s.MxTurn 0 5 (mx k) 320 ∧ s.MxTurn 0 5 (mx k) 0 ∧ s.MxTurn 0 5 (mx k) 20 ∧ (s.tile 0).region ((mx k).ra.toNat % 8) = regionA st 0 ∧
    (s.tile 0).bad = [] := by unfold State.MxTurn; decide +kernel
def indexTable (m : Memory) : Memory := (List.range 8).foldl (fun m i => m.writeN (0x8000 + 8 * i) 8 0x7654321076543210) m
def nibble (s : State) (i : Nat) : Nat := ((s.tile 0).sp.read (0x8000 + i / 2)).toNat / 16 ^ (i % 2) % 16
theorem witness_MatrixEvents_sparse : let s := matrixWorld (mx .mstat) (regionA .claimed 1) indexTable
    s.MxTurn 0 5 (mx .mstat) 320 ∧ (s.tile 0).region 2 = regionA .claimed 1 ∧ (s.tile 0).statIn 0x8000 64 = none ∧
    ∀ i < 128, i % 8 ≠ 0 → nibble s (i - 1) < nibble s i := by unfold State.MxTurn; decide +kernel
theorem witness_MatrixEvents_unsorted : let s := matrixWorld (mx .mstat) (regionA .claimed 1)
    s.MxTurn 0 5 (mx .mstat) 320 ∧ (s.tile 0).region 2 = regionA .claimed 1 ∧ (s.tile 0).statIn 0x8000 64 = none ∧
    ¬ ∀ i < 128, i % 8 ≠ 0 → nibble s (i - 1) < nibble s i := by unfold State.MxTurn; decide +kernel
theorem witness_MatrixEvents_complete : ∀ k ∈ [MxKind.mstat, .munstat, .macc, .mstatus, .mma, .mrd, .mrdv],
    let o := { mx k with started := true, cw := some (0x4100, 77) }
    let s := matrixWorld o (regionA .ready 0)
    s.stopped = false ∧ (s.tile 0).mxq.find? (fun o => o.id == 5) = some o ∧ o.started = true ∧ o.due ≤ s.cycleOf 0 ∧ (s.tile 0).sp.wf ∧ o.region < 8 ∧ s.thr 0 0 = some tAsk ∧
    (s.tile 0).slotOf o.cid = some 0 ∧ tAsk.cid = o.cid ∧ tAsk.spec = none ∧ tAsk.wait = .none ∧
    (∀ w < 4, ((s.tile 0).win w).queue = [] ∧ ((s.tile 0).win w).busy = none) ∧ (s.tile 0).bad = [] ∧
    (s.tile 0).stat (bankOf (o.ra.toNat % 2 ^ 20 + 0x30)) = false ∧ (s.tile 0).stat (bankOf 0x4100) = false := by decide +kernel
/-- A descriptor for region 2: two rows, three columns, five elements; activations at 0x4000, outputs of four bytes at 0x8000, word at 0xA000. -/
def mxDescriptor (m : Memory) : Memory :=
  ((((m.writeN 0x3000 8 (2 + 16 + 1 * 256 + 2 * 65536 + 4 * 2 ^ 32)).writeN 0x3008 8 (0x4000 + 64 * 2 ^ 32)).writeN 0x3010 8 (0x8000 + 64 * 2 ^ 32 + 8 * 2 ^ 52)).writeN
    0x3020 8 0xA000).writeN 0x3028 8 (77 * 65536)
def mx3000 (k : MxKind) : MxOp := { mx k with ra := 0x3000 }
theorem witness_MatrixProducts : ∀ e ∈ [(MxKind.mma, 1280), (.mrd, 50), (.mrdv, 58)], let o := mx3000 e.1
    let s := matrixWorld o (regionA .ready 0) mxDescriptor
    let l := s.tile 0
    l.sp.wf ∧ l.bad = [] ∧ mxStatus l o (readMx (l.sp.bytes 0x3000 64)) = none ∧ mxField l o 4 0 20 % 8 = 0 ∧
    mxField l o 4 0 20 + 8 ≤ 2 ^ 20 ∧ l.stat (bankOf (mxField l o 4 0 20)) = false ∧ (l.region (mxField l o 0 0 3)).sparse = 0 ∧
    (l.region (mxField l o 0 0 3)).badLines = [] ∧ mxField l o 0 8 4 + 1 = 2 ∧ mxField l o 0 16 14 + 1 = 3 ∧ s.MxTurn 0 5 o e.2 ∧
    3 * 4 ≤ mxField l o 2 32 20 := by unfold State.MxTurn; decide +kernel

/-! The copy engine. -/
def tokenOf (kind : Nat) : W64 := BitVec.ofNat 64 (2 ^ 24 + kind * 2 ^ 22)
/-- The grant of region 1 with generation 0, which is owned and not yet issued. -/
def minting (tok : W64) : State := world tDesc (withDesc [(9, 2 ^ 43), (14, tok.toNat)]) 1
theorem witness_DescriptorIssue_mint : ∃ p w0 w1, let s := minting (tokenOf 0)
    s.Issues tDesc ∧ tDesc.Clear [5, 9] ∧ tDesc.spec = none ∧ s.ctile.soft = [] ∧ s.dram.wf ∧ s.descField tDesc 0x4000 14 0 64 = (tokenOf 0).toNat ∧
    s.ctile.hasGrant (tokenOf 0) = false ∧ descChecks .putG 9 none s = [] ∧ tDesc.sys = true ∧ tokKind (tokenOf 0) = 0 ∧ tokPkg (tokenOf 0) = s.pkg.toNat ∧
    tokTenant (tokenOf 0) = s.tenantOf s.tx ∧ s.regionWords (s.tenantOf s.tx) (tokRegion (tokenOf 0)) = some (p, w0, w1) ∧ w1.toNat / 2 ^ 32 % 4 = 1 ∧
    w1.toNat / 2 ^ 34 % 2 = 0 ∧ w1.toNat / 2 ^ 42 = (tokenOf 0).toNat % 2 ^ 22 :=
  ⟨_, _, _, issues ⟨rfl, rfl⟩, clear rfl _, rfl, rfl, by decide +kernel, by decide +kernel, by decide +kernel, by decide +kernel, rfl, by decide +kernel,
    by decide +kernel, by decide +kernel, rfl, by decide +kernel, by decide +kernel, by decide +kernel⟩
def copyOp (k : TKind) (tok n va : Nat) (st : Stage := .queued) : TOp :=
  { put0 with kind := k, desc := { descA with key := BitVec.ofNat 256 va, addr := 0x4010, fmt := 0, plen := n, token := tokenOf tok }, stage := st, dAddr := 0x4200, rd := 5 }
def copyWorld (o : TOp) (rs : Nat := 2) : State := world tAsk (fun l => { l with ops := [o] }) rs
theorem witness_CopyEngine : ∀ k ∈ [TKind.copyin, .copyout, .copyr], ∀ n ∈ [0, 64], let o := copyOp k 1 n 0x30000
    let s := copyWorld o
    s.stopped = false ∧ (s.tile 0).op 5 = some o ∧ o.id = 5 ∧ (s.tile 0).sp.wf ∧ s.dram.wf ∧ (s.tile 0).bad = [] ∧ isCopy o.kind = true ∧
    (s.tile 0).copies < 256 ∧ s.covers (dieOf 0) (copyCost o) = true ∧ s.service = .full ∧ (s.frozenAt 0 o.desc.token).isSome = true ∧
    (s.regionWords 0 (tokRegion o.desc.token)).isSome = true ∧ (s.tile 0).statIn o.desc.addr n = none ∧ s.dramBad = [] := by decide +kernel
theorem witness_CopyEngine_block : let o := { copyOp .copyin 1 8 0x30000 with desc := { descA with fmt := 14, plen := 8 } }
    (8 : Nat) ≠ 0 ∧ 8 % copyBlock o.desc.fmt ≠ 0 ∧ (copyWorld o).covers (dieOf 0) (copyCost o) = true := by decide +kernel
theorem witness_CopyEngine_unfrozen : let o := copyOp .copyin 1 64 0x30000
    (copyWorld o 1).frozenAt 0 o.desc.token = none ∧ tokKind o.desc.token = 1 := by decide +kernel
theorem witness_CopyEngine_outside : ∀ va ∈ [0x2FFFF, 0x50001 - 64], va < 0x30000 ∨ 0x30000 + 0x20000 < va + 64 := by decide
theorem copyMapped (o : TOp) (rs n perm : Nat) (hp : perm = 1 ∨ perm = 2) (hn : n ≤ 65536) :
    (copyWorld o rs).Mapped 0 0 0 0x30000 n perm fun i => 0x30000 + i := by
  refine ⟨fun i hi => ⟨2 ^ 32 - (0x30000 + i), ?_, by omega, fun j _ _ _ => by dsimp only; omega⟩,
    fun i j _ _ h => by dsimp only at h; omega⟩
  have c : (copyWorld o rs).cached 0 (0x30000 + i) = some (0, 0, 2 ^ 32, 0, 15) := by
    change (List.find? _ [(0, 0, 2 ^ 32, 0, 15), (100, 0, 2 ^ 32, 0, 15)]) = _
    simp; omega
  unfold State.xlate
  rw [if_neg (by omega), c]
  rcases hp with rfl | rfl <;> simp
theorem witness_CopyEngine_ended : ∀ k ∈ [TKind.copyin, .copyout, .copyr], let o := copyOp k 1 64 0x30000 (.ended 0 64)
    let s := copyWorld o
    s.thr 0 0 = some tAsk ∧ (s.tile 0).slotOf o.cid = some 0 ∧ tAsk.cid = o.cid ∧ tAsk.spec = none ∧ tAsk.wait = .none ∧ o.gdDone = false ∧
    o.stage = .ended 0 64 ∧ (s.tile 0).stat (bankOf (o.dAddr + 0x78)) = false ∧ (s.tile 0).stat (bankOf o.desc.cw) = false := by decide +kernel
theorem witness_CopyEngine_freeze : ∀ rs ∈ [1, 2], let o := { copyOp .freeze 0 0 0 with arg := tokenOf 0 }
    let s := copyWorld o rs
    (s.tile 0).ops.takeWhile (fun p => p.id != 5) = [] ∧ s.covers (dieOf 0) 300 = true ∧
    (s.regionWords 0 (tokRegion o.arg)).map (fun p => (rgState p.2.2, rgGen p.2.2)) = some (rs, tokGen o.arg) ∧ ∀ e ∈ s.homes, e.2.splitSrc = none := by
  decide +kernel
/-- A token of package 5, and a valid peer context of tenant 0 on port 0 that leads there. -/
def farToken : W64 := BitVec.ofNat 64 (2 ^ 24 + 5 * 2 ^ 48)
def farPeer : Peer := { words := (Vector.replicate 8 0).setIfInBounds 0 0x0005000000000001 }
theorem witness_CopyEngine_token : let s := copyWorld (copyOp .freeze 0 0 0)
    tokPkg (tokenOf 0) = s.pkg.toNat ∧ tokTenant (tokenOf 0) = s.tenantOf 0 ∧ tokPkg farToken ≠ s.pkg.toNat := by decide +kernel
theorem witness_CopyEngine_context : let s := { copyWorld (copyOp .copyr 0 64 0x30000) with peers := [(11, farPeer)] }
    s.contextTo (dieOf 0) 0 (tokPkg farToken) 0 = some 11 := by decide +kernel
def remote (tok : Nat) (w : Bool) (bytes : List Byte) : RemoteCopy := ⟨tokenOf tok, 0x30000, 4, 4, w, bytes, 7⟩
def remoteWorld (c : RemoteCopy) (rs : Nat) : State := { copyWorld put0 rs with nextId := 200, net := [⟨88, .peer 3 0, .home 2, 0, 0, 0, 0, false, .remoteCopy 55 c, none⟩] }
theorem witness_CopyEngine_remote : ∀ w ∈ [true, false], ∀ bs ∈ [[], [1, 2, 3, 4]], ∀ v ∈ [Service.full, .reduced],
    let s := { remoteWorld (remote 0 w bs) 1 with service := v }
    s.Arrives 88 ⟨88, .peer 3 0, .home 2, 0, 0, 0, 0, false, .remoteCopy 55 (remote 0 w bs), none⟩ ∧ s.dram.wf ∧ s.violation 0 (remote 0 w bs) = none ∧ s.dramBad = [] ∧
    s.covers (peerPort (s.peer 3) / 2) (2000 * 1) = true ∧ (0x30000 + 4 - 1) / 64 - 0x30000 / 64 + 1 = 1 ∧ 4 % 4 = 0 := by
  unfold State.Arrives; decide +kernel
theorem witness_CopyEngine_violation : let s := remoteWorld (remote 0 true [1, 2, 3, 4]) 2
    s.Arrives 88 ⟨88, .peer 3 0, .home 2, 0, 0, 0, 0, false, .remoteCopy 55 (remote 0 true [1, 2, 3, 4]), none⟩ ∧
    s.violation 0 (remote 0 true [1, 2, 3, 4]) = some (4, 0x30000) := by unfold State.Arrives; decide +kernel

/-! Splits and launches. -/
def splitReq : SplitReq := ⟨5, 7, 0, 9, 0x800, 1⟩
def splitOf (copying : Bool) (phys : Nat) : SplitSrc := ⟨splitReq, .tile 4, 0, 2 ^ 31, 2 ^ 32, 4, copying, [], [], some phys, 0⟩
/-- Space 7 with one range, owned by home 3; the new table cuts it in the middle. -/
def routeWords (m : Memory) : Memory :=
  (((((m.writeN 112 8 (2 ^ 47 + 4 * 256)).writeN 120 8 0x400).writeN 0x400 4 0).writeN 0x404 4 3).writeN 0x800 8 (3 * 2 ^ 32)).writeN 0x808 8 (2 ^ 31 + 9 * 2 ^ 32)
def splitWorld (v : Home) (src : Agent) (b : Body) : State :=
  let s := { world th with nextId := 200, net := [⟨88, src, .home 3, 0, 0, 0, 0, false, b, none⟩] }
  ({ s with dram := routeWords s.dram } : State).setHome 3 v
def splitMail (src : Agent) (b : Body) : Msg := ⟨88, src, .home 3, 0, 0, 0, 0, false, b, none⟩
theorem witness_SplitEvents_request : let b := Body.split splitReq
    let s := splitWorld home0 (.tile 4) b
    s.Arrives 88 (splitMail (.tile 4) b) ∧ ∃ z z' p k dst, (s.dropMsg 88).judgeSplit 3 0 splitReq = (.ok (2 ^ 31, 2 ^ 32, 4), z) ∧
      z.xlate (3 / 8) 0 (z.afirst 0) (recRoute (z.tenantRec 0) + 16 * 7) pW = (.ok p k, z') ∧ z'.homeAgent (3 / 8) 0 9 = some dst := by
  intro b s
  refine ⟨by unfold State.Arrives; decide +kernel, ?_⟩
  have h : (match (s.dropMsg 88).judgeSplit 3 0 splitReq with
    | (.ok v, z) => (match z.xlate (3 / 8) 0 (z.afirst 0) (recRoute (z.tenantRec 0) + 16 * 7) pW with
      | (.ok _ _, z') => decide (v = (2 ^ 31, 2 ^ 32, 4)) && (z'.homeAgent (3 / 8) 0 9).isSome
      | _ => false)
    | _ => false) = true := by decide +kernel
  split at h
  · split at h
    · simp only [Bool.and_eq_true, decide_eq_true_eq, Option.isSome_iff_exists] at h
      obtain ⟨rfl, dst, hd⟩ := h
      exact ⟨_, _, _, _, dst, ‹_›, ‹_›, hd⟩
    · contradiction
  · contradiction
theorem witness_SplitEvents_refused : let b := Body.split { splitReq with space := 8 }
    let s := splitWorld home0 (.tile 4) b
    s.Arrives 88 (splitMail (.tile 4) b) ∧ ∃ st z, (s.dropMsg 88).judgeSplit 3 0 { splitReq with space := 8 } = (.error st, z) := by
  intro b s
  refine ⟨by unfold State.Arrives; decide +kernel, ?_⟩
  have h : (match (s.dropMsg 88).judgeSplit 3 0 { splitReq with space := 8 } with
    | (.error _, _) => true
    | _ => false) = true := by decide +kernel
  split at h
  · exact ⟨_, _, ‹_›⟩
  · contradiction
def splitting (copying : Bool) : Home := { home0 with splitSrc := some (splitOf copying 112), watches := [contWaiter] }
theorem witness_SplitEvents_source : ∀ b ∈ [Body.splitAnswer true, .splitAnswer false, .splitFull 7, .splitAck], ∀ copying ∈ [true, false],
    let s := splitWorld (splitting copying) (.home 9) b
    s.Arrives 88 (splitMail (.home 9) b) ∧ (s.home 3).splitSrc = some (splitOf copying 112) ∧ s.splitTarget 3 (splitOf copying 112) = some (.home 9) := by
  unfold State.Arrives; decide +kernel
theorem witness_SplitEvents_map : let b := Body.splitMap [(5, 6)]
    (splitWorld home0 (.home 9) b).Arrives 88 (splitMail (.home 9) b) := by unfold State.Arrives; decide +kernel
/-- Home 3 as the target of a split from home 8, with room for four entries, a reserved pool block of 4 KiB and places for watches. -/
def targeted : Home :=
  { home0 with inert := some ⟨0, splitReq, 2 ^ 31, 2 ^ 32, 4, .home 8, [(99, held 5 (keyOf [7, 1, 0xFFFFFFFF]) (.tuple (.inline [3])))], [], 4, 0, 4, 0,
      [⟨false, 0, 4096⟩], []⟩ }
def moved : Entry := held 8 (keyOf [7, 2]) (.tuple (.inline [7]))
theorem witness_SplitEvents_target : ∀ b ∈ [Body.splitEntry moved, .splitWatch contWaiter 900, .splitMark [held 8 keyB (.range 1 5)] [], .splitInval true 99],
    (splitWorld targeted (.home 8) b).Arrives 88 (splitMail (.home 8) b) ∧ targeted.inert.map Inert.src = some (.home 8) ∧
    targeted.watchRoom 1 = true := by unfold State.Arrives; decide +kernel
/-- Room for what holds no block, and for a block of the reserved size; none for a larger one, since the tenant has no pool beside it. -/
theorem witness_SplitEvents_room : let s := (splitWorld targeted (.home 8) .resetCancel).dropMsg 88
    s.inertRoom 3 0 (moved.blks.map Blk.size) [⟨false, 0, 4096⟩] = some ([], [⟨false, 0, 4096⟩]) ∧
    s.inertRoom 3 0 [4096] [⟨false, 0, 4096⟩] = some ([⟨false, 0, 4096⟩], []) ∧ s.inertRoom 3 0 [8192] [⟨false, 0, 4096⟩] = none ∧
    s.inertRoom 3 0 (contWaiter.blks.map Blk.size) [⟨false, 0, 4096⟩] = some ([], [⟨false, 0, 4096⟩]) := by decide +kernel
theorem witness_SplitEvents_ask : ∀ z ∈ [[], [8192]], let n : SplitRoom := ⟨2, 1, 2, 0, z, []⟩
    let b := Body.splitAsk splitReq (2 ^ 31) (2 ^ 32) 4 n
    let s := splitWorld home0 (.home 8) b
    s.Arrives 88 (splitMail (.home 8) b) ∧ home0.splitSrc.isNone = true ∧ home0.inert.isNone = true ∧ home0.indexRoom (n.tuples + n.cells) = true ∧
    home0.watchRoom (n.waits + n.watches) = true ∧ (s.dropMsg 88).poolRoom 3 0 (n.blks ++ n.cblks) = (if z = [] then some [] else none) := by
  unfold State.Arrives; decide +kernel
theorem witness_SplitEvents_cut : let s := splitWorld { splitting true with entries := [], watches := [] } (.home 8) .resetCancel
    s.stopped = false ∧ (s.home 3).splitSrc = some (splitOf true 112) ∧ (splitOf true 112).copying = true ∧ (splitOf true 112).unacked = 0 ∧
    (splitOf true 112).phys = some 112 ∧ s.splitTarget 3 (splitOf true 112) = some (.home 9) ∧ s.dram.wf ∧ splitReq.nentm < 64 := by decide +kernel
/-- A launch record for the one tile of die 0: chunk ids 0 to 9, an estimate, a packet of four words. -/
def launchBytes (chunks : Nat) : List Byte :=
  [0, chunks, 20, 2 ^ 16 + 2 ^ 48, 100, 0, 0x123450, 0, 4 + 0x8000 * 2 ^ 16, 5, 6, 7].flatMap (bytesOfNat 8)
def launchKey : Key := keyOf [7, 0, 44]
def launchState (f : LaunchUnit → LaunchUnit) (src dst : Agent) (b : Body) : State :=
  let s := { world th with nextId := 200, service := .reduced, net := [⟨88, src, dst, 0, 0, 0, 0, false, b, none⟩] }
  s.modLaunch 0 f
def launched (n : Nat) : Delivery := ⟨81, 0, some ⟨launchKey, .inline (launchBytes n), 0, 0⟩, launchBytes n, 3, true, none, false, []⟩
/-- A payload that no case of R372 refuses, one for each placement mode, and one whose identifiers run past their field. -/
theorem witness_LaunchEvents_check : let s := world th
    (s.tiles.map Prod.fst).Pairwise (· < ·) ∧ keyField launchKey 1 = 0 ∧ ¬ s.LaunchRefused 0 0 (launchBytes 9) ∧
    ¬ s.LaunchRefused 0 0 ((launchBytes 9).set 27 1) ∧ launchField (launchBytes 9) 3 24 8 = 0 ∧ launchField ((launchBytes 9).set 27 1) 3 24 8 = 1 ∧
    s.LaunchRefused 0 0 ((launchBytes 9).set 16 2) := by
  refine ⟨by decide +kernel, by decide +kernel, ?_, ?_, by decide +kernel, by decide +kernel, ?_⟩ <;> unfold State.LaunchRefused <;> decide +kernel
theorem witness_LaunchEvents_take : ∀ n ∈ [9], let s := launchState (fun l => { l with waiters := [(0, 81)] }) (.home 3) (.launch 0) (.deliver (launched n))
    s.Arrives 88 ⟨88, .home 3, .launch 0, 0, 0, 0, 0, false, .deliver (launched n), none⟩ ∧ (s.die 0).launch.waiters.find 0 = some 81 ∧ (s.die 0).launch.cur = none ∧
    (s.die 0).launch.queue = [] ∧ s.launchBad 0 0 launchKey (launchBytes n) = false ∧
    ((s.dropMsg 88).routeKey 0 0 (s.afirst 0) (s.launchGet 0 0).tmpl (s.launchGet 0 0).care).1.isSome = true := by
  unfold State.Arrives; decide +kernel
theorem witness_LaunchEvents_refuse : let d := { launched 9 with bytes := (launchBytes 9).take 88 }
    let s := launchState (fun l => { l with waiters := [(0, 81)] }) (.home 3) (.launch 0) (.deliver d)
    s.Arrives 88 ⟨88, .home 3, .launch 0, 0, 0, 0, 0, false, .deliver d, none⟩ ∧ s.launchBad 0 0 launchKey d.bytes = true ∧ 0x38 ≤ d.bytes.length ∧
    s.tileOf (natOfBytes ((d.bytes.drop 0x28).take 4)) = some 0 ∧ (s.tile 0).tenant = some 0 := by unfold State.Arrives; decide +kernel
theorem witness_LaunchEvents_lost : let d := { launched 9 with tup := none }
    let s := launchState (fun l => { l with waiters := [(0, 81)] }) (.home 3) (.launch 0) (.deliver d)
    s.Arrives 88 ⟨88, .home 3, .launch 0, 0, 0, 0, 0, false, .deliver d, none⟩ ∧ (s.die 0).launch.waiters.find 0 = some d.op := by unfold State.Arrives; decide +kernel
def admitted (started : Bool) (n : Nat) : Launching := ⟨0, launchKey, launchBytes n, none, started, [(0, [4, 5, 6, 7])]⟩
theorem witness_LaunchEvents_admit : ∀ st ∈ [true, false], ∀ n ∈ [0, 9],
    let s := launchState (fun l => { l with cur := some (admitted st n) }) (.home 3) (.home 4) .resetCancel
    s.stopped = false ∧ (s.die 0).launch.cur = some (admitted st n) ∧ (s.die 0).launch.queue = [] ∧ (∀ r ∈ s.net, r.src ≠ .launch 0) ∧
    s.covers 0 (natOfBytes (((launchBytes n).drop 32).take 4) * 2000000) = true ∧
    (s.routeKey 0 0 (s.afirst 0) (launchKey ||| 0x10000) (BitVec.allOnes 256)).1.isSome = true := by decide +kernel
theorem witness_LaunchEvents_poor : let s := (launchState (fun l => { l with cur := some (admitted false 9) }) (.home 3) (.home 4) .resetCancel).modDie 0 fun d =>
      { d with reserve := 0 }
    s.covers 0 (natOfBytes (((launchBytes 9).drop 32).take 4) * 2000000) = false ∧ (s.die 1).launch.cur = none ∧ (s.die 1).launch.queue = [] := by decide +kernel
theorem witness_LaunchEvents_retry : let s := { world th with dram := Memory.writeN (routeWords []) 113 1 0 }
    s.service = .full ∧ s.hasTiles 0 0 = true ∧ (s.die 0).launch.waiters.find 0 = none ∧ (s.die 0).launch.retryAt ≤ (s.die 0).cycle.toNat ∧
    (s.routeKey 0 0 (s.afirst 0) (s.launchGet 0 0).tmpl (s.launchGet 0 0).care).1 = some (.home 3) := by decide +kernel

/-! The spire link and the host ports. -/
def peerA : Peer := { words := (Vector.replicate 8 0).setIfInBounds 0 (0x0009040000020001), rxNext := 70, rxMsn := 5, cached := false }
def putMail : Msg := ⟨4, .tile 40, .home 5, 4, 0, 2, 0, false, .put 33 ⟨keyA, .inline [1, 2], 3, 4⟩, none⟩
/-- A packet addressed to the port of `spireWorld`, with its checksum. -/
def packetOf (k : SpirePacket) : SpirePacket :=
  let k := { k with net := { dstPort := 1 } }
  { k with net := { k.net with sum := udpChecksum k.net (spireWire k) } }
def packetA : SpirePacket := packetOf ⟨1, .request, 70, 11, 12, 5, 0, 90, 90, 0, false, [], some putMail, {}, 0⟩
def ackA : SpirePacket := packetOf { packetA with type := .ack, psn := 100, acks := 0x10 }
def spireWorld (p : Peer) (up : Bool := true) (staging : Nat := 0) : State :=
  ({ demo th with nextId := 200, service := .reduced, staging := staging, peers := [(11, p)], pkg := 7 } : State).setSpirePort 2 { up := up, en := true, udp := 1 }
theorem witness_SpireEvents : ∀ n ∈ [0, 512], let s := spireWorld peerA true n
    s.stopped = false ∧ (s.spirePort 2).up = true ∧ packetA.bad = false ∧ packetA.ver = 1 ∧ packetA.type ≠ .other ∧ (s.spirePort 2).accepts packetA = true ∧ peerValid (s.peer 11) = true ∧
    peerPort (s.peer 11) = 2 ∧ (s.peer 11).cached = false ∧ s.staging = n ∧ (spireWorld peerA false).stopped = false ∧
    ((spireWorld peerA false).spirePort 2).up = false := by decide +kernel
def peerB : Peer := { peerA with cached := true }
theorem witness_SpireEvents_place : let s := spireWorld peerB
    (∀ d, putMail.body ≠ .deliver d) ∧ (∀ c w, putMail.dst ≠ .peer c w) ∧
    (s.peer 11).cached = true ∧ packetA.type = .request ∧ packetA.psn = (s.peer 11).rxNext ∧ (s.peer 11).rxSeen = [] ∧ (s.peer 11).parts = [] ∧
    packetA.msn = (s.peer 11).rxMsn ∧ packetA.plen = packetA.mlen ∧ (s.peer 11).ackCount < 15 ∧ packetA.body = some putMail ∧
    bodyType putMail.body ≠ .data ∧ putMail.dst = .home 5 ∧ s.covers (2 / 2) (farCost putMail.body) = true ∧
    (s.spirePort 2).accepts packetA = true := ⟨fun _ h => (by cases h), fun _ _ h => (by cases h), by decide +kernel⟩
theorem witness_SpireEvents_again : let s := spireWorld peerB
    let k := packetOf { packetA with psn := 69 }
    psnBefore k.psn (s.peer 11).rxNext = true ∧ (s.spirePort 2).accepts k = true ∧ k.type ≠ .ack := by decide +kernel
def unacked (n : Nat) : Unacked := ⟨{ packetA with psn := 100, body := none }, n, 0, false⟩
theorem witness_SpireEvents_ack : let s := { spireWorld { peerB with window := [unacked 0] } with dies := Vector.replicate 4 { reserve := 1000000 } }
    let k := ackA
    (∀ d < 4, (packetCost (unacked 0).pkt : Int) ≤ (s.die d).reserve) ∧
    (s.spirePort 2).accepts k = true ∧ k.type = .ack ∧ (s.peer 11).txq = [] ∧ s.NoneHeld ∧ (s.peer 11).window = [unacked 0] ∧ k.psn < 2 ^ 32 ∧ psnBefore 100 ((k.psn + 1 + 4) % 2 ^ 32) = true ∧ k.acks.getLsbD 4 = true :=
  ⟨by decide +kernel, by decide +kernel, by decide +kernel, by decide +kernel, fun _ h => (by cases h), by decide +kernel⟩
theorem witness_SpireEvents_timers : ∀ n ∈ [14, 15], let s := { spireWorld { peerB with window := [unacked n], ackDue := some 0 } with tiles := [] }
    s.stopped = false ∧ (s.peer 11).window = [unacked n] ∧ (unacked n).due ≤ s.peerNow 11 ∧ peerPort (s.peer 11) < 8 ∧ (s.spirePort 2).up = true ∧
    (s.peer 11).ackDue = some 0 ∧ 0 ≤ s.peerNow 11 ∧ (s.peer 11).txq = [] ∧ s.service = .reduced ∧ s.tileList (peerTenant (s.peer 11)) = [] ∧
    s.pkg ≠ 0xFFFF ∧ (s.peer 11).asked = [] ∧ s.net = [] ∧ s.homes = [] ∧ (unacked n).pkt.body = none := by decide +kernel
/-- The window's packet may be sent again, with the reserve for it and without; an acknowledgement that is due finds the reserve for its frame. -/
theorem witness_SpireEvents_reserve : ∀ r ∈ [(1000000 : Int), 0],
    let s := (spireWorld { peerB with window := [unacked 3], ackDue := some 0 }).modDie 1 fun d => { d with reserve := r }
    s.covers (packetDie (s.peer 11) (unacked 3).pkt) (packetCost (unacked 3).pkt) = decide (0 < r) ∧ s.covers (peerPort (s.peer 11) / 2) (100 * 64) = decide (0 < r) ∧
    (s.peer 11).cached = true ∧ (s.peer 11).txq = [] ∧ (s.peer 11).ackCount < 16 ∧ (∀ v ∈ (s.peer 11).window, v.again = false) ∧ (unacked 3).expiries < 15 ∧
    (s.peerNow 11 < 1) := by decide +kernel
theorem witness_SpireEvents_fetch : let s := spireWorld peerA
    peerValid (s.peer 11) = true ∧ (s.peer 11).cached = false ∧ (s.peer 11).waiting = [] ∧ (s.peer 11).txq = [] ∧
    (s.peers.filter fun e => peerValid e.2 && e.2.cached).length < 4096 := by decide +kernel
def hostWorld (f : HostFn) (b : Body := .resetCancel) : State :=
  (({ arriving (demo th) (.home 3) (.host 0 0) b with service := .reduced } : State).modFn 0 0 fun _ => f).modDie 0 fun d => { d with reserve := 1000000000 }
/-- The record of an operation has a home to go to, and the port's die the energy for it. -/
def leaves (s : State) (o : HostOp) : Bool :=
  s.covers (portDie 0) (hostCost o) && match s.hostDest 0 0 o with
  | .goes _ _ => true
  | _ => false
def hostOp (put pulling sent : Bool) (len : Nat) : HostOp :=
  ⟨60, 5, put, BitVec.ofNat 1024 (len * 2 ^ (if put then 256 else 512) + 2 ^ 256 - 1), pulling, sent, []⟩
def allCare : Map W64 := [(16 * 5 + 4, 0xFFFFFFFFFFFFFFFF)]
theorem witness_HostPorts : let s := hostWorld { takeWords := allCare }
    s.stopped = false ∧ s.fnOn 0 0 = true ∧ 5 < 64 ∧ (s.port 0).waitRoutes = [] ∧ ((s.port 0).fn 0).ops = [] ∧
    ((s.port 0).fn 0).busyPut.contains 5 = false ∧ ((s.port 0).fn 0).busyTake.contains 5 = false := by decide +kernel
theorem witness_HostPorts_busy : let s := hostWorld { busyPut := [5], busyTake := [5] }
    s.fnOn 0 0 = true ∧ ((s.port 0).fn 0).busyPut.contains 5 = true ∧ ((s.port 0).fn 0).busyTake.contains 5 = true := by decide +kernel
def goPut (len : Nat) : W64 := BitVec.ofNat 64 (2 ^ 63 + len)
theorem witness_HostPorts_goes : ∀ len ∈ [64, 65, 2 ^ 24], let s := hostWorld {}
    let o : HostOp := { id := s.nextId, slot := 5, put := true, bytes := BitVec.ofNat 1024 ((goPut len).toNat * 2 ^ 256), pulling := decide (64 < len),
                        sent := false, payload := [] }
    (goPut len).getLsbD 63 = true ∧ (∀ j < 16, hostWord o j = Map.at [(16 * 5 + 4, goPut len)] 0 (16 * 5 + j)) ∧
    leaves s o = true := by decide +kernel
theorem witness_HostPorts_pulled : let o := hostOp true true false 65
    let s := (hostWorld { ops := [o], busyPut := [5] }).modPort 0 fun h => { h with pulls := [(0, 5, hostWord o 5, 65)] }
    s.fnOn 0 0 = true ∧ ((s.port 0).fn 0).ops = [o] ∧ o.put = true ∧ o.slot = 5 ∧ o.pulling = true ∧ o.sent = false ∧ hostBad o = false ∧ hostOpNo o = 0 ∧
    64 < hostLen o ∧ (s.port 0).waitRoutes = [] ∧ hostLen o = 65 ∧ (s.port 0).pulls.contains (0, 5, hostWord o 5, hostLen o) = true ∧
    leaves s o = true := by decide +kernel
theorem witness_HostPorts_reply : ∀ st ∈ [0, 11, 7], let o := hostOp true false true 3
    let s := hostWorld { ops := [o], msixTable := [(2 * recErrvec tenantOne + 1, 0)] } (.reply 60 st 9 false)
    s.Arrives 88 ⟨88, .home 3, .host 0 0, 0, 0, 0, 0, false, .reply 60 st 9 false, none⟩ ∧ ((s.port 0).fn 0).ops = [o] ∧ o.id = 60 ∧ o.put = true ∧
    ((s.port 0).fn 0).perr = false ∧
    bitsOf (((s.port 0).fn 0).msixTable.at 0x100000000 (2 * recErrvec (s.tenantRec 0) + 1)) 32 1 = 0 := by unfold State.Arrives; decide +kernel
theorem witness_HostPorts_take : let o := hostOp false false true 3
    let d : Delivery := { given4 4 with op := 60 }
    let s := hostWorld { ops := [o], busyTake := [5] } (.deliver d)
    s.covers (portDie 0) (80 * ((d.bytes.length + 63) / 64)) = true ∧
    s.Arrives 88 ⟨88, .home 3, .host 0 0, 0, 0, 0, 0, false, .deliver d, none⟩ ∧ ((s.port 0).fn 0).ops = [o] ∧ o.id = d.op ∧ o.put = false ∧ d.fwd = false ∧
    bitsOf (hostWord o 11) 11 1 = 0 := by unfold State.Arrives; decide +kernel

/-! Resets, registers, management, power. -/
def resetWorld (f : Tile → Tile := id) : State := world th f
theorem witness_Resets : let s := resetWorld
    s.stopped = false ∧ (s.port 0).command.getLsbD 63 = false ∧ s.tileOf (0#32).toNat = some 0 ∧ (s.tile 0).tenant = some 0 ∧ recPort (s.tenantRec 0) = 0 ∧
    s.fnOn 0 0 = true ∧ s.fnOn 0 1 = false ∧ s.tileOf (0xFFFFFFFF#32).toNat = none ∧ s.thr 0 0 = some th ∧ (s.tile 0).slotOf (th).cid = some 0 ∧
    (th).spec = none ∧ ((s.tile 0).win 3).owner = none ∧ ((s.tile 0).win 3).queue = [] ∧ ((s.tile 0).win 3).busy = none ∧
    ((s.tile 0).ops.map TOp.id).Nodup ∧ (∀ r ∈ s.net, r.id < s.nextId) ∧ s.service ≠ .off ∧ s.dram.wf := by decide +kernel
theorem witness_Resets_foreign : ∃ t, (resetWorld.tile 0).tenant = some t ∧ recPort (resetWorld.tenantRec t) ≠ 1 := ⟨0, by decide +kernel⟩
theorem witness_Resets_window : ((resetWorld (windowed { owner := some 0 })).tile 0).win 3 = { owner := some 0 } := by decide +kernel
theorem witness_Resets_copies : let o := copyOp .copyr 0 64 0x30000 .sent
    (copyWorld o).stopped = false ∧ o ∈ ((copyWorld o).tile 0).ops ∧ isCopy o.kind = true ∧ o.stage = .sent := by decide +kernel
theorem witness_Resets_region : let o := { mx .mma with started := true }
    let s := matrixWorld o (regionA .ready 0)
    o ∈ (s.tile 0).mxq ∧ (s.tile 0).mxRegion o = 2 ∧ o.started = true := by decide +kernel
theorem witness_Resets_home : let s := ({ resetWorld with service := .reduced } : State).setHome 3 { home0 with watches := [takeWaiter] }
    s.stopped = false ∧ takeWaiter ∈ (s.home 3).watches ∧ takeWaiter.kind = .takeWaiter := by decide +kernel
theorem witness_Resets_port : let s := { spireWorld peerA with tiles := [] }
    s.stopped = false ∧ peerValid (s.peer 11) = true ∧ peerPort (s.peer 11) = 2 ∧ s.service = .reduced ∧ (s.peer 11).window = [] ∧ (s.peer 11).txq = [] := by
  decide +kernel
theorem witness_RegisterWrites : let s := resetWorld
    s.stopped = false ∧ recValid (s.tenantRec 0) = true ∧ recPort (s.tenantRec 0) = 0 ∧ recPort (s.tenantRec 0) ≠ 1 ∧ recValid (s.tenantRec 1) = false ∧
    wordClash 5 0 = false ∧ (∀ j < 32, wordClash j (recWord (s.tenantRec 1) j) = false) ∧ s.lock = false ∧ s.fnOn 0 0 = true ∧ s.fnOn 0 255 = false ∧
    4 < recVcount (s.tenantRec 0) := by decide +kernel
theorem witness_RegisterWrites_clash : ∃ i val, wordClash i val = true := ⟨8, 0x80000000001B0000, by decide +kernel⟩
theorem witness_RegisterWrites_peer : let s := spireWorld peerB
    s.fnOn 1 ((peerWord (s.peer 11) 0).toNat / 2 ^ 32 % 256) = false ∧ s.fnOn 0 ((peerWord (s.peer 11) 0).toNat / 2 ^ 32 % 256) = true ∧ (s.peer 11).cached = true ∧ peerValid (s.peer 11) = true ∧
    (0x0009000000020001 : W64).getLsbD 0 = true := by decide +kernel
/-- A command register that still carries out another command, and a slot that is in use. -/
theorem witness_RegisterWrites_busy : let s := resetWorld.modPort 0 fun h => { h with command := 0x8300000000000001, pf := { busyPut := [5] } }
    (s.port 0).command.getLsbD 63 = true ∧ (s.port 0).command ≠ commandWord 1 0 2 0 0 0 ∧ (s.port 0).pf.busyPut.contains 5 = true := by decide +kernel
def sample (p t : Nat) : Sensors := { power := p, die := [t, t, t, t], cupola := [], stack := [], inlet := 0, outlet := 0 }
def updating (verified : Bool) (us : Nat) : State :=
  let s := resetWorld
  { s with belfry := { s.belfry with update := if verified then .verified else .rolling, bank1 := { s.belfry.bank1 with verified := true }, us := us, patchNo := 1,
                                     fallback := verified, negotiated := true, sensors := some (sample 7 500), tele := { s.belfry.tele with records := [(2, [7])] } } }
theorem witness_Management : let s := updating true 5
    (∃ q th, q < 8 ∧ s.thr 0 q = some th ∧ th.compute = true) ∧ s.service ≠ .off ∧ s.belfry.update = .verified ∧
    (if s.belfry.active1 then s.belfry.bank0 else s.belfry.bank1).verified = true ∧ (updating false 5).belfry.update = .rolling ∧ s.belfry.patchNo ≠ 0 ∧
    s.belfry.us < s.belfry.activatedAt + 10000000 ∧ s.belfry.fallback = true ∧ (updating false 5).belfry.fallback = false ∧
    s.belfry.negotiated = true ∧ (resetWorld.belfry.negotiated = false ∧ resetWorld.belfry.patchNo = 0) ∧ (s.die 0).launch.cur = none ∧
    (∀ q < 8, s.thr 7 q = none) ∧ (s.tile 7).patch ≠ s.belfry.patchNo := ⟨⟨0, th, by decide, rfl, rfl⟩, by decide +kernel⟩
/-- One present and one absent answer for each question of PLDM Platform. -/
theorem witness_Management_platform : let s := updating true 5
    s.belfry.tele.records.find 2 = some [7] ∧ s.belfry.tele.records.find 3 = none ∧ s.belfry.numeric[1 - 1]? = some 7 ∧
    (s.stateSensors[64 - 64]?).isSome = true ∧ (s.pdrs[1 - 1]?).isSome = true ∧ 0 + 64 ≤ 2 ^ 32 ∧ 0x10 ∉ [0xF0, 0x11, 0x21, 0x50, 0x51, 0xF1] := by
  decide +kernel
theorem witness_Management_limit : ({ resetWorld with rollout := 0 } : State).rollout = 0 ∧ resetWorld.rollout ≠ 0 ∧ (let s := updating false 60000000
    s.belfry.activatedAt + 1000 * s.rollout.toNat ≤ s.belfry.us) ∧
    (updating false 5).belfry.us < (updating false 5).belfry.activatedAt + 1000 * (updating false 5).rollout.toNat := by decide +kernel
theorem witness_Management_sample : (∃ t ∈ (sample 0 1100).die, 1100 ≤ t) ∧ ∀ t ∈ (sample 0 1099).die, t < 1100 := by decide
def sensing (p t : Nat) : State := { resetWorld with belfry := { resetWorld.belfry with sensors := some (sample p t) } }
theorem witness_PowerAndService : (sensing 0 949).belfry.sensors.map Sensors.power = some 0 ∧ ((950 : Int) ≤ 950) ∧ ¬ ((950 : Int) ≤ 949) ∧ 1800000 < 1800001 ∧
    (sensing 0 949).service = .full ∧ resetWorld.belfry.sensors = none ∧ State.reset.service = .reduced ∧ (∃ i ∈ [3], i < 8) ∧
    resetWorld.stopped = false ∧ resetWorld.dram.wf ∧ State.reset.power.thermtrip = false ∧ State.reset.homes = [] := by decide +kernel
theorem witness_PowerAndService_on : ∀ r ∈ [true, false], let s : State := { State.reset with service := .off, power := { State.reset.power with inRange := r } }
    s.service = .off ∧ s.power.inRange = r ∧ s.power.thermtrip = false := by decide +kernel

/-! The machine as a whole. -/
theorem witness_StepRunsDecoded : let s := State.reset.withFetchWord 64 0x0020864300000000
    let v := { s with script := [] }
    s.stopped = false ∧ s.script = [.cycle 0] ∧ (s.tile 0).acted = false ∧ v.chosen 0 = some (0, false) ∧ s.thr 0 0 = some fetchThread ∧
    fetchThread.pc % 8 = 0 ∧ fetchThread.fetchFault ≠ some fetchThread.pc ∧ (s.tile 0).bundleAt fetchThread.pc = some 0x0020864300000000 ∧
    (Instr.addx 2 3 4 3).wf = true ∧ encode (.addx 2 3 4 3) = some [0x0020864300000000] :=
  ⟨rfl, rfl, rfl, by decide +kernel, rfl, rfl, by decide, by decide +kernel, rfl, by decide +kernel⟩
theorem witness_StepRunsDecoded_idle : let s := { State.reset with script := [.cycle 7] }
    s.stopped = false ∧ (s.tile 7).acted = false ∧ ({ s with script := [] } : State).chosen 7 = none := by decide +kernel
theorem witness_StepRunsDecoded_event : ({ State.reset with script := [.act .thermtrip] } : State).script = [.act .thermtrip] ∧
    isEvent .thermtrip = true ∧ ({ State.reset with service := .off } : State).script = [] := by decide +kernel
theorem witness_DecodeOfEncode : (Instr.add 1 2 3).wf = true ∧ (Instr.vnop).wf = true ∧ Instr.vnop.vop = some .vnop ∧
    (∃ n, encodeNat ⟨true, 7, true, .add 1 2 3, .vnop⟩ = some n) ∧ ∃ l, encode (.add 1 2 3) = some l := ⟨rfl, rfl, rfl, ⟨_, rfl⟩, _, rfl⟩
theorem witness_StepKeepsMemoryCanonical : State.reset.canonical = true ∧ ∃ u, step (State.reset.withFetchWord 64 0) = .next u := ⟨by decide +kernel, _, rfl⟩
def fatalWorld (l : List Turn) : State := { demo th with service := .fatal, script := l }
theorem witness_FatalState : (fatalWorld [.cycle 0]).service = .fatal ∧ (fatalWorld [.cycle 0]).script = [.cycle 0] ∧ (fatalWorld [.tick 3]).script = [.tick 3] ∧
    (∀ i ∈ [Instr.packageReset [], .thermtrip, .timerFire 0], isEvent i = true ∧ ∃ u, exec i (fatalWorld []) = .next u) := by
  refine ⟨rfl, rfl, rfl, ?_⟩
  simp only [List.mem_cons, List.not_mem_nil, or_false, forall_eq_or_imp, forall_eq]
  exact ⟨⟨rfl, _, rfl⟩, ⟨rfl, _, rfl⟩, rfl, _, rfl⟩
theorem witness_Translation_cached : (world th).cached 0 0x30000 = some (0, 0, 2 ^ 32, 0, 15) := by decide +kernel
/-- Page tables of tenant 0 for the address 0: the ASID's table entry at 0, levels 1 to 4 at 0x10000 n, the page at 0x200000. -/
def pageEntry (i : Nat) : Nat := if i = 4 then 0x20001F else (i + 1) * 0x10000 + 1
def walked (last : Nat) : State :=
  let m := (List.range 4).foldl (fun m i => Memory.writeN m (6553600 + 0x10000 * i) 8 (pageEntry i)) []
  { State.reset with tenants := [(0, tenantTwo)], dram := m.writeN (6553600 + 0x40000) 8 last }
theorem witness_Translation_walk : ∀ last ∈ [0x20001F, 0x20001E], let s := walked last
    s.cached 100 0 = none ∧ s.tables = [] ∧ recHasAsid (s.tenantRec 0) 100 = true ∧ recValid (s.tenantRec 0) = true ∧ recAtab (s.tenantRec 0) = 0 ∧ recAfirst (s.tenantRec 0) = 100 ∧
    (∀ i < 5, s.phys 0 (0x10000 * i) 8 = some (6553600 + 0x10000 * i) ∧ s.badLine (6553600 + 0x10000 * i) 8 = false ∧
      s.dram.readN (6553600 + 0x10000 * i) 8 = if i = 4 then last else pageEntry i) ∧
    pageEntry 0 % 2 = 1 ∧ pageEntry 0 / 2 % 2 ^ 11 = 0 ∧ (∀ i ∈ [1, 2, 3], pageEntry i % 2 = 1 ∧ pageEntry i / 16 % 2 = 0 ∧ pageEntry i / 256 * 256 % 4096 = 0) ∧
    pageEntry 4 / 16 % 2 = 1 ∧ (s.phys 0 0x200000 65536).isSome = true := by decide +kernel
theorem witness_Translation_large : let s := { walked 0 with dram := (Memory.writeN (walked 0).dram (6553600 + 0x30000) 8 0x20001F) }
    s.dram.readN (6553600 + 0x30000) 8 = 0x20001F ∧ 0x200000 % 2 ^ 21 = 0 ∧ s.cached 100 0 = none ∧ s.tables = [] := by decide +kernel

/-! Single steps, against the manual's worked examples. -/
/-- Register `d` and the floating flags after instruction `i` of thread `t`. -/
def after (i : Instr) (t : Thread) (d : Reg) (f : Tile → Tile := id) : Option (W64 × FFlags) :=
  match exec i (demo t f) with
  | .next u => (u.thr 0 0).map fun t' => (t'.rd d, t'.fflags)
  | _ => none
/-- The table below R98. -/
theorem test_cvt_e4m3 : (([(0x3F800000, 0x38, 0), (0x43FA0000, 0x7E, OF ||| NX), (0x3A83126F, 0x01, UF ||| NX),
    (0xFF800000, 0xFE, OF), (0xFFC00000, 0x7F, 0)] : List (W64 × W64 × FFlags)).all fun e => after (.cvt 11 8 5 6) (th [(6, e.1)]) 5 == some (e.2.1, e.2.2)) = true := by decide +kernel
theorem test_cvt_others : after (.cvt 13 8 5 6) (th [(6, 0x40600000)]) 5 = some (6, NX) ∧
    after (.cvt 2 8 5 6) (th [(6, 0xC0200000)]) 5 = some (0xFFFFFFFFFFFFFFFE, NX) ∧
    after (.cvt 2 8 5 6) (th [(6, 0x4F32D05E)]) 5 = some (0x7FFFFFFF, NV) ∧ after (.cvt 9 8 5 6) (th [(6, 0x477FF000)]) 5 = some (0x7C00, OF ||| NX) ∧
    after (.cvt 9 12 5 6) (th [(6, 0x7D)]) 5 = some (0x7E00, NV) := by decide +kernel
/-- The worked quantisation (R89, R100). -/
def sixteen (m : Memory) : Memory :=
  ([0x40A00000, 0x41200000, 0x3F000000, 0xBF000000, 0x41400000, 0xC1400000, 0x40400000, 0x40E00000, 0x3FC00000, 0x40200000, 0x40600000, 0x41100000,
    0x41300000, 0xBF800000, 0, 0x40C00000].zipIdx).foldl (fun m e => m.writeN (0x10000 + 4 * e.2) 4 e.1) m
def tQuant : Thread := th [(3, 0x10000), (4, 0x10040)]
theorem test_qbs : after (.qbsE2m1 2 3 4) tQuant 2 (fun l => { l with sp := sixteen l.sp }) = some (0x80, NX) ∧
    (match exec (.qbsE2m1 2 3 4) (demo tQuant fun l => { l with sp := sixteen l.sp }) with
    | .next u => u.ctile.sp.bytes 0x10040 9
    | _ => []) = [0x80, 0x64, 0x80, 0xF7, 0x63, 0x22, 0x64, 0x97, 0x50] := by decide +kernel
/-- The example under R102. -/
theorem test_nisplit : after (.nisplit 3 4) (th [(4, 0x0140FF00807FFD05)]) 3 = some (0xA72427262626662A, 0) := by decide +kernel
theorem test_nijoin : after (.nijoin 6 3 5) (th [(3, 0xA72427262626662A), (5, 4)]) 6 = some (0x0004FF00F807FF00, 0) := by decide +kernel
/-- The program of 04_scalar.md: four turns of the loop, the last falls through. -/
def afterPc (i : Instr) (t : Thread) : Option Nat :=
  match exec i (demo t) with
  | .next u => (u.thr 0 0).map Thread.pc
  | _ => none
theorem test_loop : afterPc (.loop 3 0x3FFC) (th [(3, 2)]) = some (0x1000 - 32) ∧ afterPc (.loop 3 0x3FFC) (th [(3, 1)]) = some 0x1008 ∧
    after (.loop 3 0x3FFC) (th [(3, 1)]) 3 = some (0, 0) := by decide +kernel
theorem test_popc : after (.popc 6 5) (th [(5, 0xF000000000000001)]) 6 = some (5, 0) := by decide +kernel
/-- The example of floating atomics in 05_scratchpad.md: a tie, and the exact sum. -/
theorem test_amofadd : let run := fun (v : W64) =>
      (after (.amofadd false false 2 7 8) (th [(7, 0x6000), (8, v)]) 2 (fun l => { l with sp := l.sp.writeN 0x6000 4 0x4B800000 }),
        match exec (.amofadd false false 2 7 8) (demo (th [(7, 0x6000), (8, v)]) fun l => { l with sp := l.sp.writeN 0x6000 4 0x4B800000 }) with
        | .next u => u.ctile.sp.readN 0x6000 4
        | _ => 0)
    run 0x3F800000 = (some (0x4B800000, NX), 0x4B800000) ∧ run 0x40000000 = (some (0x4B800000, 0), 0x4B800001) := by decide +kernel
/-- The example under R199: the total is exact. -/
theorem test_vrfsum : (match exec (.vopStart 0 3) (winState { queue := [entry (vop .vrfsum 9)], rows := [(0, 0x3C0000000000), (1, 0x100000000000), (2, 0x100000000000)] }) with
    | .next u => ((u.tile 0).win 3).busy.map fun b => (b.result, b.flags)
    | _ => none) = some (some 0x3C01, 0) := by decide +kernel

/-- Memory is canonical at reset. -/
theorem test_reset_canonical : State.reset.canonical = true := by decide +kernel
end Sys2Proof.Tests
end

section
/-! The canonical form of memory over a step (O57, R39, R134). A canonical state has canonical DRAM and canonical scratchpads; nothing else of
the state counts. `f_canonical` says what `f` does to this: a function that writes no memory leaves the truth of `State.canonical` as it is (an
equation, so that `simp` walks through it), one that writes memory keeps it (an implication); `f_sp` says that a function on tiles leaves the
scratchpad. Each function of the model that a step reaches has one such lemma below, in the order of the model's files. Where a proof is
`(rfl)`, in brackets, `simp` takes the lemma as a rewriting and so can discharge the premise of `State.modTile_canonical_of_sp` with it. -/
namespace Sys2Proof.Machine

/-- A check that the default passes and that every entry passes holds of what a table holds under any number. -/
theorem Map.at_of_all {α : Type} {p : α → Bool} {m : Map α} {d : α} (hd : p d = true) (h : (m.all fun e => p e.2) = true) (k : Nat) :
    p (m.at d k) = true := by
  induction m with
  | nil => exact hd
  | cons e m ih =>
    obtain ⟨j, w⟩ := e
    simp only [List.all_cons, Bool.and_eq_true] at h
    simp only [Map.at, Map.find]
    split
    · exact h.1
    · exact ih h.2
/-- Putting a value that answers a check as the value before it leaves the table's answer. -/
theorem Map.all_put_of_at {α : Type} {p : α → Bool} {m : Map α} {d v : α} {k : Nat} (hd : p d = true) (hv : p v = p (m.at d k)) :
    ((m.put k v).all fun e => p e.2) = m.all fun e => p e.2 := by
  induction m with
  | nil => simpa [Map.put, Map.at, Map.find, hd] using hv
  | cons e m ih =>
    obtain ⟨j, w⟩ := e
    simp only [Map.put]
    split
    · next hj => simp_all [Map.at, Map.find]
    · next hj =>
      have hv : p v = p (Map.at m d k) := by simpa [Map.at, Map.find, hj] using hv
      split
      · rw [List.all_cons, Bool.and_eq_right_iff_imp, hv]
        intro h
        simp only [List.all_cons, Bool.and_eq_true] at h
        exact Map.at_of_all hd h.2 k
      · simp [ih hv]
/-- Putting a value that passes a check keeps the check of every entry. -/
theorem Map.all_put {α : Type} {p : α → Bool} {m : Map α} {v : α} {k : Nat} (h : (m.all fun e => p e.2) = true) (hv : p v = true) :
    ((m.put k v).all fun e => p e.2) = true := by
  induction m with
  | nil => simpa [Map.put] using hv
  | cons e m ih =>
    obtain ⟨j, w⟩ := e
    simp only [List.all_cons, Bool.and_eq_true] at h
    simp only [Map.put]
    split
    · simp [hv, h.2]
    · split
      · simp [hv, h.1, h.2]
      · simp [h.1, ih h.2]

/-- Writes one after another keep the canonical form where each does. -/
theorem Memory.foldl_wf {α : Type} {f : Memory → α → Memory} {l : List α} {m : Memory} (hm : m.wf = true)
    (hf : ∀ m a, m.wf = true → (f m a).wf = true) : (l.foldl f m).wf = true := by
  induction l generalizing m with
  | nil => exact hm
  | cons a l ih => exact ih (hf m a hm)

theorem State.dram_wf {s : State} (h : s.canonical = true) : s.dram.wf = true := (Bool.and_eq_true_iff.1 h).1
theorem State.tile_sp_wf {s : State} (h : s.canonical = true) (x : Nat) : (s.tile x).sp.wf = true :=
  Map.at_of_all (p := fun t : Tile => t.sp.wf) rfl (Bool.and_eq_true_iff.1 h).2 x
/-- DRAM replaced by canonical memory. -/
theorem State.canonical_setDram {s u : State} (h : s.canonical = true) (ht : u.tiles = s.tiles) (hd : u.dram.wf = true) : u.canonical = true := by
  simp only [State.canonical, Bool.and_eq_true, ht]
  exact ⟨hd, (Bool.and_eq_true_iff.1 h).2⟩
theorem State.setTile_canonical {s : State} {x : Nat} {t : Tile} (h : s.canonical = true) (ht : t.sp.wf = true) :
    (s.setTile x t).canonical = true := by
  obtain ⟨hd, hs⟩ := Bool.and_eq_true_iff.1 h
  exact Bool.and_eq_true_iff.2 ⟨hd, Map.all_put (p := fun t : Tile => t.sp.wf) hs ht⟩
/-- An update of a tile that keeps its scratchpad. -/
@[simp] theorem State.setTile_canonical_of_sp {s : State} {x : Nat} {t : Tile} (ht : t.sp = (s.tile x).sp) :
    (s.setTile x t).canonical = s.canonical := by
  have := Map.all_put_of_at (p := fun t : Tile => t.sp.wf) (m := s.tiles) (d := {}) (k := x) (v := t) rfl (by rw [ht]; rfl)
  simp only [State.canonical, State.setTile, this]
@[simp] theorem State.modTile_canonical_of_sp {s : State} {x : Nat} {f : Tile → Tile} (hf : ∀ t, (f t).sp = t.sp) :
    (s.modTile x f).canonical = s.canonical := State.setTile_canonical_of_sp (hf _)
theorem State.modTile_canonical {s : State} {x : Nat} {f : Tile → Tile} (h : s.canonical = true)
    (hf : ∀ t : Tile, t.sp.wf = true → (f t).sp.wf = true) : (s.modTile x f).canonical = true :=
  State.setTile_canonical h (hf _ (State.tile_sp_wf h x))
@[simp] theorem State.modTile_setWin_canonical (s : State) (x) (w : Tile → Nat) (v : Tile → Window) :
    (s.modTile x fun t => t.setWin (w t) (v t)).canonical = s.canonical := State.modTile_canonical_of_sp fun _ => rfl
@[simp] theorem State.modTile_setBar_canonical (s : State) (x) (e : Tile → Nat) (v : Tile → BarEntry) :
    (s.modTile x fun t => t.setBar (e t) (v t)).canonical = s.canonical := State.modTile_canonical_of_sp fun _ => rfl
@[simp] theorem State.modTile_setRegion_canonical (s : State) (x) (r : Tile → Nat) (v : Tile → Region) :
    (s.modTile x fun t => t.setRegion (r t) (v t)).canonical = s.canonical := State.modTile_canonical_of_sp fun _ => rfl
/-- The state that a function returns beside another answer. -/
theorem State.canonical_of_snd {α : Type} {r : α × State} {a : α} {s u : State} (h : r = (a, u)) (hr : r.2.canonical = s.canonical) :
    u.canonical = s.canonical := by
  rw [← hr, h]
theorem State.canonical_of_fst {α : Type} {r : State × α} {a : α} {s u : State} (h : r = (u, a)) (hr : r.1.canonical = s.canonical) :
    u.canonical = s.canonical := by
  rw [← hr, h]
/-- A run over a list whose every step leaves the canonical form's truth leaves it. -/
@[simp] theorem State.foldl_canonical {α : Type} {f : State → α → State} (hf : ∀ s a, (f s a).canonical = s.canonical)
    (s : State) (l : List α) : (l.foldl f s).canonical = s.canonical := by
  induction l generalizing s with
  | nil => rfl
  | cons a l ih => rw [List.foldl_cons, ih, hf]
theorem Tile.foldl_sp {α : Type} {f : Tile → α → Tile} (hf : ∀ t a, (f t a).sp = t.sp) (l : List α) (t : Tile) :
    (l.foldl f t).sp = t.sp := by
  induction l generalizing t with
  | nil => rfl
  | cons a l ih => rw [List.foldl_cons, ih, hf]
/-- Every tile updated, its scratchpad kept. -/
theorem Map.all_map_tiles {m : Map Tile} {f : Nat × Tile → Nat × Tile} (hf : ∀ e, (f e).2.sp = e.2.sp) :
    ((m.map f).all fun e => e.2.sp.wf) = m.all fun e => e.2.sp.wf := by
  simp [List.all_map, Function.comp_def, hf]
/-- A run over a list whose every step keeps the canonical form keeps it. -/
theorem State.foldl_keeps {α : Type} {f : State → α → State} {l : List α} {s : State} (h : s.canonical = true)
    (hf : ∀ s a, s.canonical = true → (f s a).canonical = true) : (l.foldl f s).canonical = true := by
  induction l generalizing s with
  | nil => exact h
  | cons a l ih => exact ih (hf s a h)
/-- A run that carries another value beside the state. -/
theorem State.foldl_fst_canonical {α β : Type} {f : State × β → α → State × β} (hf : ∀ r a, (f r a).1.canonical = r.1.canonical)
    (l : List α) (r : State × β) : (l.foldl f r).1.canonical = r.1.canonical := by
  induction l generalizing r with
  | nil => rfl
  | cons a l ih => rw [List.foldl_cons, ih, hf]
/-- Functions applied one after another, each of which keeps the canonical form. -/
theorem State.foldl_apply_keeps {α : Type} {m : α} {l : List (State → α → State)} {s : State} (hs : s.canonical = true)
    (hl : ∀ f ∈ l, ∀ u : State, u.canonical = true → (f u m).canonical = true) : (l.foldl (fun s f => f s m) s).canonical = true := by
  induction l generalizing s with
  | nil => exact hs
  | cons f l ih =>
    exact ih (hl f List.mem_cons_self s hs) fun g hg => hl g (List.mem_cons_of_mem f hg)

@[simp] theorem State.mk_canonical (tiles dies homes dram dramBad pkg lock rollout portCfg tenants peers staging spire net tlb tables ports belfry
    power service fatalCause trained failedStacks dump cur turn script nextId freeCtr) :
    (State.mk tiles dies homes dram dramBad pkg lock rollout portCfg tenants peers staging spire net tlb tables ports belfry power service fatalCause
      trained failedStacks dump cur turn script nextId freeCtr).canonical = (Memory.wf dram && tiles.all fun t => t.2.sp.wf) := rfl
@[simp] theorem State.canonical_fold (s : State) : (s.dram.wf && s.tiles.all fun t => t.2.sp.wf) = s.canonical := rfl
@[simp] theorem State.canonical_ite {c : Prop} [Decidable c] (s u : State) :
    (if c then s else u).canonical = if c then s.canonical else u.canonical := apply_ite ..
@[simp] theorem State.canonical_fst_ite {α : Type} {c : Prop} [Decidable c] (s u : State × α) :
    (if c then s else u).1.canonical = if c then s.1.canonical else u.1.canonical := apply_ite (fun s : State × α => s.1.canonical) ..
@[simp] theorem Tile.sp_ite {c : Prop} [Decidable c] (t u : Tile) : (if c then t else u).sp = if c then t.sp else u.sp := apply_ite ..

end Sys2Proof.Machine
end

section
/-! The canonical form under the operations on tiles, threads, messages and memories (`Machine/Ops`). -/
namespace Sys2Proof.Machine

@[simp] theorem State.setSlot_canonical (s : State) (x q v) : (s.setSlot x q v).canonical = s.canonical :=
  State.modTile_canonical_of_sp fun _ => rfl
@[simp] theorem State.modThr_canonical (s : State) (x q f) : (s.modThr x q f).canonical = s.canonical := by
  unfold State.modThr
  split <;> simp
@[simp] theorem State.modCur_canonical (s : State) (f) : (s.modCur f).canonical = s.canonical := by simp [State.modCur]
@[simp] theorem State.modCtile_canonical_of_sp {s : State} {f : Tile → Tile} (hf : ∀ t, (f t).sp = t.sp) :
    (s.modCtile f).canonical = s.canonical :=
  State.modTile_canonical_of_sp hf
@[simp] theorem State.modCtile_setBar_canonical (s : State) (e : Tile → Nat) (v : Tile → BarEntry) :
    (s.modCtile fun t => t.setBar (e t) (v t)).canonical = s.canonical := State.modTile_setBar_canonical ..
@[simp] theorem State.modCtile_setWin_canonical (s : State) (w : Tile → Nat) (v : Tile → Window) :
    (s.modCtile fun t => t.setWin (w t) (v t)).canonical = s.canonical := State.modTile_setWin_canonical ..
@[simp] theorem State.modCtile_setRegion_canonical (s : State) (r : Tile → Nat) (v : Tile → Region) :
    (s.modCtile fun t => t.setRegion (r t) (v t)).canonical = s.canonical := State.modTile_setRegion_canonical ..
@[simp] theorem State.setDie_canonical (s : State) (d v) : (s.setDie d v).canonical = s.canonical := rfl
@[simp] theorem State.modDie_canonical (s : State) (d f) : (s.modDie d f).canonical = s.canonical := rfl
@[simp] theorem State.debit_canonical (s : State) (d cost) : (s.debit d cost).canonical = s.canonical := rfl
@[simp] theorem State.setHome_canonical (s : State) (h v) : (s.setHome h v).canonical = s.canonical := rfl
@[simp] theorem State.modHome_canonical (s : State) (h f) : (s.modHome h f).canonical = s.canonical := rfl
@[simp] theorem State.setPort_canonical (s : State) (p v) : (s.setPort p v).canonical = s.canonical := rfl
@[simp] theorem State.modPort_canonical (s : State) (p f) : (s.modPort p f).canonical = s.canonical := rfl
@[simp] theorem State.modFn_canonical (s : State) (p n f) : (s.modFn p n f).canonical = s.canonical := rfl
@[simp] theorem State.setPeer_canonical (s : State) (c v) : (s.setPeer c v).canonical = s.canonical := rfl
@[simp] theorem State.modBelfry_canonical (s : State) (f) : (s.modBelfry f).canonical = s.canonical := rfl
@[simp] theorem State.bump_canonical (s : State) : s.bump.canonical = s.canonical := rfl
@[simp] theorem State.draw_canonical (s : State) : s.draw.canonical = s.canonical := rfl
@[simp] theorem State.setSpirePort_canonical (s : State) (p v) : (s.setSpirePort p v).canonical = s.canonical := rfl
@[simp] theorem State.wire_canonical (s : State) (port p) : (s.wire port p).canonical = s.canonical := by simp [State.wire]
@[simp] theorem State.usePeer_canonical (s : State) (c) : (s.usePeer c).canonical = s.canonical := rfl
@[simp] theorem State.spireAgain_canonical (s : State) (c) : (s.spireAgain c).canonical = s.canonical := by simp [State.spireAgain]
@[simp] theorem State.spireGo_canonical (s : State) (c n) : (s.spireGo c n).canonical = s.canonical := by
  induction n generalizing s with
  | zero => rfl
  | succ n ih =>
    simp only [State.spireGo]
    split
    · rfl
    · simp [ih]
@[simp] theorem State.spireFlush_canonical (s : State) (c) : (s.spireFlush c).canonical = s.canonical := by simp [State.spireFlush]
@[simp] theorem State.spireSend_canonical (s : State) (c m) : (s.spireSend c m).canonical = s.canonical := by simp [State.spireSend]
@[simp] theorem State.sendFar_canonical (s : State) (m) : (s.sendFar m).canonical = s.canonical := by
  unfold State.sendFar
  split <;> simp
@[simp] theorem State.releaseFar_canonical (s : State) : s.releaseFar.canonical = s.canonical := by simp [State.releaseFar]
@[simp] theorem State.post_canonical (s : State) (m) : (s.post m).canonical = s.canonical := by simp [State.post]
@[simp] theorem State.send_canonical (s : State) (src dst tenant asid b) : (s.send src dst tenant asid b).canonical = s.canonical :=
  by simp [State.send]
@[simp] theorem State.noteBack_canonical (s : State) (a) : (s.noteBack a).canonical = s.canonical := by
  unfold State.noteBack
  split <;> simp
@[simp] theorem State.dropMsg_canonical (s : State) (m) : (s.dropMsg m).canonical = s.canonical := rfl
@[simp] theorem State.modMsg_canonical (s : State) (m f) : (s.modMsg m f).canonical = s.canonical := rfl
@[simp] theorem State.raiseVector_canonical (s : State) (t v) : (s.raiseVector t v).canonical = s.canonical := by simp [State.raiseVector]
@[simp] theorem State.raiseError_canonical (s : State) (t) : (s.raiseError t).canonical = s.canonical := by simp [State.raiseError]
@[simp] theorem Tile.modCid_sp (t : Tile) (cid f) : (t.modCid cid f).sp = t.sp := (rfl)
@[simp] theorem State.modCid_canonical (s : State) (x cid f) : (s.modCid x cid f).canonical = s.canonical := by simp [State.modCid]
@[simp] theorem Tile.ageSpills_sp (t : Tile) : t.ageSpills.sp = t.sp := by simp [Tile.ageSpills]
@[simp] theorem State.wakeCid_canonical (s : State) (x cid) : (s.wakeCid x cid).canonical = s.canonical := by simp [State.wakeCid]
@[simp] theorem State.landTile_canonical (s : State) (x cid op rd v) : (s.landTile x cid op rd v).canonical = s.canonical := by simp [State.landTile]
@[simp] theorem State.setEcost_canonical (s : State) (x cid cost) : (s.setEcost x cid cost).canonical = s.canonical := by simp [State.setEcost]
@[simp] theorem State.scrub_canonical (s : State) (x a n) : (s.scrub x a n).canonical = s.canonical := by simp [State.scrub]
@[simp] theorem Tile.conflict_sp (t : Tile) (who ls) : (t.conflict who ls).sp = t.sp := (rfl)
@[simp] theorem State.conflict_canonical (s : State) (x who a n) : (s.conflict x who a n).canonical = s.canonical := by simp [State.conflict]
@[simp] theorem Tile.setFull_sp (t : Tile) (a f) : (t.setFull a f).sp = t.sp := by simp [Tile.setFull]
/-- A thread's store writes canonical bytes into the scratchpad. -/
@[simp] theorem State.store_canonical {s : State} {x who a n v} (hs : s.canonical = true) : (s.store x who a n v).canonical = true := by
  have hw (t : Tile) (ht : t.sp.wf = true) : (t.sp.writeN a n v).wf = true := Memory.writeN_wf a n v ht
  simp only [State.store, State.scrub_canonical, State.conflict_canonical]
  refine State.modTile_canonical hs fun t ht => ?_
  split <;> simpa using hw t ht
/-- An engine's write leaves out bytes of words that it must not write in part; the bytes that it writes keep the form. -/
@[simp] theorem State.engineWrite_canonical {s : State} {x who a bs} (hs : s.canonical = true) : (s.engineWrite x who a bs).canonical = true := by
  simp only [State.engineWrite, State.scrub_canonical, State.conflict_canonical]
  refine State.modTile_canonical hs fun t ht => Memory.foldl_wf ht fun m i hm => ?_
  split
  · exact hm
  · exact Memory.write_wf _ _ hm
@[simp] theorem State.complete_canonical {s : State} {x who cw ctag status} (hs : s.canonical = true) :
    (s.complete x who cw ctag status).canonical = true := by
  have hw : (s.modTile x fun t => { t with sp := t.sp.writeN cw 8 (ctag * 65536 + status), bad := t.bad.filter (· != cw / 8) }).canonical = true :=
    State.modTile_canonical hs fun t ht => Memory.writeN_wf _ _ _ ht
  simpa [State.complete] using hw
@[simp] theorem State.threadStore_canonical {s : State} {a n v} (hs : s.canonical = true) : (s.threadStore a n v).canonical = true := by
  simp only [State.threadStore]
  split <;> simp [hs]
@[simp] theorem State.noteLoad_canonical (s : State) (a n) : (s.noteLoad a n).canonical = s.canonical := by simp [State.noteLoad]
@[simp] theorem State.vEnter_canonical (s : State) (x q v) : (s.vEnter x q v).canonical = s.canonical := by
  unfold State.vEnter
  cases v.load <;> simp
@[simp] theorem State.enterHeld_canonical (s : State) (x q) : (s.enterHeld x q).canonical = s.canonical := by
  unfold State.enterHeld
  split <;> simp
@[simp] theorem Tile.bind_sp (t : Tile) (p q now wdog) : (t.bind p q now wdog).sp = t.sp := by simp [Tile.bind]
@[simp] theorem Tile.unyield_sp (t : Tile) (seq) : (t.unyield seq).sp = t.sp := by simp [Tile.unyield]
@[simp] theorem Tile.unregister_sp (t : Tile) (q cid) : (t.unregister q cid).sp = t.sp := (rfl)
@[simp] theorem Tile.release_sp (t : Tile) (q) : (t.release q).sp = t.sp := by
  unfold Tile.release
  split <;> simp

end Sys2Proof.Machine
end

section
/-! The canonical form under the walks of page and route tables (`Machine/Walk`). -/
namespace Sys2Proof.Machine

@[simp] theorem State.xlate_canonical (s : State) (d tenant asid va perm) : (s.xlate d tenant asid va perm).2.canonical = s.canonical := by
  simp only [State.xlate]
  split
  · simp
  · split
    · simp
    · split <;> simp
@[simp] theorem State.readVa_canonical (s : State) (d tenant asid va n f) : (s.readVa d tenant asid va n f).2.canonical = s.canonical := by
  induction f generalizing s va n with
  | zero => rfl
  | succ f ih =>
    simp only [State.readVa]
    split
    · rfl
    · split
      · next hx =>
        have hx := State.canonical_of_snd hx (s.xlate_canonical ..)
        split
        · exact hx
        · split
          · next hr => exact (State.canonical_of_snd hr (ih ..)).trans hx
          · next hr => exact (State.canonical_of_snd hr (ih ..)).trans hx
      · next hx => exact State.canonical_of_snd hx (s.xlate_canonical ..)
@[simp] theorem State.writeDram_canonical {s : State} {p bs} (hs : s.canonical = true) : (s.writeDram p bs).canonical = true :=
  State.canonical_setDram hs rfl (Memory.putBytes_wf p bs (State.dram_wf hs))
@[simp] theorem State.fetchRoute_canonical (s : State) (d tenant asid space) : (s.fetchRoute d tenant asid space).2.canonical = s.canonical := by
  simp only [State.fetchRoute]
  split
  · next hr => exact State.canonical_of_snd hr (s.readVa_canonical ..)
  · next hr =>
    have hr := State.canonical_of_snd hr (s.readVa_canonical ..)
    split
    · exact hr
    · split
      · next ht => exact (State.canonical_of_snd ht (State.readVa_canonical ..)).trans hr
      · next ht => exact (State.canonical_of_snd ht (State.readVa_canonical ..)).trans hr
@[simp] theorem State.addAux_canonical (s : State) (who op a) : (s.addAux who op a).canonical = s.canonical := by
  unfold State.addAux
  split <;> simp
@[simp] theorem State.dropNotice_canonical (s : State) : s.dropNotice.canonical = s.canonical := rfl
@[simp] theorem State.routeKey_canonical (s : State) (d tenant asid k care) : (s.routeKey d tenant asid k care).2.canonical = s.canonical := by
  unfold State.routeKey
  split <;> simp
@[simp] theorem State.ownPut_canonical (s : State) (who tenant asid t a) : (s.ownPut who tenant asid t a).1.canonical = s.canonical := by
  unfold State.ownPut
  split
  · next hr => exact State.canonical_of_snd hr (s.routeKey_canonical ..)
  · next hr => simpa using State.canonical_of_snd hr (s.routeKey_canonical ..)
@[simp] theorem State.notice_canonical (s : State) (who tenant key bytes) : (s.notice who tenant key bytes).canonical = s.canonical :=
  by simp [State.notice]
@[simp] theorem State.stopThread_canonical (s : State) (pc k3 k4) : (s.stopThread pc k3 k4).canonical = s.canonical := by
  simp only [State.stopThread]
  split <;> simp
@[simp] theorem State.takeTrap_canonical (s : State) (tr) : (s.takeTrap tr).canonical = s.canonical := by simp [State.takeTrap]
@[simp] theorem State.arrivals_canonical (s : State) (x) : (s.arrivals x).canonical = s.canonical := by
  refine State.foldl_canonical (fun s e => ?_) s _
  dsimp only
  split
  · split <;> simp
  · rfl

end Sys2Proof.Machine
end

section
/-! The canonical form under the images of spilled threads (`Machine/Image`). -/
namespace Sys2Proof.Machine

@[simp] theorem State.spillPieces_canonical (s : State) (x va n perm f) : (s.spillPieces x va n perm f).2.canonical = s.canonical := by
  induction f generalizing s va n with
  | zero => rfl
  | succ f ih =>
    simp only [State.spillPieces]
    split
    · rfl
    · split
      · next hx =>
        have hx := State.canonical_of_snd hx (s.xlate_canonical ..)
        split
        · exact hx
        · split
          · next hr => exact (State.canonical_of_snd hr (ih ..)).trans hx
          · next hr => exact (State.canonical_of_snd hr (ih ..)).trans hx
      · next hx => exact State.canonical_of_snd hx (s.xlate_canonical ..)
      · next hx => exact State.canonical_of_snd hx (s.xlate_canonical ..)
@[simp] theorem State.imagePieces_canonical (s : State) (x t place cplace perm) :
    (s.imagePieces x t place cplace perm).2.canonical = s.canonical := by
  unfold State.imagePieces
  extract_lets base
  have hl := s.spillPieces_canonical x (controlPlace base x place) (controlSize t) perm 3
  generalize s.spillPieces x (controlPlace base x place) (controlSize t) perm 3 = r at hl ⊢
  obtain ⟨_ | l, u⟩ := r
  · exact hl
  · dsimp only at hl ⊢
    split
    · exact hl
    · have hm := u.spillPieces_canonical x (computePlace base x cplace) computeSize perm 5
      generalize u.spillPieces x (computePlace base x cplace) computeSize perm 5 = r at hm ⊢
      obtain ⟨_ | m, v⟩ := r
      · exact hm.trans hl
      · exact hm.trans hl
@[simp] theorem State.writePhys_canonical {s : State} {l bs} (hs : s.canonical = true) : (s.writePhys l bs).canonical = true := by
  unfold State.writePhys
  induction l generalizing s bs with
  | nil => exact hs
  | cons p l ih =>
    rw [List.foldl_cons]
    exact ih (State.writeDram_canonical hs)
@[simp] theorem State.writeImage_canonical {s : State} {x place off v} (hs : s.canonical = true) : (s.writeImage x place off v).canonical = true := by
  -- the definition is unfolded before it is applied: the kernel would otherwise run the two steps of `spillPieces`
  generalize hf : State.writeImage = f
  delta State.writeImage at hf
  subst hf
  dsimp only
  split
  · next hp => exact State.writePhys_canonical ((State.debit_canonical ..).trans ((State.canonical_of_snd hp (s.spillPieces_canonical ..)).trans hs))
  · next hp => exact (State.canonical_of_snd hp (s.spillPieces_canonical ..)).trans hs
/-- The images follow what `f` changes of the spill table: DRAM is written, the tiles' memories are `f`'s own. -/
theorem State.imaged_canonical {s : State} {x} {f : State → State} (hf : (f s).canonical = true) : (s.imaged x f).canonical = true := by
  refine State.foldl_keeps hf fun u e hu => ?_
  split
  · exact hu
  · refine State.foldl_keeps hu fun u i hu => ?_
    dsimp only
    split
    · exact hu
    · exact State.writeImage_canonical hu
@[simp] theorem State.land_canonical {s : State} {x cid op rd v} (hs : s.canonical = true) : (s.land x cid op rd v).canonical = true :=
  State.imaged_canonical (by simp [hs])

end Sys2Proof.Machine
end

section
/-! The canonical form under the issue of a bundle (`Machine/Issue`). -/
namespace Sys2Proof.Machine

@[simp] theorem State.countWdog_canonical (s : State) : s.countWdog.canonical = s.canonical := by simp [State.countWdog]
@[simp] theorem State.countIssue_canonical (s : State) (lent) : (s.countIssue lent).canonical = s.canonical := by simp [State.countIssue]
@[simp] theorem State.progress_canonical (s : State) : s.progress.canonical = s.canonical := by simp [State.progress]
@[simp] theorem State.park_canonical (s : State) (w) : (s.park w).canonical = s.canonical := by simp [State.park]
@[simp] theorem State.takePending_canonical (s : State) : s.takePending.canonical = s.canonical := by
  simp only [State.takePending]
  (repeat' split) <;> simp
@[simp] theorem State.parkSpec_canonical (s : State) (st) : (s.parkSpec st).canonical = s.canonical := by simp [State.parkSpec]
@[simp] theorem State.feFail_canonical (s : State) (a full) : (s.feFail a full).canonical = s.canonical := by simp [State.feFail]
@[simp] theorem State.threadBytes_canonical {s : State} {a bs} (hs : s.canonical = true) : (s.threadBytes a bs).canonical = true := by
  simp only [State.threadBytes]
  split
  · split
    · refine State.foldl_keeps hs fun u l hu => ?_
      split <;> simp [hu]
    · simp [hs]
  · simp [hs]
@[simp] theorem State.attempted_canonical (s : State) (h) : (s.attempted h).canonical = s.canonical := by
  unfold State.attempted
  split <;> simp
@[simp] theorem State.holdV_canonical (s : State) (v) : (s.holdV v).canonical = s.canonical := by simp [State.holdV]
/-- The issue of a bundle keeps the canonical form where the effects of both halves do. -/
theorem State.issue_canonical {s : State} {lent w wait guard} {hs hv : Half} (h : s.canonical = true)
    (hS : ∀ u : State, u.canonical = true → (hs.eff s u).canonical = true)
    (hV : ∀ u : State, u.canonical = true → (hv.eff s u).canonical = true) :
    (s.issue lent w wait guard hs hv).canonical = true := by
  have hG (u : State) (hu : u.canonical = true) : ((if guard then hs else Half.none).eff s u).canonical = true := by
    split
    · exact hS u hu
    · exact hu
  unfold State.issue
  extract_lets t g act s'
  have hs' : s'.canonical = true := by simp [s', h]
  split
  · simp [h]
  · split
    · simp [h]
    · split
      · simp [h]
      · split
        · simp [h]
        · split
          · simp [h]
          · split
            · simp [h]
            · refine hG _ ?_
              split
              · simp [hs']
              · exact hV _ hs'
@[simp] theorem State.issueIllegal_canonical (s : State) (lent w) : (s.issueIllegal lent w).canonical = s.canonical := by
  unfold State.issueIllegal
  extract_lets t
  split <;> simp

end Sys2Proof.Machine
end

section
/-! The canonical form under the scratchpad instructions (`Machine/Scratchpad`). -/
namespace Sys2Proof.Machine

@[simp] theorem State.readInto_canonical (s pre : State) (rd a) : (s.readInto pre rd a).canonical = s.canonical := by simp [State.readInto]
@[simp] theorem State.setFullAt_canonical (s : State) (a f) : (s.setFullAt a f).canonical = s.canonical := by simp [State.setFullAt]

end Sys2Proof.Machine
end

section
/-! The canonical form under the tuple and copy instructions at issue (`Machine/Tuple`). -/
namespace Sys2Proof.Machine

@[simp] theorem State.request_canonical (s : State) (op) : (s.request op).canonical = s.canonical := by simp [State.request]
@[simp] theorem State.giveGrant_canonical {s : State} {x tok} (hs : s.canonical = true) : (s.giveGrant x tok).canonical = true := by
  unfold State.giveGrant
  split <;> simp [hs]
@[simp] theorem tupleEff_canonical {s : State} {k rd ra rb pre} (hs : s.canonical = true) : (tupleEff k rd ra rb pre s).canonical = true :=
  by simp [tupleEff, hs]
@[simp] theorem State.later_canonical (s : State) (k rd v n) : (s.later k rd v n).canonical = s.canonical := by simp [State.later]
@[simp] theorem State.tryTfence_canonical {s : State} {x cid} (hs : s.canonical = true) : (s.tryTfence x cid).canonical = true := by
  unfold State.tryTfence
  extract_lets t
  split
  · split
    · simp [State.imaged_canonical, hs]
    · exact hs
  · exact hs
@[simp] theorem State.progressIfParked_canonical (s : State) : s.progressIfParked.canonical = s.canonical := by simp [State.progressIfParked]

end Sys2Proof.Machine
end

section
/-! The canonical form under fences, barriers and sleep (`Machine/Sync`). -/
namespace Sys2Proof.Machine

@[simp] theorem Tile.register_sp (t : Tile) (e cid) : (t.register e cid).sp = t.sp := by
  unfold Tile.register
  split <;> simp
@[simp] theorem barsEff_canonical (s : State) (rd ra pre) : (barsEff rd ra pre s).canonical = s.canonical := by
  simp only [barsEff]
  (repeat' split) <;> simp
@[simp] theorem Tile.openSpec_sp (t : Tile) (q e no) : (t.openSpec q e no).sp = t.sp := by
  unfold Tile.openSpec
  split <;> simp
@[simp] theorem State.tryArrive_canonical {s : State} {x cid} (hs : s.canonical = true) : (s.tryArrive x cid).canonical = true := by
  unfold State.tryArrive
  extract_lets t
  split
  · exact hs
  · split
    · extract_lets out idle u
      have hu : u.canonical = true := by
        refine State.imaged_canonical ?_
        rw [State.modTile_canonical_of_sp, hs]
        intro t
        dsimp only
        split
        · split <;> simp
        · simp
      split
      · simp [hu]
      · exact hs
    · exact hs
@[simp] theorem State.tryFence_canonical (s : State) (x cid) : (s.tryFence x cid).canonical = s.canonical := by
  simp only [State.tryFence]
  split
  · split <;> simp
  · simp
@[simp] theorem State.endOp_canonical {s : State} {x o v} (hs : s.canonical = true) : (s.endOp x o v).canonical = true := by simp [State.endOp, hs]
@[simp] theorem State.endSleep_canonical {s : State} {x cid v} (hs : s.canonical = true) : (s.endSleep x cid v).canonical = true := by
  unfold State.endSleep
  split
  · split
    · extract_lets u
      have hu : u.canonical = true := State.imaged_canonical (by simp [hs])
      split <;> simp [hu]
    · exact hs
  · exact hs
@[simp] theorem State.wakeBit_canonical {s : State} {x cid} (hs : s.canonical = true) : (s.wakeBit x cid).canonical = true :=
  by simp [State.wakeBit, hs]

end Sys2Proof.Machine
end

section
/-! The canonical form under the task instructions (`Machine/Task`). -/
namespace Sys2Proof.Machine

@[simp] theorem State.succArrival_canonical (s : State) (x h) : (s.succArrival x h).canonical = s.canonical := by
  simp only [State.succArrival]
  split <;> simp
@[simp] theorem State.leave_canonical (s : State) (x q) : (s.leave x q).canonical = s.canonical := by
  unfold State.leave
  split <;> simp
@[simp] theorem State.tryExit_canonical (s : State) (x cid) : (s.tryExit x cid).canonical = s.canonical := by
  simp only [State.tryExit]
  (repeat' split) <;> simp
@[simp] theorem State.discard_canonical (s : State) (x cid) : (s.discard x cid).canonical = s.canonical := by
  unfold State.discard
  extract_lets t tn u v
  have hu : u.canonical = s.canonical := State.foldl_canonical (fun s h => by split <;> simp) ..
  rw [State.arrivals_canonical]
  dsimp only [v]
  split <;> simp [hu]

end Sys2Proof.Machine
end

section
/-! The canonical form under control registers and notices (`Machine/System`). -/
namespace Sys2Proof.Machine

@[simp] theorem State.crSet_canonical (s : State) (n v) : (s.crSet n v).canonical = s.canonical := by
  unfold State.crSet
  split <;> simp
/-- The tiles lose bundle-cache lines alone. -/
@[simp] theorem State.dropPages_canonical (s : State) (tn va c) : (s.dropPages tn va c).canonical = s.canonical := by
  refine congrArg (s.dram.wf && ·) (Map.all_map_tiles fun e => ?_)
  dsimp only
  split <;> rfl
@[simp] theorem State.tryNotify_canonical (s : State) (x cid) : (s.tryNotify x cid).canonical = s.canonical := by
  simp only [State.tryNotify]
  split
  · split <;> simp
  · simp

end Sys2Proof.Machine
end

section
/-! The canonical form under the associative engine (`Machine/Associative`). -/
namespace Sys2Proof.Machine

@[simp] theorem vEff_canonical (s : State) (o pre) : (vEff o pre s).canonical = s.canonical := by simp [vEff]
@[simp] theorem State.windowErrors_canonical (s : State) (x w cid l) : (s.windowErrors x w cid l).canonical = s.canonical :=
  by simp [State.windowErrors]
@[simp] theorem State.vopStart_canonical (s : State) (x w) : (s.vopStart x w).canonical = s.canonical := by
  unfold State.vopStart
  extract_lets t v
  split
  · next e _ _ _ =>
    extract_lets converted u r u'
    have hu : u.canonical = s.canonical := by
      dsimp only [u]
      split <;> simp
    clear_value u
    split
    · rfl
    · split
      · rw [← hu]
        exact State.modTile_canonical_of_sp (by intro _; rfl)
      · rw [← hu, State.windowErrors_canonical]
        exact State.modTile_setWin_canonical ..
  · rfl
@[simp] theorem State.turnLoad_canonical (s : State) (x w e) : (s.turnLoad x w e).canonical = s.canonical := by
  simp only [State.turnLoad, State.windowErrors_canonical, State.foldl_canonical, State.scrub_canonical, implies_true,
    State.modTile_setWin_canonical]
theorem writePieces_wf {m : Memory} {v : Nat} {ps : List Piece} (hm : m.wf = true) : (writePieces m v ps).wf = true :=
  Memory.foldl_wf hm fun _ _ hm => Memory.foldl_wf hm fun _ q hm => Memory.write_wf q.1 q.2 hm
/-- A store of an associative window writes whole pieces over the bytes that the scratchpad had. -/
@[simp] theorem State.turnStore_canonical {s : State} {x w e} (hs : s.canonical = true) : (s.turnStore x w e).canonical = true := by
  unfold State.turnStore
  extract_lets t v rows stat good m pieces bytes touched covered part m' u u'
  have hm : m.wf = true := Memory.foldl_wf (State.tile_sp_wf hs x) fun m r hm => writePieces_wf hm
  have hm' : m'.wf = true := Memory.foldl_wf hm fun m wd hm => Memory.writeN_wf _ _ _ hm
  have hu : u.canonical = true := State.modTile_canonical hs fun _ _ => hm'
  simp [u', hu]
@[simp] theorem State.turnUc_canonical (s : State) (x w e) : (s.turnUc x w e).canonical = s.canonical := by
  simp [State.turnUc]
@[simp] theorem State.turnMx_canonical (s : State) (x w id e) : (s.turnMx x w id e).canonical = s.canonical := by
  unfold State.turnMx
  extract_lets t v
  split <;> simp
@[simp] theorem State.transferStart_canonical {s : State} {x w} (hs : s.canonical = true) : (s.transferStart x w).canonical = true := by
  unfold State.transferStart
  extract_lets t
  split
  · split
    · exact hs
    · extract_lets e u n
      have hu : u.canonical = true := by
        dsimp only [u]
        split
        · simp [hs]
        · split <;> simp [hs]
      simp [hu]
  · exact hs
@[simp] theorem State.vopComplete_canonical {s : State} {x w} (hs : s.canonical = true) : (s.vopComplete x w).canonical = true := by
  simp only [State.vopComplete]
  split <;> simp [hs]

end Sys2Proof.Machine
end

section
/-! The canonical form under the matrix engine (`Machine/Matrix`). -/
namespace Sys2Proof.Machine

@[simp] theorem State.mxEnter_canonical (s pre : State) (k rd ra rb) : (s.mxEnter pre k rd ra rb).canonical = s.canonical := by
  simp [State.mxEnter]
@[simp] theorem mxHold_canonical (s : State) (k ra id pre) : (mxHold k ra id pre s).canonical = s.canonical := by simp [mxHold]
@[simp] theorem Tile.mxConflict_sp (t : Tile) (cid r) : (t.mxConflict cid r).sp = t.sp := (rfl)
@[simp] theorem Tile.unstat_sp (t : Tile) (r) : (t.unstat r).sp = t.sp := by
  unfold Tile.unstat
  extract_lets rg mine u
  exact (Tile.foldl_sp (fun t w => t.setFull_sp ..) ..).trans rfl
@[simp] theorem State.mxStart_canonical {s : State} {x id} (hs : s.canonical = true) : (s.mxStart x id).canonical = true := by
  unfold State.mxStart
  extract_lets t
  split
  · exact hs
  · split
    · exact hs
    · next o _ _ =>
      generalize s.mxRun x o = rd
      obtain ⟨r, d⟩ := rd
      dsimp -zeta only
      extract_lets rg u1 u2 u3 u4 u5 u6 u7 u8 u9 dst wrote v1 v2 v3 o'
      clear_value wrote dst o'
      split
      · exact hs
      · have h3 : u3.canonical = true := by
          rw [← hs, State.modTile_canonical_of_sp]
          · simp [u2, u1]
          · intro t
            dsimp only
            split <;> simp
        clear_value u3
        have h4 : u4.canonical = true := by simp [u4, h3]
        clear_value u4
        have h5 : u5.canonical = true := by simp [u5, h4]
        clear_value u5
        have h6 : u6.canonical = true := by simp [u6, h5]
        clear_value u6
        have h8 : u8.canonical = true := by simp [u8, u7, h6]
        clear_value u8
        have h9 : u9.canonical = true := State.foldl_keeps h8 fun u p hu => State.engineWrite_canonical hu
        clear_value u9
        have hv1 : v1.canonical = true := by simp [v1, h9]
        clear_value v1
        have hv2 : v2.canonical = true := by simp [v2, hv1]
        clear_value v2
        have hv3 : v3.canonical = true := by
          dsimp only [v3]
          split
          · split <;> simp [hv2]
          · exact h9
        simp [hv3]
@[simp] theorem State.mxComplete_canonical {s : State} {x id} (hs : s.canonical = true) : (s.mxComplete x id).canonical = true := by
  unfold State.mxComplete
  extract_lets t
  split
  · exact hs
  · next o _ =>
    split
    · exact hs
    · extract_lets u ra v w y
      have hu : u.canonical = true := by
        rw [← hs]
        refine State.modTile_canonical_of_sp fun t => ?_
        dsimp only
        split
        · rfl
        · split <;> rfl
      clear_value u
      have hv : v.canonical = true := State.imaged_canonical (by simp [hu])
      clear_value v
      have hw : w.canonical = true := by
        dsimp only [w]
        split <;> simp [hv]
      clear_value w
      have hy : y.canonical = true := by
        dsimp only [y]
        split
        · split <;> simp [hw]
        · exact hv
      split
      · exact State.land_canonical hy
      · exact State.land_canonical hu

end Sys2Proof.Machine
end

section
/-! The canonical form under the network (`Machine/Net`). -/
namespace Sys2Proof.Machine

@[simp] theorem State.modOp_canonical (s : State) (x id f) : (s.modOp x id f).canonical = s.canonical := by simp [State.modOp]
@[simp] theorem State.finish_canonical {s : State} {x o status result v} (hs : s.canonical = true) :
    (s.finish x o status result v).canonical = true := by
  unfold State.finish
  extract_lets t ra bad u w
  have hu : u.canonical = true := by
    dsimp only [u]
    split
    · split <;> simp [hs]
    · exact hs
  have hw : w.canonical = true := by
    dsimp only [w]
    split <;> simp [hu]
  exact State.endOp_canonical hw
@[simp] theorem State.free_canonical (s : State) : (s.free).2.canonical = s.canonical := rfl
@[simp] theorem State.endWith_canonical {s : State} {x o st} (hs : s.canonical = true) : (s.endWith x o st).canonical = true := by
  simp only [State.endWith]
  split <;> simp [hs]
@[simp] theorem State.settleGrant_canonical (s : State) (x tok ok) : (s.settleGrant x tok ok).canonical = s.canonical := by simp [State.settleGrant]
@[simp] theorem Tile.dropRoute_sp (t : Tile) (sp) : (t.dropRoute sp).sp = t.sp := (rfl)
@[simp] theorem State.routeRequest_canonical {s : State} {x id} (hs : s.canonical = true) : (s.routeRequest x id).canonical = true := by
  unfold State.routeRequest
  extract_lets t
  split
  · exact hs
  · split
    · exact hs
    · split
      · exact hs
      · simp [hs]
      · extract_lets cost u bit v b w w'
        have hu : u.canonical = true := by simp [u, hs]
        clear_value u
        split
        · simp [hu]
        · have hv : v.canonical = true := by
            dsimp only [v]
            split
            · exact State.imaged_canonical (by simp [hu])
            · exact hu
          clear_value v
          simp [w', w, hv]
@[simp] theorem State.tileFetch_canonical (s : State) (x space) : (s.tileFetch x space).canonical = s.canonical := by
  simp only [State.tileFetch]
  split <;> simp
@[simp] theorem State.combineInto_canonical (s : State) (sw u l) : (s.combineInto sw u l).canonical = s.canonical := by
  unfold State.combineInto
  split <;> simp
@[simp] theorem State.combineAt_canonical (s : State) (m1 m2) : (s.combineAt m1 m2).canonical = s.canonical := by
  unfold State.combineAt
  (repeat' split) <;> simp
@[simp] theorem State.splitReplyAt_canonical (s : State) (m) : (s.splitReplyAt m).canonical = s.canonical := by
  unfold State.splitReplyAt
  split
  · simp
  · split <;> simp
@[simp] theorem State.dropAux_canonical (s : State) (who op) : (s.dropAux who op).canonical = s.canonical := by
  unfold State.dropAux
  split <;> simp
@[simp] theorem State.faultNo_canonical (s : State) (who) : (s.faultNo who).2.canonical = s.canonical := by
  unfold State.faultNo
  split <;> simp
@[simp] theorem State.pageFault_canonical (s : State) (who tenant asid va acc why) :
    (s.pageFault who tenant asid va acc why).1.canonical = s.canonical := by simp [State.pageFault]
@[simp] theorem State.takeResolution_canonical (s : State) (who tenant f va asid why) :
    (s.takeResolution who tenant f va asid why).1.canonical = s.canonical := by
  simp only [State.takeResolution]
  split
  · next hr => exact State.canonical_of_snd hr (s.routeKey_canonical ..)
  · next hr => simpa using State.canonical_of_snd hr (s.routeKey_canonical ..)
@[simp] theorem State.lostNotice_canonical (s : State) (who tenant handle) : (s.lostNotice who tenant handle).canonical = s.canonical := by
  simp only [State.lostNotice]
  split <;> simp
@[simp] theorem Tile.join_sp (t : Tile) (p) : (t.join p).sp = t.sp := (rfl)
@[simp] theorem State.sendReply_canonical (s : State) (m sender st) : (s.sendReply m sender st).canonical = s.canonical := by
  unfold State.sendReply
  split <;> simp
@[simp] theorem State.packetArrives_canonical (s : State) (m words sender handle x) :
    (s.packetArrives m words sender handle x).canonical = s.canonical := by
  unfold State.packetArrives
  (repeat' split) <;> simp
@[simp] theorem State.packetEvent_canonical (s : State) (m held) : (s.packetEvent m held).canonical = s.canonical := by
  unfold State.packetEvent
  split
  · split <;> simp
  · simp
@[simp] theorem State.permitAt_canonical (s : State) (m) : (s.permitAt m).canonical = s.canonical := by
  unfold State.permitAt
  split
  · split <;> simp
  · simp
@[simp] theorem State.sendPermits_canonical (s : State) (src x tn asid op n) : (s.sendPermits src x tn asid op n).canonical = s.canonical := by
  unfold State.sendPermits
  split <;> simp
@[simp] theorem State.usePermit_canonical (s : State) (x p) : (s.usePermit x p).canonical = s.canonical := by
  unfold State.usePermit
  split <;> simp
@[simp] theorem State.stream_canonical (s : State) (m) : (s.stream m).canonical = s.canonical := by
  simp only [State.stream]
  split
  · simp
  · split
    · simp
    · split <;> simp
@[simp] theorem State.sendPacket_canonical (s : State) (src tenant target p handle) :
    (s.sendPacket src tenant target p handle).canonical = s.canonical := by
  unfold State.sendPacket
  split <;> simp
@[simp] theorem State.putBack_canonical (s : State) (x a t) : (s.putBack x a t).canonical = s.canonical := by simp [State.putBack]
@[simp] theorem State.deliverTo_canonical {s : State} {x a d o} (hs : s.canonical = true) : (s.deliverTo x a d o).canonical = true := by
  unfold State.deliverTo
  extract_lets t g refused grant full torn st u1 wr u2 u3 res u4 u5 u6 u7
  clear_value refused grant torn
  have h1 : u1.canonical = true := by
    dsimp only [u1]
    split
    · split <;> simp [hs]
    · exact hs
  clear_value u1 full
  have h2 : u2.canonical = true := by
    dsimp only [u2]
    split <;> simp [h1]
  clear_value u2 st
  have h3 : u3.canonical = true := by
    dsimp -zeta only [u3, wr]
    split
    · split
      · exact h2
      · extract_lets v1 v2
        have hv1 : v1.canonical = true := by
          dsimp only [v1]
          split <;> simp [h2]
        have hv2 : v2.canonical = true := by
          dsimp only [v2]
          split <;> simp [hv1]
        split <;> simp [hv2]
    · exact h2
  clear_value u3 res
  have h5 : u5.canonical = true := by simp [u5, u4, h3]
  clear_value u5
  have h6 : u6.canonical = true := by
    dsimp only [u6]
    split
    · split <;> simp [h5]
    · exact h5
  clear_value u6
  have h7 : u7.canonical = true := by
    dsimp only [u7]
    split <;> simp [h6]
  split <;> simp [h7]
@[simp] theorem State.deliveryAt_canonical {s : State} {m} (hs : s.canonical = true) : (s.deliveryAt m).canonical = true := by
  unfold State.deliveryAt
  (repeat' split) <;> simp [hs]

end Sys2Proof.Machine
end

section
/-! The canonical form under the homes (`Machine/Home`). -/
namespace Sys2Proof.Machine

@[simp] theorem State.newPlace_canonical (s : State) (h kind) : (s.newPlace h kind).2.2.canonical = s.canonical := rfl
@[simp] theorem State.toTarget_canonical (s : State) (h sp b) : (s.toTarget h sp b).canonical = s.canonical := by
  unfold State.toTarget
  split <;> simp
@[simp] theorem State.toTargetAcked_canonical (s : State) (h sp b) : (s.toTargetAcked h sp b).canonical = s.canonical := by simp [State.toTargetAcked]
@[simp] theorem State.askMore_canonical (s : State) (h sp) : (s.askMore h sp).canonical = s.canonical := by simp [State.askMore]
@[simp] theorem State.copyEntry_canonical (s : State) (h e) : (s.copyEntry h e).canonical = s.canonical := by
  unfold State.copyEntry
  split <;> simp
@[simp] theorem State.copyWatch_canonical (s : State) (h w) : (s.copyWatch h w).canonical = s.canonical := by
  unfold State.copyWatch
  split <;> simp
@[simp] theorem State.dropEntry_canonical (s : State) (h place) : (s.dropEntry h place).canonical = s.canonical := by
  simp only [State.dropEntry]
  split <;> simp
@[simp] theorem State.dropWatch_canonical (s : State) (h place) : (s.dropWatch h place).canonical = s.canonical := by
  simp only [State.dropWatch]
  split <;> simp
@[simp] theorem State.insert_canonical (s : State) (h tn w ord) : (s.insert h tn w ord).1.canonical = s.canonical := by
  simp only [State.insert]
  split <;> simp
@[simp] theorem State.enterWatch_canonical (s : State) (h tn kind g who op blks) :
    (s.enterWatch h tn kind g who op blks).1.canonical = s.canonical := by simp [State.enterWatch]
@[simp] theorem State.notifyWatch_canonical (s : State) (h tn w) : (s.notifyWatch h tn w).canonical = s.canonical := by
  unfold State.notifyWatch
  split <;> simp
@[simp] theorem State.notifySpec_canonical (s : State) (h tn k) : (s.notifySpec h tn k).canonical = s.canonical := by simp [State.notifySpec]
@[simp] theorem State.readPages_canonical (s : State) (d tn asid va n f) : (s.readPages d tn asid va n f).2.2.canonical = s.canonical := by
  induction f generalizing s va n with
  | zero => rfl
  | succ f ih =>
    simp only [State.readPages]
    split
    · rfl
    · split
      · next hx =>
        have hx := State.canonical_of_snd hx (s.xlate_canonical ..)
        split
        · exact hx
        · exact (ih ..).trans hx
      · next hx => exact State.canonical_of_snd hx (s.xlate_canonical ..)
      · next hx => exact State.canonical_of_snd hx (s.xlate_canonical ..)
@[simp] theorem State.sendDelivery_canonical (s : State) (h dst tn asid d) : (s.sendDelivery h dst tn asid d).canonical = s.canonical := by
  unfold State.sendDelivery
  split <;> simp
@[simp] theorem State.farTile_canonical (s : State) (c w) : (s.farTile c w).2.canonical = s.canonical := by
  unfold State.farTile
  split <;> simp
@[simp] theorem State.reportRemote_canonical (s : State) (h tn tile tok cause va) :
    (s.reportRemote h tn tile tok cause va).canonical = s.canonical := by simp [State.reportRemote]
@[simp] theorem State.frozenFails_canonical (s : State) (h dst tn asid d tok st cause va) :
    (s.frozenFails h dst tn asid d tok st cause va).canonical = s.canonical := by
  unfold State.frozenFails
  split <;> simp
@[simp] theorem State.sendFrozen_canonical (s : State) (h dst tn d want tok off len asid) :
    (s.sendFrozen h dst tn d want tok off len asid).canonical = s.canonical := by
  unfold State.sendFrozen
  split
  · simp
  · split
    · simp
    · next base size _ =>
      split
      · simp
      · have hr := s.readPages_canonical (h / 8) tn asid (base + off) want (want / 65536 + 3)
        generalize s.readPages (h / 8) tn asid (base + off) want (want / 65536 + 3) = r at hr ⊢
        obtain ⟨bs, stop, u⟩ := r
        split
        · simp_all
        · simp_all
        · simp_all
        · next va v h' =>
          extract_lets w m
          have hw : w.canonical = s.canonical := by
            cases h'
            dsimp only [w]
            split <;> simp [hr]
          split
          · next hp => exact (State.canonical_of_fst hp (State.pageFault_canonical ..)).trans hw
          · next hp => simp [State.canonical_of_fst hp (State.pageFault_canonical ..), hw]
@[simp] theorem State.deliver_canonical (s : State) (h tn who op g w handle) : (s.deliver h tn who op g w handle).canonical = s.canonical := by
  simp only [State.deliver]
  (repeat' split) <;> simp
@[simp] theorem State.deliverNone_canonical (s : State) (h w st pkt) : (s.deliverNone h w st pkt).canonical = s.canonical :=
  by simp [State.deliverNone]
@[simp] theorem State.enterTuple_canonical (s : State) (h tn v ord) : (s.enterTuple h tn v ord).canonical = s.canonical := by
  simp only [State.enterTuple]
  split <;> simp
@[simp] theorem State.reply_canonical (s : State) (h a st val count) : (s.reply h a st val count).canonical = s.canonical := by simp [State.reply]
@[simp] theorem State.forward_canonical (s : State) (h a f) : (s.forward h a f).canonical = s.canonical := by
  simp only [State.forward]
  split
  · simp
  · split <;> simp
@[simp] theorem State.passOn_canonical (s : State) (h a) : (s.passOn h a).canonical = s.canonical := by
  refine State.foldl_canonical (fun u f => ?_) ..
  split
  · rfl
  · split <;> simp
/-- A message's event at a home: what it does there decides. -/
@[simp] theorem State.homeEvent_canonical {s : State} {m sel} {f : Msg → Nat → State → State}
    (hf : ∀ a h u, (f a h u).canonical = u.canonical) :
    (s.homeEvent m sel f).canonical = s.canonical := by
  unfold State.homeEvent
  split
  · split
    · split
      · rfl
      · split <;> simp [hf]
    · rfl
  · rfl
@[simp] theorem State.admitPayload_canonical (s : State) (m sel) : (s.admitPayload m sel).canonical = s.canonical := by
  unfold State.admitPayload
  (repeat' split) <;> simp
@[simp] theorem State.homePut_canonical (s : State) (m) : (s.homePut m).canonical = s.canonical := by
  unfold State.homePut
  split
  · simp
  · refine State.homeEvent_canonical fun a h u => ?_
    split
    · split <;> simp
    · simp
    · rfl
@[simp] theorem State.serveGet_canonical (s : State) (h a op g) : (s.serveGet h a op g).canonical = s.canonical := by
  simp only [State.serveGet]
  (repeat' split) <;> simp
@[simp] theorem State.homeGet_canonical (s : State) (m take) : (s.homeGet m take).canonical = s.canonical := by
  refine State.homeEvent_canonical fun a h u => ?_
  split <;> simp
@[simp] theorem State.homeRange_canonical (s : State) (m) : (s.homeRange m).canonical = s.canonical := by
  refine State.homeEvent_canonical fun a h u => ?_
  split
  · split
    · split <;> simp
    · simp
  · rfl
@[simp] theorem State.newCell_canonical (s : State) (h a w bad sizes val) : (s.newCell h a w bad sizes val).canonical = s.canonical := by
  unfold State.newCell
  split
  · simp
  · split <;> simp
@[simp] theorem State.homeRangeNew_canonical (s : State) (m) : (s.homeRangeNew m).canonical = s.canonical := by
  refine State.homeEvent_canonical fun a h u => ?_
  split <;> simp
@[simp] theorem State.homeAccNew_canonical (s : State) (m) : (s.homeAccNew m).canonical = s.canonical := by
  refine State.homeEvent_canonical fun a h u => ?_
  split <;> simp
@[simp] theorem State.homeCtrNew_canonical (s : State) (m) : (s.homeCtrNew m).canonical = s.canonical := by
  refine State.homeEvent_canonical fun a h u => ?_
  split <;> simp
@[simp] theorem State.homeAccAdd_canonical (s : State) (m) : (s.homeAccAdd m).canonical = s.canonical := by
  unfold State.homeAccAdd
  split
  · simp
  · refine State.homeEvent_canonical fun a h u => ?_
    split
    · split
      · split <;> simp
      · simp
    · rfl
@[simp] theorem State.homeArrival_canonical (s : State) (m) : (s.homeArrival m).canonical = s.canonical := by
  refine State.homeEvent_canonical fun a h u => ?_
  split
  · simp only
    split
    · split <;> simp
    · simp
  · rfl
@[simp] theorem State.homeCancel_canonical (s : State) (m) : (s.homeCancel m).canonical = s.canonical := by
  refine State.homeEvent_canonical fun a h u => ?_
  split
  · dsimp only
    split
    · split <;> simp
    · split
      · split <;> simp
      · simp
  · simp
  · simp
  · simp
  · rfl
@[simp] theorem State.homeBarReg_canonical (s : State) (m) : (s.homeBarReg m).canonical = s.canonical := by
  refine State.homeEvent_canonical fun a h u => ?_
  split
  · split
    · split <;> simp
    · simp
  · rfl
@[simp] theorem State.undoTake_canonical (s : State) (h r) : (s.undoTake h r).canonical = s.canonical := by
  simp only [State.undoTake]
  split
  · split <;> simp
  · simp
@[simp] theorem State.withdraw_canonical (s : State) (h tn who) : (s.withdraw h tn who).canonical = s.canonical := by
  refine (State.foldl_canonical (fun u e => ?_) ..).trans (by simp)
  split <;> simp
@[simp] theorem State.noted_canonical (s : State) (h n) : (s.noted h n).canonical = s.canonical := by simp [State.noted]
@[simp] theorem State.homeResetCancel_canonical (s : State) (m) : (s.homeResetCancel m).canonical = s.canonical := by
  refine State.homeEvent_canonical fun a h u => ?_
  split <;> simp
@[simp] theorem State.expire_canonical (s : State) (h place) : (s.expire h place).canonical = s.canonical := by
  unfold State.expire
  split <;> simp
@[simp] theorem State.acknowledge_canonical (s : State) (m) : (s.acknowledge m).canonical = s.canonical := by
  refine State.homeEvent_canonical fun a h u => ?_
  split
  · split <;> simp
  · rfl

end Sys2Proof.Machine
end

section
/-! The canonical form under the copy engine and page copies (`Machine/Copy`). -/
namespace Sys2Proof.Machine

@[simp] theorem State.endCopy_canonical (s : State) (x o st p) : (s.endCopy x o st p).canonical = s.canonical := by simp [State.endCopy]
@[simp] theorem State.pieces_canonical (s : State) (d tn asid va n perm f) : (s.pieces d tn asid va n perm f).2.2.canonical = s.canonical := by
  induction f generalizing s va n with
  | zero => rfl
  | succ f ih =>
    simp only [State.pieces]
    split
    · rfl
    · split
      · next p left u hx =>
        have hx := State.canonical_of_snd hx (s.xlate_canonical ..)
        have hr := ih u (va + min n left) (n - min n left)
        split
        · next hp => rw [hp] at hr; exact hr.trans hx
        · exact hr.trans hx
      · next hx => exact State.canonical_of_snd hx (s.xlate_canonical ..)
      · next hx => exact State.canonical_of_snd hx (s.xlate_canonical ..)
/-- The state after one block, whatever its outcome. -/
def Block.state : Block → State
  | .done s | .stop _ s | .page s => s
theorem State.copyBlock1_canonical {s : State} {x o p n} (hs : s.canonical = true) : (Block.state (s.copyBlock1 x o p n)).canonical = true := by
  unfold State.copyBlock1
  extract_lets t a into
  split
  · exact hs
  · have hp := s.pieces_canonical (dieOf x) (s.tenantOf x) o.asid (copyVa o + p) n (if into then pR else pW) 3
    generalize s.pieces (dieOf x) (s.tenantOf x) o.asid (copyVa o + p) n (if into then pR else pW) 3 = r at hp ⊢
    obtain ⟨l, pf, u⟩ := r
    have hu : u.canonical = true := hp.trans hs
    cases l with
    | none => cases pf <;> exact hu
    | some l =>
      dsimp only
      split
      · split
        · exact hu
        · split
          · exact hu
          · exact State.engineWrite_canonical hu
      · split
        · exact hu
        · exact State.writePhys_canonical (by simp [hu])
@[simp] theorem State.moveBlocks_canonical {s : State} {x o f p} (hs : s.canonical = true) : (s.moveBlocks x o f p).canonical = true := by
  induction f generalizing s p with
  | zero => simp [State.moveBlocks, hs]
  | succ f ih =>
    unfold State.moveBlocks
    extract_lets n
    have hb := State.copyBlock1_canonical (x := x) (o := o) (p := p) (n := n) hs
    generalize s.copyBlock1 x o p n = b at hb ⊢
    cases b with
    | done u => exact ih hb
    | stop st u =>
      have hu : u.canonical = true := hb
      simpa using hu
    | page u =>
      have hu : u.canonical = true := hb
      dsimp only
      split
      · next hp => simp [State.canonical_of_fst hp (State.pageFault_canonical ..), hu]
      · next hp => simp [State.canonical_of_fst hp (State.pageFault_canonical ..), hu]
@[simp] theorem State.resumeCopy_canonical {s : State} {x o} (hs : s.canonical = true) : (s.resumeCopy x o).canonical = true := by
  unfold State.resumeCopy
  split <;> simp [hs]
@[simp] theorem State.judgeCopy_canonical {s : State} {x o} (hs : s.canonical = true) : (s.judgeCopy x o).canonical = true :=
  by simp [State.judgeCopy, hs]
@[simp] theorem State.startRemote_canonical (s : State) (x o) : (s.startRemote x o).canonical = s.canonical := by
  unfold State.startRemote
  split <;> simp
@[simp] theorem State.startCopy_canonical {s : State} {x id} (hs : s.canonical = true) : (s.startCopy x id).canonical = true := by
  unfold State.startCopy
  split <;> simp [hs]
@[simp] theorem State.completeCopy_canonical {s : State} {x id} (hs : s.canonical = true) : (s.completeCopy x id).canonical = true := by
  unfold State.completeCopy
  split
  · split <;> simp [hs]
  · simp [hs]
@[simp] theorem State.freezeNow_canonical {s : State} {x id} (hs : s.canonical = true) : (s.freezeNow x id).canonical = true := by
  simp only [State.freezeNow]
  split
  · simp [hs]
  · split
    · simp [hs]
    · split <;> simp [hs]
@[simp] theorem State.tlbDone_canonical {s : State} {x id} (hs : s.canonical = true) : (s.tlbDone x id).canonical = true := by
  unfold State.tlbDone
  split <;> simp [hs]
@[simp] theorem Tile.fetchers_sp (t : Tile) (line f) : (t.fetchers line f).sp = t.sp := (rfl)
@[simp] theorem Tile.awaitLine_sp (t : Tile) (line now) : (t.awaitLine line now).sp = t.sp := (rfl)
@[simp] theorem Tile.refuseLine_sp (t : Tile) (line) : (t.refuseLine line).sp = t.sp := by simp [Tile.refuseLine]
@[simp] theorem Tile.cacheLine_sp (t : Tile) (asid line ws) : (t.cacheLine asid line ws).sp = t.sp := (rfl)
@[simp] theorem Tile.wakeLine_sp (t : Tile) (line) : (t.wakeLine line).sp = t.sp := by simp [Tile.wakeLine]
@[simp] theorem State.fetchLine_canonical (s : State) (x line asid) : (s.fetchLine x line asid).canonical = s.canonical := by
  unfold State.fetchLine
  extract_lets va tn refuse
  split
  · simp [refuse]
  · split
    · next hx => simp [refuse, State.canonical_of_snd hx (s.xlate_canonical ..)]
    · next hx => simp [refuse, State.canonical_of_snd hx (s.xlate_canonical ..)]
    · next hx =>
      have hx := State.canonical_of_snd hx (s.xlate_canonical ..)
      split
      · next hp => simp [State.canonical_of_fst hp (State.pageFault_canonical ..), hx]
      · next hp => simp [refuse, State.canonical_of_fst hp (State.pageFault_canonical ..), hx]
@[simp] theorem State.bundleFill_canonical (s : State) (x va) : (s.bundleFill x va).canonical = s.canonical := by simp [State.bundleFill]
@[simp] theorem State.reportViolation_canonical (s : State) (h tn c cause va) : (s.reportViolation h tn c cause va).canonical = s.canonical :=
  by simp [State.reportViolation]
@[simp] theorem State.remoteWrite_canonical {s : State} {d tn va n bs f p} (hs : s.canonical = true) :
    (s.remoteWrite d tn va n bs f p).2.2.canonical = true := by
  induction f generalizing s p with
  | zero => exact hs
  | succ f ih =>
    unfold State.remoteWrite
    have hp := s.pieces_canonical d tn (s.afirst tn) (va + p) n pW 3
    generalize s.pieces d tn (s.afirst tn) (va + p) n pW 3 = r at hp ⊢
    obtain ⟨l, pf, u⟩ := r
    have hu : u.canonical = true := hp.trans hs
    cases l with
    | none => cases pf <;> exact hu
    | some l => exact ih (State.writePhys_canonical hu)
@[simp] theorem State.remoteCopyRun_canonical {s : State} {h a op c p0} (hs : s.canonical = true) :
    (s.remoteCopyRun h a op c p0).canonical = true := by
  unfold State.remoteCopyRun
  extract_lets tn d back wait
  have hb (u : State) (bs : List Byte) (st n : Nat) (hu : u.canonical = true) : (back u bs st n).canonical = true := by simp [back, hu]
  have hw (u : State) (va acc p : Nat) (hu : u.canonical = true) : (wait u va acc p).canonical = true := by
    dsimp only [wait]
    split
    · next hp => simp [State.canonical_of_fst hp (State.pageFault_canonical ..), hu]
    · next hp => exact hb _ _ _ _ ((State.canonical_of_fst hp (State.pageFault_canonical ..)).trans hu)
  clear_value back wait
  split
  · exact hb _ _ _ _ (by simp [hs])
  · split
    · exact hb _ _ _ _ hs
    · split
      · split
        · simp [hs]
        · have hr := State.remoteWrite_canonical (d := d) (tn := tn) (va := c.va) (n := c.block) (bs := c.bytes)
            (f := (c.len - p0) / c.block) (p := p0) hs
          split
          · next h' => rw [h'] at hr; exact hb _ _ _ _ hr
          · next h' => rw [h'] at hr; exact hb _ _ _ _ hr
          · next h' => rw [h'] at hr; exact hw _ _ _ _ hr
      · have hr := s.readPages_canonical d tn (s.afirst tn) (c.va + p0) (c.len - p0) (c.len / 65536 + 3)
        split
        · next h' => rw [h'] at hr; exact hb _ _ _ _ (hr.trans hs)
        · next h' =>
          rw [h'] at hr
          extract_lets n v
          have hv : v.canonical = true := by
            dsimp only [v]
            split
            · exact hr.trans hs
            · exact hb _ _ _ _ (hr.trans hs)
          split
          · exact hw _ _ _ _ hv
          · exact hb _ _ _ _ hv
          · exact hb _ _ _ _ hv
@[simp] theorem State.remoteAgent_canonical {s : State} {m} (hs : s.canonical = true) : (s.remoteAgent m).canonical = true := by
  unfold State.remoteAgent
  split
  · split <;> simp [hs]
  · simp [hs]
@[simp] theorem State.landBlocks_canonical {s : State} {x o b f off bs} (hs : s.canonical = true) :
    (s.landBlocks x o b f off bs).1.canonical = true := by
  induction f generalizing s off bs with
  | zero => exact hs
  | succ f ih =>
    simp only [State.landBlocks]
    split
    · exact hs
    · split
      · exact hs
      · exact ih (State.engineWrite_canonical hs)
@[simp] theorem State.remoteLand_canonical {s : State} {x op off bs} (hs : s.canonical = true) : (s.remoteLand x op off bs).canonical = true := by
  unfold State.remoteLand
  split
  · exact hs
  · next o _ =>
    split
    · exact hs
    · extract_lets b
      have hl := State.landBlocks_canonical (x := x) (o := o) (b := b) (f := bs.length / b) (off := off) (bs := bs) hs
      split
      · next h' => rw [h'] at hl; simpa using hl
      · next h' => rw [h'] at hl; split <;> simpa using hl

end Sys2Proof.Machine
end

section
/-! The canonical form under speculative windows (`Machine/Speculation`). -/
namespace Sys2Proof.Machine

/-- The slot in which a function runs is given back: its memory is what the function leaves. -/
theorem State.within_canonical {s : State} {x q} {f : State → State} (hf : (f { s with cur := (x, q) }).canonical = true) :
    (s.within x q f).canonical = true := hf
@[simp] theorem Tile.drainConflict_sp (t : Tile) (q e ls) : (t.drainConflict q e ls).sp = t.sp := by
  refine Tile.foldl_sp (fun t r => ?_) _ t
  split
  · split
    · split <;> simp
    · rfl
  · rfl
@[simp] theorem State.plainReads_canonical (s : State) (x cid) : (s.plainReads x cid).canonical = s.canonical :=
  State.modTile_canonical_of_sp (s := s) (x := x)
    (f := fun t => { t with ops := t.ops.map fun (o : TOp) => if o.cid = cid then { o with spec := false } else o }) fun _ => rfl
@[simp] theorem State.runHeld_canonical (s : State) (x q) : (s.runHeld x q).canonical = s.canonical := by
  unfold State.runHeld
  split
  · split <;> simp
  · simp
@[simp] theorem State.commit_canonical {s : State} {x q} (hs : s.canonical = true) : (s.commit x q).canonical = true := by
  unfold State.commit
  extract_lets u v
  have hv : v.canonical = true := by
    dsimp only [v]
    split <;> simp [u, hs]
  clear_value v
  split
  · split
    · next th _ sp _ =>
      extract_lets lines stop w y
      have hw : w.canonical = true := by simp [w, hv]
      have hy : y.canonical = true := State.foldl_keeps hw fun z l hz => State.foldl_keeps hz fun z p hz => by
        split
        · exact hz
        · exact State.store_canonical hz
      simp [hy]
    · exact hv
  · exact hv
@[simp] theorem State.unwatch_canonical (s : State) (x cid sp) : (s.unwatch x cid sp).canonical = s.canonical := by
  unfold State.unwatch
  extract_lets tn mine u v tell
  have hu : u.canonical = s.canonical := by simp [u]
  have ht (z : State) (a : Agent) : (tell z a).canonical = z.canonical := by simp [tell]
  refine (State.foldl_canonical (fun z a => ?_) ..).trans hu
  split
  · exact ht ..
  · refine State.foldl_canonical (fun z f => ?_) ..
    split
    · exact ht ..
    · rfl
  · rfl
@[simp] theorem State.deferredPut_canonical {s : State} {o} (hs : s.canonical = true) : (s.deferredPut o).canonical = true := by
  simp only [State.deferredPut]
  split
  · split <;> simp [hs]
  · simp [hs]
@[simp] theorem State.endCommit_canonical {s : State} {x q} (hs : s.canonical = true) : (s.endCommit x q).canonical = true := by
  unfold State.endCommit
  split
  · exact hs
  · split
    · exact hs
    · extract_lets w u1 u2 u3 u4
      split
      · exact hs
      · have h3 : u3.canonical = true := by
          simp only [u3, u2, State.modThr_canonical, State.unwatch_canonical, u1]
          split <;> simp [hs]
        have h4 : u4.canonical = true := State.within_canonical (State.foldl_keeps h3 fun z o hz => State.deferredPut_canonical hz)
        simp [h4]
@[simp] theorem State.abortPut_canonical {s : State} {x o cid} (hs : s.canonical = true) : (s.abortPut x o cid).canonical = true :=
  by simp [State.abortPut, hs]
@[simp] theorem State.rollBack_canonical {s : State} {x q} (hs : s.canonical = true) : (s.rollBack x q).canonical = true := by
  unfold State.rollBack
  split
  · exact hs
  · split
    · exact hs
    · extract_lets w u1 w' u2 u3 released
      split
      · exact hs
      · have h1 : u1.canonical = true := State.foldl_keeps hs fun z o hz => State.abortPut_canonical hz
        have h3 : u3.canonical = true := by
          simp only [u3, u2, State.unwatch_canonical]
          split <;> simp [h1]
        simp [h3]
@[simp] theorem State.releaseOn_canonical {s : State} {x e phase} (hs : s.canonical = true) : (s.releaseOn x e phase).canonical = true := by
  unfold State.releaseOn
  extract_lets now specOn u v
  have hu : u.canonical = true := State.foldl_keeps hs fun z q hz => by
    split
    · exact State.commit_canonical hz
    · exact hz
  have hv : v.canonical = true := by
    refine State.imaged_canonical ?_
    rw [State.modTile_canonical_of_sp, hu]
    intro t
    simp
  simp [hv]
@[simp] theorem State.releaseAt_canonical {s : State} {m} (hs : s.canonical = true) : (s.releaseAt m).canonical = true := by
  simp only [State.releaseAt]
  (repeat' split) <;> simp [hs]
@[simp] theorem State.notifyAt_canonical (s : State) (m) : (s.notifyAt m).canonical = s.canonical := by
  unfold State.notifyAt
  split
  · split <;> simp
  · simp
@[simp] theorem State.pendingTaken_canonical (s : State) (x q) : (s.pendingTaken x q).canonical = s.canonical := by
  unfold State.pendingTaken
  split
  · split
    · exact State.takePending_canonical _
    · rfl
  · rfl
@[simp] theorem State.watchdog_canonical (s : State) (x q) : (s.watchdog x q).canonical = s.canonical := by simp [State.watchdog]
@[simp] theorem State.timerFire_canonical {s : State} {x} (hs : s.canonical = true) : (s.timerFire x).canonical = true := by
  simp only [State.timerFire]
  split
  · simp [hs]
  · split <;> simp [hs]
@[simp] theorem State.sleepExpire_canonical {s : State} {x cid} (hs : s.canonical = true) : (s.sleepExpire x cid).canonical = true := by
  unfold State.sleepExpire
  split
  · split <;> simp [hs]
  · simp [hs]

end Sys2Proof.Machine
end

section
/-! The canonical form under the scheduler (`Machine/Sched`). -/
namespace Sys2Proof.Machine

@[simp] theorem State.abandonSpill_canonical (s : State) (x th va page acc) : (s.abandonSpill x th va page acc).canonical = s.canonical :=
  by simp [State.abandonSpill]
@[simp] theorem Tile.refill_sp (t : Tile) (e q) : (t.refill e q).sp = t.sp := by
  unfold Tile.refill
  extract_lets th w th' src u v y
  have hu : u.sp = t.sp := by
    dsimp only [u]
    split <;> rfl
  have hv : v.sp = u.sp := Tile.foldl_sp (by intro _ _; rfl) ..
  clear_value v u
  exact hv.trans hu
@[simp] theorem State.bindOne_canonical (s : State) (x) : (s.bindOne x).canonical = s.canonical := by
  simp only [State.bindOne]
  (repeat' split) <;> simp
@[simp] theorem State.refillArrived_canonical (s : State) (x cid) : (s.refillArrived x cid).canonical = s.canonical := by simp [State.refillArrived]
@[simp] theorem State.spillStart_canonical (s : State) (x) : (s.spillStart x).canonical = s.canonical := by
  simp only [State.spillStart]
  split
  · simp
  · split
    · simp
    · split <;> simp
@[simp] theorem Tile.spillOut_sp (t : Tile) (q th place cplace) : (t.spillOut q th place cplace).sp = t.sp := by
  unfold Tile.spillOut
  extract_lets w on th' r m u v
  have hu : u.sp = t.sp := Tile.foldl_sp (by intro _ _; rfl) ..
  rw [Tile.ageSpills_sp]
  exact (Tile.release_sp ..).trans hu
@[simp] theorem State.spillDone_canonical {s : State} {x} (hs : s.canonical = true) : (s.spillDone x).canonical = true := by
  simp only [State.spillDone]
  (repeat' split) <;> simp [hs]
@[simp] theorem State.endRollout_canonical (s : State) : s.endRollout.canonical = s.canonical := by simp [State.endRollout]
@[simp] theorem State.rolloutDone_canonical (s : State) : s.rolloutDone.canonical = s.canonical := by simp [State.rolloutDone]
@[simp] theorem State.tilePatch_canonical (s : State) (x) : (s.tilePatch x).canonical = s.canonical := by simp [State.tilePatch]
@[simp] theorem State.energyRefill_canonical (s : State) (d) : (s.energyRefill d).canonical = s.canonical := by simp [State.energyRefill]

end Sys2Proof.Machine
end

section
/-! The canonical form under the split of a home (`Machine/Split`). -/
namespace Sys2Proof.Machine

@[simp] theorem State.splitEnd_canonical (s : State) (h tile tn op moved mid st) : (s.splitEnd h tile tn op moved mid st).canonical = s.canonical :=
  by simp [State.splitEnd]
@[simp] theorem State.tableAt_canonical (s : State) (d tn va n) : (s.tableAt d tn va n).2.canonical = s.canonical := by
  unfold State.tableAt
  split
  · next hr => exact State.canonical_of_snd hr (s.readVa_canonical ..)
  · next hr => exact State.canonical_of_snd hr (s.readVa_canonical ..)
@[simp] theorem State.judgeSplit_canonical (s : State) (h tn r) : (s.judgeSplit h tn r).2.canonical = s.canonical := by
  unfold State.judgeSplit
  extract_lets d
  have hf := s.fetchRoute_canonical d tn (s.afirst tn) r.space
  generalize s.fetchRoute d tn (s.afirst tn) r.space = f at hf ⊢
  obtain ⟨rt, u⟩ := f
  dsimp only at hf ⊢
  split
  · exact hf
  · split
    · exact hf
    · split
      · exact hf
      · split
        · next ht =>
          have ht := (State.canonical_of_snd ht (u.tableAt_canonical ..)).trans hf
          split
          · exact ht
          · split <;> exact ht
        · next ht => exact (State.canonical_of_snd ht (u.tableAt_canonical ..)).trans hf
@[simp] theorem State.askTarget_canonical (s : State) (h sp) : (s.askTarget h sp).canonical = s.canonical := by simp [State.askTarget]
@[simp] theorem State.prepareSplit_canonical (s : State) (h sp) : (s.prepareSplit h sp).canonical = s.canonical := by
  unfold State.prepareSplit
  extract_lets refuse va
  have hr (u : State) (st : Nat) : (refuse u st).canonical = u.canonical := by simp [refuse]
  clear_value refuse
  split
  · next hx => simp [State.canonical_of_snd hx (s.xlate_canonical ..)]
  · next hx => exact (hr ..).trans (State.canonical_of_snd hx (s.xlate_canonical ..))
  · next hx =>
    have hx := State.canonical_of_snd hx (s.xlate_canonical ..)
    split
    · next hp => simp [State.canonical_of_fst hp (State.pageFault_canonical ..), hx]
    · next hp => exact (hr ..).trans ((State.canonical_of_fst hp (State.pageFault_canonical ..)).trans hx)
@[simp] theorem State.splitRequest_canonical (s : State) (m) : (s.splitRequest m).canonical = s.canonical := by
  unfold State.splitRequest
  split
  · split
    · split
      · rfl
      · dsimp only
        split
        · next hj => simp [State.canonical_of_snd hj (State.judgeSplit_canonical ..)]
        · next hj => simp [State.canonical_of_snd hj (State.judgeSplit_canonical ..)]
    · rfl
  · rfl
@[simp] theorem State.abandonSplit_canonical (s : State) (h st) : (s.abandonSplit h st).canonical = s.canonical := by
  unfold State.abandonSplit
  split <;> simp
theorem State.reserveHalf_canonical {s u : State} {h a r mid hi rf n} (hu : s.reserveHalf h a r mid hi rf n = some u) :
    u.canonical = s.canonical := by
  simp only [State.reserveHalf] at hu
  split at hu
  · cases hu
  · obtain ⟨bl, -, rfl⟩ := Option.map_eq_some_iff.1 hu
    simp
@[simp] theorem State.startCopying_canonical (s : State) (h sp) : (s.startCopying h sp).canonical = s.canonical := by simp [State.startCopying]
@[simp] theorem State.splitAnswered_canonical (s : State) (m) : (s.splitAnswered m).canonical = s.canonical := by
  unfold State.splitAnswered
  split
  · split
    · split
      · rfl
      · dsimp only
        split
        · split
          · next hu => simp [State.reserveHalf_canonical hu]
          · simp
        · split
          · split
            · simp
            · split <;> simp
          · split <;> simp
        · split
          · split <;> simp
          · simp
        · simp
        · rfl
    · rfl
  · rfl
theorem State.takeCopy_canonical {s u : State} {h i src b} (hu : s.takeCopy h i src b = some u) : u.canonical = s.canonical := by
  simp only [State.takeCopy] at hu
  split at hu
  · split at hu
    · cases hu
    · obtain ⟨bl, -, rfl⟩ := Option.map_eq_some_iff.1 hu
      simp
  · split at hu
    · cases hu
    · obtain ⟨bl, -, rfl⟩ := Option.map_eq_some_iff.1 hu
      simp
  · split at hu
    · cases hu
    · obtain ⟨bl, -, rfl⟩ := Option.map_eq_some_iff.1 hu
      simp
  · cases hu
@[simp] theorem State.splitCopy_canonical (s : State) (m) : (s.splitCopy m).canonical = s.canonical := by
  unfold State.splitCopy
  split
  · split
    · split
      · rfl
      · dsimp only
        split
        · split
          · next hu => simp [State.takeCopy_canonical hu]
          · simp
        · simp
    · rfl
  · rfl
@[simp] theorem State.splitInvalid_canonical (s : State) (m) : (s.splitInvalid m).canonical = s.canonical := by
  unfold State.splitInvalid
  split
  · split <;> simp
  · simp
@[simp] theorem State.cutOver_canonical {s : State} {h} (hs : s.canonical = true) : (s.cutOver h).canonical = true := by
  unfold State.cutOver
  split
  · simp [hs]
  · split <;> simp [hs]
@[simp] theorem State.installCell_canonical (s : State) (h tn c old blks) : (s.installCell h tn c old blks).1.canonical = s.canonical := by
  simp only [State.installCell]
  split <;> simp
@[simp] theorem State.installWatch_canonical (s : State) (h tn w left blks) : (s.installWatch h tn w left blks).1.canonical = s.canonical :=
  by simp [State.installWatch]
@[simp] theorem State.installMoved_canonical (s : State) (h a) : (s.installMoved h a).canonical = s.canonical := by
  unfold State.installMoved
  split <;> simp
@[simp] theorem State.splitMarked_canonical (s : State) (m) : (s.splitMarked m).canonical = s.canonical := by
  unfold State.splitMarked
  split
  · split
    · split
      · rfl
      · extract_lets u old
        split
        · next i _ =>
          extract_lets maps v
          have hv : v.canonical = s.canonical := by simp [v, u]
          split
          next w maps' kept hw =>
          have hw : w.canonical = s.canonical := by
            refine (State.canonical_of_fst hw (State.foldl_fst_canonical (fun r c => ?_) ..)).trans hv
            obtain ⟨z, l, kept⟩ := r
            simp
          simp [hw]
        · simp [u]
    · split <;> simp
    · split <;> simp
    · rfl
  · rfl
@[simp] theorem State.splitFullAt_canonical (s : State) (m) : (s.splitFullAt m).canonical = s.canonical := by
  unfold State.splitFullAt
  split
  · split <;> simp
  · simp

end Sys2Proof.Machine
end

section
/-! The canonical form under launches (`Machine/Launch`). -/
namespace Sys2Proof.Machine

@[simp] theorem State.modLaunch_canonical (s : State) (d f) : (s.modLaunch d f).canonical = s.canonical := rfl
@[simp] theorem State.waiterFailed_canonical (s : State) (d tn) : (s.waiterFailed d tn).canonical = s.canonical := rfl
@[simp] theorem State.enterWaiter_canonical (s : State) (d tn) : (s.enterWaiter d tn).canonical = s.canonical := by
  unfold State.enterWaiter
  extract_lets g
  split
  · next hr => simp [State.canonical_of_snd hr (s.routeKey_canonical ..)]
  · next hr => simp [State.canonical_of_snd hr (s.routeKey_canonical ..)]
@[simp] theorem State.retryWaiter_canonical (s : State) (d tn) : (s.retryWaiter d tn).canonical = s.canonical := by simp [State.retryWaiter]
@[simp] theorem State.refuseLaunch_canonical (s : State) (d tn key bs st) : (s.refuseLaunch d tn key bs st).canonical = s.canonical := by
  simp only [State.refuseLaunch]
  split <;> simp
@[simp] theorem State.nextLaunch_canonical (s : State) (d f) : (s.nextLaunch d f).canonical = s.canonical := by
  induction f generalizing s with
  | zero => rfl
  | succ f ih =>
    simp only [State.nextLaunch]
    split
    · simp [ih]
    · rfl
@[simp] theorem State.startLaunches_canonical (s : State) (d) : (s.startLaunches d).canonical = s.canonical := by simp [State.startLaunches]
@[simp] theorem State.launchTake_canonical (s : State) (m) : (s.launchTake m).canonical = s.canonical := by
  unfold State.launchTake
  (repeat' split) <;> simp
@[simp] theorem State.sendCopies_canonical (s : State) (d c) : (s.sendCopies d c).canonical = s.canonical := by simp [State.sendCopies]
@[simp] theorem State.launchAdmit_canonical (s : State) (d) : (s.launchAdmit d).canonical = s.canonical := by
  unfold State.launchAdmit
  split
  · simp
  · split
    · simp
    · split
      · rfl
      · extract_lets lo hi key
        split
        · split
          · next hr => simp [State.canonical_of_snd hr (s.routeKey_canonical ..)]
          · next hr => simp [State.canonical_of_snd hr (s.routeKey_canonical ..)]
        · simp
@[simp] theorem State.launchReply_canonical (s : State) (d tn op st) : (s.launchReply d tn op st).canonical = s.canonical := by
  simp only [State.launchReply]
  split <;> simp

end Sys2Proof.Machine
end

section
/-! The canonical form under the host ports (`Machine/HostPort`). -/
namespace Sys2Proof.Machine

@[simp] theorem State.putEnds_canonical (s : State) (p n slot st) : (s.putEnds p n slot st).canonical = s.canonical := by simp [State.putEnds]
@[simp] theorem State.takeEnds_canonical (s : State) (p n o st d) : (s.takeEnds p n o st d).canonical = s.canonical := by simp [State.takeEnds]
@[simp] theorem State.hostSend_canonical (s : State) (p n o dst) : (s.hostSend p n o dst).canonical = s.canonical := by simp [State.hostSend]
@[simp] theorem State.hostFail_canonical (s : State) (p n o st) : (s.hostFail p n o st).canonical = s.canonical := by simp [State.hostFail]
@[simp] theorem State.hostFlush_canonical (s : State) (p n) : (s.hostFlush p n).canonical = s.canonical := by
  unfold State.hostFlush
  split
  · rfl
  · refine State.foldl_fst_canonical (fun r o => ?_) ..
    obtain ⟨u, held, stop⟩ := r
    dsimp only
    split
    · rfl
    · split <;> simp
@[simp] theorem State.portFlush_canonical (s : State) (d) : (s.portFlush d).canonical = s.canonical := by simp [State.portFlush]
@[simp] theorem State.slotWrite_canonical (s : State) (p n i word put) : (s.slotWrite p n i word put).canonical = s.canonical := rfl
@[simp] theorem State.hostGoWrite_canonical (s : State) (p n slot word put) : (s.hostGoWrite p n slot word put).canonical = s.canonical :=
  by simp [State.hostGoWrite]
@[simp] theorem State.hostPulled_canonical (s : State) (p n slot bs) : (s.hostPulled p n slot bs).canonical = s.canonical := by
  unfold State.hostPulled
  split <;> simp
@[simp] theorem State.hostFetch_canonical (s : State) (p n space) : (s.hostFetch p n space).canonical = s.canonical := by simp [State.hostFetch]
@[simp] theorem State.hostAfter_canonical (s : State) (p n o fwd) : (s.hostAfter p n o fwd).canonical = s.canonical := by simp [State.hostAfter]
@[simp] theorem State.hostPutReply_canonical (s : State) (m) : (s.hostPutReply m).canonical = s.canonical := by
  simp only [State.hostPutReply]
  (repeat' split) <;> simp
@[simp] theorem State.hostTakeComplete_canonical (s : State) (m) : (s.hostTakeComplete m).canonical = s.canonical := by
  simp only [State.hostTakeComplete]
  (repeat' split) <;> simp
@[simp] theorem State.hostLinkUp_canonical (s : State) (p width rate) : (s.hostLinkUp p width rate).canonical = s.canonical :=
  by simp [State.hostLinkUp]
@[simp] theorem State.atsInvalidate_canonical (s : State) (p n addr) : (s.atsInvalidate p n addr).canonical = s.canonical := rfl

end Sys2Proof.Machine
end

section
/-! The canonical form under replies and refused routes (`Machine/Reply`). -/
namespace Sys2Proof.Machine

@[simp] theorem State.sendRemote_canonical (s : State) (x o) : (s.sendRemote x o).canonical = s.canonical := by
  unfold State.sendRemote
  split <;> simp
@[simp] theorem State.remoteReport_canonical (s : State) (x o st fault) : (s.remoteReport x o st fault).canonical = s.canonical :=
  by simp [State.remoteReport]
@[simp] theorem State.remoteReplied_canonical (s : State) (x o st val) : (s.remoteReplied x o st val).canonical = s.canonical :=
  by simp [State.remoteReplied]
@[simp] theorem State.specReply_canonical {s : State} {x o full} (hs : s.canonical = true) : (s.specReply x o full).canonical = true :=
  by simp [State.specReply, hs]
@[simp] theorem State.barReply_canonical {s : State} {x op st val} (hs : s.canonical = true) : (s.barReply x op st val).canonical = true := by
  unfold State.barReply
  extract_lets t
  split
  · exact hs
  · extract_lets who u v
    have hu : u.canonical = true := by
      refine State.imaged_canonical ?_
      rw [State.modTile_canonical_of_sp, hs]
      intro t
      split
      · exact (Tile.foldl_sp (fun _ _ => Tile.register_sp ..) ..).trans rfl
      · rfl
    have hv : v.canonical = true := State.foldl_keeps hu fun z p hz => by
      split <;> simp [hz]
    simp [hv]
@[simp] theorem State.contReply_canonical {s : State} {x o val} (hs : s.canonical = true) : (s.contReply x o val).canonical = true :=
  by simp [State.contReply, hs]
@[simp] theorem State.opReply_canonical {s : State} {x o st val count} (hs : s.canonical = true) : (s.opReply x o st val count).canonical = true := by
  unfold State.opReply
  split <;> simp [hs]
@[simp] theorem State.afterReply_canonical (s : State) (x o fwd) : (s.afterReply x o fwd).canonical = s.canonical := by
  unfold State.afterReply
  split <;> simp
@[simp] theorem State.splitReport_canonical {s : State} {x o moved mid st} (hs : s.canonical = true) :
    (s.splitReport x o moved mid st).canonical = true := by simp [State.splitReport, hs]
@[simp] theorem State.remoteFail_canonical (s : State) (h a op c st p) : (s.remoteFail h a op c st p).canonical = s.canonical :=
  by simp [State.remoteFail]
@[simp] theorem State.endFault_canonical (s : State) (who n2 why st) : (s.endFault who n2 why st).canonical = s.canonical := by
  unfold State.endFault
  (repeat' split) <;> simp
@[simp] theorem State.resumeFault_canonical {s : State} {who why} (hs : s.canonical = true) : (s.resumeFault who why).canonical = true := by
  unfold State.resumeFault
  (repeat' split) <;> simp [hs]
@[simp] theorem State.auxReply_canonical (s : State) (who a op st x) : (s.auxReply who a op st x).canonical = s.canonical := by
  unfold State.auxReply
  split
  · simp
  · dsimp only
    split
    · split
      · next hr => exact (State.canonical_of_fst hr (State.takeResolution_canonical ..)).trans (by simp)
      · next hr => simp [State.canonical_of_fst hr (State.takeResolution_canonical ..)]
    · simp
  · simp
  · simp
@[simp] theorem State.tupleReply_canonical {s : State} {m} (hs : s.canonical = true) : (s.tupleReply m).canonical = true := by
  simp only [State.tupleReply]
  (repeat' split) <;> simp [hs]
@[simp] theorem State.faultResolved_canonical {s : State} {m} (hs : s.canonical = true) : (s.faultResolved m).canonical = true := by
  unfold State.faultResolved
  (repeat' split) <;> simp [hs]
@[simp] theorem State.routeFetched_canonical (s : State) (who tenant space) : (s.routeFetched who tenant space).canonical = s.canonical := by
  unfold State.routeFetched
  split <;> simp
@[simp] theorem State.routeInvalid_canonical (s : State) (m) : (s.routeInvalid m).canonical = s.canonical := by
  unfold State.routeInvalid
  (repeat' split) <;> simp

end Sys2Proof.Machine
end

section
/-! The canonical form under the links between packages (`Machine/Spire`). -/
namespace Sys2Proof.Machine

@[simp] theorem State.modPeer_canonical (s : State) (c f) : (s.modPeer c f).canonical = s.canonical := rfl
@[simp] theorem State.sendAck_canonical (s : State) (c) : (s.sendAck c).canonical = s.canonical := by simp [State.sendAck]
@[simp] theorem State.ackTimer_canonical (s : State) (c) : (s.ackTimer c).canonical = s.canonical := by simp [State.ackTimer]
@[simp] theorem State.takeAck_canonical (s : State) (c k) : (s.takeAck c k).canonical = s.canonical := by simp [State.takeAck]
@[simp] theorem State.handOn_canonical (s : State) (c l) : (s.handOn c l).canonical = s.canonical := by
  simp only [State.handOn]
  split
  · simp
  · split <;> simp
@[simp] theorem State.handOnAll_canonical (s : State) (c f) : (s.handOnAll c f).canonical = s.canonical := by
  induction f generalizing s with
  | zero => rfl
  | succ f ih => simp [State.handOnAll, ih]
@[simp] theorem State.placePacket_canonical {s : State} {c at_ k} (hs : s.canonical = true) : (s.placePacket c at_ k).canonical = true := by
  unfold State.placePacket
  extract_lets p p' p'' u v w
  have hv : v.canonical = true := by
    dsimp only [v]
    split
    · split <;> simp [u, hs]
    · simp [u, hs]
  have hw : w.canonical = true := (State.handOnAll_canonical ..).trans hv
  split
  · exact hs
  · split <;> simp [hw]
@[simp] theorem State.processPacket_canonical {s : State} {c at_ k} (hs : s.canonical = true) : (s.processPacket c at_ k).canonical = true :=
  by simp [State.processPacket, hs]
@[simp] theorem State.spireRx_canonical {s : State} {port k} (hs : s.canonical = true) : (s.spireRx port k).canonical = true :=
  by simp [State.spireRx, hs]
@[simp] theorem State.evict_canonical (s : State) : (s.evict).1.canonical = s.canonical := by
  simp only [State.evict]
  split
  · simp
  · split <;> simp
@[simp] theorem State.contextFetched_canonical {s : State} {c} (hs : s.canonical = true) : (s.contextFetched c).canonical = true := by
  unfold State.contextFetched
  split
  · exact hs
  · split
    · next he => simp [State.canonical_of_fst he (State.evict_canonical ..), hs]
    · next u he =>
      extract_lets w z v
      have hv : v.canonical = true := by
        have hz : z.canonical = true := by simp [z, State.canonical_of_fst he (State.evict_canonical ..), hs]
        exact hz
      rw [State.spireFlush_canonical]
      exact State.foldl_keeps (by simp [hv]) fun z e hz => State.processPacket_canonical hz
@[simp] theorem State.cancelRemote_canonical {s : State} {x o} (hs : s.canonical = true) : (s.cancelRemote x o).canonical = true := by
  unfold State.cancelRemote
  split <;> simp [hs]
@[simp] theorem State.failSplits_canonical (s : State) (c) : (s.failSplits c).canonical = s.canonical := by
  unfold State.failSplits
  extract_lets onContext
  refine State.foldl_canonical (fun u e => ?_) ..
  dsimp only
  split
  · simp
  · split <;> simp
@[simp] theorem State.failContext_canonical {s : State} {c} (hs : s.canonical = true) : (s.failContext c).canonical = true := by
  unfold State.failContext
  extract_lets p tn stays out victims ended u u' v w y
  have hv : v.canonical = true := by simp [v, u', u, hs]
  have hw : w.canonical = true := State.foldl_keeps hv fun z e hz => State.cancelRemote_canonical hz
  simp [y, hw]
@[simp] theorem State.retxTimeout_canonical {s : State} {c psn} (hs : s.canonical = true) : (s.retxTimeout c psn).canonical = true := by
  simp only [State.retxTimeout]
  split <;> simp [hs]
@[simp] theorem State.spireLinkUp_canonical (s : State) (port) : (s.spireLinkUp port).canonical = s.canonical := by simp [State.spireLinkUp]
@[simp] theorem State.linkFlush_canonical (s : State) (d) : (s.linkFlush d).canonical = s.canonical := by simp [State.linkFlush]
@[simp] theorem State.energyArrives_canonical (s : State) (d) : (s.energyArrives d).canonical = s.canonical := by simp [State.energyArrives]

end Sys2Proof.Machine
end

section
/-! The canonical form under energy and telemetry (`Machine/Telemetry`). -/
namespace Sys2Proof.Machine

@[simp] theorem State.dumpWords_canonical {s : State} {off l} (hs : s.canonical = true) : (s.dumpWords off l).canonical = true :=
  by simp [State.dumpWords, hs]
@[simp] theorem State.dumpControl_canonical {s : State} {x t} (hs : s.canonical = true) : (s.dumpControl x t).canonical = true := by
  unfold State.dumpControl
  extract_lets at_ on u1 u2 u3 u4 u5 u6
  have h1 : u1.canonical = true := State.foldl_keeps hs fun z q hz => by
    split <;> simp [hz]
  have h2 : u2.canonical = true := State.foldl_keeps h1 fun z pr hz => State.foldl_keeps hz fun z r hz => State.dumpWords_canonical hz
  have h3 : u3.canonical = true := State.foldl_keeps h2 fun z e hz => State.dumpWords_canonical hz
  exact State.dumpWords_canonical (State.dumpWords_canonical (State.dumpWords_canonical (State.dumpWords_canonical h3)))
/-- A byte written to DRAM. -/
theorem State.writeByte_canonical {s : State} {a : Nat} {b : Byte} (hs : s.canonical = true) :
    ({ s with dram := s.dram.write a b } : State).canonical = true :=
  State.canonical_setDram hs rfl (Memory.write_wf a b (State.dram_wf hs))
@[simp] theorem State.dumpData_canonical {s : State} {x t} (hs : s.canonical = true) : (s.dumpData x t).canonical = true := by
  unfold State.dumpData
  extract_lets u1 u2 u3
  have h1 : u1.canonical = true := State.foldl_keeps hs fun z c hz => State.writeByte_canonical hz
  have h2 : u2.canonical = true := State.foldl_keeps h1 fun z w hz => State.dumpWords_canonical hz
  have h3 : u3.canonical = true := State.foldl_keeps h2 fun z w hz => State.writeByte_canonical hz
  exact State.foldl_keeps h3 fun z w hz => State.writeDram_canonical hz
@[simp] theorem State.dumpHome_canonical {s : State} {h v} (hs : s.canonical = true) : (s.dumpHome h v).canonical = true :=
  State.foldl_keeps (State.foldl_keeps hs fun _ _ hz => State.dumpWords_canonical hz) fun _ _ hz => State.dumpWords_canonical hz
@[simp] theorem State.dumpCounters_canonical {s : State} (hs : s.canonical = true) : s.dumpCounters.canonical = true :=
  by simp [State.dumpCounters, hs]
@[simp] theorem State.writeDump_canonical {s : State} {cause} (hs : s.canonical = true) : (s.writeDump cause).canonical = true := by
  unfold State.writeDump
  extract_lets u1 u2 u3 u4
  have h1 : u1.canonical = true := State.canonical_setDram hs rfl (Memory.clear_wf _ _ (State.dram_wf hs))
  have h2 : u2.canonical = true := State.foldl_keeps h1 fun z e hz => State.dumpData_canonical (State.dumpControl_canonical hz)
  have h3 : u3.canonical = true := State.dumpCounters_canonical (State.foldl_keeps h2 fun z e hz => State.dumpHome_canonical hz)
  exact State.dumpWords_canonical (State.dumpWords_canonical h3)

end Sys2Proof.Machine
end

section
/-! The canonical form under resets and the fatal dump (`Machine/Reset`). -/
namespace Sys2Proof.Machine

@[simp] theorem State.cancelAt_canonical (s : State) (a tn) : (s.cancelAt a tn).canonical = s.canonical := by simp [State.cancelAt]
@[simp] theorem State.cancelFar_canonical (s : State) (a tn) : (s.cancelFar a tn).canonical = s.canonical := by simp [State.cancelFar]
@[simp] theorem State.discardFor_canonical (s : State) (m) : (s.discardFor m).canonical = s.canonical := by
  unfold State.discardFor
  split <;> simp
/-- A reset empties the tile's scratchpad. -/
@[simp] theorem State.resetTile_canonical {s : State} {x tn} (hs : s.canonical = true) : (s.resetTile x tn).canonical = true := by
  unfold State.resetTile
  extract_lets t a old lost u1 u2 u3 u4 u5 asid tvec
  have h5 : u5.canonical = true := by
    simp [u5, u4, u3, u2, u1, hs]
  rw [State.releaseFar_canonical]
  exact State.setTile_canonical h5 rfl
@[simp] theorem State.resetSlot_canonical (s : State) (x q) : (s.resetSlot x q).canonical = s.canonical := by
  unfold State.resetSlot
  split
  · simp
  · split <;> simp
@[simp] theorem Tile.resetRegion_sp (t : Tile) (r) : (t.resetRegion r).sp = t.sp := by simp [Tile.resetRegion]
@[simp] theorem State.resetCopies_canonical (s : State) (x) : (s.resetCopies x).canonical = s.canonical := by simp [State.resetCopies]
@[simp] theorem State.command_canonical {s : State} {p op idx tn tile} (hs : s.canonical = true) : (s.command p op idx tn tile).canonical = true := by
  unfold State.command
  extract_lets answer again
  have ha (u : State) (busy st : Nat) (hu : u.canonical = true) : (answer u busy st).canonical = true := by simp [answer, hu]
  clear_value answer
  split
  · exact hs
  · split
    · exact ha _ _ _ hs
    · extract_lets mine
      split
      · exact ha _ _ _ hs
      · split
        · exact ha _ _ _ hs
        · split
          · exact ha _ _ _ (State.resetTile_canonical hs)
          · exact ha _ _ _ (State.resetTile_canonical hs)
          · exact ha _ _ _ (by simp [hs])
          · split
            · exact ha _ _ _ (by simp [hs])
            · exact ha _ _ _ (by simp [hs])
          · exact ha _ _ _ (by simp [hs])
          · exact ha _ _ _ (by simp [hs])
@[simp] theorem State.unsupported_canonical (s : State) (p) : (s.unsupported p).canonical = s.canonical := rfl
@[simp] theorem State.tenantWrite_canonical (s : State) (p tn off val) : (s.tenantWrite p tn off val).canonical = s.canonical :=
  by simp [State.tenantWrite]
@[simp] theorem State.peerWrite_canonical {s : State} {p c word val} (hs : s.canonical = true) : (s.peerWrite p c word val).canonical = true :=
  by simp [State.peerWrite, hs]
@[simp] theorem State.cfgWrite_canonical (s : State) (off val) : (s.cfgWrite off val).canonical = s.canonical := by
  unfold State.cfgWrite
  (repeat' split) <;> simp
@[simp] theorem State.cfgBytes_canonical (s : State) (off bs) : (s.cfgBytes off bs).canonical = s.canonical := by simp [State.cfgBytes]
@[simp] theorem State.resetFn_canonical (s : State) (p n) : (s.resetFn p n).canonical = s.canonical := by simp [State.resetFn]
@[simp] theorem State.resetHostPort_canonical (s : State) (p) : (s.resetHostPort p).canonical = s.canonical := by
  unfold State.resetHostPort
  extract_lets u w idx v waits
  have hv : v.canonical = s.canonical := by simp [v, u]
  clear_value v waits
  split
  · split
    · exact (State.modTile_setWin_canonical ..).trans hv
    · exact hv
  · exact hv
@[simp] theorem State.resetSpirePort_canonical {s : State} {q} (hs : s.canonical = true) : (s.resetSpirePort q).canonical = true := by
  unfold State.resetSpirePort
  extract_lets mine port u v c port'
  have hu : u.canonical = true := by simp [u, hs]
  have hv : v.canonical = true := State.foldl_keeps hu fun z c hz => State.failContext_canonical hz
  simp [hv]
@[simp] theorem State.cancelRequest_canonical (s : State) (h m) : (s.cancelRequest h m).canonical = s.canonical := by
  unfold State.cancelRequest
  split <;> simp
@[simp] theorem State.cancelSentOn_canonical (s : State) (h) : (s.cancelSentOn h).canonical = s.canonical := by simp [State.cancelSentOn]
@[simp] theorem State.resetHome_canonical (s : State) (h keep) : (s.resetHome h keep).canonical = s.canonical := by
  unfold State.resetHome
  extract_lets v served u1 u2 u3 u4 out u5 gone u6 u7
  have h1 : u1.canonical = s.canonical := by
    dsimp only [u1]
    split <;> simp
  have h2 : u2.canonical = s.canonical := by
    dsimp only [u2]
    split
    · split <;> simp [h1]
    · exact h1
  have h3 : u3.canonical = s.canonical := by simp [u3, h2]
  have h4 : u4.canonical = s.canonical := by
    refine (State.foldl_canonical (fun z e => ?_) ..).trans h3
    split <;> simp
  have h5 : u5.canonical = s.canonical := by simp [u5, h4]
  have h6 : u6.canonical = s.canonical :=
    (congrArg (u5.dram.wf && ·) (Map.all_map_tiles (by intro _; rfl))).trans h5
  simp [u7, h6]
@[simp] theorem State.resetLaunch_canonical (s : State) (d) : (s.resetLaunch d).canonical = s.canonical := by simp [State.resetLaunch]
@[simp] theorem State.resetDie_canonical {s : State} {d} (hs : s.canonical = true) : (s.resetDie d).canonical = true := by
  unfold State.resetDie
  extract_lets mine tiles u v w y
  have hu : u.canonical = true := by
    simp only [u, State.resetLaunch_canonical]
    exact State.foldl_keeps hs fun z x hz => State.resetTile_canonical hz
  have hv : v.canonical = true := State.foldl_keeps hu fun z m hz => by
    split
    · split <;> simp [hz]
    · exact hz
  have hw : w.canonical = true := by simp [w, hv]
  have hy : y.canonical = true := State.resetSpirePort_canonical (State.resetSpirePort_canonical hw)
  simp [hy]
/-- The dump area of DRAM stays, all other memory is empty. -/
@[simp] theorem State.packageReset_canonical {s : State} {dead} (hs : s.canonical = true) : (s.packageReset dead).canonical = true := by
  unfold State.packageReset
  extract_lets b fresh s'
  have h' : s'.canonical = true := Bool.and_eq_true_iff.2 ⟨Memory.filter_wfFrom _ (State.dram_wf hs), rfl⟩
  simp [h']
@[simp] theorem State.learnMove_canonical (s : State) (h tn target old new) : (s.learnMove h tn target old new).canonical = s.canonical := rfl
@[simp] theorem State.moveEntry_canonical (s : State) (h e) : (s.moveEntry h e).canonical = s.canonical := by
  unfold State.moveEntry
  split
  · next hr => simp [State.canonical_of_snd hr (s.routeKey_canonical ..)]
  · next hr =>
    have hr := State.canonical_of_snd hr (s.routeKey_canonical ..)
    split
    · exact hr
    · simp [hr]
  · next hr => simp [State.canonical_of_snd hr (s.routeKey_canonical ..)]
@[simp] theorem State.moveWatch_canonical (s : State) (h w) : (s.moveWatch h w).canonical = s.canonical := by
  unfold State.moveWatch
  split
  · next hr => simp [State.canonical_of_snd hr (s.routeKey_canonical ..)]
  · next hr =>
    have hr := State.canonical_of_snd hr (s.routeKey_canonical ..)
    split
    · exact hr
    · simp [hr]
  · next hr => simp [State.canonical_of_snd hr (s.routeKey_canonical ..)]
@[simp] theorem State.fullRate_canonical (s : State) (failed) : (s.fullRate failed).canonical = s.canonical := by simp [State.fullRate]
@[simp] theorem State.setFatal_canonical (s : State) (v c d) :
    ({ s with service := v, fatalCause := c, dump := d } : State).canonical = s.canonical := rfl
@[simp] theorem State.fatalEntry_canonical {s : State} {cause} (hs : s.canonical = true) : (s.fatalEntry cause).canonical = true := by
  unfold State.fatalEntry
  exact (State.setFatal_canonical ..).trans (State.writeDump_canonical hs)

end Sys2Proof.Machine
end

section
/-! The canonical form under package management (`Machine/Belfry`). -/
namespace Sys2Proof.Machine

@[simp] theorem State.answer_canonical (s : State) (proto cmd data) : (s.answer proto cmd data).canonical = s.canonical := rfl
@[simp] theorem State.answerFree_canonical (s : State) (proto cmd) : (s.answerFree proto cmd).canonical = s.canonical := rfl
@[simp] theorem State.mctpControl_canonical (s : State) (cmd arg) : (s.mctpControl cmd arg).canonical = s.canonical := by simp [State.mctpControl]
@[simp] theorem State.pldmBase_canonical (s : State) (cmd) : (s.pldmBase cmd).canonical = s.canonical := by simp [State.pldmBase]
@[simp] theorem State.pldmPlatform_canonical (s : State) (cmd arg) : (s.pldmPlatform cmd arg).canonical = s.canonical := by
  simp only [State.pldmPlatform]
  (repeat' split) <;> simp
@[simp] theorem State.getConfig_canonical (s : State) (off len) : (s.getConfig off len).canonical = s.canonical := rfl
@[simp] theorem State.setConfig_canonical (s : State) (off bs) : (s.setConfig off bs).canonical = s.canonical := by simp [State.setConfig]
@[simp] theorem State.sample_canonical (s : State) (r) : (s.sample r).canonical = s.canonical := rfl
@[simp] theorem State.negotiate_canonical (s : State) (asym hash) : (s.negotiate asym hash).canonical = s.canonical := rfl
@[simp] theorem State.agreed_canonical (s : State) (cmd data) : (s.agreed cmd data).canonical = s.canonical := by simp [State.agreed]
@[simp] theorem State.digests_canonical (s : State) : s.digests.canonical = s.canonical := by simp [State.digests]
@[simp] theorem State.certificate_canonical (s : State) (slot off len) : (s.certificate slot off len).canonical = s.canonical :=
  by simp [State.certificate]
@[simp] theorem State.challenge_canonical (s : State) (slot nonce) : (s.challenge slot nonce).canonical = s.canonical := by simp [State.challenge]
@[simp] theorem State.measurements_canonical (s : State) (i nonce) : (s.measurements i nonce).canonical = s.canonical := by simp [State.measurements]
@[simp] theorem State.transfer_canonical (s : State) (secver code patch tables) : (s.transfer secver code patch tables).canonical = s.canonical :=
  by simp [State.transfer]
@[simp] theorem State.activate_canonical (s : State) (raise) : (s.activate raise).canonical = s.canonical := by simp [State.activate]
@[simp] theorem State.selfTestFail_canonical (s : State) : s.selfTestFail.canonical = s.canonical := by simp [State.selfTestFail]
@[simp] theorem State.rolloutLimit_canonical (s : State) : s.rolloutLimit.canonical = s.canonical := by simp [State.rolloutLimit]
@[simp] theorem State.tableSwap_canonical (s : State) (d) : (s.tableSwap d).canonical = s.canonical := by simp [State.tableSwap]
@[simp] theorem State.planner_canonical (s : State) : s.planner.canonical = s.canonical := by
  unfold State.planner
  split <;> simp
@[simp] theorem State.powerDown_canonical {s : State} {p} (hs : s.canonical = true) : (s.powerDown p).canonical = true :=
  State.canonical_setDram (State.packageReset_canonical hs) rfl rfl
@[simp] theorem State.enAssert_canonical {s : State} (hs : s.canonical = true) : s.enAssert.canonical = true := by simp [State.enAssert, hs]
@[simp] theorem State.enDeassert_canonical {s : State} (hs : s.canonical = true) : s.enDeassert.canonical = true := by simp [State.enDeassert, hs]
@[simp] theorem State.inputFault_canonical {s : State} (hs : s.canonical = true) : s.inputFault.canonical = true := by simp [State.inputFault, hs]
@[simp] theorem State.inputInRange_canonical (s : State) : s.inputInRange.canonical = s.canonical := rfl
@[simp] theorem State.thermTrip_canonical {s : State} (hs : s.canonical = true) : s.thermTrip.canonical = true := by simp [State.thermTrip, hs]
@[simp] theorem State.sampled_canonical {s : State} {r} (hs : s.canonical = true) : (s.sampled r).canonical = true := by simp [State.sampled, hs]
@[simp] theorem State.mgmtReset_canonical (s : State) : s.mgmtReset.canonical = s.canonical := rfl

end Sys2Proof.Machine
end

section
/-! The canonical form under register writes (`Machine/Register`). -/
namespace Sys2Proof.Machine

@[simp] theorem State.msixWrite_canonical (s : State) (p fn i n val) : (s.msixWrite p fn i n val).canonical = s.canonical := by simp [State.msixWrite]
@[simp] theorem State.registerWrite_canonical {s : State} {p fn bar off val} (hs : s.canonical = true) :
    (s.registerWrite p fn bar off val).canonical = true := by simp [State.registerWrite, hs]

end Sys2Proof.Machine
end

section
/-! The canonical form under the halves of a bundle and its issue (`Machine/Bundle`). -/
namespace Sys2Proof.Machine

/-- The effect of a half at issue keeps the canonical form. -/
def Half.Keeps (h : Half) : Prop := ∀ pre s : State, s.canonical = true → (h.eff pre s).canonical = true
/-- A half without an effect. -/
theorem Half.none_keeps : Half.none.Keeps := fun _ _ hs => hs
/-- A half that changes only its own thread. -/
theorem Half.keeps_of_modCur {h : Half} {f : State → Thread → Thread} (hf : h.eff = fun pre s => s.modCur (f pre)) : h.Keeps :=
  fun _ _ hs => by simp [hf, hs]
theorem loadHalf_keeps {rd srcs addr n ext warn} : (loadHalf rd srcs addr n ext warn).Keeps := fun _ _ hs => by simp [loadHalf, hs]
theorem storeHalf_keeps {rd srcs addr n} : (storeHalf rd srcs addr n).Keeps := fun _ _ hs => by simp [storeHalf, hs]
theorem feHalf_keeps {srcs dsts ra imm await spec} {ev : State → Nat → State → State}
    (hev : ∀ pre a s, s.canonical = true → (ev pre a s).canonical = true) : (feHalf srcs dsts ra imm await spec ev).Keeps :=
  fun _ _ hs => by simp [feHalf, hev _ _ _ hs]
theorem halfLdf_keeps {rd ra imm} : (halfLdf rd ra imm).Keeps := fun _ _ hs => by simp [halfLdf, feHalf, hs]
theorem halfLde_keeps {rd ra imm} : (halfLde rd ra imm).Keeps := feHalf_keeps fun _ _ _ hs => by simp [hs]
theorem halfStf_keeps {rd ra imm} : (halfStf rd ra imm).Keeps := feHalf_keeps fun _ _ _ hs => by simp [hs]
theorem halfSte_keeps {rd ra imm} : (halfSte rd ra imm).Keeps := feHalf_keeps fun _ _ _ hs => by simp [hs]
theorem halfWaitf_keeps {ra imm} : (halfWaitf ra imm).Keeps := fun _ _ hs => by simp [halfWaitf, feHalf, hs]
theorem amoHalf_keeps {n noret cas rd ra rb f} : (amoHalf n noret cas rd ra rb f).Keeps := fun pre s hs => by
  unfold amoHalf
  dsimp only
  split <;> simp [hs]
theorem dirHalf_keeps {rd ra srcs f} : (dirHalf rd ra srcs f).Keeps := fun _ _ hs => by simp [dirHalf, hs]
theorem blockHalf_keeps {rd ra rb src dst alignS alignD f} : (blockHalf rd ra rb src dst alignS alignD f).Keeps :=
  fun _ _ hs => by simp [blockHalf, hs]
theorem descHalf_keeps {k rd ra rb} : (descHalf k rd ra rb).Keeps := fun _ _ hs => by simp [descHalf, hs]
theorem plainHalf_keeps {k rd ra rb checks} : (plainHalf k rd ra rb checks fun _ s => s).Keeps := fun _ _ hs => by simp [plainHalf, hs]
theorem arriveHalf_keeps {opens ra} : (arriveHalf opens ra).Keeps := fun _ _ hs => by
  unfold arriveHalf
  dsimp only
  split <;> simp [hs]
theorem mxPlain_keeps {k rd ra act} : (mxPlain k rd ra act).Keeps := fun _ _ hs => by simp [mxPlain, hs]
theorem mxDescHalf_keeps {k ra} : (mxDescHalf k ra).Keeps := fun _ _ hs => by
  unfold mxDescHalf
  dsimp only
  split <;> simp [hs]
theorem crgetHalf_keeps {rd srcs sl num} : (crgetHalf rd srcs sl num).Keeps := fun _ _ hs => by
  unfold crgetHalf
  dsimp only
  split <;> simp [hs]
theorem crsetHalf_keeps {ra srcs sl num} : (crsetHalf ra srcs sl num).Keeps := fun _ _ hs => by
  unfold crsetHalf
  dsimp only
  split <;> simp [hs]
theorem halfMstat_keeps {rd ra rb} : (halfMstat rd ra rb).Keeps := fun _ _ hs => by simp [halfMstat, hs]
theorem halfTfence_keeps : halfTfence.Keeps := fun _ _ hs => by simp [halfTfence, hs]
theorem halfFreeze_keeps {rd ra} : (halfFreeze rd ra).Keeps := fun _ _ hs => by simp [halfFreeze, hs]
theorem halfSplit_keeps {rd ra} : (halfSplit rd ra).Keeps := fun _ _ hs => by simp [halfSplit, hs]
theorem halfTstat_keeps {rd ra} : (halfTstat rd ra).Keeps := fun _ _ hs => by simp [halfTstat, hs]
theorem halfBars_keeps {rd ra} : (halfBars rd ra).Keeps := fun _ _ hs => by simp [halfBars, hs]
theorem halfFence_keeps {ra} : (halfFence ra).Keeps := fun _ _ hs => by simp [halfFence, hs]
theorem halfYield_keeps : halfYield.Keeps := fun _ _ hs => by
  unfold halfYield
  dsimp only
  split
  · split <;> simp [hs]
  · simp [hs]
theorem halfSleep_keeps {rd ra} : (halfSleep rd ra).Keeps := fun _ _ hs => by
  unfold halfSleep
  dsimp only
  split <;> simp [hs]
theorem halfWake_keeps {ra} : (halfWake ra).Keeps := fun _ _ hs => by
  unfold halfWake
  dsimp only
  split <;> simp [hs]
theorem halfSpawn_keeps {rd ra rb} : (halfSpawn rd ra rb).Keeps := fun _ _ hs => by
  unfold halfSpawn
  dsimp only
  split <;> simp [hs]
theorem halfSend_keeps {rd ra rb} : (halfSend rd ra rb).Keeps := fun _ _ hs => by simp [halfSend, hs]
theorem halfExit_keeps : halfExit.Keeps := fun _ _ hs => by simp [halfExit, hs]
theorem halfSusp_keeps {rd ra rb} : (halfSusp rd ra rb).Keeps := fun _ _ hs => by
  unfold halfSusp
  dsimp only
  split <;> simp [hs]
theorem halfResume_keeps {rd ra} : (halfResume rd ra).Keeps := fun _ _ hs => by
  unfold halfResume
  dsimp only
  split
  · simp [State.imaged_canonical, hs]
  · simp [hs]
theorem halfFree_keeps {rd ra} : (halfFree rd ra).Keeps := fun _ _ hs => by
  unfold halfFree
  dsimp only
  split <;> simp [hs]
theorem halfRdctx_keeps {rd ra rb} : (halfRdctx rd ra rb).Keeps := fun _ _ hs => by simp [halfRdctx, hs]
theorem halfWrctx_keeps {rd ra rb} : (halfWrctx rd ra rb).Keeps := fun _ _ hs => by simp [halfWrctx, hs]
theorem halfLend_keeps {ra} : (halfLend ra).Keeps := fun _ _ hs => by simp [halfLend, hs]
theorem halfTimer_keeps {ra rb} : (halfTimer ra rb).Keeps := fun _ _ hs => by simp [halfTimer, hs]
theorem halfPrio_keeps {ra} : (halfPrio ra).Keeps := Half.keeps_of_modCur rfl
theorem halfRft_keeps : halfRft.Keeps := fun _ _ hs => by simp [halfRft, hs]
theorem halfTlbinv_keeps {rd ra rb} : (halfTlbinv rd ra rb).Keeps := fun _ _ hs => by simp [halfTlbinv, hs]
theorem halfAsid_keeps {ra} : (halfAsid ra).Keeps := fun _ _ hs => by simp [halfAsid, hs]
theorem halfNotify_keeps {ra} : (halfNotify ra).Keeps := fun _ _ hs => by simp [halfNotify, hs]
theorem halfPerf_keeps {rd ra} : (halfPerf rd ra).Keeps := fun _ _ hs => by simp [halfPerf, hs]
theorem halfWdog_keeps {ra} : (halfWdog ra).Keeps := fun _ _ hs => by simp [halfWdog, hs]
theorem halfOf_keeps (i : Instr) : (halfOf i).Keeps := by
  cases i with
  | add | addSl | sub | subSl | and | andSl | or | orSl | xor | xorSl | andn | andnSl | orn | ornSl | xnor | xnorSl | sll | sllSl | srl |
    srlSl | sra | sraSl | ror | rorSl | min | minSl | max | maxSl | minz | minzSl | maxz | maxzSl | addi | mul | mulSl | mulh | mulhSl |
    mulhz | mulhzSl | mulhsz | mulhszSl | div | divSl | divz | divzSl | rem | remSl | remz | remzSl | clz | ctz | popc | sxb | sxh | sxw |
    zxb | zxh | zxw | sel | selSl | addx | addxSl | li | liz | lih | pget | fclass | nisplit | nijoin | spst | bfx | bfxz | bfi | pand | por
    | pxor | pandn | porn | pnor | pput | cmpEq | cmpEqSl | cmpLt | cmpLtSl | cmpLe | cmpLeSl | cmpLtz | cmpLtzSl | cmpLez | cmpLezSl | fadd
    | fsub | fmul | fma | fmin | fmax | fcmpEq | fcmpLt | fcmpLe | fcmpUn | cvt | br | brl | loop | bz | bnz | jr | jrl =>
    exact Half.keeps_of_modCur rfl
  | ldb | ldbz | ldh | ldhz | ldw | ldwz | ldd | ldx =>
    dsimp only [halfOf, halfLdb, halfLdbz, halfLdh, halfLdhz, halfLdw, halfLdwz, halfLdd, halfLdx]
    exact loadHalf_keeps
  | stb | sth | stw | std | stx =>
    dsimp only [halfOf, halfStb, halfSth, halfStw, halfStd, halfStx]
    exact storeHalf_keeps
  | ldf => exact halfLdf_keeps
  | lde => exact halfLde_keeps
  | stf => exact halfStf_keeps
  | ste => exact halfSte_keeps
  | waitf => exact halfWaitf_keeps
  | amoadd | amomax | amomin | amomaxz | amominz | amoand | amoor | amoxor | amoswap | amocas | amofadd | amofmax | amofmin =>
    dsimp only [halfOf, halfAmoadd, halfAmomax, halfAmomin, halfAmomaxz, halfAmominz, halfAmoand, halfAmoor, halfAmoxor, halfAmoswap,
      halfAmocas, halfAmofadd, halfAmofmax, halfAmofmin, amoInt, amoFp]
    exact amoHalf_keeps
  | dlook | dins | ddel =>
    dsimp only [halfOf, halfDlook, halfDins, halfDdel]
    exact dirHalf_keeps
  | qbsE2m1 | qbsE4m3 | dqbsE2m1 | dqbsE4m3 =>
    dsimp only [halfOf, halfQbsE2m1, halfQbsE4m3, halfDqbsE2m1, halfDqbsE4m3, qbsHalf, dqbsHalf]
    exact blockHalf_keeps
  | mstat => exact halfMstat_keeps
  | munstat | macc | mstatus => exact mxPlain_keeps
  | mma | mrd | mrdv => exact mxDescHalf_keeps
  | put | putI | putR | putG | readB | readP | readC | takeB | takeP | takeC | takeN | range | accO | accA | ctrO | copyin | copyout | copyr
    => exact descHalf_keeps
  | ctrA | tcancel =>
    dsimp only [halfOf, halfCtrA, halfTcancel]
    exact plainHalf_keeps
  | tfence => exact halfTfence_keeps
  | freeze => exact halfFreeze_keeps
  | split => exact halfSplit_keeps
  | tstat => exact halfTstat_keeps
  | bars => exact halfBars_keeps
  | barr | barw => exact arriveHalf_keeps
  | fence => exact halfFence_keeps
  | yield => exact halfYield_keeps
  | sleep => exact halfSleep_keeps
  | wake => exact halfWake_keeps
  | spawn => exact halfSpawn_keeps
  | send => exact halfSend_keeps
  | exit => exact halfExit_keeps
  | prio => exact halfPrio_keeps
  | susp => exact halfSusp_keeps
  | resume => exact halfResume_keeps
  | free => exact halfFree_keeps
  | rdctx => exact halfRdctx_keeps
  | wrctx => exact halfWrctx_keeps
  | lend => exact halfLend_keeps
  | timer => exact halfTimer_keeps
  | crget | crgetSl =>
    dsimp only [halfOf, halfCrget, halfCrgetSl]
    exact crgetHalf_keeps
  | crset | crsetSl =>
    dsimp only [halfOf, halfCrset, halfCrsetSl]
    exact crsetHalf_keeps
  | rft => exact halfRft_keeps
  | tlbinv => exact halfTlbinv_keeps
  | asid => exact halfAsid_keeps
  | notify => exact halfNotify_keeps
  | perf => exact halfPerf_keeps
  | wdog => exact halfWdog_keeps
  | _ => exact Half.none_keeps
theorem halfV_keeps {o} : (halfV o).Keeps := fun _ _ hs => by simp [halfV, hs]
@[simp] theorem State.issueWord_canonical {s : State} {lent w} (hs : s.canonical = true) : (s.issueWord lent w).canonical = true := by
  unfold State.issueWord
  split
  · simp [hs]
  · exact State.issue_canonical hs (halfOf_keeps _ s) (halfV_keeps s)

end Sys2Proof.Machine
end

section
/-! The canonical form under the issue rotation and the cycle (`Machine/Rotation`). -/
namespace Sys2Proof.Machine

@[simp] theorem State.issueFetch_canonical (s : State) (lent rank cause) : (s.issueFetch lent rank cause).canonical = s.canonical :=
  by simp [State.issueFetch]
@[simp] theorem State.issueNext_canonical {s : State} {lent} (hs : s.canonical = true) : (s.issueNext lent).canonical = true := by
  simp only [State.issueNext]
  split
  · simp [hs]
  · split
    · simp [hs]
    · split <;> simp [hs]
@[simp] theorem State.runCycle_canonical {s : State} {x} (hs : s.canonical = true) : (s.runCycle x).canonical = true := by
  unfold State.runCycle
  split
  · exact hs
  · split
    · next q lent _ =>
      extract_lets z u v
      have hz : z.canonical = true := by simp [z, hs]
      have hu : u.canonical = true := hz
      have hv : v.canonical = true := State.issueNext_canonical hu
      split <;> simp [hv]
    · simp [hs]
@[simp] theorem State.dueOps_canonical {s : State} {x} (hs : s.canonical = true) : (s.dueOps x).canonical = true :=
  State.foldl_keeps hs fun z o hz => by
    split <;> simp [hz]
@[simp] theorem State.countCycle_canonical (s : State) (x) : (s.countCycle x).canonical = s.canonical := by
  refine (State.foldl_canonical (fun s q => ?_) _ _).trans ?_
  · split <;> simp
  · split <;> simp
@[simp] theorem State.newCycle_canonical {s : State} {x} (hs : s.canonical = true) : (s.newCycle x).canonical = true := by
  unfold State.newCycle
  extract_lets u v w cids
  have hu : u.canonical = true := by simp [u, hs]
  have hw : w.canonical = true := by
    simp only [w, State.foldl_canonical, State.runHeld_canonical, implies_true]
    exact State.timerFire_canonical (by simp [v, hu])
  exact State.foldl_keeps hw fun z c hz => State.sleepExpire_canonical hz
@[simp] theorem State.endCycle_canonical {s : State} {d} (hs : s.canonical = true) : (s.endCycle d).canonical = true := by
  unfold State.endCycle
  split
  · exact hs
  · extract_lets xs u v w y
    have hu : u.canonical = true := State.foldl_keeps hs fun z x hz => State.runCycle_canonical hz
    have hw : w.canonical = true := by simp [w, v, hu]
    have hy : y.canonical = true := State.foldl_keeps hw fun z x hz => State.newCycle_canonical hz
    simp [hy]

end Sys2Proof.Machine
end

section
/-! The canonical form under the model's own turns (`Machine/Policy`). -/
namespace Sys2Proof.Machine

@[simp] theorem State.serveMsg_canonical {s : State} {m} (hs : s.canonical = true) : (State.serveMsg m s).canonical = true := by
  refine State.foldl_apply_keeps hs ?_
  simp +contextual only [List.forall_mem_cons, List.not_mem_nil, false_implies, implies_true, and_true]
  simp +contextual
@[simp] theorem State.serveTile_canonical {s : State} {x} (hs : s.canonical = true) : (State.serveTile x s).canonical = true := by
  unfold State.serveTile
  extract_lets ops u1 u2 u3 u4 thr u5 u6 u7 u8 u9
  have h1 : u1.canonical = true := State.foldl_keeps hs fun z o hz => by
    split <;> simp [hz]
  clear_value u1
  have h2 : u2.canonical = true := State.foldl_keeps h1 fun z o hz =>
    State.tlbDone_canonical (State.freezeNow_canonical (State.completeCopy_canonical (State.startCopy_canonical (State.routeRequest_canonical hz))))
  clear_value u2
  have h3 : u3.canonical = true := State.foldl_keeps h2 fun z o hz => State.mxStart_canonical (State.mxComplete_canonical hz)
  clear_value u3
  have h4 : u4.canonical = true := State.foldl_keeps h3 fun z w hz =>
    State.transferStart_canonical ((State.vopStart_canonical ..).trans (State.vopComplete_canonical hz))
  clear_value u4
  have h5 : u5.canonical = true := State.foldl_keeps h4 fun z t hz => by
    simpa using State.tryTfence_canonical (State.tryArrive_canonical hz)
  clear_value u5
  have h6 : u6.canonical = true := State.foldl_keeps h5 fun z q hz => State.endCommit_canonical (State.rollBack_canonical hz)
  clear_value u6
  have h8 : u8.canonical = true := by simp [u8, u7, h6]
  clear_value u8
  have h9 : u9.canonical = true := by simp [u9, h8]
  split <;> simp [h9]
@[simp] theorem State.serveHome_canonical {s : State} {h} (hs : s.canonical = true) : (s.serveHome h).canonical = true :=
  by simp [State.serveHome, hs]
@[simp] theorem State.serveDie_canonical (s : State) (d) : (s.serveDie d).canonical = s.canonical := by simp [State.serveDie]
@[simp] theorem State.servePeer_canonical {s : State} {c} (hs : s.canonical = true) : (State.servePeer c s).canonical = true := by
  unfold State.servePeer
  extract_lets p u
  have hu : u.canonical = true := by
    dsimp only [u]
    split <;> simp [hs]
  exact State.foldl_keeps (by simp [hu]) fun z v hz => State.retxTimeout_canonical hz
@[simp] theorem State.servePort_canonical {s : State} {p} (hs : s.canonical = true) : (State.servePort p s).canonical = true := by
  unfold State.servePort
  extract_lets h u w
  have hu : u.canonical = true := by
    simp [u, hs]
  split <;> simp [hu]
/-- Whichever agent has the turn. -/
theorem State.agents_canonical {s u : State} {f : State → State} (hf : f ∈ s.agents) (hu : u.canonical = true) : (f u).canonical = true := by
  simp only [State.agents, List.mem_append, List.mem_map] at hf
  rcases hf with ((((⟨m, -, rfl⟩ | ⟨t, -, rfl⟩) | ⟨h, -, rfl⟩) | ⟨d, -, rfl⟩) | ⟨c, -, rfl⟩) | ⟨p, -, rfl⟩
  · exact State.serveMsg_canonical hu
  · exact State.serveTile_canonical hu
  · exact State.serveHome_canonical hu
  · exact (State.serveDie_canonical ..).trans hu
  · exact State.servePeer_canonical hu
  · exact State.servePort_canonical hu
@[simp] theorem State.ownTurn_canonical {s : State} (hs : s.canonical = true) : s.ownTurn.canonical = true := by
  unfold State.ownTurn
  extract_lets n u l
  have hu : u.canonical = true := hs
  split
  · exact State.endCycle_canonical hu
  · rw [List.getD_eq_getElem?_getD]
    cases hf : l[n / 2 % l.length]? with
    | none => exact hu
    | some f => exact State.agents_canonical (List.mem_of_getElem? hf) hu

end Sys2Proof.Machine
end

section
/-! The events, the step and the statement. -/
namespace Sys2Proof.Machine

/-- Every event of the model keeps the canonical form: most are passed over in some states of the service, and act by a function with its
lemma above in the others. -/
theorem exec_event_canonical {i : Instr} {s u : State} (hi : isEvent i = true) (hs : s.canonical = true) (h : exec i s = .next u) :
    u.canonical = true := by
  cases i with
  | pendingTrapTaken | watchdogExpiry | timerFire | sleepTimeout | bundleFill | packetBind | refillImageArrived | spillStart | spillDone |
    energyRefill | vopStart | transferStart | vopComplete | mxStart | mxComplete | requestRoute | routeFetchDone | switchCombine |
    replySplit | homePut | homeRead | homeTake | homeRangeTake | homeRangeCreate | homeAccCreate | homeAccContrib | homeCtrCreate |
    homeCtrArrival | homeCancel | homeBarrierRegister | homeResetCancel | deadlineExpiry | pathPermit | payloadStream | tileDelivery |
    tupleReply | readyQueueArrival | heldPacketSend | watchNotify | specRollback | releaseNotice | commitDrainEnd | barrierArrival |
    tfenceComplete | fenceComplete | exitComplete | notifySend | launchTake | launchAdmit | launchWaiterRetry | copyStart |
    pageFaultResolved | copyComplete | freezeEffect | tlbinvComplete | homeSplitRequest | splitTargetReply | splitCopyRx | splitInvalidateRx
    | cutOver | splitCutoverMark | routeInvalidate | spirePacketRx | spireContextFetched | spireAckTimer | spireAckRx | spireRetxTimeout |
    remoteCopyAgent | hostPutGo | hostTakeGo | hostTakeComplete | tileResetToTenant | tileResetNoTenant | slotReset | windowReset |
    regionReset | copyEngineReset | tenantRecordWrite | peerRecordWrite | pkgConfigWrite | registerWrite | fullRateSwitch | dieReset |
    homeReset | tileResetMctp | spirePortReset | hostPortReset | functionReset | fatalEntry | hostPayloadPulled | hostPutReply |
    deliveryAcknowledge | spireLinkUp | hostPortLinkUp | atsInvalidate | targetRoomExhausted | mctpControl | pldmBase | pldmPlatform |
    getPackageConfig | setPackageConfig | firmwareTransfer | firmwareActivate | selfTestFail | cancelUpdate | rolloutLimit | tilePatch |
    launchTableSwap | getVersion | getCapabilities | negotiateAlgorithms | getDigests | getCertificate | challenge | getMeasurements |
    telemetrySample | energyPlannerStep | mgmtReset | thermtrip | packageReset =>
    obtain rfl := Host.Outcome.next.inj h
    split
    · exact hs
    · simp [hs]
  | enAssert | enDeassert | inputFault | inputInRange =>
    obtain rfl := Host.Outcome.next.inj h
    simp [hs]
  | _ => cases hi

/-- A step is the own turn of the agent that is next, or the turn that the script names: an event, a cycle or the end of a cycle. -/
theorem step_canonical {s u : State} (hs : s.canonical = true) (h : step s = .next u) : u.canonical = true := by
  unfold step at h
  split at h
  · split at h
    · cases h
    · cases h
    · obtain rfl := Host.Outcome.next.inj h
      exact State.ownTurn_canonical hs
    · obtain rfl := Host.Outcome.next.inj h
      exact State.ownTurn_canonical hs
  · next i r hr =>
    split at h
    · next hi => exact exec_event_canonical (s := { s with script := r }) hi hs h
    · obtain rfl := Host.Outcome.next.inj h
      exact hs
  · obtain rfl := Host.Outcome.next.inj h
    exact State.runCycle_canonical hs
  · obtain rfl := Host.Outcome.next.inj h
    exact State.endCycle_canonical hs
/-- Settles O57: every turn of a step keeps the canonical form, by the lemmas about the functions it runs. -/
theorem stepKeepsMemoryCanonical : Obligations.StepKeepsMemoryCanonical := fun _ _ hs h => step_canonical hs h

end Sys2Proof.Machine
end

section
/-! Decoding what the encoder writes: the fields of a bundle's word, the bundle forms, and both halves together (02_encoding.md R43 to R62). -/
namespace Sys2Proof.Laws.RoundTrip
open Sys2Proof

/-- Every instruction has its round trip: the lemmas of `Laws/PerInstr`, in the order of the constructors. -/
theorem roundTrip (i : Instr) : Statement i :=
  Instr.rec (motive := Statement)
    nop add addSl sub subSl and andSl or orSl xor xorSl andn andnSl orn ornSl xnor xnorSl sll sllSl srl srlSl sra sraSl ror rorSl min minSl max
    maxSl minz minzSl maxz maxzSl addi mul mulSl mulh mulhSl mulhz mulhzSl mulhsz mulhszSl div divSl divz divzSl rem remSl remz remzSl clz ctz
    popc sxb sxh sxw zxb zxh zxw sel selSl addx addxSl bfx bfxz bfi li liz lih pand por pxor pandn porn pnor pget pput cmpEq cmpEqSl cmpLt
    cmpLtSl cmpLe cmpLeSl cmpLtz cmpLtzSl cmpLez cmpLezSl ldb ldbz ldh ldhz ldw ldwz ldd stb sth stw std ldx stx ldf lde stf ste waitf amoadd
    amomax amomin amomaxz amominz amoand amoor amoxor amoswap amocas amofadd amofmax amofmin dlook dins ddel fadd fsub fmul fma fmin fmax fclass
    fcmpEq fcmpLt fcmpLe fcmpUn qbsE2m1 qbsE4m3 dqbsE2m1 dqbsE4m3 nisplit nijoin cvt br brl loop bz bnz jr jrl mstat munstat mma macc mrd mrdv
    mstatus put putI putR putG readB readP readC takeB takeP takeC takeN range accO accA ctrO ctrA tcancel tfence copyin copyout copyr freeze
    split tstat bars barr barw spend spst fence yield sleep wake spawn send exit prio susp resume free rdctx wrctx lend timer crget crgetSl crset
    crsetSl trap rft svc brk tlbinv asid notify perf wdog halt illegalEncoding vnop vfld vfldi vfcpy vvl vvli vfrd vld vst vlds vsts vldr vstr
    vget vput vbc vbci vcopy vtand vtor vtxor vtandn vtset vtclr vtfirst vtcount vtany vceq vclt vcle vadd vsub vneg vabs vmin vmax vmul vand vor
    vxor vnot vshl vshr vsel vfadd vfsub vfmul vfmin vfmax vfceq vfclt vfcle vlut8 vlut16 vsfn vcvt vrmax vrmin vrsum vrfsum vqbs vdqbs voutl
    vpass vseq vucload pendingTrapTaken watchdogExpiry timerFire sleepTimeout bundleFill packetBind refillImageArrived spillStart spillDone
    energyRefill vopStart transferStart vopComplete mxStart mxComplete requestRoute routeFetchDone switchCombine replySplit homePut homeRead
    homeTake homeRangeTake homeRangeCreate homeAccCreate homeAccContrib homeCtrCreate homeCtrArrival homeCancel homeBarrierRegister
    homeResetCancel deadlineExpiry pathPermit payloadStream tileDelivery tupleReply readyQueueArrival heldPacketSend watchNotify specRollback
    releaseNotice commitDrainEnd barrierArrival tfenceComplete fenceComplete exitComplete notifySend launchTake launchAdmit launchWaiterRetry
    copyStart pageFaultResolved copyComplete freezeEffect tlbinvComplete homeSplitRequest splitTargetReply splitCopyRx splitInvalidateRx cutOver
    splitCutoverMark routeInvalidate spirePacketRx spireContextFetched spireAckTimer spireAckRx spireRetxTimeout remoteCopyAgent hostPutGo
    hostTakeGo hostTakeComplete tileResetToTenant tileResetNoTenant slotReset windowReset regionReset copyEngineReset tenantRecordWrite
    peerRecordWrite pkgConfigWrite registerWrite mctpControl pldmBase pldmPlatform getPackageConfig setPackageConfig firmwareTransfer
    firmwareActivate selfTestFail cancelUpdate rolloutLimit tilePatch launchTableSwap getVersion getCapabilities negotiateAlgorithms getDigests
    getCertificate challenge getMeasurements telemetrySample energyPlannerStep packageReset fullRateSwitch dieReset homeReset tileResetMctp
    spirePortReset hostPortReset functionReset mgmtReset fatalEntry enAssert enDeassert inputFault thermtrip hostPayloadPulled hostPutReply
    deliveryAcknowledge targetRoomExhausted spireLinkUp hostPortLinkUp inputInRange atsInvalidate    i

/-- A short row of R62 admits no extension. -/
theorem vopRow_short {c lx : Nat} {k : VKind} {l : List Nat} (h : vopRow c = some (k, false, l, lx)) : lx = 1 := by
  unfold vopRow at h
  split at h <;> cases h <;> rfl
/-- A V operation that is decoded in the short form has no extension. -/
theorem x_eq_zero_of_decV {v x : Nat} {o : VOp} (h : decV false v x = some o) : x = 0 := by
  unfold decV at h
  split at h
  · cases h
  · next hr =>
    split at h
    · next hc =>
      obtain ⟨rfl, -, -, -, -, -, -, hx⟩ := hc
      rw [vopRow_short hr] at hx
      exact Nat.lt_one_iff.mp hx
    · cases h
  · cases h

/-- A bundle's word from its fields: the wait marker, the kind K, and the two syllables, or a syllable with its immediate or extension
(R43, R45). -/
def wordOf (wait : Bool) (k hi lo : Nat) : Nat := wait.toNat * 9223372036854775808 + k * 2305843009213693952 + hi * 4294967296 + lo
theorem wordOf_fields (wait : Bool) {k hi lo : Nat} (hk : k < 4) (hhi : hi < 536870912) (hlo : lo < 4294967296) :
    wordOf wait k hi lo < 2 ^ 64 ∧ (fld (wordOf wait k hi lo) 63 1 == 1) = wait ∧ fld (wordOf wait k hi lo) 61 2 = k ∧
      fld (wordOf wait k hi lo) 32 29 = hi ∧ fld (wordOf wait k hi lo) 0 32 = lo := by
  have hw := boolLt wait
  have e : fld (wordOf wait k hi lo) 63 1 = wait.toNat := by unfold fld wordOf; omega
  rw [e, boolBit]
  unfold fld wordOf
  refine ⟨?_, rfl, ?_, ?_, ?_⟩ <;> omega
/-- The S half of a word: the guard above the syllable (R47). -/
def guarded (g : Pred) (neg : Bool) (s : Nat) : Nat := g.toNat * 67108864 + neg.toNat * 33554432 + s
theorem guarded_fields (g : Pred) (neg : Bool) {s : Nat} (hs : s < 33554432) :
    guarded g neg s < 536870912 ∧ BitVec.ofNat 3 (fld (guarded g neg s) 26 3) = g ∧ (fld (guarded g neg s) 25 1 == 1) = neg := by
  have hg := g.isLt
  have hn := boolLt neg
  have eg : fld (guarded g neg s) 26 3 = g.toNat := by unfold fld guarded; omega
  have en : fld (guarded g neg s) 25 1 = neg.toNat := by unfold fld guarded; omega
  rw [eg, en, boolBit, BitVec.ofNat_toNat, BitVec.setWidth_eq]
  exact ⟨by unfold guarded; omega, rfl, rfl⟩
/-- The S syllable that the encoder writes is read back under every guard. -/
theorem decode_guarded (g : Pred) (neg : Bool) {i : Instr} {long : Bool} {s imm : Nat} (hi : i.wf = true) (he : encS i = some (long, s, imm)) :
    s < 33554432 ∧ imm < 4294967296 ∧ (if long then decSL (guarded g neg s) imm else decSR (guarded g neg s)) = some i := by
  obtain ⟨hs, himm, hd⟩ := (roundTrip i).1 _ _ _ he hi
  refine ⟨hs, himm, ?_⟩
  rw [show guarded g neg s = (g.toNat * 2 + neg.toNat) * 33554432 + s by unfold guarded; omega]
  exact hd _
/-- An S half of zeros is `NOP` under `(p0)`. -/
theorem idle_of_guarded_eq_zero {g : Pred} {neg : Bool} {s imm : Nat} {i : Instr} (hi : i.wf = true) (he : encS i = some (false, s, imm))
    (h0 : guarded g neg s = 0) : g = 0 ∧ neg = false ∧ i = .nop := by
  obtain ⟨hs, -, hd⟩ := decode_guarded g neg hi he
  obtain ⟨-, hg, hn⟩ := guarded_fields g neg hs
  rw [h0] at hd hg hn
  exact ⟨hg.symm, hn.symm, (Option.some.inj hd).symm⟩

/-! The three bundle forms, from the fields of a word (R45). -/
theorem decodeNat_short {n S v : Nat} {wait neg : Bool} {g : Pred} {i : Instr} {o : VOp} (hw : (fld n 63 1 == 1) = wait) (hk : fld n 61 2 = 0)
    (hS : fld n 32 29 = S) (hv : fld n 0 32 = v) (hg : BitVec.ofNat 3 (fld S 26 3) = g) (hn : (fld S 25 1 == 1) = neg)
    (hi : decSR S = some i) (iwf : i.wf = true) (ho : decV false v 0 = some o) (owf : o.wf = true) :
    decodeNat n = .ok ⟨wait, g, neg, i, o⟩ := by
  simp only [decodeNat, hw, hk, hS, hv, hg, hn, hi, ho, checkedS, checkedV, iwf, owf, ↓reduceIte]
theorem decodeNat_sLong {n S v : Nat} {wait neg : Bool} {g : Pred} {i : Instr} (hw : (fld n 63 1 == 1) = wait) (hk : fld n 61 2 = 1)
    (hS : fld n 32 29 = S) (hv : fld n 0 32 = v) (hg : BitVec.ofNat 3 (fld S 26 3) = g) (hn : (fld S 25 1 == 1) = neg)
    (hi : decSL S v = some i) (iwf : i.wf = true) : decodeNat n = .ok ⟨wait, g, neg, i, .vnop⟩ := by
  simp only [decodeNat, hw, hk, hS, hv, hg, hn, hi, checkedS, iwf, ↓reduceIte]
theorem decodeNat_vLong {n x v : Nat} {wait : Bool} {o : VOp} (hw : (fld n 63 1 == 1) = wait) (hk : fld n 61 2 = 2) (hx : fld n 32 29 = x)
    (hv : fld n 0 32 = v) (ho : decV true v x = some o) (owf : o.wf = true) : decodeNat n = .ok ⟨wait, 0, false, .nop, o⟩ := by
  simp only [decodeNat, hw, hk, hx, hv, ho, checkedV, owf, ↓reduceIte]

/-- The encoder's word for a bundle decodes to that bundle, form by form. -/
theorem decodeNat_encodeNat {wait neg : Bool} {g : Pred} {i j : Instr} {o : VOp} {n : Nat} (hi : i.wf = true) (hj : j.wf = true)
    (ho : j.vop = some o) (h : encodeNat ⟨wait, g, neg, i, o⟩ = some n) : n < 2 ^ 64 ∧ decodeNat n = .ok ⟨wait, g, neg, i, o⟩ := by
  obtain ⟨owf, hv, hx, hd, -⟩ := (roundTrip j).2 o ho hj
  simp only [encodeNat] at h
  split at h
  · cases h
  · next s imm he =>
    obtain ⟨hs, -, hi'⟩ := decode_guarded g neg hi he
    obtain ⟨hS, hg, hneg⟩ := guarded_fields g neg hs
    rw [if_neg Bool.false_ne_true] at hi'
    split at h
    · next hl =>
      split at h
      · next h0 =>
        obtain ⟨rfl, rfl, rfl⟩ := idle_of_guarded_eq_zero hi he (by rw [guarded]; exact h0)
        have e : n = wordOf wait 2 o.x o.syllable := by rw [← Option.some.inj h, wordOf]
        obtain ⟨hlt, f63, f61, f32, f0⟩ := wordOf_fields wait (k := 2) (by decide) hx hv
        rw [← e] at hlt f63 f61 f32 f0
        rw [hl] at hd
        exact ⟨hlt, decodeNat_vLong f63 f61 f32 f0 hd owf⟩
      · cases h
    · next hl =>
      have e : n = wordOf wait 0 (guarded g neg s) o.syllable := by
        rw [← Option.some.inj h, wordOf, guarded, Nat.zero_mul, Nat.add_zero]
      obtain ⟨hlt, f63, f61, f32, f0⟩ := wordOf_fields wait (k := 0) (by decide) hS hv
      rw [← e] at hlt f63 f61 f32 f0
      rw [Bool.not_eq_true] at hl
      rw [hl] at hd
      rw [x_eq_zero_of_decV hd] at hd
      exact ⟨hlt, decodeNat_short f63 f61 f32 f0 hg hneg hi' hi hd owf⟩
  · next s imm he =>
    obtain ⟨hs, himm, hi'⟩ := decode_guarded g neg hi he
    obtain ⟨hS, hg, hneg⟩ := guarded_fields g neg hs
    rw [if_pos rfl] at hi'
    split at h
    · next hn =>
      have e : n = wordOf wait 1 (guarded g neg s) imm := by rw [← Option.some.inj h, wordOf, guarded, Nat.one_mul]
      obtain ⟨hlt, f63, f61, f32, f0⟩ := wordOf_fields wait (k := 1) (by decide) hS himm
      rw [← e] at hlt f63 f61 f32 f0
      rw [hn]
      exact ⟨hlt, decodeNat_sLong f63 f61 f32 f0 hg hneg hi' hi⟩
    · cases h

/-- The bundle of one operation alone carries nothing else. -/
theorem only_alone {i : Instr} (hi : i.wf = true) (hn : i ≠ .vnop) : i.alone.only = some i := by
  unfold Instr.alone
  split
  · next o ho =>
    obtain ⟨-, -, -, -, hb⟩ := (roundTrip i).2 o ho hi
    have hv : o ≠ .vnop := fun e => hn (by rw [← hb, e]; rfl)
    rw [Bundle.only, if_neg (by simp), if_neg hv, if_pos rfl, hb]
  · rw [Bundle.only, if_neg (by simp), if_pos rfl]
/-- The word of an instruction alone decodes to its bundle. -/
theorem decode_encode {i : Instr} {l : List W64} (hi : i.wf = true) (h : encode i = some l) :
    ∃ w, l = [w] ∧ decode w = .ok i.alone ∧ (i ≠ .vnop → decodeInstr w = some i) := by
  obtain ⟨n, hn, rfl⟩ := Option.map_eq_some_iff.mp h
  have hd : n < 2 ^ 64 ∧ decodeNat n = .ok i.alone := by
    cases ho : i.vop with
    | some o =>
      rw [Instr.alone, ho] at hn ⊢
      exact decodeNat_encodeNat rfl hi ho hn
    | none =>
      rw [Instr.alone, ho] at hn ⊢
      exact decodeNat_encodeNat (j := .vnop) hi rfl rfl hn
  have hw : decode (BitVec.ofNat 64 n) = .ok i.alone := by
    rw [decode, BitVec.toNat_ofNat, Nat.mod_eq_of_lt hd.1, hd.2]
  refine ⟨_, rfl, hw, fun hv => ?_⟩
  rw [decodeInstr, hw]
  exact only_alone hi hv

/-- Settles O56: each bundle form by its fields, and the bundle of one operation alone as a case of it. -/
theorem decodeOfEncode : Obligations.DecodeOfEncode := by
  unfold Obligations.DecodeOfEncode
  exact ⟨fun _ _ _ _ _ _ _ hi hj ho h => decodeNat_encodeNat hi hj ho h, fun _ _ hi h => decode_encode hi h⟩

end Sys2Proof.Laws.RoundTrip
end

section
/-! Words written out from the encoding tables (02_encoding.md R60, R62): each decodes by computation. -/
namespace Sys2Proof.Laws.RoundTrip
open Sys2Proof

/-- Settles O55: the decoder is run on each word. -/
theorem decodingWords : Obligations.DecodingWords :=
  ⟨rfl, rfl, rfl, rfl, rfl, rfl, rfl, rfl, rfl, rfl, rfl, rfl, rfl, rfl, rfl⟩

end Sys2Proof.Laws.RoundTrip
end

section
/-! The trap of lowest rank, and the checks of an S operation that issues alone (02_encoding.md R56, R59). -/
namespace Sys2Proof.Machine

/-- A check that no later one undercuts is the one taken. -/
theorem firstTrap_cons_of_le {tr : Trap} {l : List Trap} (h : ∀ x ∈ l, tr.rank ≤ x.rank) : firstTrap (tr :: l) = some tr := by
  unfold firstTrap
  rw [List.foldl_cons]
  induction l with
  | nil => rfl
  | cons x l ih =>
    rw [List.forall_mem_cons] at h
    rw [List.foldl_cons]
    dsimp only
    rw [if_neg (Nat.not_lt.mpr h.1)]
    exact ih h.2
/-- Half `h` asks for no privilege and no window. -/
def Half.Plain (h : Half) : Prop := (∀ s, h.priv s = false) ∧ h.vec = false
theorem sameDst_nil (a : List Reg) : sameDst a [] = [] := by
  unfold sameDst
  rw [List.find?_eq_none.mpr (by simp)]
/-- The failing checks of such a half alone: HAZARD, then its own. -/
theorem State.Issues.trapsPlain {s : State} {t : Thread} (h : s.Issues t) (w : W64) {hs : Half} (hp : hs.Plain) :
    bundleTraps w true hs Half.none s = t.hazards (hs.srcs ++ hs.dsts) ++ hs.checks s := by
  obtain ⟨hpriv, hvec⟩ := hp
  simp only [bundleTraps, h.cthr, hpriv, hvec, Half.none, sameDst_nil, t.hazards_nil, Bool.or_self, Bool.false_and, Bool.false_eq_true, ↓reduceIte,
    List.nil_append, List.append_nil]
/-- The first failing check of its own is taken where no register is pending. -/
theorem State.Issues.checkTaken {s : State} {t : Thread} (h : s.Issues t) (i : Instr) {hs : Half} {tr : Trap} (hp : hs.Plain)
    (hc : t.Clear (hs.srcs ++ hs.dsts)) (ht : firstTrap (hs.checks s) = some tr) : s.issueS i hs = s.trapped tr := by
  refine h.trap ?_
  rw [h.trapsPlain _ hp, hc.none, List.nil_append]
  exact ht
/-- The one pending register that it names raises HAZARD with its number. -/
theorem State.Issues.hazardTaken {s : State} {t : Thread} (h : s.Issues t) (i : Instr) {hs : Half} {r : Reg} (hp : hs.Plain)
    (hm : r ∈ hs.srcs ++ hs.dsts) (hr : t.pending r = true) (hu : ∀ q ∈ hs.srcs ++ hs.dsts, t.pending q = true → q = r)
    (hk : ∀ x ∈ hs.checks s, 4 ≤ x.rank) : s.issueS i hs = s.trapped ⟨4, 2, r.zeroExtend 64⟩ := by
  have hf : (hs.srcs ++ hs.dsts).find? t.pending = some r := by
    obtain ⟨q, hq⟩ := Option.isSome_iff_exists.mp (List.find?_isSome.mpr ⟨r, hm, hr⟩)
    rw [hq, hu q (List.mem_of_find?_eq_some hq) (List.find?_some hq)]
  refine h.trap ?_
  rw [h.trapsPlain _ hp, Thread.hazards, hf]
  exact firstTrap_cons_of_le hk

end Sys2Proof.Machine
end

section
/-! Scratchpad accesses at issue: their addresses, their first failing check, and the half that each instruction issues
(05_scratchpad.md R134, R137, R139, R144 to R153). -/
namespace Sys2Proof.Machine

/-- A base with a scaled displacement, as the rule gives it over the integers (R145). -/
theorem dispAddr_eq_ruleDisp (base : W64) (imm : BitVec 9) (n : Nat) : dispAddr base imm n = ruleDisp base imm n := by
  unfold dispAddr ruleDisp wrapI
  rw [BitVec.ofInt_add, BitVec.ofInt_mul, BitVec.ofInt_natCast, BitVec.ofInt_natCast, BitVec.ofNat_toNat, BitVec.setWidth_eq,
    BitVec.signExtend, BitVec.toInt_eq_toNat_bmod]
/-- A base with a scaled index, as the rule gives it over the naturals (R146). -/
theorem indexAddr_eq_ruleIndex (base idx : W64) (k : Nat) (scaled : Bool) :
    indexAddr base idx k scaled = ruleIndex base idx (if scaled then k else 0) := by
  unfold indexAddr ruleIndex wrapN
  cases scaled <;> simp [Nat.shiftLeft_eq]

/-- The checks of an access, ALIGN apart. -/
theorem Tile.access_eq (l : Tile) (a n : Nat) (ecc : Bool) : l.access a n ecc =
    (if a % n = 0 then [] else [⟨5, 3, wrapN a⟩]) ++ (if Config.spSize ≤ a then [⟨6, 4, wrapN a⟩] else
      (if l.stat (a / 8192) then [⟨7, 5, wrapN a⟩] else []) ++ if ecc ∧ a / 8 ∈ l.bad then [⟨10, 10, wrapN (a / 8 * 8)⟩] else []) := by
  have hb (h : a < Config.spSize) : bankOf a = a / 8192 := Nat.mod_eq_of_lt (Nat.div_lt_of_lt_mul h)
  unfold Tile.access
  dsimp only
  congr 1
  by_cases h : a < Config.spSize
  · rw [if_pos h, if_neg (Nat.not_le.mpr h), hb h]
    simp only [Bool.and_eq_true, List.contains_iff_mem]
    rfl
  · rw [if_neg h, if_pos (Nat.not_lt.mp h)]
    rfl
/-- The first failing check of an access is the one of R144. -/
theorem firstTrap_access (l : Tile) (a n : Nat) (ecc : Bool) : firstTrap (l.access a n ecc) = accessTrap l a n ecc := by
  rw [Tile.access_eq]
  unfold accessTrap
  simp only [ne_eq, ite_not]
  split_ifs <;> rfl
/-- Every failing check of an access is of a later rank than HAZARD. -/
theorem Tile.access_rank (l : Tile) (a n : Nat) (ecc : Bool) : ∀ x ∈ l.access a n ecc, 4 ≤ x.rank := by
  rw [Tile.access_eq]
  split_ifs <;> simp

/-- What the access rules say of a half: it makes access `m`, checks nothing else, and names no register beside `rs`. -/
structure Half.Accesses (h : Half) (m : Access) (rs : List Reg) : Prop where
  plain : h.Plain
  regs : ∀ r, r ∈ h.srcs ++ h.dsts → r ∈ rs
  checks : ∀ s, h.checks s = s.ctile.access (m.addr s.cthr) m.n m.ecc
/-- An instruction that issues half `h` alone. -/
def IssuesHalf (i : Instr) (h : Half) : Prop := ∀ s, exec i s = .next (s.issueS i h)

theorem loadHalf_accesses (d : Reg) (m : Access) (e : Nat → W64) (w : BitVec 9) (he : m.ecc = true) :
    (loadHalf d m.regs m.addr m.n e w).Accesses m (d :: m.regs) where
  plain := ⟨fun _ => rfl, rfl⟩
  regs r hr := by simpa [loadHalf, or_comm] using hr
  checks s := by rw [he]; rfl
theorem storeHalf_accesses (d : Reg) (m : Access) (he : m.ecc = (m.n != 8)) : (storeHalf d m.regs m.addr m.n).Accesses m (d :: m.regs) where
  plain := ⟨fun _ => rfl, rfl⟩
  regs r hr := by simpa [storeHalf] using hr
  checks s := by rw [he]; rfl

theorem dispOf_eq (a : Reg) (imm : BitVec 9) (n : Nat) : dispOf a imm n = fun t => ruleDisp (t.rd a) imm n :=
  funext fun _ => dispAddr_eq_ruleDisp ..
theorem indexOf_eq (a b : Reg) (sz : BitVec 2) (scaled : Bool) :
    indexOf a b sz scaled = fun t => ruleIndex (t.rd a) (t.rd b) (if scaled then sz.toNat else 0) := funext fun _ => indexAddr_eq_ruleIndex ..

/-- A load issues the half of its access (R145, R146). -/
theorem load_issues {i : Instr} {m : Access} {d : Reg} {e : Nat → W64} {w : BitVec 9} (h : loadRule i = some (m, d, e, w)) :
    m.ecc = true ∧ ∃ e' w', IssuesHalf i (loadHalf d m.regs m.addr m.n e' w') := by
  unfold loadRule at h
  split at h
  all_goals
    simp only [← dispOf_eq, ← indexOf_eq, Option.some.injEq, Prod.mk.injEq, reduceCtorEq] at h
  all_goals
    obtain ⟨rfl, rfl, rfl, rfl⟩ := h
    exact ⟨rfl, _, _, fun _ => rfl⟩
/-- A store issues the half of its access (R145, R146); it checks the word's code unless it writes the word whole (R139). -/
theorem store_issues {i : Instr} {m : Access} {d : Reg} (h : storeRule i = some (m, d)) :
    m.ecc = (m.n != 8) ∧ IssuesHalf i (storeHalf d m.regs m.addr m.n) := by
  have hx : ∀ sz : BitVec 2, decide (sz.toNat ≠ 3) = (2 ^ sz.toNat != 8) := by decide
  unfold storeRule at h
  split at h
  all_goals
    simp only [← dispOf_eq, ← indexOf_eq, hx, Option.some.injEq, Prod.mk.injEq, reduceCtorEq] at h
  all_goals
    obtain ⟨rfl, rfl⟩ := h
    exact ⟨rfl, fun _ => rfl⟩
/-- A full/empty instruction makes its access (R147). -/
theorem fullEmpty_issues {i : Instr} {m : Access} {f : Option Bool} {d c : Option Reg} {a : Option Bool}
    (h : fullEmptyRule i = some (m, f, d, c, a)) : ∃ hs : Half, hs.Accesses m (d.toList ++ c.toList ++ m.regs) ∧ IssuesHalf i hs := by
  unfold fullEmptyRule at h
  split at h
  all_goals
    simp only [← dispOf_eq, Option.some.injEq, Prod.mk.injEq, reduceCtorEq] at h
  all_goals
    obtain ⟨rfl, rfl, rfl, rfl, rfl⟩ := h
    exact ⟨_, ⟨⟨fun _ => rfl, rfl⟩, fun r hr => by simpa [halfLdf, halfLde, halfStf, halfSte, halfWaitf, feHalf, or_comm] using hr,
      fun _ => rfl⟩, fun _ => rfl⟩

theorem amoHalf_accesses (n : Nat) (noret cas : Bool) (d a b : Reg) (f : Nat → Nat → Nat → Option Nat × W64 × FFlags) :
    (amoHalf n noret cas d a b f).Accesses ⟨[a, b], fun t => (t.rd a).toNat, n, true⟩ [d, a, b] where
  plain := ⟨fun _ => rfl, rfl⟩
  regs r hr := by cases noret <;> cases cas <;> simp [amoHalf] at hr ⊢ <;> tauto
  checks _ := rfl
theorem amoInt_accesses (wide noret zx : Bool) (d a b : Reg) (f : Nat → Nat → Nat → Nat) :
    (amoInt wide noret zx d a b f).Accesses ⟨[a, b], fun t => (t.rd a).toNat, if wide then 8 else 4, true⟩ [d, a, b] := by
  unfold amoInt
  exact amoHalf_accesses ..
theorem amoFp_accesses (half noret : Bool) (d a b : Reg) (f : Nat → Nat → Nat → Nat × FFlags) :
    (amoFp half noret d a b f).Accesses ⟨[a, b], fun t => (t.rd a).toNat, if half then 2 else 4, true⟩ [d, a, b] := by
  unfold amoFp
  exact amoHalf_accesses ..
theorem amocas_accesses (wide noret : Bool) (d a b : Reg) :
    (halfAmocas wide noret d a b).Accesses ⟨[a, b], fun t => (t.rd a).toNat, if wide then 8 else 4, true⟩ [d, a, b] := by
  unfold halfAmocas
  exact amoHalf_accesses ..
/-- An atomic makes its access (R151). -/
theorem atomic_issues {i : Instr} {wide noret cas z : Bool} {d a b : Reg} (h : atomicRule i = some (wide, noret, d, a, b, cas, z)) :
    ∃ hs : Half, hs.Accesses ⟨[a, b], fun t => (t.rd a).toNat, if wide then 8 else 4, true⟩ [d, a, b] ∧ IssuesHalf i hs := by
  unfold atomicRule at h
  split at h
  all_goals simp only [Option.some.injEq, Prod.mk.injEq, reduceCtorEq] at h
  all_goals obtain ⟨rfl, rfl, rfl, rfl, rfl, rfl, rfl⟩ := h
  case h_10 => exact ⟨_, amocas_accesses .., fun _ => rfl⟩
  all_goals exact ⟨_, amoInt_accesses .., fun _ => rfl⟩
theorem atomicFloat_issues {i : Instr} {half noret : Bool} {d a b : Reg} {f : Nat → Nat → Nat × FFlags}
    (h : atomicFloatRule i = some (half, noret, d, a, b, f)) :
    ∃ hs : Half, hs.Accesses ⟨[a, b], fun t => (t.rd a).toNat, if half then 2 else 4, true⟩ [d, a, b] ∧ IssuesHalf i hs := by
  unfold atomicFloatRule at h
  split at h
  all_goals simp only [Option.some.injEq, Prod.mk.injEq, reduceCtorEq] at h
  all_goals
    obtain ⟨rfl, rfl, rfl, rfl, rfl, rfl⟩ := h
    exact ⟨_, amoFp_accesses .., fun _ => rfl⟩

/-- A failing check of an access is taken, the first of R144, and the bundle has no effect. -/
theorem State.Issues.accessTaken {s : State} {t : Thread} {i : Instr} {hs : Half} {m : Access} {rs : List Reg} {tr : Trap} (h : s.Issues t)
    (hi : IssuesHalf i hs) (ha : hs.Accesses m rs) (hc : t.Clear rs) (ht : accessTrap s.ctile (m.addr t) m.n m.ecc = some tr) :
    exec i s = .next (s.trapped tr) := by
  rw [hi s, h.checkTaken i ha.plain fun r hr => hc r (ha.regs r hr)]
  rw [ha.checks, firstTrap_access, h.cthr, ht]
/-- A bank that a region has claimed is stationary (R137, R209). -/
theorem Tile.stat_of_region {l : Tile} {n b : Nat} (hn : n < 8) (hst : (l.region n).st ≠ .free) (hb : (l.region n).b0 ≤ b)
    (he : b < (l.region n).b0 + (l.region n).kb * (l.region n).nb) : l.stat b = true := by
  rw [Tile.stat, List.any_eq_true]
  exact ⟨n, List.mem_range.mpr hn, by simp [Region.has, hst, hb, he]⟩

/-- Settles O9: every access rule makes its access, whose first failing check the issue takes; a claimed bank is stationary. -/
theorem accessTrapTaken : Obligations.AccessTrapTaken := by
  unfold Obligations.AccessTrapTaken
  constructor
  · intro i m ds hi s t tr h hc ht
    have taken {hs : Half} (hi : IssuesHalf i hs) (ha : hs.Accesses m (ds ++ m.regs)) : exec i s = .next (s.trapped tr) :=
      h.accessTaken hi ha hc ht
    rcases hi with ⟨d, e, w, hr, rfl⟩ | ⟨d, hr, rfl⟩ | ⟨f, d, c, a, hr, rfl⟩ | ⟨wide, noret, d, a, b, cas, z, hr, rfl, rfl⟩ |
      ⟨half, noret, d, a, b, f, hr, rfl, rfl⟩
    · obtain ⟨he, _, _, hi⟩ := load_issues hr
      exact taken hi (loadHalf_accesses _ _ _ _ he)
    · obtain ⟨he, hi⟩ := store_issues hr
      exact taken hi (storeHalf_accesses _ _ he)
    · obtain ⟨_, ha, hi⟩ := fullEmpty_issues hr
      exact taken hi ha
    · obtain ⟨_, ha, hi⟩ := atomic_issues hr
      exact taken hi ha
    · obtain ⟨_, ha, hi⟩ := atomicFloat_issues hr
      exact taken hi ha
  · intro l n b hn hst hb he
    have hs := Tile.stat_of_region hn hst hb he
    refine ⟨hs, fun a k ecc ha hsp hk => ?_⟩
    rw [accessTrap, if_neg (not_not.mpr hk), if_neg (Nat.not_le.mpr hsp), ha, if_pos hs]

end Sys2Proof.Machine
end

section
/-! Updates of one thread commute with the updates of its tile that leave the slots alone. -/
namespace Sys2Proof.Machine

theorem State.modThr_none {s : State} {x q : Nat} (h : s.thr x q = none) (f : Thread → Thread) : s.modThr x q f = s := by
  simp only [State.modThr, h]
theorem State.modThr_some {s : State} {x q : Nat} {t : Thread} (h : s.thr x q = some t) (f : Thread → Thread) :
    s.modThr x q f = s.setSlot x q { s.slot x q with thr := some (f t) } := by
  simp only [State.modThr, h]
theorem State.thr_modThr (s : State) (x q : Nat) (f : Thread → Thread) : (s.modThr x q f).thr x q = (s.thr x q).map f := by
  cases h : s.thr x q with
  | none => rw [State.modThr_none h, h]; rfl
  | some t => rw [State.modThr_some h, State.thr_setSlot _ (State.slot_lt h)]; rfl
theorem State.modThr_modThr (s : State) (x q : Nat) (f g : Thread → Thread) : (s.modThr x q f).modThr x q g = s.modThr x q (g ∘ f) := by
  cases h : s.thr x q with
  | none => simp only [State.modThr_none h]
  | some t =>
    have hq := State.slot_lt h
    rw [State.modThr_some h, State.modThr_some h, State.modThr_some (State.thr_setSlot _ hq), State.slot_setSlot _ hq, State.setSlot_setSlot]
    rfl
theorem State.modThr_modTile (s : State) (x q : Nat) (f : Thread → Thread) {g : Tile → Tile} (hs : ∀ l : Tile, (g l).slot q = l.slot q)
    (hg : ∀ (l : Tile) v, g (l.setSlot q v) = (g l).setSlot q v) : (s.modThr x q f).modTile x g = (s.modTile x g).modThr x q f := by
  have ht : (s.modTile x g).slot x q = s.slot x q := by rw [State.slot, State.tile_modTile, hs]; rfl
  cases h : s.thr x q with
  | none => rw [State.modThr_none h, State.modThr_none (by rw [State.thr, ht]; exact h)]
  | some t =>
    rw [State.modThr_some h, State.modThr_some (s := s.modTile x g) (by rw [State.thr, ht]; exact h), ht]
    unfold State.setSlot
    rw [State.modTile_modTile, State.modTile_modTile]
    exact congrArg (s.setTile x) (hg ..)
theorem State.modThr_modBelfry (s : State) (x q : Nat) (f : Thread → Thread) (g : Belfry → Belfry) :
    (s.modThr x q f).modBelfry g = (s.modBelfry g).modThr x q f := by
  unfold State.modThr
  rw [show (s.modBelfry g).thr x q = s.thr x q from rfl]
  split <;> rfl
theorem State.modThr_bump (s : State) (x q : Nat) (f : Thread → Thread) : (s.modThr x q f).bump = s.bump.modThr x q f := by
  unfold State.modThr
  rw [show s.bump.thr x q = s.thr x q from rfl]
  split <;> rfl
theorem State.tile_modThr_soft (s : State) (x q : Nat) (f : Thread → Thread) : ((s.modThr x q f).tile x).soft = (s.tile x).soft := by
  unfold State.modThr
  split
  · rw [State.setSlot, State.tile_modTile]; rfl
  · rfl
theorem State.modThr_scrub (s : State) (x q : Nat) (f : Thread → Thread) (a n : Nat) :
    (s.modThr x q f).scrub x a n = (s.scrub x a n).modThr x q f := by
  simp only [State.scrub, State.tile_modThr_soft]
  split
  · rfl
  · rw [State.modThr_modTile, State.modThr_modBelfry]
    · exact fun _ => rfl
    · exact fun _ _ => rfl

end Sys2Proof.Machine
end

section
/-! The mark that a bundle's wait marker leaves (02_encoding.md R46) is set before or after a V operation enters its window alike. -/
namespace Sys2Proof.Machine

/-- The thread with its wait mark set so. -/
def Thread.marked (m : Bool) (t : Thread) : Thread := { t with mark := m }
theorem Thread.marked_mark_read (t : Thread) (m : Bool) (a n : Nat) : (t.marked m).mark_read a n = (t.mark_read a n).marked m := by
  unfold Thread.mark_read
  rw [show (t.marked m).spec = t.spec from rfl]
  split
  · split <;> rfl
  · rfl
theorem Thread.marked_foldl_mark_read (m : Bool) (l : List Nat) (n : Nat) (t : Thread) :
    l.foldl (fun t a => t.mark_read a n) (t.marked m) = (l.foldl (fun t a => t.mark_read a n) t).marked m := by
  induction l generalizing t with
  | nil => rfl
  | cons a l ih => rw [List.foldl_cons, List.foldl_cons, Thread.marked_mark_read, ih]
theorem Thread.marked_launch (t : Thread) (m : Bool) (op : Nat) (rd : Option Reg) : (t.marked m).launch op rd = (t.launch op rd).marked m := by
  unfold Thread.launch
  cases rd with
  | none => rfl
  | some r =>
    dsimp only
    split <;> rfl
/-- The row count and the written primaries that a V operation leaves in its thread. -/
def Thread.sized (v : VIssue) (t : Thread) : Thread :=
  { t with vl := v.vl.getD t.vl, spec := t.spec.map fun (sp : Spec) => { sp with written := sp.written ++ v.written } }
/-- What a V operation that enters with number `id` leaves in its thread. -/
def Thread.entered (v : VIssue) (id : Nat) (t : Thread) : Thread :=
  ((v.reads.foldl (fun t a => t.mark_read a 1) (t.setWarn v.warn)).sized v).launch id v.gdst
theorem Thread.marked_entered (t : Thread) (m : Bool) (v : VIssue) (id : Nat) : (t.marked m).entered v id = (t.entered v id).marked m := by
  unfold Thread.entered
  rw [show (t.marked m).setWarn v.warn = (t.setWarn v.warn).marked m from rfl, Thread.marked_foldl_mark_read, ← Thread.marked_launch]
  rfl
/-- Window `w` of a tile after operation `v` with number `id` has entered it. -/
def Tile.entered (w : Nat) (v : VIssue) (id : Nat) (l : Tile) : Tile :=
  let u := l.win w
  l.setWin w { u with fds := v.fd.elim u.fds fun p => u.fds.setIfInBounds p.1 p.2, queue := u.queue ++ [{ v.entry with id := id }] }
/-- Operation `v` enters window `w` with the next number, its shape record read. -/
def State.vQueued (s : State) (x q w : Nat) (v : VIssue) : State :=
  (s.bump.modTile x (Tile.entered w v s.nextId)).modThr x q (Thread.entered v s.nextId)
theorem State.vEnter_of_none {s : State} {x q : Nat} {v : VIssue} (h : v.load = none) :
    s.vEnter x q v = s.vQueued x q ((s.thr x q).getD {}).win v := by
  simp only [State.vEnter, h]
  rfl
theorem State.vEnter_of_some {s : State} {x q a : Nat} {v : VIssue} (h : v.load = some a) :
    s.vEnter x q v = ((s.modThr x q fun t => t.mark_read a 32).scrub x a 32).vQueued x q ((s.thr x q).getD {}).win v := by
  simp only [State.vEnter, h]
  rfl
theorem State.vQueued_cur (s : State) (x q w : Nat) (v : VIssue) : (s.vQueued x q w v).cur = s.cur := State.modThr_cur ..
theorem State.scrub_cur (s : State) (x a n : Nat) : (s.scrub x a n).cur = s.cur := by
  unfold State.scrub
  dsimp only
  split <;> rfl
theorem State.vEnter_cur (s : State) (x q : Nat) (v : VIssue) : (s.vEnter x q v).cur = s.cur := by
  cases h : v.load with
  | none => rw [State.vEnter_of_none h, State.vQueued_cur]
  | some a => rw [State.vEnter_of_some h, State.vQueued_cur, State.scrub_cur, State.modThr_cur]
theorem State.marked_vQueued (s : State) (x q w : Nat) (v : VIssue) (m : Bool) :
    (s.modThr x q (Thread.marked m)).vQueued x q w v = (s.vQueued x q w v).modThr x q (Thread.marked m) := by
  unfold State.vQueued
  rw [State.modThr_nextId, State.modThr_bump, State.modThr_modTile, State.modThr_modThr, State.modThr_modThr]
  · exact congrArg _ (funext fun t => t.marked_entered m v s.nextId)
  · exact fun _ => rfl
  · exact fun _ _ => rfl
theorem State.marked_vEnter (s : State) (x q : Nat) (v : VIssue) (m : Bool) :
    (s.modThr x q (Thread.marked m)).vEnter x q v = (s.vEnter x q v).modThr x q (Thread.marked m) := by
  have hw : (((s.modThr x q (Thread.marked m)).thr x q).getD {}).win = ((s.thr x q).getD {}).win := by
    rw [State.thr_modThr]
    cases s.thr x q <;> rfl
  cases h : v.load with
  | none => rw [State.vEnter_of_none h, State.vEnter_of_none h, hw, State.marked_vQueued]
  | some a =>
    have hr : (fun t : Thread => t.mark_read a 32) ∘ Thread.marked m = Thread.marked m ∘ fun t => t.mark_read a 32 :=
      funext fun t => t.marked_mark_read m a 32
    rw [State.vEnter_of_some h, State.vEnter_of_some h, hw, State.modThr_modThr, hr, ← State.modThr_modThr, State.modThr_scrub,
      State.marked_vQueued]

end Sys2Proof.Machine
end

section
/-! A false guard retires the S half (02_encoding.md R57, R59): the V half issues by itself. -/
namespace Sys2Proof.Machine

/-- Only `MRDV` needs a window in the S half. -/
theorem vec_halfOf {i : Instr} (h : (halfOf i).vec = true) : ∃ a, i = .mrdv a := by
  cases i with
  | mrdv a => exact ⟨a, rfl⟩
  | _ => exact absurd h Bool.false_ne_true
/-- A false guard leaves what an empty S half would, where the ILLOP of R59 does not come in between. -/
theorem State.issue_guardOff {s : State} {lent wait : Bool} {w : W64} {hs hv : Half} (h : hs.vec = false ∨ s.cthr.compute = true) :
    s.issue lent w wait false hs hv = s.issue lent w wait true Half.none hv := by
  have hb : bundleTraps w false hs hv s = bundleTraps w true Half.none hv s := by
    have hv : ((hs.vec || hv.vec) && !s.cthr.compute) = ((Half.none.vec || hv.vec) && !s.cthr.compute) := by
      rcases h with h | h <;> simp [h, Half.none]
    unfold bundleTraps
    dsimp only
    rw [hv, if_neg Bool.false_ne_true, if_pos rfl]
    rfl
  unfold State.issue
  rw [hb]
  rfl
/-- The failing checks of a V operation alone. -/
theorem State.Issues.trapsV {s : State} {t : Thread} (h : s.Issues t) (w : W64) {hv : Half} (hc : t.Clear (hv.srcs ++ hv.dsts))
    (hvec : hv.vec = true → t.compute = true) (hk : hv.checks s = []) : bundleTraps w true Half.none hv s = [] := by
  have v : ((Half.none.vec || hv.vec) && !t.compute) = false := by
    cases e : hv.vec with
    | false => rfl
    | true => simp [hvec e]
  have n : t.hazards (Half.none.srcs ++ Half.none.dsts) = [] := t.hazards_nil
  simp only [bundleTraps, h.cthr, v, n, hk, hc.none, Bool.false_eq_true, ↓reduceIte, List.nil_append, List.append_nil]
  rfl
/-- A V operation alone that passes every check runs on the counted issue. -/
theorem State.Issues.runV {s : State} {t : Thread} (h : s.Issues t) (w : W64) (wait : Bool) {o : VOp}
    (hc : t.Clear (vGSrcs o ++ (vGDst o).toList)) (hvec : o.kind ≠ .vnop → t.compute = true) (hk : vChecks o s = [])
    (hg : t.speculative = true → vAct o s = .go) :
    s.issue false w wait true Half.none (halfV o) = vEff o s (s.issued { t.stepped with mark := wait }) :=
  h.run (h.trapsV w hc (fun e => hvec (by simpa [halfV] using e)) hk) (fun e => ⟨rfl, hg e⟩) rfl rfl rfl
/-- The wait marker is set before or after the effect of a V operation alike. -/
theorem State.vEff_marked (o : VOp) (pre u : State) (m : Bool) :
    vEff o pre (u.modCur (Thread.marked m)) = (vEff o pre u).modCur (Thread.marked m) := by
  unfold vEff
  split
  · rfl
  · simp only [State.modCur, State.tx, State.sx, State.modThr_cur, State.vEnter_cur]
    exact State.marked_vEnter ..
/-- A V instruction issues its operation alone. -/
theorem exec_of_vop {i : Instr} {o : VOp} (h : i.vop = some o) (s : State) : exec i s = .next (s.runV o) := by
  unfold Instr.vop at h
  split at h <;> cases h
  all_goals rfl

end Sys2Proof.Machine
end

section
/-! The failing checks of a V operation are all of a later rank than ILLOP (06_associative.md R185, R187; 02_encoding.md R59). -/
namespace Sys2Proof.Machine

theorem trapA_rank (a : Nat) (c : Bool) : ∀ x ∈ trapA a c, 2 ≤ x.rank := by
  unfold trapA
  split <;> simp
theorem trapB_rank (v : W64) (c : Bool) : ∀ x ∈ trapB v c, 2 ≤ x.rank := by
  unfold trapB
  split <;> simp
theorem Tile.span_rank (l : Tile) (a n align : Nat) (ecc : Bool) : ∀ x ∈ l.span a n align ecc, 2 ≤ x.rank := by
  unfold Tile.span
  simp only [List.forall_mem_append]
  refine ⟨by split <;> simp, ?_⟩
  split
  · simp
  · simp only [List.forall_mem_append]
    refine ⟨by split <;> simp, ?_⟩
    split
    · split <;> simp
    · simp
theorem Tile.byteTraps_rank (l : Tile) (bs : List Nat) : ∀ x ∈ l.byteTraps bs, 2 ≤ x.rank := by
  unfold Tile.byteTraps
  simp only [List.forall_mem_append]
  exact ⟨by split <;> simp, by split <;> simp⟩
theorem Thread.hazards_rank (t : Thread) (rs : List Reg) : ∀ x ∈ t.hazards rs, 2 ≤ x.rank := by
  unfold Thread.hazards
  split <;> simp
theorem vChecks_rank (o : VOp) (s : State) : ∀ x ∈ vChecks o s, 2 ≤ x.rank := by
  have both {l₁ l₂ : List Trap} (h₁ : ∀ x ∈ l₁, 2 ≤ x.rank) (h₂ : ∀ x ∈ l₂, 2 ≤ x.rank) : ∀ x ∈ l₁ ++ l₂, 2 ≤ x.rank :=
    List.forall_mem_append.mpr ⟨h₁, h₂⟩
  unfold vChecks
  dsimp only
  split
  case h_1 | h_2 =>
    split
    · simp
    · exact trapB_rank _ _
  case h_3 => exact both (trapA_rank _ _) (Tile.span_rank _ _ _ _ _)
  case h_10 => simp
  all_goals
    split
    · simp
    · split
      · split
        · exact both (both (trapA_rank _ _) (trapA_rank _ _)) (Tile.byteTraps_rank _ _)
        · refine both (both (both (trapA_rank _ _) (trapA_rank _ _)) (Tile.byteTraps_rank _ _)) ?_
          split <;> simp
      · exact both (trapA_rank _ _) (Tile.byteTraps_rank _ _)

end Sys2Proof.Machine
end

section
/-! The halves of the instructions whose operands O21 speaks of (02_encoding.md R55, R56; 04_scalar.md R102, R115 to R124). -/
namespace Sys2Proof.Machine

/-- What O21 needs of a half: the registers it reads and writes, and that it makes no check but HAZARD. -/
structure Half.Names (h : Half) (l ds : List Reg) : Prop where
  plain : h.Plain
  srcs : h.srcs = l
  dsts : h.dsts = ds
  checks : ∀ s, h.checks s = []

/-- A two-operand instruction reads its operands and writes its destination (R115, R117). -/
theorem binary_issues {i : Instr} {k : Binary} {d a : Reg} {b : Reg ⊕ BitVec 32} (h : Binary.of i = some (k, d, a, b)) :
    ∃ hs : Half, IssuesHalf i hs ∧ hs.Names (a :: operandRegs b) [d] := by
  unfold Binary.of at h
  split at h <;> cases h
  all_goals exact ⟨_, fun _ => rfl, ⟨fun _ => rfl, rfl⟩, rfl, rfl, fun _ => rfl⟩
/-- An instruction of `registerRule` reads the registers that it names there and writes its destination. -/
theorem register_issues {i : Instr} {l : List Reg} {d : Reg} {f : Thread → W64} (h : registerRule i = some (l, d, f)) :
    ∃ hs : Half, IssuesHalf i hs ∧ hs.Names l [d] := by
  unfold registerRule at h
  split at h
  all_goals simp only [Option.some.injEq, Prod.mk.injEq, reduceCtorEq] at h
  all_goals
    obtain ⟨rfl, rfl, rfl⟩ := h
    exact ⟨_, fun _ => rfl, ⟨fun _ => rfl, rfl⟩, rfl, rfl, fun _ => rfl⟩
/-- A compare reads its operands and writes no register (R123). -/
theorem compare_issues {i : Instr} {p q : Pred} {a : Reg} {b : Reg ⊕ BitVec 32} {z : Bool} {f : W64 → W64 → Bool}
    (h : compareRule i = some (p, q, a, b, z, f)) : ∃ hs : Half, IssuesHalf i hs ∧ hs.Names (a :: operandRegs b) [] := by
  unfold compareRule at h
  split at h
  all_goals simp only [Option.some.injEq, Prod.mk.injEq, reduceCtorEq] at h
  all_goals
    obtain ⟨rfl, rfl, rfl, rfl, rfl, rfl⟩ := h
    exact ⟨_, fun _ => rfl, ⟨fun _ => rfl, rfl⟩, rfl, rfl, fun _ => rfl⟩

end Sys2Proof.Machine
end

section
/-! Issue of a bundle: words that are none, `NOP`, a false guard, pending registers (02_encoding.md R55 to R63). -/
namespace Sys2Proof.Machine

/-- A word that is no bundle takes ILLOP with its bits (R63). -/
theorem State.Issues.illegal {s : State} {t : Thread} (h : s.Issues t) (w : W64) :
    exec (.illegalEncoding w) s = .next (s.trapped ⟨2, 1, w⟩) := by
  show Host.Outcome.next (s.issueIllegal false w) = _
  unfold State.issueIllegal
  simp only [h.cthr, h.noCause, Bool.false_eq_true, ↓reduceIte, State.trapped]
  rfl
theorem State.Issues.nop {s : State} {t : Thread} (h : s.Issues t) : exec .nop s = .next (s.issued t.stepped) :=
  congrArg Host.Outcome.next
    (h.runS .nop halfNop (fun _ hr => by cases hr) (fun e => by cases e) (fun e => by cases e) rfl (fun _ => rfl) rfl rfl)
/-- The bundle of a word under a false guard issues its V half alone (R57). -/
theorem State.Issues.issueWord_guardOff {s : State} {t : Thread} (h : s.Issues t) {w : W64} {b : Bundle} (hd : decode w = .ok b)
    (hg : guardHolds t b = false) (hm : t.compute = true ∨ ∀ a, b.s ≠ .mrdv a) :
    s.issueWord false w = s.issue false w b.wait true Half.none (halfV b.v) := by
  have hv : (halfOf b.s).vec = false ∨ s.cthr.compute = true := by
    rw [h.cthr]
    refine hm.symm.imp_left fun hn => ?_
    by_contra hvec
    obtain ⟨a, ha⟩ := vec_halfOf (Bool.not_eq_false _ ▸ hvec)
    exact hn a ha
  unfold State.issueWord
  rw [hd]
  dsimp only
  rw [h.cthr, hg, State.issue_guardOff hv]
/-- `MRDV` in a control thread is ILLOP even under a false guard (R59, log 29). -/
theorem State.Issues.issueWord_mrdv {s : State} {t : Thread} (h : s.Issues t) {w : W64} {b : Bundle} (hd : decode w = .ok b)
    (hg : guardHolds t b = false) (hc : t.compute = false) {a : Reg} (ha : b.s = .mrdv a) : s.issueWord false w = s.trapped ⟨2, 1, w⟩ := by
  unfold State.issueWord
  rw [hd]
  dsimp only
  rw [h.cthr, hg, ha]
  refine h.trap ?_
  have hvec : (((halfOf (.mrdv a)).vec || (halfV b.v).vec) && !t.compute) = true := by
    rw [hc]
    rfl
  simp only [bundleTraps, h.cthr, hvec, ↓reduceIte, Bool.false_eq_true, List.append_nil, List.cons_append, List.nil_append]
  exact firstTrap_cons_of_le (List.forall_mem_append.mpr ⟨t.hazards_rank _, vChecks_rank _ s⟩)
theorem vAct_vnop (s : State) : vAct .vnop s = .go := by
  have : s.cthr.primaries (vFDsts .vnop) = true := by
    unfold Thread.primaries
    cases s.cthr.spec <;> rfl
  exact if_pos this
/-- One pending register that the half names raises HAZARD with its number (R56). -/
theorem State.Issues.pendingTaken {s : State} {t : Thread} {i : Instr} {hs : Half} {rs : List Reg} {r : Reg} (h : s.Issues t)
    (hi : IssuesHalf i hs) (hp : hs.Plain) (hn : ∀ q, q ∈ hs.srcs ++ hs.dsts ↔ q ∈ rs) (hk : ∀ x ∈ hs.checks s, 4 ≤ x.rank)
    (hm : r ∈ rs) (hr : t.pending r = true) (hu : ∀ q ∈ rs, t.pending q = true → q = r) :
    exec i s = .next (s.trapped ⟨4, 2, r.zeroExtend 64⟩) := by
  rw [hi s, h.hazardTaken i hp ((hn r).mpr hm) hr (fun q hq => hu q ((hn q).mp hq)) hk]

/-- Settles O21: a word that is none, `NOP`, the three cases of a false guard, and the rules whose half names its registers. -/
theorem issueOfABundle : Obligations.IssueOfABundle := by
  unfold Obligations.IssueOfABundle
  refine ⟨fun s t h => ⟨h.illegal, h.nop⟩, fun s t w b h hd hg => ⟨?_, ?_, ?_⟩, ?_⟩
  · intro hv hm
    rw [h.issueWord_guardOff hd hg hm, hv]
    exact h.runV w b.wait (fun _ hr => by cases hr) (fun e => absurd rfl e) rfl fun _ => vAct_vnop s
  · intro hc a ha
    exact h.issueWord_mrdv hd hg hc ha
  · intro i hi _ hc hs hp hk
    have hsp : ¬ t.speculative = true := by simp [Thread.speculative, hs]
    refine ⟨vEff b.v s (s.issued t.stepped), ?_, ?_⟩
    · rw [exec_of_vop hi, State.runV, State.issueV, h.runV _ false hp (fun _ => hc) hk (fun e => absurd e hsp)]
      rfl
    · rw [h.issueWord_guardOff hd hg (.inl hc), h.runV w b.wait hp (fun _ => hc) hk (fun e => absurd e hsp)]
      rw [show (fun t : Thread => { t with mark := b.wait }) = Thread.marked b.wait from rfl, ← State.vEff_marked, h.modCur_issued]
      rfl
  · intro i rs hi s t r h hm hr hu
    have taken {hs : Half} (hi : IssuesHalf i hs) (hp : hs.Plain) (hn : ∀ q, q ∈ hs.srcs ++ hs.dsts ↔ q ∈ rs)
        (hk : ∀ x ∈ hs.checks s, 4 ≤ x.rank) := h.pendingTaken hi hp hn hk hm hr hu
    have named {hs : Half} {l ds : List Reg} (hi : IssuesHalf i hs) (hn : hs.Names l ds) (he : ∀ q, q ∈ l ++ ds ↔ q ∈ rs) :=
      taken hi hn.plain (by rw [hn.srcs, hn.dsts]; exact he) (by simp [hn.checks])
    rcases hi with ⟨k, d, a, b, hb, rfl⟩ | ⟨l, d, f, hb, rfl⟩ | ⟨p, q, a, b, z, f, hb, rfl⟩ | ⟨m, d, e, w, hb, rfl⟩ | ⟨m, d, hb, rfl⟩
    · obtain ⟨_, hi, hn⟩ := binary_issues hb
      exact named hi hn fun q => by simp; tauto
    · obtain ⟨_, hi, hn⟩ := register_issues hb
      exact named hi hn fun q => by simp [or_comm]
    · obtain ⟨_, hi, hn⟩ := compare_issues hb
      exact named hi hn fun q => by simp
    · obtain ⟨-, _, _, hi⟩ := load_issues hb
      exact taken hi ⟨fun _ => rfl, rfl⟩ (fun q => by simp [loadHalf, or_comm]) (Tile.access_rank _ _ _ _)
    · obtain ⟨-, hi⟩ := store_issues hb
      exact taken hi ⟨fun _ => rfl, rfl⟩ (fun q => by simp [storeHalf]) (Tile.access_rank _ _ _ _)

end Sys2Proof.Machine
end

section
/-! Taking a trap at issue (02_encoding.md R59, R97; 13_system.md R399). -/
namespace Sys2Proof.Machine

/-- The issue leaves everything of the tile but its slots as it is. -/
theorem State.tile_issued (s : State) (t : Thread) : (s.issued t).tile s.tx = s.ctile.setSlot s.sx
    { s.slot s.tx s.sx with thr := some t, wdogCount := (s.slot s.tx s.sx).wdogCount + 1 } := State.tile_modTile ..
/-- Outside speculation and outside a handler a trap enters the handler at the tile's vector (R97). -/
theorem State.Issues.takeTrap_issued {s : State} {t u : Thread} (h : s.Issues t) (hs : u.speculative = false) (ht : u.tact = false) (tr : Trap) :
    (s.issued u).takeTrap tr = s.issued (u.trapEntry s.ctile.tvec tr) := by
  simp only [State.takeTrap, h.cthr_issued, hs, ht, Bool.false_eq_true, ↓reduceIte, h.modCur_issued, State.tx_issued, State.tile_issued,
    Tile.setSlot_tvec]

/-- Settles O17: the issue of a decoded word takes its first failing check, and the entry writes the saved state of R97. -/
theorem trapEntry : Obligations.TrapEntry := by
  unfold Obligations.TrapEntry
  intro s t w b tr h hs ht hd hf
  have hissue : s.issueWord false w = s.issue false w b.wait (guardHolds t b) (halfOf b.s) (halfV b.v) := by
    unfold State.issueWord
    rw [hd, h.cthr]
  rw [hissue, h.trap hf, State.trapped, h.count]
  exact h.takeTrap_issued (u := { t with issOwn := t.issOwn + 1 }) hs ht tr

end Sys2Proof.Machine
end

section
/-! The words that the two-operand integer instructions compute are those of the tables (04_scalar.md R94, R115, R117, R118). -/
namespace Sys2Proof.Machine

@[simp] theorem wrapN_toNat (a : W64) : wrapN a.toNat = a := by simp [wrapN]
@[simp] theorem wrapI_toInt (a : W64) : wrapI a.toInt = a := BitVec.ofInt_toInt ..
theorem wrapI_natCast (n : Nat) : wrapI (n : Int) = wrapN n := BitVec.ofInt_natCast ..
theorem wrapI_mul (x y : Int) : wrapI (x * y) = wrapI x * wrapI y := BitVec.ofInt_mul ..
theorem wrapI_sub (x y : Int) : wrapI (x - y) = wrapI x - wrapI y := by
  rw [Int.sub_eq_add_neg, BitVec.sub_eq_add_neg]
  exact (BitVec.ofInt_add ..).trans (congrArg _ BitVec.ofInt_neg)
theorem wrapN_add (x y : Nat) : wrapN (x + y) = wrapN x + wrapN y := BitVec.ofNat_add ..
theorem wrapN_mul (x y : Nat) : wrapN (x * y) = wrapN x * wrapN y := BitVec.ofNat_mul ..
theorem shiftLeft_eq_wrapN (a : W64) (n : Nat) : a <<< n = wrapN (a.toNat * 2 ^ n) := by
  apply BitVec.eq_of_toNat_eq
  rw [BitVec.toNat_shiftLeft, Nat.shiftLeft_eq, wrapN, BitVec.toNat_ofNat]
theorem ushiftRight_eq_wrapN (a : W64) (n : Nat) : a >>> n = wrapN (a.toNat / 2 ^ n) := by
  rw [← Nat.shiftRight_eq_div_pow, ← BitVec.toNat_ushiftRight, wrapN_toNat]
theorem sshiftRight_eq_wrapI (a : W64) (n : Nat) : a.sshiftRight n = wrapI (a.toInt / 2 ^ n) := by
  rw [← wrapI_toInt (a.sshiftRight n), BitVec.toInt_sshiftRight, Int.shiftRight_eq_div_pow]
  norm_cast
/-- The two parts of a rotated word have no bit in common, so their sum joins them. -/
theorem rotateRight_eq_wrapN (a : W64) {n : Nat} (hn : n < 64) : a.rotateRight n = wrapN (a.toNat / 2 ^ n + a.toNat * 2 ^ (64 - n)) := by
  have disjoint : a >>> n &&& a <<< (64 - n) = 0#64 := by
    ext i hi
    simp only [BitVec.getElem_and, BitVec.getElem_ushiftRight, BitVec.getElem_shiftLeft, BitVec.getElem_zero, Bool.and_eq_false_imp]
    intro ha
    have := BitVec.lt_of_getLsbD ha
    simp
    omega
  rw [wrapN_add, ← ushiftRight_eq_wrapN, ← shiftLeft_eq_wrapN, BitVec.add_eq_or_of_and_eq_zero _ _ disjoint, BitVec.rotateRight_def,
    Nat.mod_eq_of_lt hn]
/-- A remainder is what a multiple of the divisor leaves, the quotient taken as a word. -/
theorem wrapI_rem (a b q : W64) : wrapI (a.toInt - b.toInt * q.toInt) = a - b * q := by
  rw [wrapI_sub, wrapI_mul, wrapI_toInt, wrapI_toInt, wrapI_toInt]
theorem wrapI_remz (a b q : W64) : wrapI (a.toNat - b.toNat * q.toNat) = a - b * q := by
  rw [wrapI_sub, wrapI_mul, wrapI_natCast, wrapI_natCast, wrapI_natCast, wrapN_toNat, wrapN_toNat, wrapN_toNat]

/-- What the model computes for a row of R115 and R117. -/
def Binary.op : Binary → W64 → W64 → W64
  | .add => (· + ·)
  | .sub => (· - ·)
  | .and => (· &&& ·)
  | .or => (· ||| ·)
  | .xor => (· ^^^ ·)
  | .andn => fun a b => a &&& ~~~b
  | .orn => fun a b => a ||| ~~~b
  | .xnor => fun a b => ~~~(a ^^^ b)
  | .sll => opSll
  | .srl => opSrl
  | .sra => opSra
  | .ror => opRor
  | .min => opMin
  | .max => opMax
  | .minz => opMinz
  | .maxz => opMaxz
  | .mul => (· * ·)
  | .mulh => opMulh
  | .mulhz => opMulhz
  | .mulhsz => opMulhsz
  | .div => opDiv
  | .divz => opDivz
  | .rem => opRem
  | .remz => opRemz

/-- A comparison that decides between two words may be strict or not where equal operands make the words equal. -/
theorem ite_lt_eq_ite_le {β : Type} [LinearOrder β] {x y : β} {c d : W64} (h : x = y → c = d) :
    (if x < y then c else d) = if x ≤ y then c else d := by
  rcases lt_trichotomy x y with hlt | heq | hgt
  · rw [if_pos hlt, if_pos hlt.le]
  · rw [h heq, ite_self, ite_self]
  · rw [if_neg hgt.not_gt, if_neg hgt.not_ge]
theorem opMin_eq (a b : W64) : opMin a b = Binary.y .min a b := by
  simpa [opMin, Binary.y, BitVec.slt] using ite_lt_eq_ite_le BitVec.eq_of_toInt_eq
theorem opMax_eq (a b : W64) : opMax a b = Binary.y .max a b := by
  simpa [opMax, Binary.y, BitVec.slt] using ite_lt_eq_ite_le fun h => (BitVec.eq_of_toInt_eq h).symm
theorem opMinz_eq (a b : W64) : opMinz a b = Binary.y .minz a b := by
  simpa [opMinz, Binary.y, BitVec.ult] using ite_lt_eq_ite_le BitVec.eq_of_toNat_eq
theorem opMaxz_eq (a b : W64) : opMaxz a b = Binary.y .maxz a b := by
  simpa [opMaxz, Binary.y, BitVec.ult] using ite_lt_eq_ite_le fun h => (BitVec.eq_of_toNat_eq h).symm
theorem opRem_eq (a b : W64) : opRem a b = Binary.y .rem a b := by
  simp only [opRem, Binary.y, wrapI_rem]
  by_cases h : b = 0
  · simp [h]
  · simp only [h, if_false, Int.tmod_def]
    exact (wrapI_sub ..).trans (by rw [wrapI_mul, wrapI_toInt, wrapI_toInt])
theorem opRemz_eq (a b : W64) : opRemz a b = Binary.y .remz a b := by
  simp only [opRemz, Binary.y, wrapI_remz]
  by_cases h : b = 0
  · simp [h]
  · have hsum : b * wrapN (a.toNat / b.toNat) + wrapN (a.toNat % b.toNat) = a := by
      rw [← wrapN_toNat b, ← wrapN_mul, ← wrapN_add, wrapN_toNat, Nat.div_add_mod, wrapN_toNat]
    simp only [h, if_false]
    exact eq_sub_of_add_eq' hsum
theorem Binary.op_eq_y (k : Binary) (a b : W64) : k.op a b = k.y a b := by
  have hn : b.toNat % 64 < 64 := Nat.mod_lt _ (by decide)
  cases k with
  | add => simp [Binary.op, Binary.y, wrapN_add]
  | sub => simp [Binary.op, Binary.y, wrapI_sub, wrapI_natCast]
  | and | or | xor | andn | orn | xnor | mulh | mulhz | mulhsz => rfl
  | sll => exact shiftLeft_eq_wrapN ..
  | srl => exact ushiftRight_eq_wrapN ..
  | sra => exact sshiftRight_eq_wrapI ..
  | ror => exact rotateRight_eq_wrapN a hn
  | min => exact opMin_eq ..
  | max => exact opMax_eq ..
  | minz => exact opMinz_eq ..
  | maxz => exact opMaxz_eq ..
  | mul => simp [Binary.op, Binary.y, wrapI_mul]
  | div | divz => rfl
  | rem => exact opRem_eq ..
  | remz => exact opRemz_eq ..

end Sys2Proof.Machine
end

section
/-! Words put together from their parts: extensions, bit counts, planes, fields (03_numbers.md R94, R102; 04_scalar.md R116 to R122). -/
namespace Sys2Proof.Machine

/-! Extensions and immediates. -/
theorem sextN_eq_ruleSext {n : Nat} (hn : n ≤ 64) (b : Nat) : sextN n b = ruleSext b n := by
  obtain rfl | ⟨m, rfl⟩ : n = 0 ∨ ∃ m, n = m + 1 := by cases n <;> simp
  · simp [sextN, ruleSext, wrapI, Int.bmod_one]
  have hle : 2 ^ (m + 1) ≤ 2 ^ 64 := Nat.pow_le_pow_right (by decide) hn
  have hr : b % 2 ^ (m + 1) < 2 ^ (m + 1) := Nat.mod_lt _ (Nat.two_pow_pos _)
  have hhalf : ((2 ^ (m + 1) : Nat) + 1 : Int) / 2 = (2 ^ m : Nat) := by rw [pow_succ]; omega
  simp only [sextN, ruleSext, Nat.add_one_ne_zero, if_false, Nat.add_sub_cancel, Int.bmod_def]
  rw [show ((2 ^ (m + 1) : Nat) : Int) = (2 ^ (m + 1) : Nat) from rfl, hhalf, ← Int.natCast_emod]
  simp only [Int.ofNat_lt]
  split
  · exact (wrapI_natCast _).symm
  · have : ((2 ^ 64 + b % 2 ^ (m + 1) - 2 ^ (m + 1) : Nat) : Int) = (b % 2 ^ (m + 1) : Nat) - (2 ^ (m + 1) : Nat) + (2 ^ 64 : Nat) := by omega
    show wrapN _ = wrapI _
    rw [← wrapI_natCast, this]
    exact (BitVec.ofInt_add ..).trans (BitVec.add_zero _)
theorem signExtend_eq_ruleSext {n : Nat} (b : BitVec n) : b.signExtend 64 = ruleSext b.toNat n := by
  rw [ruleSext, ← BitVec.toInt_eq_toNat_bmod]
  rfl
theorem immS_eq (imm : BitVec 32) : immS imm = ruleS imm := signExtend_eq_ruleSext imm
theorem immZ_eq (imm : BitVec 32) : immZ imm = ruleZ imm := by
  simp [immZ, ruleZ, wrapN, BitVec.ofNat_toNat]
theorem sext_eq_ruleSext {n : Nat} (hn : n ≤ 64) (v : W64) : sext n v = ruleSext v.toNat n := sextN_eq_ruleSext hn _

/-! Sums of bits. -/
theorem length_filter_eq_sum {α : Type} (l : List α) (p : α → Bool) : (l.filter p).length = (l.map fun i => (p i).toNat).sum := by
  induction l with
  | nil => rfl
  | cons a l ih => cases h : p a <;> simp [h, ih, Nat.add_comm]
/-- The low `n` bits of a number, each at its place. -/
theorem sum_bits (x n : Nat) : ((List.range n).map fun i => x / 2 ^ i % 2 * 2 ^ i).sum = x % 2 ^ n := by
  induction n with
  | zero => simp [Nat.mod_one]
  | succ n ih => rw [List.range_succ, List.map_append, List.sum_append, ih, Nat.mod_pow_succ]; simp [Nat.mul_comm]
/-- Parts of `w` bits, side by side from the lowest. -/
def joined (w : Nat) (f : Nat → Nat) (n : Nat) : Nat := ((List.range n).map fun i => f i * 2 ^ (w * i)).sum
theorem joined_succ (w : Nat) (f : Nat → Nat) (n : Nat) : joined w f (n + 1) = joined w f n + f n * 2 ^ (w * n) := by
  simp [joined, List.range_succ]
theorem joined_lt {w : Nat} {f : Nat → Nat} (hf : ∀ i, f i < 2 ^ w) (n : Nat) : joined w f n < 2 ^ (w * n) := by
  induction n with
  | zero => simp [joined]
  | succ n ih =>
    calc joined w f (n + 1) = joined w f n + f n * 2 ^ (w * n) := joined_succ ..
      _ < 2 ^ (w * n) + f n * 2 ^ (w * n) := by omega
      _ = (f n + 1) * 2 ^ (w * n) := by ring
      _ ≤ 2 ^ w * 2 ^ (w * n) := Nat.mul_le_mul_right _ (hf n)
      _ = 2 ^ (w * (n + 1)) := by ring
/-- Joining two numbers that have no bit in common is adding them. -/
theorem wrapN_or {n b : Nat} (h : b < 2 ^ n) (a : Nat) : wrapN b ||| wrapN (a * 2 ^ n) = wrapN (b + a * 2 ^ n) := by
  rw [Nat.add_comm, Nat.mul_comm, Nat.two_pow_add_eq_or_of_lt h, wrapN, wrapN, wrapN, BitVec.ofNat_or, BitVec.or_comm]
theorem foldl_or_shift {w : Nat} {f : Nat → Nat} (hf : ∀ i, f i < 2 ^ w) (n : Nat) :
    (List.range n).foldl (fun y i => y ||| (wrapN (f i) <<< (w * i))) 0 = wrapN (joined w f n) := by
  have shift (a k : Nat) : wrapN a <<< k = wrapN (a * 2 ^ k) := by
    rw [shiftLeft_eq_wrapN, wrapN_mul, wrapN_toNat, wrapN_mul]
  induction n with
  | zero => rfl
  | succ n ih => rw [List.range_succ, List.foldl_append, ih, joined_succ, ← wrapN_or (joined_lt hf n), ← shift]; rfl

/-! Counts. -/
theorem opClz_eq (a : W64) : opClz a = wrapN ((List.range 64).filter fun i => a.toNat < 2 ^ i).length := by
  have hcount : ∀ l : Fin 64, ((List.range 64).filter fun i => decide (l.val < i)).length = 63 - l := by decide
  unfold opClz
  by_cases h : a = 0
  · subst h
    simp [wrapN]
  · have hne : a.toNat ≠ 0 := fun e => h (BitVec.eq_of_toNat_eq e)
    have hlog : Nat.log2 a.toNat < 64 := (Nat.log2_lt hne).2 a.isLt
    simp only [h, if_false, ← Nat.log2_lt hne]
    rw [hcount ⟨_, hlog⟩]
    rfl
/-- The first place with a property is the number of places up to which none has it. -/
theorem find_range_getD (p : Nat → Bool) (n : Nat) :
    ((List.range n).find? p).getD n = ((List.range n).filter fun i => decide (∀ k ≤ i, p k = false)).length := by
  induction n with
  | zero => rfl
  | succ n ih =>
    rw [List.range_succ, List.find?_append, List.filter_append, List.length_append, ← ih]
    cases h : (List.range n).find? p with
    | some j =>
      have hj := List.find?_some h
      have hlt : j < n := List.mem_range.1 (List.mem_of_find?_eq_some h)
      have : ¬ ∀ k ≤ n, p k = false := fun hall => by simp [hall j hlt.le] at hj
      simp [this]
    | none =>
      have hnone : ∀ k < n, p k = false := by simpa using h
      cases hp : p n with
      | true =>
        have : ¬ ∀ k ≤ n, p k = false := fun hall => by simp [hall n le_rfl] at hp
        simp [hp, this]
      | false =>
        have : ∀ k ≤ n, p k = false := fun k hk => (Nat.lt_or_eq_of_le hk).elim (hnone k) fun e => e ▸ hp
        have hkeep : ([n].filter fun i => decide (∀ k ≤ i, p k = false)) = [n] :=
          List.filter_eq_self.2 fun i hi => List.mem_singleton.1 hi ▸ decide_eq_true this
        rw [hkeep]
        simp [hp]
theorem mod_two_pow_eq_zero_iff (x i : Nat) : x % 2 ^ (i + 1) = 0 ↔ ∀ k ≤ i, x.testBit k = false := by
  constructor
  · intro h k hk
    have := Nat.testBit_mod_two_pow x (i + 1) k
    rw [h, Nat.zero_testBit, decide_eq_true (by omega), Bool.true_and] at this
    exact this.symm
  · intro h
    refine Nat.zero_of_testBit_eq_false fun k => ?_
    rw [Nat.testBit_mod_two_pow]
    by_cases hk : k < i + 1
    · simp [h k (by omega)]
    · simp [hk]
theorem opCtz_eq (a : W64) : opCtz a = wrapN ((List.range 64).filter fun i => a.toNat % 2 ^ (i + 1) = 0).length := by
  simp only [opCtz, find_range_getD, mod_two_pow_eq_zero_iff]
  rfl
theorem opPopc_eq (a : W64) : opPopc a = wrapN ((List.range 64).map fun i => a.toNat / 2 ^ i % 2).sum := by
  simp only [opPopc, length_filter_eq_sum, BitVec.getLsbD, Nat.toNat_testBit]
  rfl

/-! Bit planes. -/
theorem niSplit_eq (x : W64) :
    niSplit x = wrapN ((List.range 64).map fun i => x.toNat / 2 ^ (8 * (i % 8) + 7 - i / 8) % 2 * 2 ^ i).sum := by
  have hstep : (fun (y : W64) i => if x.getLsbD (8 * (i % 8) + 7 - i / 8) then y ||| (1#64 <<< i) else y) =
      fun y i => y ||| (wrapN (x.toNat / 2 ^ (8 * (i % 8) + 7 - i / 8) % 2) <<< (1 * i)) := by
    funext y i
    rw [BitVec.getLsbD, ← Nat.toNat_testBit, one_mul]
    cases x.toNat.testBit (8 * (i % 8) + 7 - i / 8) <;> simp [wrapN]
  rw [niSplit, hstep, foldl_or_shift (w := 1) (f := fun i => x.toNat / 2 ^ (8 * (i % 8) + 7 - i / 8) % 2) fun i => Nat.mod_lt _ (by decide)]
  simp only [joined, one_mul]
theorem foldl_double_add (f : Nat → Nat) (n : Nat) :
    (List.range n).foldl (fun b p => 2 * b + f p) 0 = ((List.range n).map fun p => f p * 2 ^ (n - 1 - p)).sum := by
  induction n with
  | zero => rfl
  | succ n ih =>
    have hmap : ((List.range n).map fun p => f p * 2 ^ (n - p)) = (List.range n).map fun p => 2 * (f p * 2 ^ (n - 1 - p)) :=
      List.map_congr_left fun p hp => by
        have : n - p = n - 1 - p + 1 := by have := List.mem_range.1 hp; omega
        rw [this]
        ring
    rw [List.range_succ, List.foldl_append, ih, List.map_append, List.sum_append]
    simp [hmap, List.sum_map_mul_left]
/-- The low byte of a sign-extended element. -/
theorem ruleSext_mod_byte (b k : Nat) : (ruleSext b k).toNat % 256 = (Int.bmod b (2 ^ k) % 256).toNat := by
  rw [ruleSext, wrapI, BitVec.toNat_ofInt]
  omega
theorem niJoin_eq (x : W64) {k : Nat} (hk : k ≤ 8) : niJoin x k = wrapN ((List.range 8).map fun j =>
    (Int.bmod (((List.range k).map fun p => x.toNat / 2 ^ (8 * p + j) % 2 * 2 ^ (k - 1 - p)).sum : Nat) (2 ^ k) % 256).toNat *
      2 ^ (8 * j)).sum := by
  have hbyte (j : Nat) : ((sextN k ((List.range k).foldl (fun b p => 2 * b + (x.getLsbD (8 * p + j)).toNat) 0)).toNat % 256) =
      (Int.bmod (((List.range k).map fun p => x.toNat / 2 ^ (8 * p + j) % 2 * 2 ^ (k - 1 - p)).sum : Nat) (2 ^ k) % 256).toNat := by
    rw [foldl_double_add, sextN_eq_ruleSext (by omega), ruleSext_mod_byte]
    simp only [BitVec.getLsbD, Nat.toNat_testBit]
  have hjoin := foldl_or_shift (w := 8) (f := fun j =>
    (sextN k ((List.range k).foldl (fun b p => 2 * b + (x.getLsbD (8 * p + j)).toNat) 0)).toNat % 256) (fun _ => Nat.mod_lt _ (by decide)) 8
  unfold niJoin
  split
  · subst k
    simp [wrapN]
  · simp only [joined, hbyte] at hjoin
    simp only [hbyte]
    exact hjoin

end Sys2Proof.Machine
end

section
/-! The integer instructions that write one register (O1, 04_scalar.md R115 to R124; 03_numbers.md R102). -/
namespace Sys2Proof.Machine

/-! What each computes is the rule's value. -/
theorem addx_eq (a b : W64) (n : Nat) : a + b <<< n = wrapN (a.toNat + b.toNat * 2 ^ n) := by
  rw [wrapN_add, wrapN_toNat, shiftLeft_eq_wrapN]
theorem addi_eq (a : W64) (imm : BitVec 9) : a + imm.signExtend 64 = wrapI (a.toNat + Int.bmod (imm.toNat : Int) 512) := by
  rw [signExtend_eq_ruleSext, wrapI, BitVec.ofInt_add, BitVec.ofInt_natCast, ← wrapN, wrapN_toNat]
  rfl
theorem lih_eq (i : BitVec 32) (old : W64) : (immZ i <<< 32) ||| zext 32 old = wrapN (i.toNat * 2 ^ 32 + old.toNat % 2 ^ 32) := by
  have hlow : old.toNat % 2 ^ 32 < 2 ^ 32 := Nat.mod_lt _ (by decide)
  rw [Nat.add_comm, ← wrapN_or hlow, BitVec.or_comm, immZ_eq, shiftLeft_eq_wrapN, wrapN_mul, ruleZ, wrapN_toNat, ← wrapN_mul]
  rfl
theorem pget_eq (t : Thread) : (t.p ||| 1).zeroExtend 64 =
    wrapN ((List.range 8).map fun n => if t.pr (BitVec.ofNat 3 n) then 2 ^ n else 0).sum := by
  have hbit : ∀ n ∈ List.range 8, (if t.pr (BitVec.ofNat 3 n) then 2 ^ n else 0) = (t.p ||| 1).toNat / 2 ^ n % 2 * 2 ^ n := by
    intro n hn
    have hpr : t.pr (BitVec.ofNat 3 n) = (t.p ||| 1).toNat.testBit n := by
      have hn := List.mem_range.1 hn
      simp only [Thread.pr, BitVec.testBit_toNat, BitVec.getLsbD_or]
      interval_cases n <;> simp
    rw [hpr, ← Nat.toNat_testBit]
    cases (t.p ||| 1).toNat.testBit n <;> simp
  rw [List.map_congr_left hbit, sum_bits, Nat.mod_eq_of_lt (t.p ||| 1).isLt]
  exact BitVec.ofNat_toNat ..|>.symm

/-! The halves that they issue. -/
/-- Operand b as the halves take it. -/
theorem Binary.b_eq (k : Binary) (t : Thread) (b : Reg ⊕ BitVec 32) :
    k.b t b = b.elim t.rd fun imm => if k.zMarked then immZ imm else immS imm := by
  cases b with
  | inl b => rfl
  | inr imm =>
    rw [Sum.elim_inr, immS_eq, immZ_eq]
    rfl
theorem binary_alu {i : Instr} {k : Binary} {d a : Reg} {b : Reg ⊕ BitVec 32} (h : Binary.of i = some (k, d, a, b)) :
    IssuesHalf i (.alu d (a :: operandRegs b) fun t => k.y (t.rd a) (k.b t b)) := by
  simp only [← Binary.op_eq_y, Binary.b_eq]
  unfold Binary.of at h
  split at h <;> cases h
  all_goals exact fun _ => rfl
theorem register_alu {i : Instr} {l : List Reg} {d : Reg} {f : Thread → W64} (h : registerRule i = some (l, d, f)) :
    IssuesHalf i (.alu d l f) := by
  unfold registerRule at h
  split at h
  all_goals simp only [Option.some.injEq, Prod.mk.injEq, reduceCtorEq] at h
  all_goals obtain ⟨rfl, rfl, rfl⟩ := h
  case h_1 => simp only [← addi_eq]; exact fun _ => rfl
  case h_2 => simp only [← opClz_eq]; exact fun _ => rfl
  case h_3 => simp only [← opCtz_eq]; exact fun _ => rfl
  case h_4 => simp only [← opPopc_eq]; exact fun _ => rfl
  case h_5 => simp only [← sext_eq_ruleSext (show 8 ≤ 64 by decide)]; exact fun _ => rfl
  case h_6 => simp only [← sext_eq_ruleSext (show 16 ≤ 64 by decide)]; exact fun _ => rfl
  case h_7 => simp only [← sext_eq_ruleSext (show 32 ≤ 64 by decide)]; exact fun _ => rfl
  case h_8 | h_9 | h_10 | h_11 => exact fun _ => rfl
  case h_12 | h_15 => simp only [← immS_eq]; exact fun _ => rfl
  case h_13 => simp only [← addx_eq]; exact fun _ => rfl
  case h_14 => simp only [← immS_eq, ← addx_eq]; exact fun _ => rfl
  case h_16 => simp only [← immZ_eq]; exact fun _ => rfl
  case h_17 => simp only [← lih_eq]; exact fun _ => rfl
  case h_18 => simp only [← niSplit_eq]; exact fun _ => rfl
  case h_19 => simp only [← niJoin_eq _ (Nat.min_le_right _ 8)]; exact fun _ => rfl
  case h_20 => simp only [← pget_eq]; exact fun _ => rfl

/-! Bit fields (R121). -/
/-- The bits of three parts side by side. -/
theorem testBit_three_parts {lo mid s n : Nat} (hlo : lo < 2 ^ s) (hmid : mid < 2 ^ n) (hi c : Nat) :
    (lo + mid * 2 ^ s + hi * 2 ^ (s + n)).testBit c =
      if c < s then lo.testBit c else if c < s + n then mid.testBit (c - s) else hi.testBit (c - (s + n)) := by
  have hlow : 2 ^ s * mid + lo < 2 ^ (s + n) := by
    calc 2 ^ s * mid + lo < 2 ^ s * (mid + 1) := by rw [Nat.mul_add]; omega
      _ ≤ 2 ^ s * 2 ^ n := Nat.mul_le_mul_left _ hmid
      _ = 2 ^ (s + n) := (pow_add ..).symm
  have hsum : lo + mid * 2 ^ s + hi * 2 ^ (s + n) = 2 ^ (s + n) * hi + (2 ^ s * mid + lo) := by ring
  rw [hsum, Nat.testBit_two_pow_mul_add _ hlow, Nat.testBit_two_pow_mul_add _ hlo]
  by_cases h : c < s
  · have : c < s + n := by omega
    simp [h, this]
  · simp [h]
theorem getLsbD_fieldMask {pos n i : Nat} (hi : i < 64) :
    (zext n (BitVec.allOnes 64) <<< pos).getLsbD i = (decide (pos ≤ i) && decide (i < pos + n)) := by
  have hones : (zext n (BitVec.allOnes 64)).getLsbD (i - pos) = decide (i - pos < n) := by
    have : i - pos < 64 := by omega
    rw [zext, zextN, BitVec.getLsbD_ofNat, Nat.testBit_mod_two_pow, BitVec.testBit_toNat, BitVec.getLsbD_allOnes]
    simp [this]
  rw [BitVec.getLsbD_shiftLeft, hones]
  by_cases hp : pos ≤ i
  · simp [hp, hi, Nat.sub_lt_iff_lt_add hp, Nat.add_comm n]
  · simp [hp, Nat.lt_of_not_le hp]
theorem bfi_eq (pos n : Nat) (old x : W64) :
    (old &&& ~~~(zext n (BitVec.allOnes 64) <<< pos)) ||| ((x <<< pos) &&& (zext n (BitVec.allOnes 64) <<< pos)) =
      wrapN (old.toNat / 2 ^ (pos + n) * 2 ^ (pos + n) + x.toNat % 2 ^ n * 2 ^ pos + old.toNat % 2 ^ pos) := by
  have hlow : old.toNat % 2 ^ pos < 2 ^ pos := Nat.mod_lt _ (Nat.two_pow_pos _)
  have hmid : x.toNat % 2 ^ n < 2 ^ n := Nat.mod_lt _ (Nat.two_pow_pos _)
  have hsum : old.toNat / 2 ^ (pos + n) * 2 ^ (pos + n) + x.toNat % 2 ^ n * 2 ^ pos + old.toNat % 2 ^ pos =
      old.toNat % 2 ^ pos + x.toNat % 2 ^ n * 2 ^ pos + old.toNat / 2 ^ (pos + n) * 2 ^ (pos + n) := by ring
  apply BitVec.eq_of_getLsbD_eq
  intro i hi
  rw [hsum, wrapN, BitVec.getLsbD_ofNat, testBit_three_parts hlow hmid]
  simp only [BitVec.getLsbD_or, BitVec.getLsbD_and, BitVec.getLsbD_not, BitVec.getLsbD_shiftLeft, getLsbD_fieldMask hi, Nat.testBit_mod_two_pow,
    Nat.testBit_div_two_pow, BitVec.testBit_toNat]
  by_cases hp : i < pos
  · have : i < pos + n := by omega
    simp [hp, this, hi]
  · by_cases hq : i < pos + n
    · have : i - pos < n := by omega
      simp [hp, hq, hi, this, Nat.le_of_not_lt hp]
    · simp [hp, hq, hi, Nat.sub_add_cancel (Nat.le_of_not_lt hq)]

/-! The results. -/
theorem Thread.Clear.subset {t : Thread} {l m : List Reg} (h : t.Clear m) (hs : l ⊆ m) : t.Clear l := fun r hr => h r (hs hr)
theorem Thread.wr_restore (t : Thread) (d : Reg) (v : W64) : { t.wr d v with g := t.g } = t := by
  unfold Thread.wr
  split <;> rfl
theorem State.Issues.alu_result {s : State} {t : Thread} (h : s.Issues t) {i : Instr} {d : Reg} {l : List Reg} {f : Thread → W64}
    (hi : IssuesHalf i (.alu d l f)) (hc : t.Clear (l ++ [d])) :
    ∃ t', exec i s = .next (s.issued t') ∧ (∀ r, t'.rd r = if r = 0 then 0 else if r = d then f t else t.rd r) ∧
      { t' with g := t.g } = t.stepped :=
  ⟨t.stepped.wr d (f t), by rw [hi s, h.alu _ _ _ _ hc], fun r => t.stepped.rd_wr r d _, t.stepped.wr_restore d _⟩
theorem Thread.wr_setWarn_restore (t : Thread) (d : Reg) (v : W64) (x : BitVec 9) :
    { (t.wr d v).setWarn x with g := t.g, warn := t.warn } = t := by
  unfold Thread.wr
  split <;> rfl
/-- The width in effect keeps a field within its register (R66 row 10). -/
theorem fieldRule_width {i : Instr} {a d : Reg} {pos w : Nat} {f : Nat → Nat → Nat → W64} (h : fieldRule i = some (a, d, pos, w, f))
    (hwf : i.wf = true) : pos + ruleWidth pos w ≤ 64 := by
  unfold fieldRule at h
  split at h
  all_goals simp only [Option.some.injEq, Prod.mk.injEq, reduceCtorEq] at h
  all_goals
    obtain ⟨-, -, rfl, rfl, -⟩ := h
    have hw := of_decide_eq_true (Bool.and_eq_true_iff.1 hwf).2
    unfold ruleWidth
    split <;> omega
/-- A bit-field instruction issues its result at the width in effect, and `ic` where the field passes bit 63. -/
theorem field_own {i : Instr} {a d : Reg} {pos w : Nat} {f : Nat → Nat → Nat → W64} (h : fieldRule i = some (a, d, pos, w, f))
    (hwf : i.wf = true) : ∃ l ⊆ [a, d], IssuesHalf i (.own l [d] fun p t =>
      (t.wr d (f (p.rd a).toNat (p.rd d).toNat (ruleWidth pos w))).setWarn (if pos + w > 64 then 0x100 else 0)) := by
  have hle := fieldRule_width h hwf
  unfold fieldRule at h
  split at h
  all_goals simp only [Option.some.injEq, Prod.mk.injEq, reduceCtorEq] at h
  all_goals obtain ⟨rfl, rfl, rfl, rfl, rfl⟩ := h
  case h_1 d a pos w =>
    refine ⟨[a], by simp, ?_⟩
    simp only [← Nat.shiftRight_eq_div_pow, ← BitVec.toNat_ushiftRight, ← sext_eq_ruleSext (show ruleWidth pos.toNat w.toNat ≤ 64 by omega)]
    exact fun _ => rfl
  case h_2 d a pos w =>
    refine ⟨[a], by simp, ?_⟩
    simp only [← Nat.shiftRight_eq_div_pow, ← BitVec.toNat_ushiftRight]
    exact fun _ => rfl
  case h_3 d a pos w =>
    refine ⟨[a, d], by simp, ?_⟩
    simp only [← bfi_eq]
    exact fun _ => rfl

/-- Settles O1: each table's instructions issue their value, and an issue that computes a register changes nothing else. -/
theorem integerResult : Obligations.IntegerResult := by
  unfold Obligations.IntegerResult
  refine ⟨fun i k d a b hb s t h hc => ?_, fun i l d f hb s t h hc => ?_, fun i a d pos w f hb hwf s t h hc => ?_⟩
  · exact h.alu_result (binary_alu hb) (hc.subset (by simp))
  · exact h.alu_result (register_alu hb) (hc.subset (by simp))
  · obtain ⟨l, hl, hi⟩ := field_own hb hwf
    refine ⟨_, (hi s).trans (congrArg _ (h.own i l [d] _ (hc.subset ?_))), fun r => t.stepped.rd_wr r d _, ?_, t.stepped.wr_setWarn_restore ..⟩
    · simpa using hl
    · rw [Thread.setWarn, Thread.wr_warn]
      rfl

end Sys2Proof.Machine
end

section
/-! A row's columns, bit by bit: fields, tags, one pass (03_numbers.md R75; 06_associative.md R95, R159, R173, R174). -/
namespace Sys2Proof.Machine

/-! Fields. -/
theorem FieldDesc.testBit_get (f : FieldDesc) (w i : Nat) (row : Row) :
    (f.get w row).testBit i = (decide (i < w) && decide (i < f.width) && row.getLsbD (f.start + i)) := by
  rw [FieldDesc.get, Nat.testBit_mod_two_pow, Nat.testBit_div_two_pow, BitVec.testBit_toNat, Nat.add_comm i, Bool.and_comm (decide (i < w)),
    ← Bool.decide_and]
  simp only [Nat.lt_min]
/-- The value that `FieldDesc.set` writes: the low `w` bits, its top bit copied up to `n` bits where `sx`. -/
def extended (w n : Nat) (sx : Bool) (v : Nat) : Nat :=
  if sx && decide (w < n) && decide (0 < w) && decide (2 ^ (w - 1) ≤ v % 2 ^ w) then v % 2 ^ w + (2 ^ n - 2 ^ w) else v % 2 ^ w
theorem testBit_extended {w n j : Nat} (hj : j < n) (sx : Bool) (v : Nat) :
    (extended w n sx v).testBit j = if j < w then v.testBit j else sx && decide (0 < w) && v.testBit (w - 1) := by
  have htop (hw : 0 < w) : decide (2 ^ (w - 1) ≤ v % 2 ^ w) = v.testBit (w - 1) := by
    obtain ⟨m, rfl⟩ : ∃ m, w = m + 1 := ⟨w - 1, by omega⟩
    rw [Nat.add_sub_cancel, Nat.mod_pow_succ]
    have hlow : v % 2 ^ m < 2 ^ m := Nat.mod_lt _ (Nat.two_pow_pos _)
    rw [Nat.testBit_eq_decide_div_mod_eq]
    rcases Nat.mod_two_eq_zero_or_one (v / 2 ^ m) with h | h <;> simp [h, hlow]
  have hlow : v % 2 ^ w < 2 ^ w := Nat.mod_lt _ (Nat.two_pow_pos _)
  have hcopies (hwn : w ≤ n) : v % 2 ^ w + (2 ^ n - 2 ^ w) = 2 ^ w * (2 ^ (n - w) - 1) + v % 2 ^ w := by
    rw [Nat.mul_sub, ← pow_add, Nat.add_sub_cancel' hwn, Nat.mul_one, Nat.add_comm]
  unfold extended
  by_cases hjw : j < w
  · split
    · rename_i hcond
      have hwn : w ≤ n := by simp at hcond; omega
      rw [hcopies hwn, Nat.testBit_two_pow_mul_add _ hlow]
      simp [hjw, Nat.testBit_mod_two_pow]
    · simp [hjw, Nat.testBit_mod_two_pow]
  · have hwn : w < n := by omega
    by_cases hw : 0 < w
    · simp only [hwn, hw, htop hw, decide_true, Bool.and_true, hjw, if_false]
      cases hcond : sx && v.testBit (w - 1)
      · simp [hjw, Nat.testBit_mod_two_pow]
      · have : j - w < n - w := by omega
        rw [if_pos rfl, hcopies hwn.le, Nat.testBit_two_pow_mul_add _ hlow]
        simp [hjw, this, Nat.testBit_two_pow_sub_one]
    · simp [hw, hjw, Nat.testBit_mod_two_pow]
theorem FieldDesc.getLsbD_set (f : FieldDesc) (w v : Nat) (sx : Bool) (row : Row) {c : Nat} (hc : c < 264) :
    (f.set w sx v row).getLsbD c =
      if c < f.start ∨ f.start + f.width ≤ c then row.getLsbD c
      else if c - f.start < w then v.testBit (c - f.start) else sx && decide (0 < w) && v.testBit (w - 1) := by
  have hlo : row.toNat % 2 ^ f.start < 2 ^ f.start := Nat.mod_lt _ (Nat.two_pow_pos _)
  have hmid : extended w f.width sx v % 2 ^ f.width < 2 ^ f.width := Nat.mod_lt _ (Nat.two_pow_pos _)
  rw [FieldDesc.set, BitVec.getLsbD_ofNat, ← extended, testBit_three_parts hlo hmid, ← BitVec.testBit_toNat]
  by_cases hs : c < f.start
  · simp [hs, hc, Nat.testBit_mod_two_pow]
  by_cases he : c < f.start + f.width
  · have hj : c - f.start < f.width := by omega
    simp [hs, he, hc, hj, Nat.not_le.2 he, Nat.testBit_mod_two_pow, testBit_extended hj]
  · simp [hs, he, hc, Nat.not_lt.1 he, Nat.testBit_div_two_pow]

/-! Tags. -/
theorem getLsbD_rowBit (n : Nat) (b : Bool) (row : Row) {c : Nat} (hc : c < 264) :
    (rowBit n b row).getLsbD c = if c = n then b else row.getLsbD c := by
  have hone : (1#264 <<< n).getLsbD c = decide (c = n) := by
    rw [BitVec.getLsbD_shiftLeft]
    by_cases h : c < n
    · simp [h, h.ne]
    · have : c - n = 0 ↔ c = n := by omega
      simp [h, hc, this]
  unfold rowBit
  cases b <;> simp only [Bool.false_eq_true, ↓reduceIte, BitVec.getLsbD_and, BitVec.getLsbD_or, BitVec.getLsbD_not, hone, hc]
  · by_cases h : c = n <;> simp [h]
  · by_cases h : c = n <;> simp [h]
theorem getLsbD_rowSetTag (n : Nat) (b : Bool) (row : Row) {c : Nat} (hc : c < 264) :
    (rowSetTag n b row).getLsbD c = if n ≠ 0 ∧ c = 256 + n then b else row.getLsbD c := by
  unfold rowSetTag
  by_cases hn : n = 0
  · simp [hn]
  · simp [hn, getLsbD_rowBit _ _ _ hc]


/-! One pass (R95, R173, R174): the matched rows take the two column writes and then the tag of the pass. -/
def passWrite (on : Bool) (n : Nat) (b : Bool) (row : Row) : Row := if on then (if n = 256 ∨ n ≥ 264 then row else rowBit n b row) else row
def passTag (mode u : Nat) (sel hit : Bool) (row : Row) : Row :=
  match mode with
  | 1 => if hit then rowSetTag u true row else row
  | 2 => if sel then rowSetTag u hit row else row
  | 3 => if hit then rowSetTag u false row else row
  | _ => row
theorem getLsbD_passWrite (on : Bool) (n : Nat) (b : Bool) (row : Row) {c : Nat} (hc : c < 264) :
    (passWrite on n b row).getLsbD c = if c ≠ 256 ∧ on = true ∧ c = n then b else row.getLsbD c := by
  unfold passWrite
  cases on
  · simp
  · by_cases hn : n = 256 ∨ n ≥ 264
    · have : ¬ (c ≠ 256 ∧ c = n) := by omega
      simp [hn, this]
    · have : c ≠ 256 ∧ c = n ↔ c = n := by omega
      simp only [hn, if_true, if_false, getLsbD_rowBit n b row hc, true_and, this]
theorem getLsbD_passTag (mode u : Nat) (sel hit : Bool) (row : Row) {c : Nat} (hc : c < 264) :
    (passTag mode u sel hit row).getLsbD c =
      if c = 256 then row.getLsbD c
      else if c = 256 + u ∧ mode = 1 ∧ hit = true then true
      else if c = 256 + u ∧ mode = 2 ∧ sel = true then hit
      else if c = 256 + u ∧ mode = 3 ∧ hit = true then false
      else row.getLsbD c := by
  have hset (b : Bool) : (rowSetTag u b row).getLsbD c = if c = 256 then row.getLsbD c else if c = 256 + u then b else row.getLsbD c := by
    rw [getLsbD_rowSetTag _ _ _ hc]
    by_cases h : c = 256
    · have : ¬ (u ≠ 0 ∧ c = 256 + u) := by omega
      rw [if_neg this, if_pos h]
    · have : u ≠ 0 ∧ c = 256 + u ↔ c = 256 + u := by omega
      simp only [this, h, if_false]
  unfold passTag
  split
  · cases hit <;> simp [-BitVec.getLsbD_eq_getElem, hset]
  · cases sel <;> simp [-BitVec.getLsbD_eq_getElem, hset]
  · cases hit <;> simp [-BitVec.getLsbD_eq_getElem, hset]
  · rename_i h1 h2 h3
    have h1 : mode ≠ 1 := h1
    have h2 : mode ≠ 2 := h2
    have h3 : mode ≠ 3 := h3
    simp [h1, h2, h3]
/-- The tag of the pass wins over the two column writes, the second write over the first. -/
theorem getLsbD_pass (mode u k n : Nat) (sel hit b5 b6 b53 b54 : Bool) (row : Row) {c : Nat} (hc : c < 264) :
    (passTag mode u sel hit (passWrite (hit && b53) n b54 (passWrite (hit && b5) k b6 row))).getLsbD c =
      if c = 256 then row.getLsbD c
      else if c = 256 + u ∧ mode = 1 ∧ hit = true then true
      else if c = 256 + u ∧ mode = 2 ∧ sel = true then hit
      else if c = 256 + u ∧ mode = 3 ∧ hit = true then false
      else if hit && b53 && decide (c = n) then b54
      else if hit && b5 && decide (c = k) then b6
      else row.getLsbD c := by
  rw [getLsbD_passTag _ _ _ _ _ hc, getLsbD_passWrite _ _ _ _ hc, getLsbD_passWrite _ _ _ _ hc]
  by_cases h : c = 256
  · simp [h]
  · simp only [h, ne_eq, not_false_eq_true, true_and, if_false, Bool.and_eq_true, decide_eq_true_eq]
theorem passRow_eq (p vl r : Nat) (row : Row) :
    let bit (i : Nat) : Bool := p.testBit i
    let col (c : Nat) : Bool := if c = 256 then decide (r < vl) else decide (c < 264) && row.getLsbD c
    let cmp (c v m : Nat) : Bool := !bit m || (col c == bit v)
    let sel := ruleTag vl (p / 2 ^ 50 % 8) r row != bit 49
    let hit := sel && cmp (p / 2 ^ 40 % 512) 39 38 && cmp (p / 2 ^ 29 % 512) 28 27 && cmp (p / 2 ^ 18 % 512) 17 16 &&
      cmp (256 + p / 2 ^ 60 % 8) 59 58
    passRow p vl r row = passTag (p % 4) (p / 4 % 8) sel hit
      (passWrite (hit && bit 53) (256 + p / 2 ^ 55 % 8) (bit 54) (passWrite (hit && bit 5) (p / 2 ^ 7 % 512) (bit 6) row)) := by
  intro bit col cmp sel hit
  have hbit (i : Nat) : (p / 2 ^ i % 2 == 1) = bit i := by
    rw [← Nat.toNat_testBit]
    show _ = p.testBit i
    cases p.testBit i <;> rfl
  have hcol (c : Nat) : (if c = 256 then decide (r < vl) else if c < 264 then row.getLsbD c else false) = col c := by
    show _ = if c = 256 then decide (r < vl) else decide (c < 264) && row.getLsbD c
    by_cases h : c < 264 <;> simp [h]
  unfold passRow
  simp only [hbit, hcol]
  rfl
end Sys2Proof.Machine
end

section
/-! A window's rows as a list, and the start of an operation that runs over them (06_associative.md R158, R169 to R176). -/
namespace Sys2Proof.Machine

/-! The table of rows and the list of all rows. -/
theorem rowList_fst (n r : Nat) (m : Map Row) : (rowList n r m).map Prod.fst = List.range' r n := by
  induction n generalizing r m with
  | zero => rfl
  | succ n ih =>
    cases m with
    | nil => simp [rowList, ih, List.range'_succ]
    | cons e m =>
      obtain ⟨j, v⟩ := e
      unfold rowList
      split <;> simp [ih, List.range'_succ]
/-- A table without row `r` lists it as zero. -/
theorem rowList_absent {n r : Nat} {m : Map Row} (h : ∀ e ∈ m, e.1 ≠ r) : rowList (n + 1) r m = (r, 0) :: rowList n (r + 1) m := by
  cases m with
  | nil => rfl
  | cons e m =>
    obtain ⟨j, v⟩ := e
    exact if_neg (h _ (List.mem_cons_self ..))
/-- The table of a list of rows lists them again. -/
theorem rowList_rowMap {n r : Nat} {l : List (Nat × Row)} (h : l.map Prod.fst = List.range' r n) : rowList n r (rowMap l) = l := by
  induction n generalizing r l with
  | zero => rw [List.map_eq_nil_iff.1 h]; rfl
  | succ n ih =>
    obtain _ | ⟨⟨j, v⟩, l⟩ := l
    · cases h
    obtain ⟨rfl, h⟩ := List.cons.inj (List.range'_succ ▸ h)
    by_cases hv : v = 0
    · have hmap : rowMap ((j, v) :: l) = rowMap l := by simp [rowMap, hv]
      have habsent : ∀ e ∈ rowMap l, e.1 ≠ j := fun e he => by
        have : e.1 ∈ List.range' (j + 1) n := h ▸ List.mem_map_of_mem (List.mem_of_mem_filter he)
        have := (List.mem_range'_1.1 this).1
        omega
      rw [hmap, rowList_absent habsent, ih h, hv]
    · have hmap : rowMap ((j, v) :: l) = (j, v) :: rowMap l := List.filter_cons_of_pos (by simpa using hv)
      rw [hmap, rowList, if_pos rfl, ih h]
/-- Rewriting every row keeps the list of all rows complete. -/
theorem Window.all_map (w : Window) (f : Nat → Row → Row) :
    ({ w with rows := rowMap (w.all.map fun e => (e.1, f e.1 e.2)) } : Window).all = w.all.map fun e => (e.1, f e.1 e.2) := by
  refine rowList_rowMap ?_
  rw [List.map_map]
  exact rowList_fst ..

/-! Passes in a window without parity errors. -/
theorem runPasses_all {vl : Nat} (ps : List Nat) {w : Window} (hp : w.badPar = []) :
    (runPasses vl ps w []).1.all = w.all.map (fun e => (e.1, ps.foldl (fun row p => passRow p vl e.1 row) e.2)) ∧
      (runPasses vl ps w []).2 = [] ∧ { (runPasses vl ps w []).1 with rows := w.rows } = w := by
  induction ps generalizing w with
  | nil => simp [runPasses]
  | cons p ps ih =>
    have hstep : runPasses vl (p :: ps) w [] = runPasses vl ps { w with rows := rowMap (w.all.map fun e => (e.1, passRow p vl e.1 e.2)) } [] := by
      simp [runPasses, Window.failures, hp]
    obtain ⟨hall, herr, hrest⟩ := ih (w := { w with rows := rowMap (w.all.map fun e => (e.1, passRow p vl e.1 e.2)) }) hp
    rw [hstep]
    refine ⟨?_, herr, ?_⟩
    · rw [hall, w.all_map fun r => passRow p vl r, List.map_map]
      rfl
    · exact congrArg (fun v : Window => { v with rows := w.rows }) hrest

/-! The start of an operation. -/
theorem Tile.win_setWin {t : Tile} {w : Nat} (v : Window) (h : w < 4) : (t.setWin w v).win w = v := by
  simp [Tile.win, Tile.setWin, h]
theorem State.tile_modCid (s : State) (x cid : Nat) (f : Thread → Thread) : (s.modCid x cid f).tile x = (s.tile x).modCid cid f :=
  State.tile_modTile ..
/-- The errors of an operation are recorded outside the windows and the scratchpad. -/
theorem State.windowErrors_setWin (s : State) {x w : Nat} (cid : Nat) (l : List (Nat × Nat × Nat)) (v : Window) (hw : w < 4) :
    (((s.modTile x fun t => t.setWin w v).windowErrors x w cid l).tile x).win w = v ∧
      (((s.modTile x fun t => t.setWin w v).windowErrors x w cid l).tile x).sp = (s.tile x).sp := by
  have htile (f : Thread → Thread) : (((s.modTile x fun t => t.setWin w v).modCid x cid f).tile x) = ((s.tile x).setWin w v).modCid cid f := by
    rw [State.tile_modCid, State.tile_modTile]
  unfold State.windowErrors
  dsimp only
  split
  · rw [htile]
    exact ⟨Tile.win_setWin v hw, rfl⟩
  · rw [State.tile, State.modBelfry_tiles, ← State.tile, htile]
    exact ⟨Tile.win_setWin v hw, rfl⟩
theorem State.Starts.exec {s : State} {x w : Nat} {e : VEntry} {rest : List VEntry} (h : s.Starts x w e rest) :
    exec (.vopStart x w) s = .next (s.vopStart x w) := by
  obtain ⟨hs, -⟩ := h
  have : ¬ (s.service = .off ∨ s.service = .fatal) := by simpa [State.stopped] using hs
  exact congrArg Host.Outcome.next (if_neg this)
/-- An operation that is no transfer runs at its start: what it leaves in its window, and what of the tile stays. -/
theorem State.Starts.run {s : State} {x w : Nat} {e : VEntry} {rest : List VEntry} (h : s.Starts x w e rest) (ht : e.turns = false) :
    let r := e.run ((s.tile x).win w)
    ∃ c, ((s.vopStart x w).tile x).win w = { r.win with queue := rest, busy := some ⟨e, some r.g, r.flags, true, c⟩ } ∧
      ((s.vopStart x w).tile x).sp = (s.tile x).sp := by
  obtain ⟨-, hw, hq, hb, -, hm, hc⟩ := h
  unfold State.vopStart
  simp only [hq, hb, hm, hc, ht, Bool.not_true, Bool.or_self, Bool.false_eq_true, if_false, Option.isSome_none]
  refine ⟨_, (State.windowErrors_setWin _ _ _ _ hw).1, (State.windowErrors_setWin _ _ _ _ hw).2.trans ?_⟩
  rw [State.tile_modCid, State.setEcost, State.tile_modCid]
  rfl

/-! The pass operations (R175, R176). -/
theorem VEntry.run_vpass {e : VEntry} (v : Window) (hq : e.quiet = false) (hk : e.op.kind = .vpass) :
    e.run v = ⟨(runPasses e.vl [e.op.x * 2 ^ 24 + e.op.m] v []).1, 0, 0, (runPasses e.vl [e.op.x * 2 ^ 24 + e.op.m] v []).2⟩ := by
  simp only [VEntry.run, hq, hk, Bool.false_eq_true, if_false]
/-- The microcode words that a `VSEQ` runs. -/
def VEntry.microcode (e : VEntry) (v : Window) : List Nat :=
  (List.range (vseqWords e.op).2.1).map fun j => (v.ucode[(vseqWords e.op).1 + j]?.getD 0).toNat
theorem VEntry.run_vseq {e : VEntry} (v : Window) (hq : e.quiet = false) (hk : e.op.kind = .vseq) :
    e.run v = ⟨(runPasses e.vl (e.microcode v) v []).1, 0, 0, (runPasses e.vl (e.microcode v) v []).2⟩ := by
  simp only [VEntry.run, hq, hk, Bool.false_eq_true, if_false]
  rfl
/-- The start of an operation that runs pass words rewrites every row by them in order. -/
theorem State.Starts.passes {s : State} {x w : Nat} {e : VEntry} {rest : List VEntry} (h : s.Starts x w e rest)
    (hk : isTransfer e.op.kind = false) {ps : List Nat} (hrun : e.run ((s.tile x).win w) =
      ⟨(runPasses e.vl ps ((s.tile x).win w) []).1, 0, 0, (runPasses e.vl ps ((s.tile x).win w) []).2⟩) :
    ∃ u, Machine.exec (.vopStart x w) s = .next u ∧ s.Ran u x w e rest 0 (fun _ _ => 0) ∧
      ((u.tile x).win w).all = ((s.tile x).win w).all.map fun p => (p.1, ps.foldl (fun row p' => passRow p' e.vl p.1 row) p.2) := by
  obtain ⟨hexec, hw, hq, hb, hp, hm, hc⟩ := And.intro h.exec h.2
  have ht : e.turns = false := by simp [VEntry.turns, hm, hk]
  obtain ⟨c, hwin, hsp⟩ := h.run ht
  obtain ⟨hall, -, hrest⟩ := runPasses_all (vl := e.vl) ps hp
  rw [hrun] at hwin
  have hfds := congrArg Window.fds hrest
  have hucode := congrArg Window.ucode hrest
  refine ⟨_, hexec, ⟨?_, ?_, ?_, hsp, ⟨e, some 0, 0, true, c⟩, ?_, rfl, rfl, rfl, fun k => ?_⟩, ?_⟩
  · rw [hwin]
  · rw [hwin]; exact hfds
  · rw [hwin]; exact hucode
  · rw [hwin]
  · simp
  · rw [hwin]; exact hall

/-- Settles O31: fields, tags and a pass by their bits, and the two pass operations by the words that they run. -/
theorem windowPasses : Obligations.WindowPasses := by
  unfold Obligations.WindowPasses
  refine ⟨⟨FieldDesc.testBit_get, fun f w v c sx row hc => f.getLsbD_set w v sx row hc, fun n c b row _ hc => getLsbD_rowSetTag n b row hc⟩,
    fun p vl r c row hc => ?_, fun s x w e rest h hq => ⟨fun hk => ?_, fun hk => ?_⟩⟩
  · dsimp only
    rw [passRow_eq]
    exact getLsbD_pass _ _ _ _ _ _ _ _ _ _ _ hc
  · obtain ⟨u, hexec, hran, hall⟩ := h.passes (by rw [hk]; rfl) (VEntry.run_vpass _ hq hk)
    exact ⟨u, hexec, hran, hall.trans (List.map_congr_left fun _ _ => by rw [List.foldl_cons, List.foldl_nil])⟩
  · obtain ⟨u, hexec, hran, hall⟩ := h.passes (by rw [hk]; rfl) (VEntry.run_vseq _ hq hk)
    refine ⟨u, hexec, hran, hall.trans ?_⟩
    simp only [VEntry.microcode, List.foldl_map]
    rfl

end Sys2Proof.Machine
end

section
/-! Rounding to the grid of a rising sequence of values (03_numbers.md R81): the integers, or the codes of a floating format. -/
namespace Sys2Proof.Machine

/-- A rounding of `x` in a mode of R81 goes up from `V i`, the value below it. -/
def RoundsUp (V : Nat → Rat) (x : Rat) (neg : Bool) (mode i : Nat) : Prop :=
  match mode with
  | 0 => V i + V (i + 1) < 2 * x ∨ V i + V (i + 1) = 2 * x ∧ i % 2 = 1
  | 1 => False
  | 2 => neg = true ∧ V i ≠ x
  | _ => neg = false ∧ V i ≠ x
/-- `x` stands in [`V i`, `V (i + 1)`) and is rounded to `V r`. -/
structure Rounds (V : Nat → Rat) (x : Rat) (neg : Bool) (mode i r : Nat) (inexact : Bool) : Prop where
  le : V i ≤ x
  lt : x < V (i + 1)
  inexact_iff : inexact = true ↔ V i ≠ x
  result : RoundsUp V x neg mode i ∧ r = i + 1 ∨ ¬ RoundsUp V x neg mode i ∧ r = i
/-- What rounds beyond the code `top` (R86). -/
def Beyond (V : Nat → Rat) (x : Rat) (neg : Bool) (mode top : Nat) : Prop :=
  if mode = 0 then V top + V (top + 1) < 2 * x ∨ V top + V (top + 1) = 2 * x ∧ top % 2 = 1
  else if (mode == 0 || (mode == 2 && neg) || (mode == 3 && !neg)) = true then V top < x else V (top + 1) ≤ x

/-- The rounding of a fraction to an integer. -/
theorem roundInt_rounds (n : Nat) {d : Nat} (hd : 0 < d) (neg : Bool) (mode : Nat) :
    Rounds Nat.cast ((n : Rat) / d) neg mode (n / d) (roundInt n d neg mode).1 (roundInt n d neg mode).2 := by
  have hd' : (0 : Rat) < d := Nat.cast_pos.2 hd
  have hr : n % d < d := Nat.mod_lt _ hd
  have hn : (n : Rat) = d * (n / d : Nat) + (n % d : Nat) := by exact_mod_cast (Nat.div_add_mod n d).symm
  have hy : (n : Rat) / d = (n / d : Nat) + (n % d : Nat) / d := by
    conv_lhs => rw [hn, add_div, mul_div_cancel_left₀ _ hd'.ne']
  have hzero : n % d = 0 ↔ ((n / d : Nat) : Rat) = (n : Rat) / d := by
    rw [hy, left_eq_add, div_eq_zero_iff, or_iff_left hd'.ne', Nat.cast_eq_zero]
  have hhalf (k : Nat) : 2 * ((k : Rat) + (n % d : Nat) / d) = k + (k + 1 : Nat) + (2 * (n % d : Nat) - d) / d := by
    field_simp
    push_cast
    ring
  have hmore : 2 * (n % d) > d ↔ ((n / d : Nat) : Rat) + (n / d + 1 : Nat) < 2 * ((n : Rat) / d) := by
    rw [hy, hhalf, lt_add_iff_pos_right, div_pos_iff_of_pos_right hd', sub_pos]
    exact_mod_cast Iff.rfl
  have htie : 2 * (n % d) = d ↔ ((n / d : Nat) : Rat) + (n / d + 1 : Nat) = 2 * ((n : Rat) / d) := by
    rw [hy, hhalf, left_eq_add, div_eq_zero_iff, or_iff_left hd'.ne', sub_eq_zero]
    exact_mod_cast Iff.rfl
  refine ⟨Nat.cast_div_le, ?_, ?_, ?_⟩
  · rw [div_lt_iff₀ hd', hn]
    have : ((n % d : Nat) : Rat) < d := Nat.cast_lt.2 hr
    push_cast
    linarith
  · rw [ne_eq, ← hzero]
    simp [roundInt]
  · unfold RoundsUp roundInt
    rw [← hmore, ← htie, ne_eq, ← hzero]
    split <;> simp <;> grind

section
variable {V W : Nat → Rat} {x y : Rat} {neg inexact : Bool} {mode i r top k : Nat}

/-- A rounding to integers is one to the grid whose values are these integers times a unit. -/
theorem Rounds.scale (h : Rounds Nat.cast y neg mode i r inexact) {u : Rat} (hu : 0 < u) {k : Nat} (hk : k % 2 = 0)
    (h0 : V (i + k) = i * u) (h1 : V (i + 1 + k) = (i + 1) * u) : Rounds V (y * u) neg mode (i + k) (r + k) inexact := by
  have hne : V (i + k) ≠ y * u ↔ (i : Rat) ≠ y := by rw [h0, ne_eq, mul_left_inj' hu.ne']
  have hsucc : i + k + 1 = i + 1 + k := by omega
  have hup : RoundsUp V (y * u) neg mode (i + k) ↔ RoundsUp Nat.cast y neg mode i := by
    have hsum : V (i + k) + V (i + k + 1) = (i + (i + 1 : Nat)) * u := by rw [hsucc, h0, h1]; push_cast; ring
    have hodd : (i + k) % 2 = i % 2 := by omega
    unfold RoundsUp
    rw [hsum, hodd, ← mul_assoc, mul_lt_mul_iff_left₀ hu, mul_left_inj' hu.ne', hne]
  refine ⟨?_, ?_, h.inexact_iff.trans hne.symm, ?_⟩
  · rw [h0]
    exact mul_le_mul_of_nonneg_right h.le hu.le
  · rw [hsucc, h1]
    have := h.lt
    push_cast at this
    exact mul_lt_mul_of_pos_right this hu
  · rw [hup]
    rcases h.result with ⟨hu, rfl⟩ | ⟨hu, rfl⟩
    · exact .inl ⟨hu, by omega⟩
    · exact .inr ⟨hu, rfl⟩

theorem Rounds.ne_of_up (h : Rounds V x neg mode i r inexact) (hu : RoundsUp V x neg mode i) : V i ≠ x := by
  intro he
  have := h.lt
  unfold RoundsUp at hu
  split at hu
  · rcases hu with hu | ⟨hu, -⟩ <;> linarith
  · exact hu
  · exact hu.2 he
  · exact hu.2 he
theorem Rounds.inexact_iff_ne (h : Rounds V x neg mode i r inexact) : inexact = true ↔ V r ≠ x := by
  rw [h.inexact_iff]
  rcases h.result with ⟨hu, rfl⟩ | ⟨-, rfl⟩
  · exact ⟨fun _ => h.lt.ne', fun _ => h.ne_of_up hu⟩
  · rfl
/-- A mode that rounds towards zero never goes up. -/
theorem RoundsUp.not_down (hm : mode = 1 ∨ mode = 2 ∧ neg = false ∨ mode = 3 ∧ neg = true) : ¬ RoundsUp V x neg mode i := by
  rcases hm with rfl | ⟨rfl, rfl⟩ | ⟨rfl, rfl⟩ <;> simp [RoundsUp]
/-- A mode that rounds away from zero goes up from every inexact value. -/
theorem RoundsUp.iff_away (hm : mode = 2 ∧ neg = true ∨ mode = 3 ∧ neg = false) : RoundsUp V x neg mode i ↔ V i ≠ x := by
  rcases hm with ⟨rfl, rfl⟩ | ⟨rfl, rfl⟩ <;> simp [RoundsUp]
/-- The modes of R81 for a sign: to nearest, towards zero, away from zero. -/
theorem mode_cases (hm : mode < 4) (neg : Bool) : mode = 0 ∨ (mode = 1 ∨ mode = 2 ∧ neg = false ∨ mode = 3 ∧ neg = true) ∨
    (mode = 2 ∧ neg = true ∨ mode = 3 ∧ neg = false) := by
  cases neg <;> simp <;> omega
theorem Beyond.down (hm : mode = 1 ∨ mode = 2 ∧ neg = false ∨ mode = 3 ∧ neg = true) : Beyond V x neg mode top ↔ V (top + 1) ≤ x := by
  rcases hm with rfl | ⟨rfl, rfl⟩ | ⟨rfl, rfl⟩ <;> simp [Beyond]
theorem Beyond.away (hm : mode = 2 ∧ neg = true ∨ mode = 3 ∧ neg = false) : Beyond V x neg mode top ↔ V top < x := by
  rcases hm with ⟨rfl, rfl⟩ | ⟨rfl, rfl⟩ <;> simp [Beyond]

/-- A value that rounds up to `2 * k` at twice the precision rounds up to `k`. -/
theorem Rounds.of_finer {i' r' : Nat} {b : Bool} (h : Rounds Nat.cast y neg mode i r inexact) (h' : Rounds Nat.cast (2 * y) neg mode i' r' b)
    (hr : 2 * k ≤ r') (hy : y < k) : k ≤ r := by
  have hlt' : (i' : Rat) < (2 * k : Nat) := lt_of_le_of_lt h'.le (by push_cast; linarith)
  obtain ⟨hu', rfl⟩ : RoundsUp Nat.cast (2 * y) neg mode i' ∧ r' = i' + 1 := by
    refine h'.result.elim id fun hn => ?_
    have : i' < 2 * k := by exact_mod_cast hlt'
    omega
  have hi' : (i' : Rat) + 1 = 2 * k := by
    have : i' + 1 = 2 * k := le_antisymm (by exact_mod_cast hlt') hr
    exact_mod_cast this
  have hle := h'.le
  have hi : i + 1 = k := by
    have hle := h.le
    have hlt := h.lt
    push_cast at hlt
    have h1 : (i : Rat) < k := by linarith
    have h2 : (k : Rat) < (i + 2 : Nat) := by push_cast; linarith
    have h1 : i < k := by exact_mod_cast h1
    have h2 : k < i + 2 := by exact_mod_cast h2
    omega
  have hi'' : (i : Rat) + 1 = k := by exact_mod_cast hi
  have hup : RoundsUp Nat.cast y neg mode i := by
    have hne : (i : Rat) ≠ y := fun he => by linarith
    unfold RoundsUp at hu' ⊢
    split at hu'
    · have : (i' : Rat) + (i' + 1 : Nat) ≤ 2 * (2 * y) := hu'.elim le_of_lt fun ht => ht.1.le
      push_cast at this ⊢
      exact .inl (by linarith)
    · exact hu'
    · exact ⟨hu'.1, hne⟩
    · exact ⟨hu'.1, hne⟩
  exact h.result.elim (fun hr => by omega) fun hr => absurd hup hr.1

variable (hV : StrictMono V)
include hV

/-- The rounded code passes `top` exactly where the value rounds beyond it. -/
theorem Rounds.beyond_iff (h : Rounds V x neg mode i r inexact) (hm : mode < 4) : top < r ↔ Beyond V x neg mode top := by
  have hr : r = i ∨ r = i + 1 := h.result.elim (fun h => .inr h.2) fun h => .inl h.2
  have hstep := hV (Nat.lt_succ_self top)
  rcases lt_trichotomy i top with hlt | rfl | hgt
  · have hx : x < V top := h.lt.trans_le (hV.monotone hlt)
    have : ¬ Beyond V x neg mode top := by
      rcases mode_cases hm neg with rfl | hm | hm
      · rintro (hb | ⟨hb, -⟩) <;> linarith
      · rw [Beyond.down hm]; linarith
      · rw [Beyond.away hm]; linarith
    simp only [this, iff_false]
    omega
  · have hiff : i < r ↔ RoundsUp V x neg mode i := by
      rcases h.result with ⟨hu, rfl⟩ | ⟨hu, rfl⟩ <;> simp [hu]
    rw [hiff]
    rcases mode_cases hm neg with rfl | hm | hm
    · rfl
    · simp only [RoundsUp.not_down hm, Beyond.down hm, h.lt.not_ge]
    · rw [RoundsUp.iff_away hm, Beyond.away hm, lt_iff_le_and_ne, and_iff_right h.le]
  · have hx : V (top + 1) ≤ x := (hV.monotone hgt).trans h.le
    have : Beyond V x neg mode top := by
      rcases mode_cases hm neg with rfl | hm | hm
      · exact .inl (by linarith)
      · rwa [Beyond.down hm]
      · rw [Beyond.away hm]; linarith
    simp only [this, iff_true]
    omega
theorem Beyond.lt (hb : Beyond V x neg mode top) (hm : mode < 4) : V top < x := by
  have hstep := hV (Nat.lt_succ_self top)
  rcases mode_cases hm neg with rfl | hm | hm
  · rcases hb with hb | ⟨hb, -⟩ <;> linarith
  · rw [Beyond.down hm] at hb; linarith
  · rwa [Beyond.away hm] at hb
/-- Every other value of the grid is outside the interval. -/
theorem grid_outside (i k : Nat) : V k ≤ V i ∧ k ≤ i ∨ V (i + 1) ≤ V k ∧ i + 1 ≤ k :=
  (Nat.lt_or_ge i k).elim (fun hk => .inr ⟨hV.monotone hk, hk⟩) fun hk => .inl ⟨hV.monotone hk, hk⟩
theorem Rounds.down (h : Rounds V x neg mode i r inexact) (hm : mode = 1 ∨ mode = 2 ∧ neg = false ∨ mode = 3 ∧ neg = true) (k : Nat) :
    V r ≤ x ∧ (V k ≤ x → V k ≤ V r) := by
  obtain rfl : r = i := h.result.elim (fun hu => absurd hu.1 (RoundsUp.not_down hm)) And.right
  exact ⟨h.le, fun hk => (grid_outside hV r k).elim And.left fun ho => absurd (ho.1.trans hk) h.lt.not_ge⟩
theorem Rounds.away (h : Rounds V x neg mode i r inexact) (hm : mode = 2 ∧ neg = true ∨ mode = 3 ∧ neg = false) (k : Nat) :
    x ≤ V r ∧ (x ≤ V k → V r ≤ V k) := by
  rcases h.result with ⟨hu, rfl⟩ | ⟨hu, rfl⟩
  · rw [RoundsUp.iff_away hm] at hu
    exact ⟨h.lt.le, fun hk => (grid_outside hV i k).elim (fun ho => absurd (le_antisymm h.le (hk.trans ho.1)) hu) And.left⟩
  · rw [RoundsUp.iff_away hm, not_not] at hu
    exact ⟨hu.ge, fun hk => hu ▸ hk⟩
/-- Round to nearest, ties to even. -/
theorem Rounds.nearest (h : Rounds V x neg 0 i r inexact) (k : Nat) :
    (V r - x) ^ 2 ≤ (V k - x) ^ 2 ∧ ((V r - x) ^ 2 = (V k - x) ^ 2 → k = r ∨ r % 2 = 0) := by
  have hle := h.le
  have hlt := h.lt
  have habs : |V r - x| ≤ |V k - x| ∧ (|V r - x| = |V k - x| → k = r ∨ r % 2 = 0) := by
    have hbelow {j : Nat} (hj : V j ≤ V i) : |V j - x| = x - V j := by rw [abs_of_nonpos] <;> linarith
    have habove {j : Nat} (hj : V (i + 1) ≤ V j) : |V j - x| = V j - x := by rw [abs_of_nonneg]; linarith
    rcases h.result with ⟨hu, rfl⟩ | ⟨hu, rfl⟩
    · have hup : V i + V (i + 1) ≤ 2 * x := hu.elim le_of_lt fun ht => ht.1.le
      rw [habove le_rfl]
      rcases grid_outside hV i k with ⟨ho, -⟩ | ⟨ho, -⟩
      · rw [hbelow ho]
        refine ⟨by linarith, fun he => .inr ?_⟩
        have : i % 2 = 1 := hu.elim (fun hlt => by linarith) And.right
        omega
      · rw [habove ho]
        exact ⟨by linarith, fun he => .inl (hV.injective (by linarith)).symm⟩
    · have hdown : 2 * x ≤ V r + V (r + 1) := le_of_not_gt fun hlt => hu (.inl hlt)
      rw [hbelow le_rfl]
      rcases grid_outside hV r k with ⟨ho, -⟩ | ⟨ho, -⟩
      · rw [hbelow ho]
        exact ⟨by linarith, fun he => .inl (hV.injective (by linarith))⟩
      · rw [habove ho]
        refine ⟨by linarith, fun he => .inr ?_⟩
        have : r % 2 ≠ 1 := fun hodd => hu (.inr ⟨by linarith, hodd⟩)
        omega
  rwa [sq_le_sq, sq_eq_sq_iff_abs_eq_abs]

end
end Sys2Proof.Machine
end

section
/-! The values of a floating format's codes, and the rounding of an exact value into the format (03_numbers.md R77, R81, R84, R86). -/
namespace Sys2Proof.Machine

/-! Powers of two. -/
theorem two_zpow_pos (k : Int) : (0 : Rat) < 2 ^ k := zpow_pos (by norm_num) k
theorem two_zpow_add (j k : Int) : (2 : Rat) ^ (j + k) = 2 ^ j * 2 ^ k := zpow_add₀ (by norm_num) j k
theorem two_zpow_le {j k : Int} : (2 : Rat) ^ j ≤ 2 ^ k ↔ j ≤ k := zpow_le_zpow_iff_right₀ (by norm_num)
theorem two_zpow_natCast (n : Nat) : (2 : Rat) ^ (n : Int) = (2 ^ n : Nat) := by rw [zpow_natCast]; push_cast; rfl
theorem scale2_rat (n : Nat) {d : Nat} (hd : 0 < d) (k : Int) :
    ((scale2 n d k).1 : Rat) / (scale2 n d k).2 = n / d * 2 ^ k ∧ 0 < (scale2 n d k).2 := by
  unfold scale2
  split
  · rename_i hk
    obtain ⟨m, rfl⟩ := Int.eq_ofNat_of_zero_le hk
    refine ⟨?_, hd⟩
    push_cast
    rw [Int.toNat_natCast, zpow_natCast]
    ring
  · rename_i hk
    obtain ⟨m, hm⟩ := Int.eq_ofNat_of_zero_le (show 0 ≤ -k by omega)
    obtain rfl : k = -(m : Int) := by omega
    refine ⟨?_, Nat.mul_pos hd (Nat.two_pow_pos _)⟩
    push_cast
    rw [neg_neg, Int.toNat_natCast, zpow_neg, zpow_natCast]
    field_simp
theorem floorLog2_spec {n d : Nat} (hn : 0 < n) (hd : 0 < d) :
    (2 : Rat) ^ floorLog2 n d ≤ n / d ∧ (n : Rat) / d < 2 ^ (floorLog2 n d + 1) := by
  have hd' : (0 : Rat) < d := Nat.cast_pos.2 hd
  have hnlo : (2 : Rat) ^ (n.log2 : Int) ≤ n := by rw [two_zpow_natCast]; exact_mod_cast Nat.log2_self_le hn.ne'
  have hnhi : (n : Rat) < 2 ^ ((n.log2 : Int) + 1) := by
    rw [show (n.log2 : Int) + 1 = (n.log2 + 1 : Nat) from rfl, two_zpow_natCast]; exact_mod_cast Nat.lt_log2_self
  have hdlo : (2 : Rat) ^ (d.log2 : Int) ≤ d := by rw [two_zpow_natCast]; exact_mod_cast Nat.log2_self_le hd.ne'
  have hdhi : (d : Rat) < 2 ^ ((d.log2 : Int) + 1) := by
    rw [show (d.log2 : Int) + 1 = (d.log2 + 1 : Nat) from rfl, two_zpow_natCast]; exact_mod_cast Nat.lt_log2_self
  have hhi : (n : Rat) / d < 2 ^ ((n.log2 : Int) - d.log2 + 1) := by
    rw [div_lt_iff₀ hd']
    calc (n : Rat) < 2 ^ ((n.log2 : Int) + 1) := hnhi
      _ = 2 ^ ((n.log2 : Int) - d.log2 + 1) * 2 ^ (d.log2 : Int) := by rw [← two_zpow_add]; congr 1; ring
      _ ≤ 2 ^ ((n.log2 : Int) - d.log2 + 1) * d := mul_le_mul_of_nonneg_left hdlo (two_zpow_pos _).le
  have hlo : (2 : Rat) ^ ((n.log2 : Int) - d.log2 - 1) ≤ n / d := by
    rw [le_div_iff₀ hd']
    calc (2 : Rat) ^ ((n.log2 : Int) - d.log2 - 1) * d ≤ 2 ^ ((n.log2 : Int) - d.log2 - 1) * 2 ^ ((d.log2 : Int) + 1) :=
        mul_le_mul_of_nonneg_left hdhi.le (two_zpow_pos _).le
      _ = 2 ^ (n.log2 : Int) := by rw [← two_zpow_add]; congr 1; ring
      _ ≤ n := hnlo
  obtain ⟨hval, hpos⟩ := scale2_rat n hd (-((n.log2 : Int) - d.log2))
  have hiff : (scale2 n d (-((n.log2 : Int) - d.log2))).1 < (scale2 n d (-((n.log2 : Int) - d.log2))).2 ↔
      (n : Rat) / d < 2 ^ ((n.log2 : Int) - d.log2) := by
    rw [← Nat.cast_lt (α := Rat), ← div_lt_one (Nat.cast_pos.2 hpos), hval, zpow_neg, ← div_eq_mul_inv, div_lt_one (two_zpow_pos _)]
  unfold floorLog2
  dsimp only
  split
  · rename_i h
    exact ⟨hlo, by rw [sub_add_cancel]; exact hiff.1 h⟩
  · rename_i h
    exact ⟨le_of_not_gt fun hlt => h (hiff.2 hlt), hhi⟩

/-! The codes of a format without the sign (R77), with no largest one. -/
/-- The value of code `c` with `m` significand bits, where `emin` is the exponent of the smallest normal number. -/
def codeValue (m : Nat) (emin : Int) (c : Nat) : Rat :=
  if c / 2 ^ m = 0 then (c % 2 ^ m : Nat) * 2 ^ (emin - m) else (c % 2 ^ m + 2 ^ m : Nat) * 2 ^ (((c / 2 ^ m : Nat) : Int) - 1 + emin - m)
/-- Codes of one binade, and the first of the next, count in its unit. -/
theorem codeValue_add {m j E : Nat} (emin : Int) (hj : j ≤ 2 ^ (m + 1)) (hE : E = 0 ∨ 2 ^ m ≤ j) :
    codeValue m emin (j + E * 2 ^ m) = j * 2 ^ (emin + E - m) := by
  have hpos := Nat.two_pow_pos m
  rw [pow_succ] at hj
  have hquot : (j + E * 2 ^ m) / 2 ^ m = j / 2 ^ m + E := Nat.add_mul_div_right _ _ hpos
  have hrem : (j + E * 2 ^ m) % 2 ^ m = j % 2 ^ m := Nat.add_mul_mod_self_right ..
  unfold codeValue
  rw [hquot, hrem]
  rcases Nat.lt_or_ge j (2 ^ m) with hlt | hge
  · obtain rfl : E = 0 := hE.resolve_right (by omega)
    rw [Nat.div_eq_of_lt hlt, Nat.mod_eq_of_lt hlt]
    simp
  · rw [if_neg (by have := Nat.div_pos hge hpos; omega)]
    rcases Nat.lt_or_ge j (2 * 2 ^ m) with hlt | hge'
    · have hq : j / 2 ^ m = 1 := Nat.div_eq_of_lt_le (by omega) (by omega)
      have hr : j % 2 ^ m + 2 ^ m = j := by have := Nat.div_add_mod j (2 ^ m); rw [hq] at this; omega
      rw [hq, hr]
      congr 2
      push_cast
      ring
    · obtain rfl : j = 2 * 2 ^ m := by omega
      rw [Nat.mul_mod_left, Nat.mul_div_cancel _ hpos]
      push_cast
      rw [show (2 : Int) + E - 1 + emin - m = 1 + (emin + E - m) by ring, two_zpow_add]
      ring
/-- The step from one code to the next. -/
theorem codeValue_succ (m : Nat) (emin : Int) (c : Nat) :
    codeValue m emin (c + 1) = codeValue m emin c + 2 ^ (emin + ((c / 2 ^ m - 1 : Nat) : Int) - m) := by
  have hpos := Nat.two_pow_pos m
  obtain ⟨j, hc, hj, hE⟩ : ∃ j, c = j + (c / 2 ^ m - 1) * 2 ^ m ∧ j + 1 ≤ 2 ^ (m + 1) ∧ (c / 2 ^ m - 1 = 0 ∨ 2 ^ m ≤ j) := by
    have hdm := Nat.div_add_mod c (2 ^ m)
    have hlt := Nat.mod_lt c hpos
    rw [pow_succ]
    rcases Nat.eq_zero_or_pos (c / 2 ^ m) with h0 | hq
    · exact ⟨c, by simp [h0], by rw [h0] at hdm; omega, .inl (by omega)⟩
    · obtain ⟨q, hq⟩ : ∃ q, c / 2 ^ m = q + 1 := ⟨c / 2 ^ m - 1, by omega⟩
      rw [hq] at hdm ⊢
      refine ⟨c % 2 ^ m + 2 ^ m, ?_, by omega, .inr (by omega)⟩
      rw [Nat.add_sub_cancel]
      calc c = 2 ^ m * (q + 1) + c % 2 ^ m := hdm.symm
        _ = c % 2 ^ m + 2 ^ m + q * 2 ^ m := by ring
  have h0 := codeValue_add emin (by omega : j ≤ 2 ^ (m + 1)) hE
  have h1 := codeValue_add emin hj (hE.imp_right fun h => by omega)
  rw [← hc] at h0
  rw [show j + 1 + (c / 2 ^ m - 1) * 2 ^ m = c + 1 by omega] at h1
  rw [h0, h1]
  push_cast
  ring
theorem codeValue_strictMono (m : Nat) (emin : Int) : StrictMono (codeValue m emin) :=
  strictMono_nat_of_lt_succ fun c => by rw [codeValue_succ]; exact lt_add_of_pos_right _ (two_zpow_pos _)
theorem codeValue_smallestNormal (m : Nat) (emin : Int) : codeValue m emin (2 ^ m) = 2 ^ emin := by
  have := codeValue_add (j := 2 ^ m) (E := 0) emin (Nat.pow_le_pow_right (by decide) (Nat.le_succ m)) (.inl rfl)
  rw [Nat.zero_mul, Nat.add_zero] at this
  rw [this, ← two_zpow_natCast, ← two_zpow_add]
  congr 1
  push_cast
  ring

end Sys2Proof.Machine
end

section
/-! The model's rounding of a nonzero finite value is a rounding to the grid of the format's codes (03_numbers.md R81, R84, R86). -/
namespace Sys2Proof.Machine

/-- The exponent of the unit that a value with leading exponent `k` is rounded to, but for the significand bits. -/
def binade (emin k : Int) : Int := if k < emin then emin else k
/-- The code of `roundFin`: the rounded significand in the binade of the value. -/
def roundedCode (M : Nat) (emin : Int) (a b : Nat) (neg : Bool) (mode : Nat) : Nat × Bool :=
  let k' := binade emin (floorLog2 a b)
  let s := scale2 a b (M - k')
  ((roundInt s.1 s.2 neg mode).1 + ((k' - emin) * 2 ^ M).toNat, (roundInt s.1 s.2 neg mode).2)
/-- Whether the value is tiny: below the smallest normal number when rounded as if exponents had no bound (R84). -/
def tinyAt (M : Nat) (emin : Int) (a b : Nat) (neg : Bool) (mode : Nat) : Bool :=
  let k := floorLog2 a b
  let s := scale2 a b (M - k)
  if k ≥ emin then false else if k < emin - 1 then true else decide ((roundInt s.1 s.2 neg mode).1 < 2 ^ (M + 1))
theorem roundFin_eq (c : Nat) {neg : Bool} (n d : Nat) (e : Int) (mode : Nat) (hs : (neg && !(fspec c).signed) = false) :
    roundFin c neg n d e mode =
      let s := scale2 n d e
      let y := roundedCode (fspec c).M (1 - (fspec c).bias) s.1 s.2 neg mode
      if y.1 > (fspec c).maxFin then (overflowBits c neg mode, OF ||| NX)
      else ((fspec c).pack neg y.1, if y.2 then (if tinyAt (fspec c).M (1 - (fspec c).bias) s.1 s.2 neg mode then NX ||| UF else NX) else 0) := by
  unfold roundFin
  exact if_neg (by simp [hs])

variable {M : Nat} {emin : Int} {a b : Nat} {neg : Bool} {mode : Nat}

theorem roundedCode_rounds (hM : 1 ≤ M) (ha : 0 < a) (hb : 0 < b) : ∃ i, Rounds (codeValue M emin) ((a : Rat) / b) neg mode i
    (roundedCode M emin a b neg mode).1 (roundedCode M emin a b neg mode).2 := by
  obtain ⟨hlo, hhi⟩ := floorLog2_spec ha hb
  unfold roundedCode
  dsimp only
  generalize floorLog2 a b = k at hlo hhi ⊢
  obtain ⟨hy, hpos⟩ := scale2_rat a hb (M - binade emin k)
  generalize scale2 a b (M - binade emin k) = s at hy hpos ⊢
  have h := roundInt_rounds s.1 hpos neg mode
  generalize roundInt s.1 s.2 neg mode = r at h ⊢
  generalize s.1 / s.2 = q at h
  rw [hy] at h
  obtain ⟨E, hE⟩ := Int.eq_ofNat_of_zero_le (show 0 ≤ binade emin k - emin by unfold binade; split <;> omega)
  have hcode : ((binade emin k - emin) * 2 ^ M).toNat = E * 2 ^ M := by
    rw [hE]
    exact_mod_cast Int.toNat_natCast (E * 2 ^ M)
  have hunit : emin + (E : Int) - M = binade emin k - M := by omega
  have hlow : E = 0 ∨ 2 ^ M ≤ q := by
    by_cases hk : k < emin
    · left
      unfold binade at hE
      rw [if_pos hk] at hE
      omega
    · right
      have hbin : binade emin k = k := if_neg hk
      have : ((2 ^ M : Nat) : Rat) ≤ (a : Rat) / b * 2 ^ ((M : Int) - k) := by
        rw [← two_zpow_natCast, show (M : Int) = k + (M - k) by ring, two_zpow_add]
        simpa using mul_le_mul_of_nonneg_right hlo (two_zpow_pos (M - k)).le
      have hlt := lt_of_le_of_lt (hbin ▸ this) h.lt
      exact Nat.lt_succ_iff.1 (by exact_mod_cast hlt)
  have hhigh : q + 1 ≤ 2 ^ (M + 1) := by
    have hk : k + 1 ≤ binade emin k + 1 := by unfold binade; split <;> omega
    have : (a : Rat) / b * 2 ^ ((M : Int) - binade emin k) < (2 ^ (M + 1) : Nat) := by
      calc (a : Rat) / b * 2 ^ ((M : Int) - binade emin k) < 2 ^ (binade emin k + 1) * 2 ^ ((M : Int) - binade emin k) :=
            mul_lt_mul_of_pos_right (hhi.trans_le (two_zpow_le.2 hk)) (two_zpow_pos _)
        _ = (2 ^ (M + 1) : Nat) := by rw [← two_zpow_add, ← two_zpow_natCast]; congr 1; push_cast; ring
    have hlt := lt_of_le_of_lt h.le this
    exact_mod_cast hlt
  have heven : E * 2 ^ M % 2 = 0 := by
    obtain ⟨m, rfl⟩ : ∃ m, M = m + 1 := ⟨M - 1, by omega⟩
    rw [pow_succ, ← mul_assoc, Nat.mul_mod_left]
  have hx : (a : Rat) / b = a / b * 2 ^ ((M : Int) - binade emin k) * 2 ^ (binade emin k - M) := by
    rw [mul_assoc, ← two_zpow_add]
    simp
  rw [hcode]
  refine ⟨q + E * 2 ^ M, ?_⟩
  have h0 := codeValue_add emin (by omega : q ≤ 2 ^ (M + 1)) hlow
  have h1 := codeValue_add emin hhigh (hlow.imp_right fun h => by omega)
  rw [hunit] at h0 h1
  rw [hx]
  exact h.scale (two_zpow_pos _) heven h0 (by rw [h1]; push_cast; rfl)
theorem lt_of_tinyAt (ha : 0 < a) (hb : 0 < b) (h : tinyAt M emin a b neg mode = true) : (a : Rat) / b < 2 ^ emin := by
  have hk : floorLog2 a b < emin := by
    by_contra hk
    simp [tinyAt, not_lt.1 hk] at h
  exact (floorLog2_spec ha hb).2.trans_le (two_zpow_le.2 hk)
/-- A result below the smallest normal number is tiny. -/
theorem tinyAt_of_lt (hM : 1 ≤ M) (ha : 0 < a) (hb : 0 < b) (h : codeValue M emin (roundedCode M emin a b neg mode).1 < 2 ^ emin) :
    tinyAt M emin a b neg mode = true := by
  have hmono := codeValue_strictMono M emin
  rw [← codeValue_smallestNormal M emin, hmono.lt_iff_lt] at h
  obtain ⟨hlo, hhi⟩ := floorLog2_spec ha hb
  have hbelow : floorLog2 a b < emin := by
    by_contra hk
    obtain ⟨i, hr⟩ := roundedCode_rounds (emin := emin) (neg := neg) (mode := mode) hM ha hb
    have hi : 2 ^ M < i + 1 := by
      rw [← hmono.lt_iff_lt, codeValue_smallestNormal]
      exact ((two_zpow_le.2 (not_lt.1 hk)).trans hlo).trans_lt hr.lt
    have := hr.result.elim (fun hu => hu.2.symm ▸ Nat.le_succ i) fun hu => hu.2.ge
    omega
  unfold tinyAt
  dsimp only
  rw [if_neg (not_le.2 hbelow)]
  split
  · rfl
  · rename_i hk
    have hk : floorLog2 a b = emin - 1 := by omega
    have hbin : binade emin (floorLog2 a b) = emin := if_pos hbelow
    unfold roundedCode at h
    rw [hbin] at h
    simp only [sub_self, zero_mul, Int.toNat_zero, Nat.add_zero] at h
    obtain ⟨hy, hpos⟩ := scale2_rat a hb (M - emin)
    obtain ⟨hy', hpos'⟩ := scale2_rat a hb (M - floorLog2 a b)
    have hcoarse := roundInt_rounds (scale2 a b (M - emin)).1 hpos neg mode
    have hfine := roundInt_rounds (scale2 a b (M - floorLog2 a b)).1 hpos' neg mode
    have hdouble : (a : Rat) / b * 2 ^ ((M : Int) - floorLog2 a b) = 2 * (a / b * 2 ^ ((M : Int) - emin)) := by
      rw [hk, show (M : Int) - (emin - 1) = 1 + (M - emin) by ring, two_zpow_add]
      ring
    rw [hy] at hcoarse
    rw [hy', hdouble] at hfine
    have hlt : (a : Rat) / b * 2 ^ ((M : Int) - emin) < (2 ^ M : Nat) := by
      rw [← two_zpow_natCast]
      calc (a : Rat) / b * 2 ^ ((M : Int) - emin) < 2 ^ (floorLog2 a b + 1) * 2 ^ ((M : Int) - emin) :=
            mul_lt_mul_of_pos_right hhi (two_zpow_pos _)
        _ = 2 ^ (M : Int) := by rw [hk, ← two_zpow_add]; congr 1; ring
    refine decide_eq_true (not_le.1 fun hge => h.not_ge (hcoarse.of_finer hfine ?_ hlt))
    rwa [pow_succ, Nat.mul_comm] at hge

end Sys2Proof.Machine
end

section
/-! The floating formats: the model's table against that of R77, values of encodings, rounding with its flags (O11, 03_numbers.md R77 to R86). -/
namespace Sys2Proof.Machine

/-- What the two tables of a format have in common, and the bounds on its codes. -/
structure FloatFormat.Tabled (f : FloatFormat) : Prop where
  notInt : isInt f.code = false
  notNI : isNI f.code = false
  M : (fspec f.code).M = f.m
  bias : ((fspec f.code).bias : Int) = f.bias
  signed : (fspec f.code).signed = f.signed
  maxFin : (fspec f.code).maxFin = f.max
  inf : (fspec f.code).inf = positiveInf f.code
  inf_signed : (positiveInf f.code).isSome = true → f.signed = true
  nan : (fspec f.code).nan = canonicalNan f.code
  width : fmtWidth f.code = (fspec f.code).w
  w : (fspec f.code).w = f.e + f.m + if f.signed then 1 else 0
  m_pos : 1 ≤ f.m
  max_lt : f.max < 2 ^ (f.e + f.m)
  max_normal : 1 ≤ f.max / 2 ^ f.m
theorem floatFormats_tabled {f : FloatFormat} (hf : f ∈ floatFormats) : f.Tabled := by
  simp only [floatFormats, List.mem_cons, List.not_mem_nil, or_false] at hf
  rcases hf with rfl | rfl | rfl | rfl | rfl | rfl | rfl <;>
    exact ⟨rfl, rfl, rfl, rfl, rfl, rfl, rfl, by decide, rfl, rfl, rfl, by decide, by decide, by decide⟩

/-! Signs and magnitudes. -/
/-- The code of an encoding's magnitude. -/
def FloatFormat.magnitude (f : FloatFormat) (b : Nat) : Nat := b % 2 ^ (f.e + f.m)
theorem FloatFormat.magnitude_of_le {f : FloatFormat} (h : f.Tabled) {c : Nat} (hc : c ≤ f.max) : f.magnitude c = c :=
  Nat.mod_eq_of_lt (hc.trans_lt h.max_lt)
theorem FloatFormat.S_of_le {f : FloatFormat} (h : f.Tabled) {c : Nat} (hc : c ≤ f.max) : f.S c = false := by
  rw [FloatFormat.S, Nat.div_eq_of_lt (hc.trans_lt h.max_lt)]
  cases f.signed <;> rfl
theorem FloatFormat.mag_eq {f : FloatFormat} (h : f.Tabled) (b : Nat) : (fspec f.code).mag b = f.magnitude b := by
  unfold FSpec.mag FloatFormat.magnitude
  rw [h.signed, h.w]
  cases f.signed <;> rfl
theorem FloatFormat.neg_eq {f : FloatFormat} (h : f.Tabled) (b : Nat) : (fspec f.code).neg b = f.S b := by
  unfold FSpec.neg FloatFormat.S
  rw [h.signed, h.w]
  cases f.signed <;> rfl
theorem FloatFormat.pack_eq {f : FloatFormat} (h : f.Tabled) (s : Bool) (m : Nat) : (fspec f.code).pack s m = f.withSign (s && f.signed) m := by
  unfold FSpec.pack FloatFormat.withSign
  rw [h.signed, h.w]
  cases f.signed <;> cases s <;> simp [Nat.add_comm]

/-! Values. -/
theorem FloatFormat.expo_eq (f : FloatFormat) (b : Nat) : f.expo b = f.magnitude b / 2 ^ f.m := by
  rw [FloatFormat.expo, FloatFormat.magnitude, Nat.add_comm, pow_add, Nat.mod_mul_right_div_self]
theorem FloatFormat.frac_eq (f : FloatFormat) (b : Nat) : f.frac b = f.magnitude b % 2 ^ f.m :=
  (Nat.mod_mod_of_dvd _ (pow_dvd_pow 2 (Nat.le_add_left ..))).symm
theorem FloatFormat.value_eq (f : FloatFormat) (b : Nat) :
    f.value b = (if f.S b then -1 else 1) * codeValue f.m (1 - f.bias) (f.magnitude b) := by
  have hexpo := f.expo_eq b
  have hfrac := f.frac_eq b
  have hsplit (k : Int) : (2 : Rat) ^ (k - f.m) = 2 ^ k / 2 ^ f.m := by
    rw [sub_eq_add_neg, two_zpow_add, zpow_neg, zpow_natCast, div_eq_mul_inv]
  unfold FloatFormat.value codeValue
  rw [← hexpo, ← hfrac, hsplit, hsplit]
  refine congrArg _ (ite_congr rfl (fun _ => by ring) fun _ => ?_)
  rw [show ((f.expo b : Nat) : Int) - 1 + (1 - f.bias) = f.expo b - f.bias by ring]
  push_cast
  field_simp
  ring
theorem FloatFormat.value_of_le {f : FloatFormat} (h : f.Tabled) {c : Nat} (hc : c ≤ f.max) : f.value c = codeValue f.m (1 - f.bias) c := by
  rw [f.value_eq, FloatFormat.S_of_le h hc, FloatFormat.magnitude_of_le h hc]
  simp
theorem FloatFormat.next_eq {f : FloatFormat} (h : f.Tabled) :
    f.value f.max + (2 : Rat) ^ ((f.expo f.max : Int) - f.bias - f.m) = codeValue f.m (1 - f.bias) (f.max + 1) := by
  have hpos := h.max_normal
  have hexpo : f.expo f.max = f.max / 2 ^ f.m := by
    rw [FloatFormat.expo, Nat.mod_eq_of_lt]
    rw [Nat.div_lt_iff_lt_mul (Nat.two_pow_pos _), ← pow_add]
    exact h.max_lt
  rw [codeValue_succ, FloatFormat.value_of_le h le_rfl, hexpo]
  congr 2
  omega

/-- A finite encoding stands for the value of its magnitude's code with its sign; the codes above are infinities and NaNs. -/
theorem FloatFormat.val_eq {f : FloatFormat} (h : f.Tabled) (b : Nat) :
    val f.code b =
      if f.magnitude b ≤ f.max then
        if f.magnitude b / 2 ^ f.m = 0 then .fin (f.S b) (f.magnitude b % 2 ^ f.m) 1 (1 - f.bias - f.m)
        else .fin (f.S b) (f.magnitude b % 2 ^ f.m + 2 ^ f.m) 1 ((f.magnitude b / 2 ^ f.m : Nat) - f.bias - f.m)
      else if some (f.magnitude b) = positiveInf f.code then .inf (f.S b)
      else .nan ((positiveInf f.code).isSome && f.magnitude b / 2 ^ (f.m - 1) % 2 == 0) := by
  unfold val
  simp only [h.notInt, h.notNI, Bool.or_self, Bool.false_eq_true, if_false, FloatFormat.mag_eq h, FloatFormat.neg_eq h, h.M, h.bias, h.maxFin, h.inf]
theorem FloatFormat.val_finite {f : FloatFormat} (h : f.Tabled) {b : Nat} (hb : f.magnitude b ≤ f.max) :
    (val f.code b).isFin = true ∧ (val f.code b).sign = f.S b ∧ (val f.code b).rat = f.value b := by
  rw [FloatFormat.val_eq h, if_pos hb, f.value_eq, codeValue]
  split
  · refine ⟨rfl, rfl, ?_⟩
    simp [Val.rat]
  · refine ⟨rfl, rfl, ?_⟩
    simp only [Val.rat, Nat.cast_one, div_one, mul_assoc]
    congr 3
    ring
/-- The columns Infinity and NaN of R77 by the magnitude's code. -/
theorem FloatFormat.special_iff {f : FloatFormat} (hf : f ∈ floatFormats) (b : Nat) :
    (f.isInf b = true ↔ some (f.magnitude b) = positiveInf f.code) ∧
    (f.isNan b = true ↔ f.max < f.magnitude b ∧ some (f.magnitude b) ≠ positiveInf f.code) ∧
    (f.isNan b = true → (f.isSignalling b = true ↔ (positiveInf f.code).isSome = true ∧ f.magnitude b / 2 ^ (f.m - 1) % 2 = 0)) := by
  have hlt : f.magnitude b < 2 ^ (f.e + f.m) := Nat.mod_lt _ (Nat.two_pow_pos _)
  unfold FloatFormat.isSignalling FloatFormat.isInf FloatFormat.isNan
  rw [f.expo_eq, f.frac_eq]
  generalize f.magnitude b = c at hlt ⊢
  simp only [floatFormats, List.mem_cons, List.not_mem_nil, or_false] at hf
  rcases hf with rfl | rfl | rfl | rfl | rfl | rfl | rfl <;>
    simp [positiveInf] at hlt ⊢ <;> omega

end Sys2Proof.Machine
end

section
/-! Rounding into the floating formats of the table, and O11 itself (03_numbers.md R81 to R86). -/
namespace Sys2Proof.Machine

variable {f : FloatFormat}

/-- Every encoding: a NaN, an infinity or a number. -/
theorem FloatFormat.val_decodes (hf : f ∈ floatFormats) (b : Nat) :
    (f.isNan b = true → val f.code b = .nan (f.isSignalling b)) ∧ (f.isInf b = true → val f.code b = .inf (f.S b)) ∧
    (f.isNan b = false → f.isInf b = false → (val f.code b).isFin = true ∧ (val f.code b).sign = f.S b ∧ (val f.code b).rat = f.value b) := by
  have h := floatFormats_tabled hf
  obtain ⟨hinf, hnan, hsig⟩ := FloatFormat.special_iff hf b
  have hbig (i : Nat) (hi : some i = positiveInf f.code) : f.max < i := by
    simp only [floatFormats, List.mem_cons, List.not_mem_nil, or_false] at hf
    rcases hf with rfl | rfl | rfl | rfl | rfl | rfl | rfl <;> simp [positiveInf] at hi ⊢ <;> omega
  refine ⟨fun hn => ?_, fun hi => ?_, fun hn hi => ?_⟩
  · obtain ⟨hlt, hne⟩ := hnan.1 hn
    rw [FloatFormat.val_eq h, if_neg hlt.not_ge, if_neg hne]
    congr 1
    rw [Bool.eq_iff_iff, hsig hn]
    simp
  · have hinf := hinf.1 hi
    rw [FloatFormat.val_eq h, if_neg (hbig _ hinf).not_ge, if_pos hinf]
  · refine FloatFormat.val_finite h (not_lt.1 fun hlt => ?_)
    rw [← Bool.not_eq_true] at hn hi
    exact hn (hnan.2 ⟨hlt, fun he => hi (hinf.2 he)⟩)

/-! Rounding. -/
/-- The flags of a result within the format. -/
def roundFlags (inexact tiny : Bool) : FFlags := if inexact then (if tiny then NX ||| UF else NX) else 0
theorem roundFlags_bits : ∀ inexact tiny : Bool, (roundFlags inexact tiny).getLsbD 4 = false ∧ (roundFlags inexact tiny).getLsbD 3 = false ∧
    (roundFlags inexact tiny).getLsbD 2 = false ∧ (roundFlags inexact tiny).getLsbD 1 = (inexact && tiny) ∧
    (roundFlags inexact tiny).getLsbD 0 = inexact := by
  decide
/-- The mode takes a value away from zero where it can (R81). -/
def awayFromZero (mode : Nat) (s : Bool) : Bool := mode == 0 || (mode == 2 && s) || (mode == 3 && !s)
theorem FloatFormat.overflowBits_eq (h : f.Tabled) {s : Bool} {mode : Nat} (hm : mode < 4) (hs : (s && f.signed) = s) :
    overflowBits f.code s mode = f.withSign s (if awayFromZero mode s then (positiveInf f.code).getD f.max else f.max) := by
  unfold overflowBits
  dsimp only
  rw [h.inf, h.maxFin]
  cases positiveInf f.code with
  | none => rw [FloatFormat.pack_eq h, hs]; simp
  | some i =>
    dsimp only
    rw [FloatFormat.pack_eq h, hs]
    have : mode = 0 ∨ mode = 1 ∨ mode = 2 ∨ mode = 3 := by omega
    rcases this with rfl | rfl | rfl | rfl <;> simp [awayFromZero]
theorem FloatFormat.roundVal_fin (h : f.Tabled) {n : Nat} (hn : 0 < n) (s : Bool) (d : Nat) (e : Int) (mode : Nat) :
    roundVal f.code (.fin s n d e) mode = roundFin f.code s n d e mode := by
  obtain ⟨n, rfl⟩ : ∃ m, n = m + 1 := ⟨n - 1, by omega⟩
  unfold roundVal
  rw [if_neg (by simp [h.notInt])] <;> rfl
theorem FloatFormat.roundVal_unsigned (h : f.Tabled) (hu : f.signed = false) {n : Nat} (hn : 0 < n) (d : Nat) (e : Int) (mode : Nat) :
    roundVal f.code (.fin true n d e) mode = (0, NV) := by
  rw [FloatFormat.roundVal_fin h hn, roundFin, if_pos]
  simp [h.signed, hu]
/-- A nonzero finite value that the format has a sign for: its code, or the overflow beyond the largest. -/
theorem FloatFormat.roundVal_nonzero (h : f.Tabled) {s : Bool} {n d : Nat} (hn : 0 < n) (hd : 0 < d) (e : Int) {mode : Nat} (hm : mode < 4)
    (hs : (s && f.signed) = s) :
    ∃ i r inexact tiny, Rounds (codeValue f.m (1 - f.bias)) (Val.rat (.fin false n d e)) s mode i r inexact ∧
      (tiny = true → Val.rat (.fin false n d e) < 2 ^ (1 - f.bias)) ∧ (codeValue f.m (1 - f.bias) r < 2 ^ (1 - f.bias) → tiny = true) ∧
      roundVal f.code (.fin s n d e) mode =
        if f.max < r then (f.withSign s (if awayFromZero mode s then (positiveInf f.code).getD f.max else f.max), OF ||| NX)
        else (f.withSign s r, roundFlags inexact tiny) := by
  obtain ⟨hval, hb⟩ := scale2_rat n hd e
  have hx : Val.rat (.fin false n d e) = (scale2 n d e).1 / (scale2 n d e).2 := by simp [Val.rat, hval]
  have ha : 0 < (scale2 n d e).1 := by
    have : (0 : Rat) < (scale2 n d e).1 / (scale2 n d e).2 := by
      rw [hval]
      exact mul_pos (div_pos (Nat.cast_pos.2 hn) (Nat.cast_pos.2 hd)) (two_zpow_pos e)
    rw [div_pos_iff_of_pos_right (Nat.cast_pos.2 hb)] at this
    exact_mod_cast this
  obtain ⟨i, hr⟩ := roundedCode_rounds (emin := 1 - f.bias) (neg := s) (mode := mode) h.m_pos ha hb
  refine ⟨i, _, _, tinyAt f.m (1 - f.bias) (scale2 n d e).1 (scale2 n d e).2 s mode, hx ▸ hr,
    fun ht => hx ▸ lt_of_tinyAt ha hb ht, tinyAt_of_lt h.m_pos ha hb, ?_⟩
  have hns : (s && !(fspec f.code).signed) = false := by
    rw [h.signed]
    cases s <;> simp_all
  rw [FloatFormat.roundVal_fin h hn, roundFin_eq _ _ _ _ _ hns]
  simp only [h.M, h.bias, h.maxFin, FloatFormat.pack_eq h, hs, FloatFormat.overflowBits_eq h hm hs, gt_iff_lt, roundFlags]

/-- A value that stays within the format: its code by the mode, and the flags of R84. -/
theorem FloatFormat.roundVal_within (h : f.Tabled) {s : Bool} {x : Rat} {mode i r : Nat} {inexact tiny : Bool}
    (hr : Rounds (codeValue f.m (1 - f.bias)) x s mode i r inexact) (htiny : tiny = true → x < 2 ^ (1 - f.bias))
    (hsmall : codeValue f.m (1 - f.bias) r < 2 ^ (1 - f.bias) → tiny = true) (hle : r ≤ f.max) :
    let fl := roundFlags inexact tiny
    fl.getLsbD 4 = false ∧ fl.getLsbD 3 = false ∧ (fl.getLsbD 0 = true ↔ f.value r ≠ x) ∧
    (fl.getLsbD 1 = true → f.value r ≠ x ∧ x < 2 ^ (1 - f.bias)) ∧ (f.value r ≠ x → f.value r < 2 ^ (1 - f.bias) → fl.getLsbD 1 = true) ∧
    ∀ m' ≤ f.max,
      (mode = 0 → (f.value r - x) ^ 2 ≤ (f.value m' - x) ^ 2 ∧ ((f.value r - x) ^ 2 = (f.value m' - x) ^ 2 → m' = r ∨ r % 2 = 0)) ∧
      (mode = 1 ∨ mode = 2 ∧ s = false ∨ mode = 3 ∧ s = true → f.value r ≤ x ∧ (f.value m' ≤ x → f.value m' ≤ f.value r)) ∧
      (mode = 2 ∧ s = true ∨ mode = 3 ∧ s = false → x ≤ f.value r ∧ (x ≤ f.value m' → f.value r ≤ f.value m')) := by
  have hV := codeValue_strictMono f.m (1 - f.bias)
  rw [FloatFormat.value_of_le h hle, ← hr.inexact_iff_ne]
  obtain ⟨hnv, hdz, -, huf, hnx⟩ := roundFlags_bits inexact tiny
  dsimp only
  rw [hnv, hdz, huf, hnx, Bool.and_eq_true]
  refine ⟨rfl, rfl, Iff.rfl, fun hut => ⟨hut.1, htiny hut.2⟩, fun hi hv => ⟨hi, hsmall hv⟩, fun m' hm' => ?_⟩
  · rw [FloatFormat.value_of_le h hm']
    exact ⟨fun hm => by subst hm; exact hr.nearest hV m', fun hm => hr.down hV hm m', fun hm => hr.away hV hm m'⟩

theorem FloatFormat.roundVal_zero (h : f.Tabled) (s : Bool) (d : Nat) (e : Int) (mode : Nat) :
    roundVal f.code (.fin s 0 d e) mode = (f.withSign (s && f.signed) 0, 0) := by
  rw [roundVal, if_neg (by simp [h.notInt]), ← FloatFormat.pack_eq h] <;> rfl
theorem FloatFormat.roundVal_nan (h : f.Tabled) (sig : Bool) (mode : Nat) :
    roundVal f.code (.nan sig) mode = match canonicalNan f.code with
      | some q => (q, 0)
      | none => (0, NV) := by
  rw [roundVal, if_neg (by simp [h.notInt]), ← h.nan] <;> rfl
theorem FloatFormat.roundVal_inf (h : f.Tabled) (s : Bool) (mode : Nat) :
    roundVal f.code (.inf s) mode = match positiveInf f.code with
      | some i => (f.withSign s i, 0)
      | none => if f.signed = false ∧ s = true then (0, NV) else (f.withSign s f.max, OF) := by
  rw [roundVal, if_neg (by simp [h.notInt])]
  dsimp only
  rw [h.inf, h.signed, h.maxFin, FloatFormat.pack_eq h]
  cases hp : positiveInf f.code with
  | some i =>
    dsimp only
    rw [FloatFormat.pack_eq h, h.inf_signed (hp ▸ rfl), Bool.and_true]
  | none => cases s <;> cases f.signed <;> rfl

/-- Settles O11: rounding into a format is rounding to the rising values of its codes. -/
theorem floatEncoding : Obligations.FloatEncoding := by
  refine ⟨fun f hf b _ => FloatFormat.val_decodes hf b, fun f hf s n d e mode hn hd hm => ?_, fun f hf s d e mode => ?_⟩
  · have h := floatFormats_tabled hf
    have hV := codeValue_strictMono f.m (1 - f.bias)
    refine ⟨fun hu hs => hs ▸ FloatFormat.roundVal_unsigned h hu hn d e mode, fun hs => ?_⟩
    · have hs : (s && f.signed) = s := by cases s <;> simp_all
      obtain ⟨i, r, inexact, tiny, hr, htiny, hsmall, hy⟩ := FloatFormat.roundVal_nonzero h hn hd e hm hs
      obtain ⟨-, -, hof, -⟩ := roundFlags_bits inexact tiny
      have hbeyond := hr.beyond_iff hV hm (top := f.max)
      rw [FloatFormat.next_eq h, hy, FloatFormat.value_of_le h le_rfl]
      refine ⟨Iff.trans ?_ hbeyond, fun hb => ⟨Beyond.lt hV hb hm, ?_⟩, fun hno => ?_⟩
      · split
        · exact iff_of_true (by simp [OF, NX]) ‹_›
        · exact iff_of_false (hof ▸ Bool.false_ne_true) ‹_›
      · rw [if_pos (hbeyond.2 hb)]
        exact ⟨rfl, rfl⟩
      · have hle : r ≤ f.max := not_lt.1 fun hlt => by simp [hlt, OF, NX] at hno
        rw [if_neg hle.not_gt]
        exact ⟨r, hle, rfl, FloatFormat.roundVal_within h hr htiny hsmall hle⟩
  · have h := floatFormats_tabled hf
    exact ⟨FloatFormat.roundVal_zero h s d e mode, FloatFormat.roundVal_inf h s mode, fun sig => FloatFormat.roundVal_nan h sig mode⟩

end Sys2Proof.Machine
end

section
/-! Rounding to the integer formats (03_numbers.md R76, R81, R86). -/
namespace Sys2Proof.Machine

/-- The sign of a value. -/
def signOf (s : Bool) : Rat := if s then -1 else 1
/-- A magnitude with a sign. -/
def signedInt (s : Bool) (i : Int) : Int := if s then -i else i
theorem Val.rat_fin (s : Bool) (n d : Nat) (e : Int) : Val.rat (.fin s n d e) = signOf s * Val.rat (.fin false n d e) := by
  simp [Val.rat, signOf]

/-! Rounding a rational to an integer. -/
variable {q : Rat} {s : Bool} {mode i r : Nat} {inexact : Bool}
theorem Rounds.floor (h : Rounds Nat.cast q s mode i r inexact) : ⌊q⌋ = i :=
  Int.floor_eq_iff.2 ⟨h.le, by simpa using h.lt⟩
theorem Rounds.ceil (h : Rounds Nat.cast q s mode i r inexact) : ⌈q⌉ = if (i : Rat) = q then (i : Int) else i + 1 := by
  have hlt := h.lt
  push_cast at hlt
  split
  · rename_i he
    rw [← he]
    exact Int.ceil_natCast i
  · rename_i hne
    refine Int.ceil_eq_iff.2 ⟨?_, by push_cast; exact hlt.le⟩
    push_cast
    linarith [lt_of_le_of_ne h.le hne]
theorem floor_eq (q : Rat) : q.floor = ⌊q⌋ := rfl
theorem ceil_eq (q : Rat) : q.ceil = ⌈q⌉ := eq_of_forall_ge_iff fun _ => Rat.ceil_le_iff.trans Int.ceil_le.symm
/-- Rounding to nearest at a value whose floor is known. -/
theorem ruleRoundInt_nearest {x : Rat} {f : Int} (hf : ⌊x⌋ = f) :
    ruleRoundInt 0 x = if x - f < 1 / 2 ∨ x - f = 1 / 2 ∧ f % 2 = 0 then f else f + 1 := by
  have hf : x.floor = f := hf
  unfold ruleRoundInt
  simp only [hf]
  rcases lt_trichotomy (x - f) (1 / 2) with hlt | heq | hgt
  · rw [if_pos hlt, if_pos (Or.inl hlt)]
  · simp [heq]
  · simp only [hgt.not_gt, hgt, hgt.ne', if_true, if_false, false_and, or_self]
theorem ruleRoundInt_down (hm : mode = 1 ∨ mode = 2 ∧ s = false ∨ mode = 3 ∧ s = true) (hq : 0 ≤ q) :
    ruleRoundInt mode (signOf s * q) = signedInt s ⌊q⌋ := by
  have hneg : 0 ≤ -q → q = 0 := fun h => by linarith
  rcases hm with rfl | ⟨rfl, rfl⟩ | ⟨rfl, rfl⟩
  · cases s
    · simp [ruleRoundInt, signOf, signedInt, hq, floor_eq]
    · simp only [ruleRoundInt, signOf, signedInt, if_true, neg_one_mul, floor_eq, ceil_eq, Int.ceil_neg]
      split
      · rename_i h
        simp [hneg h]
      · rfl
  · simp [ruleRoundInt, signOf, signedInt, floor_eq]
  · simp [ruleRoundInt, signOf, signedInt, ceil_eq, Int.ceil_neg]
theorem ruleRoundInt_away (hm : mode = 2 ∧ s = true ∨ mode = 3 ∧ s = false) : ruleRoundInt mode (signOf s * q) = signedInt s ⌈q⌉ := by
  rcases hm with ⟨rfl, rfl⟩ | ⟨rfl, rfl⟩
  · simp [ruleRoundInt, signOf, signedInt, floor_eq, Int.floor_neg]
  · simp [ruleRoundInt, signOf, signedInt, ceil_eq]
/-- A magnitude rounded to nearest is the signed value rounded to nearest. -/
theorem Rounds.ruleRoundInt_nearest (h : Rounds Nat.cast q s 0 i r inexact) : ruleRoundInt 0 (signOf s * q) = signedInt s r := by
  have hup : RoundsUp Nat.cast q s 0 i ↔ 1 / 2 < q - i ∨ q - i = 1 / 2 ∧ (i : Int) % 2 = 1 := by
    have hodd : i % 2 = 1 ↔ (i : Int) % 2 = 1 := by omega
    have hlt : (i : Rat) + (i + 1 : Nat) < 2 * q ↔ 1 / 2 < q - i := by push_cast; constructor <;> intro h <;> linarith
    have heq : (i : Rat) + (i + 1 : Nat) = 2 * q ↔ q - i = 1 / 2 := by push_cast; constructor <;> intro h <;> linarith
    simp only [RoundsUp, hlt, heq, hodd]
  have hle := h.le
  have hceil := h.ceil
  have hres := h.result
  rw [hup] at hres
  cases s
  · rw [signOf, if_neg Bool.false_ne_true, one_mul, signedInt, if_neg Bool.false_ne_true, Machine.ruleRoundInt_nearest h.floor, Int.cast_natCast]
    rcases lt_trichotomy (q - i) (1 / 2) with hlt | heq | hgt
    · have : r = i := hres.elim (fun hu => by grind) And.right
      rw [if_pos (Or.inl hlt), this]
    · simp only [heq, lt_irrefl, false_or, true_and] at hres ⊢
      split <;> omega
    · have : r = i + 1 := hres.elim And.right fun hu => by grind
      rw [if_neg (by grind), this]
      rfl
  · rw [signOf, if_pos rfl, neg_one_mul, signedInt, if_pos rfl, Machine.ruleRoundInt_nearest (Int.floor_neg.trans (congrArg _ hceil))]
    by_cases hi : (i : Rat) = q
    · have : r = i := hres.elim (fun hu => by grind) And.right
      simp [hi, this]
    · simp only [if_neg hi]
      have hx : -q - (-((i : Int) + 1) : Int) = 1 - (q - i) := by push_cast; ring
      rw [hx]
      rcases lt_trichotomy (q - i) (1 / 2) with hlt | heq | hgt
      · have : r = i := hres.elim (fun hu => by grind) And.right
        rw [if_neg (by grind), this]
        ring
      · simp only [heq, lt_irrefl, false_or, true_and] at hres ⊢
        norm_num
        split <;> omega
      · have : r = i + 1 := hres.elim And.right fun hu => by grind
        rw [if_pos (by grind), this]
        rfl
/-- A magnitude rounded with the sign at hand is the signed value rounded. -/
theorem Rounds.ruleRoundInt_eq (h : Rounds Nat.cast q s mode i r inexact) (hm : mode < 4) : ruleRoundInt mode (signOf s * q) = signedInt s r := by
  rcases mode_cases hm s with rfl | hm | hm
  · exact h.ruleRoundInt_nearest
  · obtain rfl : r = i := h.result.elim (fun hu => absurd hu.1 (RoundsUp.not_down hm)) And.right
    rw [ruleRoundInt_down hm ((Nat.cast_nonneg r).trans h.le), h.floor]
  · rw [ruleRoundInt_away hm, h.ceil]
    rcases h.result with ⟨hu, rfl⟩ | ⟨hu, rfl⟩
    · rw [if_neg (RoundsUp.iff_away hm |>.1 hu)]
      rfl
    · rw [if_pos (not_not.1 fun hne => hu ((RoundsUp.iff_away hm).2 hne))]

/-! The integer formats. -/
/-- The place of a rounded magnitude in an integer format: its code, or the nearest end of the range with NV (R86). -/
def intoFormat (c : Nat) (s : Bool) (i : Nat) (fl : FFlags) : Nat × FFlags :=
  let w := fmtWidth c
  if isZ c then
    if s then if i = 0 then (0, fl) else (0, NV)
    else if i < 2 ^ w then (i, fl) else (2 ^ w - 1, NV)
  else if s then
    if i ≤ 2 ^ (w - 1) then ((2 ^ w - i) % 2 ^ w, fl) else (2 ^ (w - 1), NV)
  else if i < 2 ^ (w - 1) then (i, fl) else (2 ^ (w - 1) - 1, NV)
theorem roundToInt_eq (c : Nat) (s : Bool) (n d : Nat) (e : Int) (mode : Nat) :
    roundToInt c s n d e mode =
      let a := scale2 n d e
      intoFormat c s (roundInt a.1 a.2 s mode).1 (if (roundInt a.1 a.2 s mode).2 then NX else 0) := rfl
theorem intoFormat_eq {c : Nat} (hc : c < 8) (s : Bool) (i : Nat) (fl : FFlags) :
    intoFormat c s i fl = (codeOf c (clampTo c (signedInt s i)), if clampTo c (signedInt s i) = signedInt s i then fl else NV) := by
  unfold intoFormat codeOf clampTo intMin intMax signedInt
  interval_cases c <;> cases s <;> simp [fmtWidth, isZ]
  all_goals grind
theorem signOf_ne_zero (s : Bool) : signOf s ≠ 0 := by cases s <;> simp [signOf]
theorem signedInt_cast (s : Bool) (i : Nat) : ((signedInt s i : Int) : Rat) = signOf s * i := by cases s <;> simp [signedInt, signOf]
/-- A finite value rounded into an integer format. -/
theorem roundToInt_rule {c : Nat} (hc : c < 8) (s : Bool) (n : Nat) {d : Nat} (hd : 0 < d) (e : Int) (hm : mode < 4) :
    roundToInt c s n d e mode =
      let q := Val.rat (.fin s n d e)
      let r := ruleRoundInt mode q
      (codeOf c (clampTo c r), if clampTo c r = r then (if q = r then 0 else NX) else NV) := by
  obtain ⟨hval, hpos⟩ := scale2_rat n hd e
  have hx : Val.rat (.fin false n d e) = (scale2 n d e).1 / (scale2 n d e).2 := by simp [Val.rat, hval]
  have hr := roundInt_rounds (scale2 n d e).1 hpos s mode
  rw [← hx] at hr
  rw [roundToInt_eq, Val.rat_fin]
  dsimp only
  rw [hr.ruleRoundInt_eq hm, intoFormat_eq hc]
  have hexact := hr.inexact_iff_ne
  have hcast := signedInt_cast s (roundInt (scale2 n d e).1 (scale2 n d e).2 s mode).1
  generalize roundInt (scale2 n d e).1 (scale2 n d e).2 s mode = y at hexact hcast ⊢
  have heq : signOf s * Val.rat (.fin false n d e) = (signedInt s y.1 : Int) ↔ y.2 = false := by
    rw [hcast, mul_right_inj' (signOf_ne_zero s), ← Bool.not_eq_true, hexact, not_not, eq_comm]
  simp only [heq, ← Bool.not_eq_true, ite_not]
theorem codeOf_lt (c : Nat) (x : Int) : codeOf c x < 2 ^ fmtWidth c := by
  have hpos : (0 : Int) < 2 ^ fmtWidth c := by positivity
  have hlt := Int.emod_lt_of_pos x hpos
  have h0 := Int.emod_nonneg x hpos.ne'
  unfold codeOf
  zify
  rwa [Int.toNat_of_nonneg h0]

end Sys2Proof.Machine
end

section
/-! Conversion between the element formats, and O14 itself (03_numbers.md R75, R86, R98). -/
namespace Sys2Proof.Machine

/-! Sources. -/
theorem Val.rat_ofInt (x : Int) : (Val.ofInt x).rat = x := by
  rcases lt_or_ge x 0 with h | h
  · simp [Val.ofInt, Val.rat, h, abs_of_neg h]
  · simp [Val.ofInt, Val.rat, h.not_gt, abs_of_nonneg h]
theorem Val.nv_ofInt (x : Int) : (Val.ofInt x).nv = 0 := rfl
theorem val_int {c : Nat} (hc : c < 8) (b : Nat) :
    val c b = Val.ofInt (if c < 4 then Int.bmod (b % 2 ^ fmtWidth c : Nat) (2 ^ fmtWidth c) else (b % 2 ^ fmtWidth c : Nat)) := by
  have hlt : b % 2 ^ fmtWidth c < 2 ^ fmtWidth c := Nat.mod_lt _ (Nat.two_pow_pos _)
  unfold val Val.ofInt Int.bmod
  dsimp only
  generalize b % 2 ^ fmtWidth c = u at hlt
  interval_cases c <;> simp [fmtWidth, isInt, isZ] at hlt ⊢ <;> grind
theorem val_den {c b : Nat} {s : Bool} {n d : Nat} {e : Int} (h : val c b = .fin s n d e) : d = 1 := by
  unfold val at h
  dsimp only at h
  split_ifs at h <;> cases h <;> rfl

/-! Destinations. -/
/-- The codes of the floating element formats (R64). -/
theorem exists_floatFormat {c : Nat} (hc : 8 ≤ c ∧ c ≤ 13 ∨ c = 24) : ∃ f ∈ floatFormats, f.code = c := by
  have : c = 8 ∨ c = 9 ∨ c = 10 ∨ c = 11 ∨ c = 12 ∨ c = 13 ∨ c = 24 := by omega
  rcases this with rfl | rfl | rfl | rfl | rfl | rfl | rfl <;> decide

theorem FloatFormat.withSign_lt {f : FloatFormat} (h : f.Tabled) {s : Bool} {m : Nat} (hs : (s && f.signed) = s) (hm : m < 2 ^ (f.e + f.m)) :
    f.withSign s m < 2 ^ fmtWidth f.code := by
  rw [h.width, h.w]
  unfold FloatFormat.withSign
  cases s
  · exact hm.trans_le (Nat.pow_le_pow_right (by decide) (Nat.le_add_right ..))
  · have : f.signed = true := by simpa using hs
    rw [this, if_pos rfl, if_pos rfl, pow_succ]
    omega
/-- The special codes of a format fit it. -/
theorem floatFormats_special_lt {f : FloatFormat} (hf : f ∈ floatFormats) :
    (canonicalNan f.code).getD 0 < 2 ^ fmtWidth f.code ∧ (positiveInf f.code).getD 0 < 2 ^ (f.e + f.m) := by
  simp only [floatFormats, List.mem_cons, List.not_mem_nil, or_false] at hf
  rcases hf with rfl | rfl | rfl | rfl | rfl | rfl | rfl <;> decide
/-- A rounded value is a code of the format. -/
theorem FloatFormat.roundVal_lt {f : FloatFormat} (hf : f ∈ floatFormats) {x : Val} (hx : ∀ s n d e, x = .fin s n d e → 0 < d) {mode : Nat}
    (hm : mode < 4) : (roundVal f.code x mode).1 < 2 ^ fmtWidth f.code := by
  have h := floatFormats_tabled hf
  obtain ⟨hnan, hinf⟩ := floatFormats_special_lt hf
  have hpos := Nat.two_pow_pos (fmtWidth f.code)
  cases x with
  | nan sig =>
    rw [FloatFormat.roundVal_nan h]
    cases hq : canonicalNan f.code with
    | some q => simpa [hq] using hnan
    | none => exact hpos
  | inf s =>
    rw [FloatFormat.roundVal_inf h]
    cases hi : positiveInf f.code with
    | some i =>
      have : f.signed = true := h.inf_signed (by rw [hi]; rfl)
      exact FloatFormat.withSign_lt h (by rw [this, Bool.and_true]) (by simpa [hi] using hinf)
    | none =>
      dsimp only
      split
      · exact hpos
      · exact FloatFormat.withSign_lt h (by cases s <;> simp_all) h.max_lt
  | fin s n d e =>
    rcases Nat.eq_zero_or_pos n with rfl | hn
    · rw [FloatFormat.roundVal_zero h]
      exact FloatFormat.withSign_lt h (by simp) (Nat.two_pow_pos _)
    · by_cases hs : (s && f.signed) = s
      · obtain ⟨i, r, inexact, tiny, -, -, -, hy⟩ := FloatFormat.roundVal_nonzero h hn (hx s n d e rfl) e hm hs
        rw [hy]
        split
        · refine FloatFormat.withSign_lt h hs ?_
          split
          · cases hi : positiveInf f.code with
            | some i => simpa [hi] using hinf
            | none => exact h.max_lt
          · exact h.max_lt
        · exact FloatFormat.withSign_lt h hs ((not_lt.1 ‹_›).trans_lt h.max_lt)
      · obtain ⟨rfl, hu⟩ : s = true ∧ f.signed = false := by cases s <;> simp_all
        rw [FloatFormat.roundVal_unsigned h hu hn]
        exact hpos

end Sys2Proof.Machine
end

section
/-! `CVT` against the rules of R86 and R98, and O14 itself. -/
namespace Sys2Proof.Machine

variable {dst src mode : Nat}
theorem isInt_iff (c : Nat) : isInt c = true ↔ c < 8 := by simp [isInt]
theorem roundVal_int (hd : dst < 8) (s : Bool) (n d : Nat) (e : Int) : roundVal dst (.fin s n d e) mode = roundToInt dst s n d e mode := by
  unfold roundVal
  rw [if_pos ((isInt_iff dst).2 hd)]
/-- The infinities go to the ends of the range (R86). -/
theorem roundVal_int_inf (hd : dst < 8) (s : Bool) : roundVal dst (.inf s) mode = (codeOf dst (if s then intMin dst else intMax dst), NV) := by
  unfold roundVal
  rw [if_pos ((isInt_iff dst).2 hd)]
  interval_cases dst <;> cases s <;> rfl
/-- Between integers the nearest end of the range is taken, with OF. -/
theorem convert_int_int (hd : dst < 8) (hs : src < 8) (hne : src ≠ dst) (b : Nat) : convert dst src b mode = ruleConvert dst src b mode := by
  unfold convert ruleConvert
  rw [if_neg hne, if_neg hne, val_int hs]
  dsimp only
  rw [if_pos (by simp [isInt, hs, hd]), if_pos hs, if_pos hd]
  generalize (if src < 4 then Int.bmod (b % 2 ^ fmtWidth src : Nat) (2 ^ fmtWidth src) else (b % 2 ^ fmtWidth src : Nat)) = x
  have hround : ruleRoundInt 1 (x : Rat) = x := by simp [ruleRoundInt, floor_eq, ceil_eq]
  have h := roundToInt_rule hd (x < 0) x.natAbs Nat.one_pos 0 (mode := 1) (by decide)
  rw [show Val.rat (.fin (x < 0) x.natAbs 1 0) = x from Val.rat_ofInt x] at h
  simp only [hround, if_true] at h
  rw [Val.ofInt, roundVal_int hd, h]
  refine Prod.ext rfl ?_
  dsimp only
  split <;> rfl
theorem convert_int_float (hd : ¬ dst < 8) (hs : src < 8) (b : Nat) : convert dst src b mode = ruleConvert dst src b mode := by
  have hne : src ≠ dst := by omega
  unfold convert ruleConvert
  rw [if_neg hne, if_neg hne, val_int hs]
  dsimp only
  rw [if_neg (by simp [isInt, hd]), if_pos hs, if_neg hd, Val.nv_ofInt]
  exact Prod.ext rfl (BitVec.or_zero)
theorem convert_float_int (hd : dst < 8) (hs : ¬ src < 8) (hm : mode < 4) (b : Nat) : convert dst src b mode = ruleConvert dst src b mode := by
  have hne : src ≠ dst := by omega
  have hint : isInt dst = true := by simp [isInt, hd]
  unfold convert ruleConvert
  rw [if_neg hne, if_neg hne, if_neg hs]
  dsimp only
  rw [if_neg (by simp [isInt, hs])]
  cases hv : val src b with
  | nan sig =>
    simp only [roundVal, hint, hd, if_true]
    cases sig <;> rfl
  | inf s =>
    rw [roundVal_int_inf hd]
    simp only [hd, if_true]
    exact Prod.ext rfl (BitVec.or_zero)
  | fin s n d e =>
    obtain rfl := val_den hv
    simp only [roundVal_int hd, hd, if_true, roundToInt_rule hd s n Nat.one_pos e hm]
    exact Prod.ext rfl (BitVec.or_zero)
theorem convert_float_float (hd : 8 ≤ dst ∧ dst ≤ 13 ∨ dst = 24) (hs : ¬ src < 8) (b : Nat) :
    convert dst src b mode = ruleConvert dst src b mode := by
  by_cases hne : src = dst
  · rw [convert, ruleConvert, if_pos hne, if_pos hne]
  have hd8 : ¬ dst < 8 := by omega
  obtain ⟨f, hf, hfd⟩ := exists_floatFormat hd
  have h := floatFormats_tabled hf
  unfold convert ruleConvert
  rw [if_neg hne, if_neg hne, if_neg hs]
  dsimp only
  rw [if_neg (by simp [isInt, hs])]
  cases hv : val src b with
  | nan sig =>
    rw [← hfd, FloatFormat.roundVal_nan h]
    cases canonicalNan f.code <;> cases sig <;> simp [Val.nv, hfd, hd8]
  | inf s =>
    have : dst = 8 ∨ dst = 9 ∨ dst = 10 ∨ dst = 11 ∨ dst = 12 ∨ dst = 13 ∨ dst = 24 := by omega
    clear hfd
    rcases this with rfl | rfl | rfl | rfl | rfl | rfl | rfl <;> cases s <;>
      exact Prod.ext rfl BitVec.or_zero
  | fin s n d e =>
    simp only [hd8, if_false]
    exact Prod.ext rfl (BitVec.or_zero)
/-- A code with a defined conversion (R98). -/
def isElement (c : Nat) : Bool := c ≤ 13 || c == 24
theorem isElement_iff (c : Nat) : isElement c = true ↔ c < 8 ∨ 8 ≤ c ∧ c ≤ 13 ∨ c = 24 := by simp [isElement]; omega
theorem cvtDefined_eq (dst src : Nat) : cvtDefined dst src = (isElement dst && isElement src) := rfl
theorem convert_eq (hd : isElement dst = true) (hm : mode < 4) (b : Nat) :
    convert dst src b mode = ruleConvert dst src b mode := by
  by_cases hne : src = dst
  · rw [convert, ruleConvert, if_pos hne, if_pos hne]
  rw [isElement_iff] at hd
  by_cases hd8 : dst < 8 <;> by_cases hs8 : src < 8
  · exact convert_int_int hd8 hs8 hne b
  · exact convert_float_int hd8 hs8 hm b
  · exact convert_int_float hd8 hs8 b
  · exact convert_float_float (hd.resolve_left hd8) hs8 b
theorem roundVal_int_lt (hd : dst < 8) {x : Val} (hx : ∀ s n d e, x = .fin s n d e → 0 < d) (hm : mode < 4) :
    (roundVal dst x mode).1 < 2 ^ fmtWidth dst := by
  cases x with
  | nan sig =>
    rw [roundVal, if_pos ((isInt_iff dst).2 hd)]
    exact Nat.two_pow_pos _
  | inf s => exact roundVal_int_inf hd s ▸ codeOf_lt ..
  | fin s n d e =>
    rw [roundVal_int hd, roundToInt_rule hd s n (hx s n d e rfl) e hm]
    exact codeOf_lt ..
/-- A converted value is a code of its format. -/
theorem convert_lt (hd : isElement dst = true) (hm : mode < 4) (b : Nat) : (convert dst src b mode).1 < 2 ^ fmtWidth dst := by
  by_cases hne : src = dst
  · rw [convert, if_pos hne, hne]
    exact Nat.mod_lt _ (Nat.two_pow_pos _)
  have hround {m : Nat} (hm : m < 4) : (roundVal dst (val src b) m).1 < 2 ^ fmtWidth dst := by
    have hx : ∀ s n d e, val src b = .fin s n d e → 0 < d := fun s n d e hv => val_den hv ▸ Nat.one_pos
    rw [isElement_iff] at hd
    rcases hd with hd | hd
    · exact roundVal_int_lt hd hx hm
    · obtain ⟨f, hf, rfl⟩ := exists_floatFormat hd
      exact FloatFormat.roundVal_lt hf hx hm
  rw [convert, if_neg hne]
  dsimp only
  split
  · exact hround (by decide)
  · exact hround hm
theorem fmtWidth_le (hd : isElement dst = true) : 0 < fmtWidth dst ∧ fmtWidth dst ≤ 64 := by
  have : dst < 14 ∨ dst = 24 := by simp [isElement] at hd; omega
  rcases this with hlt | rfl
  · interval_cases dst <;> decide
  · decide
theorem widen_eq (hd : isElement dst = true) {y : Nat} (hy : y < 2 ^ fmtWidth dst) :
    widen dst y = if dst < 4 then ruleSext y (fmtWidth dst) else wrapN y := by
  have hI : isI dst = true ↔ dst < 4 := by simp [isI]
  have hNI : isNI dst = false := by simp [isElement, isNI] at hd ⊢; omega
  unfold widen
  rw [hNI, Bool.or_false, sextN_eq_ruleSext (fmtWidth_le hd).2, zextN, Nat.mod_eq_of_lt hy, wrapN]
  exact if_congr hI rfl rfl

/-! A thread after a register write and an effect on its status. -/
theorem Thread.wr_orFlags_restore (t : Thread) (d : Reg) (v : W64) (x : FFlags) :
    { (t.wr d v).orFlags x with g := t.g, fflags := t.fflags, warn := t.warn } = t := by
  unfold Thread.wr
  split <;> rfl
theorem Thread.wr_setWarn_restore_status (t : Thread) (d : Reg) (v : W64) (x : BitVec 9) :
    { (t.wr d v).setWarn x with g := t.g, fflags := t.fflags, warn := t.warn } = t := by
  unfold Thread.wr
  split <;> rfl
/-- The thread after `CVT`, its operands read from `p`. -/
def cvtThread (dst src : Fmt) (d a : Reg) (p t : Thread) : Thread :=
  if cvtDefined dst.toNat src.toNat then
    let y := convert dst.toNat src.toNat (p.rd a).toNat p.round.toNat
    (t.wr d (widen dst.toNat y.1)).orFlags y.2
  else (t.wr d (p.rd a)).setWarn warnCv
/-- Settles O14: the conversions of the model against the table, rounded magnitudes being rounded rationals. -/
theorem conversionResult : Obligations.ConversionResult := by
  intro dst src d a s t _ h hc
  have hm : t.round.toNat < 4 := t.round.isLt
  have hexec : exec (.cvt dst src d a) s = .next (s.issued (cvtThread dst src d a t t.stepped)) :=
    congrArg Host.Outcome.next (h.own (.cvt dst src d a) [a] [d] (cvtThread dst src d a) hc)
  refine ⟨_, hexec, ?_⟩
  unfold cvtThread
  rw [cvtDefined_eq]
  dsimp only
  split
  · rename_i hok
    obtain ⟨hd, -⟩ := Bool.and_eq_true_iff.1 hok
    have hlt := convert_lt (src := src.toNat) hd hm (t.rd a).toNat
    rw [convert_eq hd hm] at hlt ⊢
    rw [widen_eq hd hlt]
    have hok' : ((decide (dst.toNat ≤ 13) || dst.toNat == 24) && (decide (src.toNat ≤ 13) || src.toNat == 24)) = true := hok
    simp only [hok', if_true]
    exact ⟨fun r => t.stepped.rd_wr r d _, congrArg (· ||| _) (t.stepped.wr_fflags d _),
      (t.stepped.wr_warn d _).trans BitVec.or_zero.symm, t.stepped.wr_orFlags_restore d _ _⟩
  · rename_i hok
    have hok' : ((decide (dst.toNat ≤ 13) || dst.toNat == 24) && (decide (src.toNat ≤ 13) || src.toNat == 24)) = false :=
      Bool.eq_false_iff.2 hok
    simp only [hok', if_false, Bool.false_eq_true]
    exact ⟨fun r => t.stepped.rd_wr r d _, (t.stepped.wr_fflags d _).trans BitVec.or_zero.symm,
      congrArg (· ||| _) (t.stepped.wr_warn d _), t.stepped.wr_setWarn_restore_status d _ _⟩

end Sys2Proof.Machine
end

section
/-! The scale code of a quantised block (03_numbers.md R89). -/
namespace Sys2Proof.Machine

/-- A magnitude: what `Val.abs` makes of a number. -/
def Val.Magnitude : Val → Prop
  | .inf false => True
  | .fin false _ d _ => 0 < d
  | _ => False
/-- A finite number between −B and B. -/
def Val.Under (B : Rat) (x : Val) : Prop := x.isFin = true ∧ x.rat ≤ B ∧ -x.rat ≤ B

theorem Val.rat_magnitude_nonneg (n d : Nat) (e : Int) : 0 ≤ Val.rat (.fin false n d e) := by
  simp only [Val.rat, Bool.false_eq_true, if_false, one_mul]
  exact mul_nonneg (div_nonneg (Nat.cast_nonneg _) (Nat.cast_nonneg _)) (two_zpow_pos e).le
theorem Val.rat_magnitude_pos {n d : Nat} (hn : 0 < n) (hd : 0 < d) (e : Int) : 0 < Val.rat (.fin false n d e) := by
  simp only [Val.rat, Bool.false_eq_true, if_false, one_mul]
  exact mul_pos (div_pos (Nat.cast_pos.2 hn) (Nat.cast_pos.2 hd)) (two_zpow_pos e)
theorem Val.rat_zero (s : Bool) (d : Nat) (e : Int) : Val.rat (.fin s 0 d e) = 0 := by simp [Val.rat]
/-- The comparison of two finite magnitudes over a common unit. -/
theorem Val.rat_lt_iff {n d n' d' : Nat} {e e' k : Int} (hd : 0 < d) (hd' : 0 < d') (hk : k ≤ e) (hk' : k ≤ e') :
    Val.rat (.fin false n d e) < Val.rat (.fin false n' d' e') ↔ n * 2 ^ (e - k).toNat * d' < n' * 2 ^ (e' - k).toNat * d := by
  have hsplit {j : Int} (hj : k ≤ j) : (2 : Rat) ^ j = 2 ^ (j - k).toNat * 2 ^ k := by
    rw [← zpow_natCast, ← two_zpow_add, Int.toNat_of_nonneg (by omega), sub_add_cancel]
  simp only [Val.rat, Bool.false_eq_true, if_false, one_mul]
  rw [hsplit hk, hsplit hk', ← mul_assoc, ← mul_assoc, mul_lt_mul_iff_left₀ (two_zpow_pos k), div_mul_eq_mul_div, div_mul_eq_mul_div,
    div_lt_div_iff₀ (Nat.cast_pos.2 hd) (Nat.cast_pos.2 hd')]
  exact_mod_cast Iff.rfl
/-- The model's comparison of two finite magnitudes. -/
theorem vCmp_magnitude {n d n' d' : Nat} (hd : 0 < d) (hd' : 0 < d') (e e' : Int) :
    vCmp (.fin false n d e) (.fin false n' d' e') =
      if Val.rat (.fin false n d e) < Val.rat (.fin false n' d' e') then -1
      else if Val.rat (.fin false n' d' e') < Val.rat (.fin false n d e) then 1 else 0 := by
  rcases Nat.eq_zero_or_pos n with rfl | hn <;> rcases Nat.eq_zero_or_pos n' with rfl | hn'
  · simp [vCmp, Val.rat_zero]
  · have := Val.rat_magnitude_pos hn' hd' e'
    simp [vCmp, Val.rat_zero, hn'.ne', this]
  · have := Val.rat_magnitude_pos hn hd e
    simp [vCmp, Val.rat_zero, hn.ne', this, this.le]
  · have hmin : (if e ≤ e' then e else e') ≤ e ∧ (if e ≤ e' then e else e') ≤ e' := by split <;> omega
    simp [Val.rat_lt_iff hd hd' hmin.1 hmin.2, Val.rat_lt_iff hd' hd hmin.2 hmin.1, vCmp, hn.ne', hn'.ne']
theorem Val.under_magnitude {n d : Nat} {e : Int} {B : Rat} : Val.Under B (.fin false n d e) ↔ Val.rat (.fin false n d e) ≤ B := by
  have := Val.rat_magnitude_nonneg n d e
  refine ⟨fun h => h.2.1, fun h => ⟨rfl, h, by linarith⟩⟩
theorem Val.not_under_inf {B : Rat} {s : Bool} : ¬ Val.Under B (.inf s) := fun h => Bool.false_ne_true h.1
theorem Val.under_abs {B : Rat} (x : Val) : Val.Under B x.abs ↔ Val.Under B x := by
  cases x with
  | nan s => rfl
  | inf s => exact iff_of_false Val.not_under_inf Val.not_under_inf
  | fin s n d e =>
    cases s
    · rfl
    · have hneg : Val.rat (.fin true n d e) = -Val.rat (.fin false n d e) := by simp [Val.rat]
      simp only [Val.Under, Val.abs, hneg, neg_neg]
      tauto
theorem vCmp_inf_fin (n d : Nat) (e : Int) : vCmp (.inf false) (.fin false n d e) = 1 := by
  cases n <;> rfl
theorem vCmp_fin_inf (n d : Nat) (e : Int) : vCmp (.fin false n d e) (.inf false) = -1 := by
  cases n <;> rfl
/-- A magnitude compares with a finite one as its bound. -/
theorem vCmp_le_zero_iff {a : Val} (ha : a.Magnitude) (n : Nat) {d : Nat} (hd : 0 < d) (e : Int) :
    vCmp a (.fin false n d e) ≤ 0 ↔ Val.Under (Val.rat (.fin false n d e)) a := by
  match a, ha with
  | .inf false, _ =>
    exact iff_of_false (by rw [vCmp_inf_fin]; decide) Val.not_under_inf
  | .fin false n' d' e', hd' =>
    rw [vCmp_magnitude hd' hd, Val.under_magnitude]
    split
    · exact iff_of_true (by decide) (le_of_lt ‹_›)
    · split
      · exact iff_of_false (by decide) (not_le.2 ‹_›)
      · exact iff_of_true le_rfl (not_lt.1 ‹_›)
/-- One step of the greatest magnitude. -/
theorem magnitude_step {m y : Val} (hm : m.Magnitude) (hy : y.Magnitude) :
    (if vCmp m y < 0 then y else m).Magnitude ∧ ∀ B, Val.Under B (if vCmp m y < 0 then y else m) ↔ Val.Under B m ∧ Val.Under B y := by
  refine ⟨by split <;> assumption, fun B => ?_⟩
  match m, hm, y, hy with
  | .inf false, _, .inf false, _ => simp [Val.not_under_inf]
  | .inf false, _, .fin false n d e, _ =>
    rw [vCmp_inf_fin]
    simp [Val.not_under_inf]
  | .fin false n d e, _, .inf false, _ =>
    rw [vCmp_fin_inf]
    simp [Val.not_under_inf]
  | .fin false n d e, hd, .fin false n' d' e', hd' =>
    have hlt : vCmp (.fin false n d e) (.fin false n' d' e') < 0 ↔ Val.rat (.fin false n d e) < Val.rat (.fin false n' d' e') := by
      rw [vCmp_magnitude hd hd']
      split
      · exact iff_of_true (by decide) ‹_›
      · split
        · exact iff_of_false (by decide) ‹_›
        · exact iff_of_false (by decide) ‹_›
    split
    · have := hlt.1 ‹_›
      rw [Val.under_magnitude, Val.under_magnitude]
      exact ⟨fun h => ⟨by linarith, h⟩, And.right⟩
    · have := not_lt.1 (hlt.not.1 ‹_›)
      rw [Val.under_magnitude, Val.under_magnitude]
      exact ⟨fun h => ⟨h, by linarith⟩, And.left⟩
/-- The greatest magnitude of a list is under a bound where all its numbers are. -/
theorem magnitude_foldl {xs : List Val} (hx : ∀ x ∈ xs, x.abs.Magnitude) {m : Val} (hm : m.Magnitude) :
    (xs.foldl (fun m x => if vCmp m x.abs < 0 then x.abs else m) m).Magnitude ∧
    ∀ B, Val.Under B (xs.foldl (fun m x => if vCmp m x.abs < 0 then x.abs else m) m) ↔ Val.Under B m ∧ ∀ x ∈ xs, Val.Under B x := by
  induction xs generalizing m with
  | nil => exact ⟨hm, fun B => by simp⟩
  | cons x xs ih =>
    obtain ⟨hstep, hiff⟩ := magnitude_step hm (hx x List.mem_cons_self)
    obtain ⟨hmag, hfold⟩ := ih (fun y hy => hx y (List.mem_cons_of_mem x hy)) hstep
    rw [List.foldl_cons]
    refine ⟨hmag, fun B => ?_⟩
    rw [hfold, hiff, Val.under_abs, List.forall_mem_cons, and_assoc]
/-- The search takes the first code that passes, or the last. -/
theorem findScale_spec (a emax : Val) (c fuel : Nat) (hc : 1 ≤ c) (hf : c + fuel = 255) :
    let p (k : Nat) : Prop := vCmp a (vMul emax (val 24 k)).1 ≤ 0
    let r := findScale a emax c fuel
    1 ≤ r ∧ r ≤ 254 ∧ (∀ k, c ≤ k → k < r → ¬ p k) ∧ (r < 254 → p r) := by
  induction fuel generalizing c with
  | zero => exact ⟨by simp [findScale], by simp [findScale], fun k hk hr => absurd hr (by simp [findScale]; omega), fun h => absurd h (by simp [findScale])⟩
  | succ fuel ih =>
    unfold findScale
    dsimp only
    split
    · exact ⟨hc, by omega, fun k hk hr => absurd hr (by omega), fun _ => ‹_›⟩
    · obtain ⟨hlo, hhi, hnone, hp⟩ := ih (c + 1) (by omega) (by omega)
      refine ⟨hlo, hhi, fun k hk hr => ?_, hp⟩
      rcases Nat.eq_or_lt_of_le hk with rfl | hlt
      · assumption
      · exact hnone k hlt hr

end Sys2Proof.Machine
end

section
/-! Quantising and dequantising a block (03_numbers.md R87 to R90). -/
namespace Sys2Proof.Machine

/-! The value of a code: its significand and exponent. -/
theorem FloatFormat.quotient_lt (f : FloatFormat) {c : Nat} (hc : c < 2 ^ (f.e + f.m)) : c / 2 ^ f.m < 2 ^ f.e := by
  rw [Nat.div_lt_iff_lt_mul (Nat.two_pow_pos f.m), ← pow_add]
  exact hc
theorem FloatFormat.val_bounds {f : FloatFormat} (h : f.Tabled) {b : Nat} {s : Bool} {n d : Nat} {e : Int} (hv : val f.code b = .fin s n d e) :
    d = 1 ∧ s = f.S b ∧ n < 2 ^ (f.m + 1) ∧ 1 - f.bias - f.m ≤ e ∧ e < 2 ^ f.e - f.bias - f.m := by
  have hrem := Nat.mod_lt (f.magnitude b) (Nat.two_pow_pos f.m)
  have hquot : ((f.magnitude b / 2 ^ f.m : Nat) : Int) < 2 ^ f.e := by
    exact_mod_cast f.quotient_lt (Nat.mod_lt _ (Nat.two_pow_pos _))
  have hone : (1 : Int) < 2 ^ f.e := by
    exact_mod_cast h.max_normal.trans_lt (f.quotient_lt h.max_lt)
  rw [FloatFormat.val_eq h] at hv
  rw [pow_succ]
  generalize f.magnitude b / 2 ^ f.m = q at hquot hv
  generalize f.magnitude b % 2 ^ f.m = r at hrem hv
  split_ifs at hv <;> cases hv <;> exact ⟨rfl, rfl, by omega, by omega, by omega⟩

/-! The scale (R89). -/
/-- A scale code below the NaN is a number without sign. -/
theorem val_scale {c : Nat} (hc : c ≤ 254) : ∃ n e, val 24 c = .fin false n 1 e ∧ n < 16 ∧ -17 ≤ e ∧ e ≤ 13 := by
  have h : FloatFormat.Tabled ⟨24, 5, 3, 15, false, 0xFE⟩ := floatFormats_tabled (by decide)
  have hmag : FloatFormat.magnitude ⟨24, 5, 3, 15, false, 0xFE⟩ c ≤ 0xFE := (Nat.mod_le ..).trans hc
  have hfin : (val 24 c).isFin = true := (FloatFormat.val_finite h hmag).1
  cases hv : val 24 c with
  | fin s n d e =>
    obtain ⟨rfl, rfl, hn, hlo, hhi⟩ := FloatFormat.val_bounds h hv
    exact ⟨n, e, rfl, hn, by simpa using hlo, by simp at hhi; omega⟩
  | inf s => rw [hv] at hfin; cases hfin
  | nan s => rw [hv] at hfin; cases hfin
/-- The greatest finite magnitude of an element format. -/
def elementMax (ef : Nat) : Val := if ef = 13 then .fin false 6 1 0 else .fin false 448 1 0
theorem scaled_max (ef : Nat) {c : Nat} (hc : c ≤ 254) :
    ∃ n e, (vMul (elementMax ef) (val 24 c)).1 = .fin false n 1 e ∧
      Val.rat (.fin false n 1 e) = (if ef = 13 then 6 else 448) * (val 24 c).rat := by
  obtain ⟨n, e, hv, -⟩ := val_scale hc
  rw [hv]
  unfold elementMax
  split
  · exact ⟨6 * n, 0 + e, rfl, by simp [Val.rat]; ring⟩
  · exact ⟨448 * n, 0 + e, rfl, by simp [Val.rat]; ring⟩
theorem abs_magnitude {x : Val} (hn : x.isNan = false) (hd : ∀ s n d e, x = .fin s n d e → 0 < d) : x.abs.Magnitude := by
  cases x with
  | nan s => cases hn
  | inf s => trivial
  | fin s n d e => exact hd s n d e rfl
/-- The greatest magnitude among values. -/
def greatest (xs : List Val) : Val := xs.foldl (fun m x => if vCmp m x.abs < 0 then x.abs else m) (.fin false 0 1 0)
theorem greatest_spec {xs : List Val} (hnan : ∀ x ∈ xs, x.isNan = false) (hd : ∀ x ∈ xs, ∀ s n d e, x = .fin s n d e → 0 < d) :
    (greatest xs).Magnitude ∧ ∀ B, Val.Under B (greatest xs) ↔ 0 ≤ B ∧ ∀ x ∈ xs, Val.Under B x := by
  obtain ⟨hmag, hunder⟩ := magnitude_foldl (fun x hx => abs_magnitude (hnan x hx) (hd x hx)) (m := .fin false 0 1 0) Nat.one_pos
  refine ⟨hmag, fun B => ?_⟩
  rw [greatest, hunder, Val.under_magnitude, Val.rat_zero]
theorem findScale_inf (ef : Nat) : findScale (.inf false) (elementMax ef) 1 0xFE = 0xFE := by
  obtain ⟨-, hle, -, hp⟩ := findScale_spec (.inf false) (elementMax ef) 1 0xFE le_rfl (by decide)
  refine Nat.le_antisymm hle (not_lt.1 fun hlt => ?_)
  obtain ⟨n, e, hv, -⟩ := scaled_max ef hlt.le
  have : vCmp _ (vMul _ (val 24 _)).1 ≤ 0 := hp hlt
  rw [hv, vCmp_le_zero_iff (a := .inf false) trivial n Nat.one_pos] at this
  exact Val.not_under_inf this
/-- The scale that the model takes for a greatest magnitude. -/
def foundScale (ef : Nat) (a : Val) : Nat :=
  match a with
  | .inf _ => 0xFE
  | _ => findScale a (elementMax ef) 1 0xFE
theorem foundScale_eq (ef : Nat) {a : Val} (ha : a.Magnitude) : foundScale ef a = findScale a (elementMax ef) 1 0xFE := by
  match a, ha with
  | .inf false, _ => exact (findScale_inf ef).symm
  | .fin false n d e, _ => rfl
/-- Quantising numbers of which one is not zero: the search of R89 finds the scale. -/
theorem quantise_scale (ef : Nat) {xs : List Val} (hnan : ∀ x ∈ xs, x.isNan = false) (hnz : ∃ x ∈ xs, x.isZero = false)
    (hmag : (greatest xs).Magnitude) :
    (quantise ef xs).1 = findScale (greatest xs) (elementMax ef) 1 0xFE ∧
    (quantise ef xs).2.1 = xs.map fun x => (roundVal ef (vDiv x (val 24 (quantise ef xs).1)) 0).1 := by
  have hany : xs.any Val.isNan = false := by simpa using hnan
  have hall : xs.all Val.isZero = false := by simpa using hnz
  unfold quantise
  rw [hany, hall]
  simp only [Bool.false_eq_true, if_false, List.map_map]
  refine ⟨?_, List.map_congr_left fun x _ => rfl⟩
  exact foundScale_eq ef hmag
/-- A block with a NaN, and one of zeros. -/
theorem quantise_nan (ef : Nat) {xs : List Val} (h : ∃ x ∈ xs, x.isNan = true) : quantise ef xs = (0xFF, xs.map fun _ => 0, NV) := by
  rw [quantise, if_pos (List.any_eq_true.2 h)]
theorem quantise_zero (ef : Nat) {xs : List Val} (h : ∀ x ∈ xs, x.isZero = true) :
    quantise ef xs = (0, xs.map fun x => (fspec ef).pack x.sign 0, 0) := by
  have hnan : ¬ xs.any Val.isNan = true := by
    simp only [List.any_eq_true, not_exists, not_and]
    intro x hx
    have := h x hx
    cases x with
    | nan s => cases this
    | inf s => exact Bool.false_ne_true
    | fin s n d e => exact Bool.false_ne_true
  rw [quantise, if_neg hnan, if_pos (List.all_eq_true.2 h)]
/-- The scale is the least that brings all numbers into the format's range. -/
theorem quantise_least (ef : Nat) {xs : List Val} (hnan : ∀ x ∈ xs, x.isNan = false) (hnz : ∃ x ∈ xs, x.isZero = false)
    (hd : ∀ x ∈ xs, ∀ s n d e, x = .fin s n d e → 0 < d) :
    let sc := (quantise ef xs).1
    let fits (c : Nat) : Prop := ∀ x ∈ xs, Val.Under ((if ef = 13 then 6 else 448) * (val 24 c).rat) x
    1 ≤ sc ∧ sc ≤ 0xFE ∧ (∀ c, 1 ≤ c → c < sc → ¬ fits c) ∧ (sc < 0xFE → fits sc) := by
  obtain ⟨hmag, hunder⟩ := greatest_spec hnan hd
  obtain ⟨hsc, -⟩ := quantise_scale ef hnan hnz hmag
  obtain ⟨hlo, hhi, hnone, hp⟩ := findScale_spec (greatest xs) (elementMax ef) 1 0xFE le_rfl (by decide)
  have hiff (c : Nat) (hc : c ≤ 254) : vCmp (greatest xs) (vMul (elementMax ef) (val 24 c)).1 ≤ 0 ↔
      ∀ x ∈ xs, Val.Under ((if ef = 13 then 6 else 448) * (val 24 c).rat) x := by
    obtain ⟨n, e, hv, hrat⟩ := scaled_max ef hc
    have hnonneg := Val.rat_magnitude_nonneg n 1 e
    rw [hv, vCmp_le_zero_iff hmag n Nat.one_pos, ← hrat, hunder, and_iff_right hnonneg]
  rw [← hsc] at hlo hhi hnone hp
  exact ⟨hlo, hhi, fun c h1 hlt hf => hnone c h1 hlt ((hiff c (by omega)).2 hf), fun hlt => (hiff _ hhi).1 (hp hlt)⟩

end Sys2Proof.Machine
end

section
/-! A block element as an FP32 number, and the bytes of a block (03_numbers.md R87, R88, R90). -/
namespace Sys2Proof.Machine

/-! Exact roundings. -/
/-- A value of the grid is rounded to itself. -/
theorem Rounds.eq_of_grid {V : Nat → Rat} (hV : StrictMono V) {x : Rat} {neg inexact : Bool} {mode i r k : Nat} (h : Rounds V x neg mode i r inexact)
    (hk : V k = x) : r = k := by
  have hik : i = k := by
    have hle : i ≤ k := hV.le_iff_le.1 (h.le.trans_eq hk.symm)
    have hlt : k < i + 1 := hV.lt_iff_lt.1 (hk.trans_lt h.lt)
    omega
  subst hik
  exact h.result.elim (fun hu => absurd hk (h.ne_of_up hu.1)) And.right
/-- A short significand over the least unit is a value of the grid. -/
theorem exists_codeValue (m : Nat) (emin : Int) {n : Nat} (hn : n < 2 ^ (m + 1)) {e : Int} (he : emin - m ≤ e) :
    ∃ c, codeValue m emin c = n * 2 ^ e := by
  obtain ⟨E, rfl⟩ : ∃ E : Nat, e = emin + E - m := ⟨(e - emin + m).toNat, by omega⟩
  clear he
  induction E generalizing n with
  | zero => exact ⟨_, codeValue_add emin hn.le (.inl rfl)⟩
  | succ E ih =>
    rcases Nat.lt_or_ge n (2 ^ m) with hlt | hge
    · obtain ⟨c, hc⟩ := ih (n := 2 * n) (by rw [pow_succ]; omega)
      refine ⟨c, hc.trans ?_⟩
      rw [show emin + ((E + 1 : Nat) : Int) - m = 1 + (emin + E - m) by push_cast; ring, two_zpow_add]
      push_cast
      ring
    · exact ⟨_, codeValue_add emin hn.le (.inr hge)⟩
theorem FloatFormat.withSign_parts {f : FloatFormat} {s : Bool} {m : Nat} (hs : (s && f.signed) = s) (hm : m < 2 ^ (f.e + f.m)) :
    f.magnitude (f.withSign s m) = m ∧ f.S (f.withSign s m) = s := by
  have hpos := Nat.two_pow_pos (f.e + f.m)
  unfold FloatFormat.magnitude FloatFormat.S FloatFormat.withSign
  cases s
  · simp [Nat.mod_eq_of_lt hm, Nat.div_eq_of_lt hm]
  · have hf : f.signed = true := by simpa using hs
    simp [hf, Nat.mod_eq_of_lt hm, Nat.div_eq_of_lt hm, Nat.add_div_left _ hpos]
/-- A finite value that a format holds is rounded to the encoding of this value. -/
theorem FloatFormat.roundVal_exact {f : FloatFormat} (h : f.Tabled) {s : Bool} (hs : (s && f.signed) = s) {n : Nat} {e : Int}
    (hn : n < 2 ^ (f.m + 1)) (he : 1 - f.bias - f.m ≤ e) (hlt : (n : Rat) * 2 ^ e < codeValue f.m (1 - f.bias) (f.max + 1)) {mode : Nat} (hm : mode < 4) :
    let y := (roundVal f.code (.fin s n 1 e) mode).1
    (val f.code y).isFin = true ∧ (val f.code y).sign = s ∧ (val f.code y).rat = Val.rat (.fin s n 1 e) := by
  have hV := codeValue_strictMono f.m (1 - f.bias)
  obtain ⟨c, hc⟩ := exists_codeValue f.m (1 - f.bias) hn he
  have hle : c ≤ f.max := Nat.lt_succ_iff.1 (hV.lt_iff_lt.1 (hc.trans_lt hlt))
  have hx : codeValue f.m (1 - f.bias) c = Val.rat (.fin false n 1 e) := by rw [hc]; simp [Val.rat]
  have hround : (roundVal f.code (.fin s n 1 e) mode).1 = f.withSign s c := by
    rcases Nat.eq_zero_or_pos n with rfl | hpos
    · rw [FloatFormat.roundVal_zero h, hs]
      have : c = 0 := hV.injective (hc.trans (by simp [codeValue]))
      rw [this]
    · obtain ⟨i, r, inexact, tiny, hr, -, -, hy⟩ := FloatFormat.roundVal_nonzero h hpos Nat.one_pos e hm hs
      have : r = c := hr.eq_of_grid hV hx
      rw [hy, if_neg (by omega), this]
  obtain ⟨hmag, hS⟩ := FloatFormat.withSign_parts hs (hle.trans_lt h.max_lt)
  obtain ⟨hfin, hsign, hrat⟩ := FloatFormat.val_finite h (b := f.withSign s c) (hmag.trans_le hle)
  rw [hround]
  refine ⟨hfin, hsign.trans hS, ?_⟩
  rw [hrat, f.value_eq, hS, hmag, hx, Val.rat_fin s]
  rfl

/-! Elements of a block. -/
/-- FP32 as a row of R77's table. -/
def fp32 : FloatFormat := ⟨8, 8, 23, 127, true, 0x7F7FFFFF⟩
theorem fp32_tabled : fp32.Tabled := floatFormats_tabled (by decide)
/-- The bound of FP32's finite numbers. -/
theorem fp32_next : codeValue fp32.m (1 - fp32.bias) (fp32.max + 1) = 2 ^ (128 : Int) := by
  have := codeValue_add (m := 23) (j := 2 ^ 23) (E := 254) (-126) (by decide) (.inr le_rfl)
  refine this.trans ?_
  norm_num
/-- Products of the element formats' numbers and scales are FP32 numbers. -/
theorem fp32_exact {s : Bool} {n : Nat} {e : Int} (hn : n < 2 ^ 8) (hlo : -149 ≤ e) (hhi : e ≤ 100) :
    let y := (roundVal 8 (.fin s n 1 e) 0).1
    y < 2 ^ 32 ∧ (val 8 y).isFin = true ∧ (val 8 y).sign = s ∧ (val 8 y).rat = Val.rat (.fin s n 1 e) := by
  refine ⟨?_, FloatFormat.roundVal_exact fp32_tabled (Bool.and_true s) ?_ ?_ ?_ (by decide)⟩
  · exact FloatFormat.roundVal_lt (f := fp32) (by decide) (fun s n d e hx => by cases hx; exact Nat.one_pos) (by decide)
  · exact hn.trans (by decide)
  · exact hlo
  · rw [fp32_next]
    have hn : (n : Rat) < 2 ^ (8 : Int) := by exact_mod_cast hn
    calc (n : Rat) * 2 ^ e < 2 ^ (8 : Int) * 2 ^ e := mul_lt_mul_of_pos_right hn (two_zpow_pos e)
      _ = 2 ^ (8 + e) := (two_zpow_add 8 e).symm
      _ ≤ 2 ^ (128 : Int) := two_zpow_le.2 (by omega)
/-- The numbers of an element format: short significands and small exponents, no infinities. -/
theorem val_element {ef : Nat} (hef : ef = 13 ∨ ef = 11) (el : Nat) :
    (∃ sig, val ef el = .nan sig) ∨ ∃ s n e, val ef el = .fin s n 1 e ∧ n < 16 ∧ -9 ≤ e ∧ e ≤ 5 := by
  obtain ⟨f, hf, rfl, hm, hbias, he, hinf⟩ : ∃ f ∈ floatFormats, f.code = ef ∧ f.m ≤ 3 ∧ -9 ≤ 1 - f.bias - f.m ∧ 2 ^ f.e - f.bias - f.m ≤ 6 ∧
      positiveInf f.code = none := by
    rcases hef with rfl | rfl <;> decide
  have h := floatFormats_tabled hf
  cases hv : val f.code el with
  | nan sig => exact .inl ⟨sig, rfl⟩
  | inf s =>
    rw [FloatFormat.val_eq h, hinf] at hv
    split_ifs at hv
    contradiction
  | fin s n d e =>
    obtain ⟨rfl, -, hn, hlo, hhi⟩ := FloatFormat.val_bounds h hv
    have : 2 ^ (f.m + 1) ≤ 2 ^ 4 := Nat.pow_le_pow_right (by decide) (by omega)
    exact .inr ⟨s, n, e, rfl, by omega, by omega, by omega⟩
theorem dequantise_spec {ef : Nat} (hef : ef = 13 ∨ ef = 11) {sc : Nat} (hsc : sc < 256) (el : Nat) : Dequantised ef sc el (dequantise ef sc el) := by
  unfold Dequantised dequantise
  rcases Nat.lt_or_ge sc 255 with hlt | hge
  · obtain ⟨n, e, hs, hn, hlo, hhi⟩ := val_scale (Nat.le_of_lt_succ hlt)
    rw [hs]
    rcases val_element hef el with ⟨sig, hx⟩ | ⟨s, n', e', hx, hn', hlo', hhi'⟩
    · rw [hx]
      exact ⟨fun _ => rfl, fun _ h => by cases h⟩
    · rw [hx]
      have hprod : n' * n < 2 ^ 8 := (Nat.mul_le_mul (Nat.le_of_lt_succ hn') (Nat.le_of_lt_succ hn)).trans_lt (by decide)
      obtain ⟨hy, hfin, hsign, hrat⟩ := fp32_exact (s := s) hprod (e := e' + e) (by omega) (by omega)
      have hmul : (vMul (.fin s n' 1 e') (.fin false n 1 e)).1 = .fin s (n' * n) 1 (e' + e) := by cases s <;> rfl
      refine ⟨fun h => ?_, fun _ _ => ?_⟩
      · rcases h with h | h <;> cases h
      · dsimp only
        rw [hmul]
        refine ⟨hy, hfin, hrat.trans ?_, hsign⟩
        simp only [Val.rat, two_zpow_add, Nat.cast_mul, Nat.cast_one, div_one, Bool.false_eq_true, if_false]
        ring
  · obtain rfl : sc = 255 := by omega
    exact ⟨fun _ => rfl, fun h => absurd h (by decide)⟩

/-! The bytes of a block. -/
theorem blockElem_e4m3 (bs : List Byte) (i : Nat) : blockElem 11 bs i = (bs.getD (1 + i) 0).toNat := rfl
theorem blockElem_e2m1 (bs : List Byte) (i : Nat) :
    blockElem 13 bs i = if i % 2 = 0 then (bs.getD (1 + i / 2) 0).toNat % 16 else (bs.getD (1 + i / 2) 0).toNat / 16 := by
  have hlt := (bs.getD (1 + i / 2) 0).isLt
  rw [blockElem, if_pos rfl]
  rcases Nat.mod_two_eq_zero_or_one i with hi | hi
  · rw [hi]
    simp
  · rw [hi, pow_one, if_neg (by decide)]
    omega
theorem blockElem_packBlock {ef : Nat} (hef : ef = 13 ∨ ef = 11) (sc : Nat) {es : List Nat} (hlen : es.length = 16) (hes : ∀ e ∈ es, e < 2 ^ fmtWidth ef)
    {i : Nat} (hi : i < 16) : blockElem ef (packBlock ef sc es) i = es.getD i 0 := by
  have hget (j : Nat) (hj : j < 16) : es.getD j 0 < 2 ^ fmtWidth ef := by
    rw [List.getD_eq_getElem _ _ (by omega)]
    exact hes _ (List.getElem_mem _)
  rcases hef with rfl | rfl
  · have hlo := hget (2 * (i / 2)) (by omega)
    have hhi := hget (2 * (i / 2) + 1) (by omega)
    have hbyte : (packBlock 13 sc es).getD (1 + i / 2) 0 = BitVec.ofNat 8 (es.getD (2 * (i / 2)) 0 + 16 * es.getD (2 * (i / 2) + 1) 0) := by
      rw [packBlock, if_pos rfl, Nat.add_comm, List.getD_cons_succ, List.getD_eq_getElem _ _ (by simp; omega)]
      simp
    have hwidth : 2 ^ fmtWidth 13 = 16 := rfl
    rw [hwidth] at hlo hhi
    rw [blockElem_e2m1, hbyte, BitVec.toNat_ofNat, Nat.mod_eq_of_lt (show _ + 16 * _ < 2 ^ 8 by omega)]
    split
    · rw [Nat.add_mul_mod_self_left, Nat.mod_eq_of_lt hlo]
      congr 1
      omega
    · rw [show (es.getD (2 * (i / 2)) 0 + 16 * es.getD (2 * (i / 2) + 1) 0) / 16 = es.getD (2 * (i / 2) + 1) 0 by omega]
      congr 1
      omega
  · rw [blockElem_e4m3, packBlock, if_neg (by decide), Nat.add_comm, List.getD_cons_succ, List.getD_eq_getElem _ _ (by simp; omega),
      List.getElem_map, BitVec.toNat_ofNat, List.getD_eq_getElem _ _ (by omega)]
    exact Nat.mod_eq_of_lt (hes _ (List.getElem_mem _))
theorem packBlock_head (ef sc : Nat) (hsc : sc < 256) (es : List Nat) : ((packBlock ef sc es).getD 0 0).toNat = sc :=
  Nat.mod_eq_of_lt hsc
theorem packBlock_length (ef sc : Nat) {es : List Nat} (hlen : es.length = 16) : (packBlock ef sc es).length = if ef = 13 then 9 else 17 := by
  unfold packBlock
  split <;> simp [hlen]

end Sys2Proof.Machine
end

section
/-! An engine's write of bytes, and the reading of a block (03_numbers.md R100): what they leave unchanged. -/
namespace Sys2Proof.Machine

/-! Bytes and numbers. -/
theorem bytesOfNat_readN (m : Memory) (a n : Nat) : bytesOfNat n (m.readN a n) = (List.range n).map fun j => m.read (a + j) := by
  induction n generalizing a with
  | zero => rfl
  | succ n ih =>
    have hlt := (m.read a).isLt
    rw [Memory.readN, bytesOfNat, List.range_succ_eq_map, List.map_cons, List.map_map, Nat.add_mul_div_left _ _ (by decide), Nat.div_eq_of_lt hlt,
      Nat.zero_add, ih]
    congr 1
    · apply BitVec.eq_of_toNat_eq
      rw [BitVec.toNat_ofNat, Nat.add_mul_mod_self_left]
      exact Nat.mod_eq_of_lt hlt
    · exact List.map_congr_left fun j _ => by simp [Nat.add_comm, Nat.add_left_comm]
theorem byte_natOfBytes (bs : List Byte) {i : Nat} (hi : i < bs.length) : BitVec.ofNat 8 (natOfBytes bs / 2 ^ (8 * i)) = bs.getD i 0 := by
  induction bs generalizing i with
  | nil => exact absurd hi (Nat.not_lt_zero i)
  | cons b bs ih =>
    have hlt : b.toNat < 256 := b.isLt
    cases i with
    | zero =>
      apply BitVec.eq_of_toNat_eq
      rw [Nat.mul_zero, Nat.pow_zero, Nat.div_one, natOfBytes, BitVec.toNat_ofNat, Nat.add_mul_mod_self_left]
      exact Nat.mod_eq_of_lt hlt
    | succ i =>
      rw [natOfBytes, Nat.mul_succ, Nat.add_comm (8 * i), pow_add, ← Nat.div_div_eq_div_mul, show 2 ^ 8 = 256 from rfl, Nat.add_mul_div_left _ _ (by decide),
        Nat.div_eq_of_lt hlt, Nat.zero_add, ih (Nat.lt_of_succ_lt_succ hi), List.getD_cons_succ]
theorem bytesOfNat_length (n v : Nat) : (bytesOfNat n v).length = n := by
  induction n generalizing v with
  | zero => rfl
  | succ n ih => rw [bytesOfNat, List.length_cons, ih]

/-! Memory. -/
/-- Bytes written one after another. -/
def Memory.putAll (m : Memory) (a : Nat) (bs : List Byte) (n : Nat) : Memory := (List.range n).foldl (fun m i => m.write (a + i) (bs.getD i 0)) m
theorem Memory.putAll_succ (m : Memory) (a : Nat) (bs : List Byte) (n : Nat) : m.putAll a bs (n + 1) = (m.putAll a bs n).write (a + n) (bs.getD n 0) := by
  simp [Memory.putAll, List.range_succ]
theorem Memory.putAll_wf {m : Memory} (hm : m.wf = true) (a : Nat) (bs : List Byte) (n : Nat) : (m.putAll a bs n).wf = true := by
  induction n with
  | zero => exact hm
  | succ n ih => rw [Memory.putAll_succ]; exact Memory.write_wf _ _ ih
theorem Memory.read_putAll {m : Memory} (hm : m.wf = true) (a : Nat) (bs : List Byte) (n x : Nat) :
    (m.putAll a bs n).read x = if a ≤ x ∧ x < a + n then bs.getD (x - a) 0 else m.read x := by
  induction n with
  | zero => rw [if_neg (by omega)]; rfl
  | succ n ih =>
    rw [Memory.putAll_succ, Memory.read_write _ _ _ (Memory.putAll_wf hm a bs n), ih]
    by_cases hx : x = a + n
    · rw [if_pos hx, if_pos (by omega), hx, Nat.add_sub_cancel_left]
    · rw [if_neg hx]
      exact if_congr (by omega) rfl rfl

/-! What stays of the package: all but the issuing tile and the count of corrected errors. -/
/-- `u` differs from `s` in tile `x` and the belfry's counts at most. -/
structure State.OnTile (x : Nat) (s u : State) : Prop where
  other : ∀ y, y ≠ x → u.tile y = s.tile y
  rest : { u with tiles := s.tiles, belfry := s.belfry } = s
theorem State.OnTile.refl (x : Nat) (s : State) : s.OnTile x s := ⟨fun _ _ => rfl, rfl⟩
theorem State.OnTile.trans {x : Nat} {s u v : State} (h : s.OnTile x u) (h' : u.OnTile x v) : s.OnTile x v :=
  ⟨fun y hy => (h'.other y hy).trans (h.other y hy), Eq.trans (congrArg (fun w : State => { w with tiles := s.tiles, belfry := s.belfry }) h'.rest) h.rest⟩
theorem State.OnTile.cur {x : Nat} {s u : State} (h : s.OnTile x u) : u.cur = s.cur := by rw [← h.rest]
theorem State.OnTile.modTile (s : State) (x : Nat) (f : Tile → Tile) : s.OnTile x (s.modTile x f) :=
  ⟨fun y hy => s.tile_modTile_other x y f hy, rfl⟩
theorem State.OnTile.modThr (s : State) (x q : Nat) (f : Thread → Thread) : s.OnTile x (s.modThr x q f) := by
  unfold State.modThr
  split
  · exact State.OnTile.modTile ..
  · exact State.OnTile.refl x s
theorem State.OnTile.modBelfry (s : State) (x : Nat) (g : Belfry → Belfry) : s.OnTile x (s.modBelfry g) := ⟨fun _ _ => rfl, rfl⟩
/-- Scrubbing removes marks of single-bit errors, and counts. -/
def Tile.healed (p : Nat → Bool) (l : Tile) : Tile := { l with soft := l.soft.filter p }
theorem State.scrub_cases (s : State) (x a n : Nat) :
    s.scrub x a n = s ∨ ∃ p g, s.scrub x a n = (s.modTile x (Tile.healed p)).modBelfry g := by
  unfold State.scrub
  dsimp only
  split
  · exact .inl rfl
  · exact .inr ⟨_, _, rfl⟩
theorem State.OnTile.scrub (s : State) (x a n : Nat) : s.OnTile x (s.scrub x a n) := by
  rcases s.scrub_cases x a n with h | ⟨p, g, h⟩
  · rw [h]
    exact State.OnTile.refl x s
  · rw [h]
    exact (State.OnTile.modTile s x _).trans (State.OnTile.modBelfry ..)
theorem State.OnTile.engineWrite (s : State) (x : Nat) (who : Option Nat) (a : Nat) (bs : List Byte) : s.OnTile x (s.engineWrite x who a bs) :=
  ((State.OnTile.modTile ..).trans (State.OnTile.modTile ..)).trans (State.OnTile.scrub ..)

/-! The tile itself. -/
/-- A tile with its words' marks replaced. -/
def Tile.withSoft (m : List Nat) (l : Tile) : Tile := { l with soft := m }
/-- A tile with another scratchpad. -/
def Tile.withWords (sp : Memory) (bad : List Nat) (l : Tile) : Tile := { l with sp := sp, bad := bad }
theorem State.tile_scrub (s : State) (x a n : Nat) : ∃ m, (s.scrub x a n).tile x = (s.tile x).withSoft m := by
  rcases s.scrub_cases x a n with h | ⟨p, g, h⟩
  · exact ⟨(s.tile x).soft, by rw [h]; rfl⟩
  · exact ⟨(s.tile x).soft.filter p, by rw [h]; exact s.tile_modTile x _⟩
/-- A thread without speculation stands as it was. -/
theorem Tile.slot_conflict (l : Tile) (who : Option Nat) (ls : List Nat) {q : Nat} (h : ∀ th, (l.slot q).thr = some th → th.spec = none) :
    (l.conflict who ls).slot q = l.slot q := by
  unfold Tile.slot Tile.conflict at *
  rw [Vector.getElem?_map]
  cases hq : l.slots[q]? with
  | none => rfl
  | some v =>
    rw [hq] at h
    simp only [Option.map_some, Option.getD_some] at h ⊢
    cases ht : v.thr with
    | none => rfl
    | some th => simp [h th ht]
/-- No uncorrectable word stands in a range. -/
theorem Tile.badIn_none {l : Tile} {a n : Nat} (h : l.badIn a n = none) {i : Nat} (hi : i < n) : l.bad.contains ((a + i) / 8) = false := by
  unfold Tile.badIn at h
  rw [if_neg (by omega), List.findSome?_eq_none_iff] at h
  have hmem : (a + i) / 8 - a / 8 ∈ List.range ((a + n - 1) / 8 - a / 8 + 1) := List.mem_range.2 (by
    have h1 : (a + i) / 8 ≤ (a + n - 1) / 8 := Nat.div_le_div_right (by omega)
    omega)
  have := h _ hmem
  rw [Nat.add_sub_cancel' (Nat.div_le_div_right (Nat.le_add_right a i))] at this
  by_contra hc
  rw [Bool.not_eq_false] at hc
  rw [if_pos hc] at this
  cases this
/-- Word `w` stands wholly in the `n` bytes at `a`. -/
def wholeWord (a n w : Nat) : Bool := decide (a ≤ w * 8) && decide (w * 8 + 8 ≤ a + n)
/-- The tile after an engine's write into words that are all good. -/
theorem State.tile_engineWrite (s : State) (x : Nat) (who : Option Nat) (a : Nat) (bs : List Byte) (h : (s.tile x).badIn a bs.length = none) :
    ∃ bad soft, (s.engineWrite x who a bs).tile x =
      (((s.tile x).withWords ((s.tile x).sp.putAll a bs bs.length) bad).conflict who (linesOf a bs.length)).withSoft soft := by
  have hgood : ∀ w : Nat → Bool, (List.range bs.length).foldl (fun m i =>
      if (s.tile x).bad.contains ((a + i) / 8) && !w ((a + i) / 8) then m else m.write (a + i) (bs.getD i 0)) (s.tile x).sp =
      (s.tile x).sp.putAll a bs bs.length := fun w =>
    List.foldl_ext _ _ _ fun m i hi => by rw [Tile.badIn_none h (List.mem_range.1 hi), Bool.false_and, if_neg Bool.false_ne_true]
  refine ⟨(s.tile x).bad.filter fun w => !wholeWord a bs.length w, (State.tile_scrub _ x a bs.length).imp fun soft hsoft => Eq.trans hsoft ?_⟩
  rw [State.conflict, State.tile_modTile, State.tile_modTile]
  exact congrArg (fun sp => Tile.withSoft soft (((s.tile x).withWords sp _).conflict who _)) (hgood (wholeWord a bs.length))

end Sys2Proof.Machine
end

section
/-! `QBS` and `DQBS` at issue, and O15 itself (03_numbers.md R100, R101). -/
namespace Sys2Proof.Machine

theorem Tile.span_nil {l : Tile} {a n align : Nat} {ecc : Bool} (ha : a % align = 0) (hn : a + n ≤ Config.spSize) (hs : l.statIn a n = none)
    (hb : l.badIn a n = none) : l.span a n align ecc = [] := by
  have hn : ¬ (n ≠ 0 ∧ a + n > Config.spSize) := fun h => h.2.not_ge hn
  unfold Tile.span
  rw [if_pos ha, if_neg hn, hs, hb]
  cases ecc <;> rfl
theorem State.threadBytes_of_spec {s : State} (h : s.cthr.spec = none) (a : Nat) (bs : List Byte) :
    s.threadBytes a bs = s.engineWrite s.tx (some s.cthr.cid) a bs := by
  unfold State.threadBytes
  dsimp only
  rw [h]
theorem State.Issues.noteLoad_issued {s : State} {t : Thread} (h : s.Issues t) {u : Thread} (hu : u.spec = none) (a n : Nat) :
    (s.issued u).noteLoad a n = (s.issued u).scrub s.tx a n := by
  have : u.mark_read a n = u := by unfold Thread.mark_read; rw [hu]
  rw [State.noteLoad, h.modCur_issued, this]
  rfl
/-- Scratchpad reads of a thread without speculation. -/
theorem State.threadRead_of_spec {s : State} (h : s.cthr.spec = none) (a n : Nat) :
    s.threadRead a n = (List.range n).map fun j => s.ctile.sp.read (a + j) := by
  unfold State.threadRead State.load
  rw [h]
  exact bytesOfNat_readN ..

/-! A tile but for what a store may change. -/
/-- Tile `l` with the scratchpad, the marks of its words and the threads of tile `m`. -/
def Tile.restored (m l : Tile) : Tile :=
  { l with sp := m.sp, full := m.full, bad := m.bad, soft := m.soft, slots := m.slots, spills := m.spills, readySeq := m.readySeq }
theorem Tile.restored_self (m : Tile) : m.restored m = m := rfl
theorem Tile.restored_setSlot (m l : Tile) (q : Nat) (v : Slot) : m.restored (l.setSlot q v) = m.restored l := rfl
theorem Tile.restored_withSoft (m l : Tile) (x : List Nat) : m.restored (l.withSoft x) = m.restored l := rfl
theorem Tile.restored_withWords (m l : Tile) (sp : Memory) (bad : List Nat) : m.restored (l.withWords sp bad) = m.restored l := rfl
theorem Tile.restored_conflict (m l : Tile) (who : Option Nat) (ls : List Nat) : m.restored (l.conflict who ls) = m.restored l := rfl

theorem Tile.full_written (l : Tile) (x y : List Nat) (sp : Memory) (bad : List Nat) (who : Option Nat) (ls : List Nat) :
    (((((l.withSoft x).withWords sp bad).conflict who ls).withSoft y).full = l.full) ∧
    (((((l.withSoft x).withWords sp bad).conflict who ls).withSoft y).sp = sp) := ⟨rfl, rfl⟩

/-! The issuing tile and thread through the reading and the writing of a block. -/
section
variable {s : State} {t : Thread}
/-- The package after thread `u` has read `n` bytes at `a` and written `bs` at `b`. -/
def State.blockWritten (s : State) (u : Thread) (a n b : Nat) (bs : List Byte) : State :=
  ((s.issued u).scrub s.tx a n).engineWrite s.tx (some u.cid) b bs
theorem State.Issues.threadBytes_noteLoad (h : s.Issues t) {u : Thread} (hu : u.spec = none) (a n b : Nat) (bs : List Byte) :
    ((s.issued u).noteLoad a n).threadBytes b bs = s.blockWritten u a n b bs := by
  have htx : ((s.issued u).scrub s.tx a n).tx = s.tx := congrArg Prod.fst (State.scrub_cur ..)
  have hsx : ((s.issued u).scrub s.tx a n).sx = s.sx := congrArg Prod.snd (State.scrub_cur ..)
  obtain ⟨m, hm⟩ := (s.issued u).tile_scrub s.tx a n
  have hcthr : ((s.issued u).scrub s.tx a n).cthr = u := by
    have : ((s.issued u).scrub s.tx a n).thr s.tx s.sx = (s.issued u).thr s.tx s.sx := by
      unfold State.thr State.slot
      rw [hm]
      rfl
    rw [State.cthr, htx, hsx, this, h.thr_issued u]
    rfl
  rw [h.noteLoad_issued hu, State.threadBytes_of_spec (by rw [hcthr]; exact hu), htx, hcthr]
  rfl
theorem State.blockWritten_onTile (s : State) (u : Thread) (a n b : Nat) (bs : List Byte) : s.OnTile s.tx (s.blockWritten u a n b bs) :=
  ((State.OnTile.modTile ..).trans (State.OnTile.scrub ..)).trans (State.OnTile.engineWrite ..)
/-- The issuing slot with thread `u`, one issue later. -/
def State.issuedSlot (s : State) (u : Thread) : Slot := { s.slot s.tx s.sx with thr := some u, wdogCount := (s.slot s.tx s.sx).wdogCount + 1 }
theorem State.tile_blockWritten (s : State) (u : Thread) (a n b : Nat) (bs : List Byte) (hbad : s.ctile.badIn b bs.length = none) :
    ∃ bad soft soft' ls, (s.blockWritten u a n b bs).tile s.tx =
      (((((s.ctile.setSlot s.sx (s.issuedSlot u)).withSoft soft').withWords (s.ctile.sp.putAll b bs bs.length) bad).conflict (some u.cid) ls).withSoft soft) := by
  obtain ⟨soft', hsoft⟩ := (s.issued u).tile_scrub s.tx a n
  rw [State.issued, State.setSlot, State.tile_modTile] at hsoft
  have hbad' : (((s.issued u).scrub s.tx a n).tile s.tx).badIn b bs.length = none := by
    rw [State.issued, State.setSlot, hsoft]
    exact hbad
  obtain ⟨bad, soft, hw⟩ := State.tile_engineWrite _ s.tx (some u.cid) b bs hbad'
  refine ⟨bad, soft, soft', linesOf b bs.length, hw.trans ?_⟩
  rw [State.issued, State.setSlot, hsoft]
  rfl
variable {a n b : Nat} {bs : List Byte}
theorem State.slot_blockWritten (u : Thread) (hbad : s.ctile.badIn b bs.length = none) {q : Nat}
    (hq : ∀ th, ((s.ctile.setSlot s.sx (s.issuedSlot u)).slot q).thr = some th → th.spec = none) :
    (s.blockWritten u a n b bs).slot s.tx q = (s.ctile.setSlot s.sx (s.issuedSlot u)).slot q := by
  obtain ⟨bad, soft, soft', ls, hw⟩ := s.tile_blockWritten u a n b bs hbad
  rw [State.slot, hw]
  exact Tile.slot_conflict (((s.ctile.setSlot s.sx (s.issuedSlot u)).withSoft soft').withWords (s.ctile.sp.putAll b bs bs.length) bad) _ ls hq
theorem State.Issues.thr_blockWritten (h : s.Issues t) {u : Thread} (hu : u.spec = none) (hbad : s.ctile.badIn b bs.length = none) :
    (s.blockWritten u a n b bs).thr s.tx s.sx = some u := by
  have hslot := Tile.slot_setSlot (t := s.ctile) (s.issuedSlot u) h.lt
  rw [State.thr, State.slot_blockWritten u hbad]
  · rw [hslot]
    rfl
  · intro th hth
    rw [hslot] at hth
    cases hth
    exact hu
/-- What reading and writing a block leaves, its own thread changed by `f` last. -/
theorem State.Issues.blockWritten_stored (h : s.Issues t) {u : Thread} (hu : u.spec = none) (hwf : s.ctile.sp.wf = true)
    (hbad : s.ctile.badIn b bs.length = none) (f : Thread → Thread) :
    let v := (s.blockWritten u a n b bs).modCur f
    v.thr s.tx s.sx = some (f u) ∧ s.Stored v b bs.length (natOfBytes bs) ∧ v.ctile.full = s.ctile.full := by
  have hon := s.blockWritten_onTile u a n b bs
  have htx : (s.blockWritten u a n b bs).tx = s.tx := congrArg Prod.fst hon.cur
  have hsx : (s.blockWritten u a n b bs).sx = s.sx := congrArg Prod.snd hon.cur
  have hthr := h.thr_blockWritten (a := a) (n := n) hu hbad
  obtain ⟨bad, soft, soft', ls, htile⟩ := s.tile_blockWritten u a n b bs hbad
  have hmod : (s.blockWritten u a n b bs).modCur f = (s.blockWritten u a n b bs).modThr s.tx s.sx f := by rw [State.modCur, htx, hsx]
  dsimp only
  rw [hmod]
  have hon' := hon.trans (State.OnTile.modThr _ s.tx s.sx f)
  have htx' : ((s.blockWritten u a n b bs).modThr s.tx s.sx f).tx = s.tx := congrArg Prod.fst hon'.cur
  have hctile : ((s.blockWritten u a n b bs).modThr s.tx s.sx f).ctile = ((s.blockWritten u a n b bs).tile s.tx).setSlot s.sx
      { (s.blockWritten u a n b bs).slot s.tx s.sx with thr := some (f u) } := by
    rw [State.ctile, htx', State.modThr_some hthr, State.setSlot, State.tile_modTile]
  rw [htile] at hctile
  refine ⟨by rw [State.thr_modThr, hthr]; rfl, ⟨fun x => ?_, hon'.other, hon'.rest, fun q hq hs => ?_, ?_⟩, ?_⟩
  · rw [hctile, Tile.setSlot_sp, (Tile.full_written ..).2, Memory.read_putAll hwf b bs bs.length x]
    split
    · exact (byte_natOfBytes bs (by omega)).symm
    · rfl
  · have hold : (s.ctile.setSlot s.sx (s.issuedSlot u)).slot q = s.slot s.tx q := Tile.slot_setSlot_other _ _ hq
    have hspec : ∀ th, ((s.ctile.setSlot s.sx (s.issuedSlot u)).slot q).thr = some th → th.spec = none := by
      rw [hold]
      exact fun th hth => (hs th hth).1
    rw [State.modThr_some hthr, State.slot, State.setSlot, State.tile_modTile, Tile.slot_setSlot_other _ _ hq]
    exact (State.slot_blockWritten u hbad hspec).trans hold
  · change s.ctile.restored _ = s.ctile
    rw [hctile, Tile.restored_setSlot, Tile.restored_withSoft, Tile.restored_conflict, Tile.restored_withWords, Tile.restored_withSoft,
      Tile.restored_setSlot, Tile.restored_self]
  · rw [hctile, Tile.setSlot_full, (Tile.full_written ..).1, Tile.setSlot_full]
end

/-! The instructions. -/
theorem quantise_length (ef : Nat) (xs : List Val) : (quantise ef xs).2.1.length = xs.length := by
  unfold quantise
  dsimp only
  split
  · exact List.length_map _
  · split
    · exact List.length_map _
    · exact (List.length_map _).trans (List.length_map _)
/-- The thread after a block conversion: the scale code, the flags and the cycle from which it is ready. -/
def Thread.converted (d : Reg) (y : Nat × FFlags) (c : Nat) (t : Thread) : Thread :=
  { (t.wr d (BitVec.ofNat 64 y.1)).orFlags y.2 with readyAt := c }
theorem Thread.converted_restore (t : Thread) (d : Reg) (y : Nat × FFlags) (c : Nat) :
    { t.converted d y c with g := t.g, fflags := t.fflags, readyAt := t.readyAt } = t := by
  unfold Thread.converted Thread.wr
  split <;> rfl
theorem Thread.rd_converted (t : Thread) (d : Reg) (y : Nat × FFlags) (c : Nat) (r : Reg) :
    (t.converted d y c).rd r = if r = 0 then 0 else if r = d then wrapN y.1 else t.rd r := t.rd_wr r d _
theorem Thread.fflags_converted (t : Thread) (d : Reg) (y : Nat × FFlags) (c : Nat) : (t.converted d y c).fflags = (t.fflags ||| y.2) :=
  congrArg (· ||| y.2) (t.wr_fflags d _)
/-- An instruction that converts a block, outside speculation and with no failing check. -/
theorem State.Issues.block_result {s : State} {t : Thread} (h : s.Issues t) {i : Instr} {d a b : Reg} {n k alignS alignD : Nat}
    {f : List Byte → List Byte × Nat × FFlags} (hi : IssuesHalf i (blockHalf d a b n k alignS alignD f)) (hc : t.Clear [a, b, d])
    (hspec : t.spec = none) (hwf : s.ctile.sp.wf = true) (hsrc : (t.rd a).toNat % alignS = 0) (hdst : (t.rd b).toNat % alignD = 0)
    (hn : (t.rd a).toNat + n ≤ Config.spSize) (hk : (t.rd b).toNat + k ≤ Config.spSize) (hsn : s.ctile.statIn (t.rd a).toNat n = none)
    (hsk : s.ctile.statIn (t.rd b).toNat k = none) (hbn : s.ctile.badIn (t.rd a).toNat n = none) (hbk : s.ctile.badIn (t.rd b).toNat k = none)
    (hlen : ∀ bs, (f bs).1.length = k) {out : List Byte × Nat × FFlags}
    (hout : out = f ((List.range n).map fun j => s.ctile.sp.read ((t.rd a).toNat + j))) :
    ∃ u t', exec i s = .next u ∧ u.thr s.tx s.sx = some t' ∧ s.Stored u (t.rd b).toNat k (natOfBytes out.1) ∧ u.ctile.full = s.ctile.full ∧
      (∀ r, t'.rd r = if r = 0 then 0 else if r = d then wrapN out.2.1 else t.rd r) ∧ t'.fflags = (t.fflags ||| out.2.2) ∧
      t'.readyAt = s.cycleOf s.tx + 9 ∧ { t' with g := t.g, fflags := t.fflags, readyAt := t.readyAt } = t.stepped := by
  have hchecks : (blockHalf d a b n k alignS alignD f).checks s = [] := by
    change s.ctile.span (s.cthr.rd a).toNat n alignS true ++ s.ctile.span (s.cthr.rd b).toNat k alignD false = []
    rw [h.cthr, Tile.span_nil hsrc hn hsn hbn, Tile.span_nil hdst hk hsk hbk]
    rfl
  have hgo : t.speculative = true → (blockHalf d a b n k alignS alignD f).spec s = .go := fun _ => by
    change storeAct _ _ s = .go
    rw [storeAct, h.cthr, hspec]
  have hread := State.threadRead_of_spec (s := s) (by rw [h.cthr]; exact hspec) (t.rd a).toNat n
  have heff : s.issueS i (blockHalf d a b n k alignS alignD f) = _ :=
    h.runS i _ hc (by intro e; cases e) (by intro e; cases e) hchecks hgo rfl rfl
  subst hout
  generalize (List.range n).map (fun j => s.ctile.sp.read ((t.rd a).toNat + j)) = bs at hread ⊢
  have hbk' : s.ctile.badIn (t.rd b).toNat (f bs).1.length = none := by rw [hlen]; exact hbk
  have hu : t.stepped.spec = none := hspec
  obtain ⟨hthr, hst, hfull⟩ := h.blockWritten_stored (a := (t.rd a).toNat) (n := n) hu hwf hbk' (Thread.converted d (f bs).2 (s.cycleOf s.tx + 9))
  rw [← h.threadBytes_noteLoad hu] at hthr hst hfull
  rw [hlen] at hst
  refine ⟨_, _, (hi s).trans (congrArg Host.Outcome.next (heff.trans ?_)), hthr, hst, hfull, t.stepped.rd_converted d _ _,
    t.stepped.fflags_converted d _ _, rfl, t.stepped.converted_restore d _ _⟩
  unfold blockHalf
  dsimp only
  rw [h.cthr, hread]
  rfl
/-- What `QBS` and `DQBS` make of the bytes of their source. -/
def qbsResult (ef : Nat) (bs : List Byte) : List Byte × Nat × FFlags :=
  let q := quantise ef ((List.range 16).map fun j => val 8 (natOfBytes ((bs.drop (4 * j)).take 4)))
  (packBlock ef q.1 q.2.1, q.1, q.2.2)
def dqbsResult (ef : Nat) (bs : List Byte) : List Byte × Nat × FFlags :=
  ((List.range 16).flatMap fun j => bytesOfNat 4 (dequantise ef (bs.getD 0 0).toNat (blockElem ef bs j)), (bs.getD 0 0).toNat, 0)
theorem qbsResult_length (ef : Nat) (bs : List Byte) : (qbsResult ef bs).1.length = if ef = 13 then 9 else 17 :=
  packBlock_length ef _ (by rw [quantise_length, List.length_map, List.length_range])
theorem dqbsResult_length (ef : Nat) (bs : List Byte) : (dqbsResult ef bs).1.length = 64 := by
  unfold dqbsResult
  rw [List.length_flatMap]
  simp only [bytesOfNat_length]
  rfl
theorem qbsHalf_issues (ef : Nat) {i : Instr} {d a b : Reg} (hi : IssuesHalf i (qbsHalf ef d a b)) :
    IssuesHalf i (blockHalf d a b 64 (if ef = 13 then 9 else 17) 64 1 (qbsResult ef)) := hi
theorem dqbsHalf_issues (ef : Nat) {i : Instr} {d a b : Reg} (hi : IssuesHalf i (dqbsHalf ef d a b)) :
    IssuesHalf i (blockHalf d a b (if ef = 13 then 9 else 17) 64 1 64 (dqbsResult ef)) := hi
/-- Settles O15: the search finds the least scale, products of the short significands are exact in FP32, and one engine write stores the result. -/
theorem blockConversion : Obligations.BlockConversion := by
  have hformat {ef : Nat} (h : ef ∈ [13, 11]) : ef = 13 ∨ ef = 11 := by simpa using h
  refine ⟨fun ef hef xs hne hd => ⟨quantise_nan ef, fun hz => ?_, fun hnan hnz => ?_⟩, fun ef hef sc hsc el _ => dequantise_spec (hformat hef) hsc el,
    fun bs i _ => ⟨blockElem_e4m3 bs i, blockElem_e2m1 bs i⟩,
    fun ef hef sc hsc es hlen hes => ⟨packBlock_length ef sc hlen, packBlock_head ef sc hsc es, fun i hi => blockElem_packBlock (hformat hef) sc hlen hes hi⟩,
    fun s t d a b ef up i hmem h hc hspec hwf => ?_⟩
  · rw [quantise_zero ef hz]
    refine ⟨rfl, rfl, List.map_congr_left fun x _ => ?_⟩
    rcases hformat hef with rfl | rfl <;> cases x.sign <;> rfl
  · obtain ⟨hlo, hhi, hnone, hp⟩ := quantise_least ef hnan hnz hd
    obtain ⟨-, hmap⟩ := quantise_scale ef hnan hnz (greatest_spec hnan hd).1
    exact ⟨hlo, hhi, hnone, hp, hmap⟩
  · simp only [List.mem_cons, List.not_mem_nil, or_false, Prod.mk.injEq] at hmem
    rcases hmem with ⟨rfl, rfl, rfl⟩ | ⟨rfl, rfl, rfl⟩ | ⟨rfl, rfl, rfl⟩ | ⟨rfl, rfl, rfl⟩ <;>
      intro size n k src dst ha hn hk hsn hsk hbn hbk
    · exact h.block_result (n := n) (k := k) (qbsHalf_issues 13 fun _ => rfl) hc hspec hwf ha (Nat.mod_one _) hn hk hsn hsk hbn hbk
        (qbsResult_length 13) (if_neg Bool.false_ne_true)
    · exact h.block_result (n := n) (k := k) (qbsHalf_issues 11 fun _ => rfl) hc hspec hwf ha (Nat.mod_one _) hn hk hsn hsk hbn hbk
        (qbsResult_length 11) (if_neg Bool.false_ne_true)
    · exact h.block_result (n := n) (k := k) (dqbsHalf_issues 13 fun _ => rfl) hc hspec hwf (Nat.mod_one _) ha hn hk hsn hsk hbn hbk
        (dqbsResult_length 13) (if_pos rfl)
    · exact h.block_result (n := n) (k := k) (dqbsHalf_issues 11 fun _ => rfl) hc hspec hwf (Nat.mod_one _) ha hn hk hsn hsk hbn hbk
        (dqbsResult_length 11) (if_pos rfl)

end Sys2Proof.Machine
end

section
/-! Halves without privilege or window that pass their checks outside speculation, and the key directory (05_scratchpad.md R155, R156). -/
namespace Sys2Proof.Machine

theorem Thread.not_speculative {t : Thread} (h : t.spec = none) : t.speculative = false := by
  unfold Thread.speculative
  rw [h]
/-- A half that asks for no privilege and no window and passes its checks runs on the counted issue, where no speculation ends or pauses. -/
theorem State.Issues.runPlain {s : State} {t : Thread} (h : s.Issues t) {i : Instr} {hs : Half} (hi : IssuesHalf i hs) (hp : hs.Plain)
    (hc : t.Clear (hs.srcs ++ hs.dsts)) (hk : hs.checks s = []) (hg : t.speculative = true → hs.spec s = .go) (h1 : hs.gate s = none)
    (h2 : hs.stops s = none) : exec i s = .next (hs.eff s (s.issued t.stepped)) := by
  obtain ⟨hpriv, hvec⟩ := hp
  rw [hi s, h.runS i hs hc (fun e => by rw [hpriv] at e; cases e) (fun e => by rw [hvec] at e; cases e) hk hg h1 h2]
/-- A change of the issuing tile that leaves the slots alone comes before or after one of the issuing thread alike. -/
theorem State.Issues.modCur_modCtile {s : State} {t : Thread} (h : s.Issues t) (u : Thread) (f : Thread → Thread) {g : Tile → Tile}
    (hs : ∀ l : Tile, (g l).slot s.sx = l.slot s.sx) (hg : ∀ (l : Tile) v, g (l.setSlot s.sx v) = (g l).setSlot s.sx v) :
    ((s.issued u).modCtile g).modCur f = (s.issued (f u)).modCtile g := by
  change ((s.issued u).modTile s.tx g).modThr s.tx s.sx f = (s.issued (f u)).modTile s.tx g
  rw [← State.modThr_modTile _ s.tx s.sx f hs hg]
  exact congrArg (State.modTile · s.tx g) (h.modCur_issued u f)

/-- A tile with another directory. -/
def Tile.withDir (u : List (W64 × BitVec 32)) (l : Tile) : Tile := { l with dir := u }
theorem dirHalf_checks {s : State} (h : s.ctile.badDir = []) (d a : Reg) (l : List Reg) (f : Tile → Thread → List (W64 × BitVec 32) × W64) :
    (dirHalf d a l f).checks s = [] := by
  change (if s.ctile.badDir.isEmpty then _ else _) = _
  rw [h]
  rfl
/-- A directory operation outside a speculative window, the directory free of errors. -/
theorem State.Issues.dir_result {s : State} {t : Thread} (h : s.Issues t) {i : Instr} {d a : Reg} {l : List Reg}
    {f : Tile → Thread → List (W64 × BitVec 32) × W64} (hi : IssuesHalf i (dirHalf d a l f)) (hc : t.Clear (l ++ [d])) (hspec : t.spec = none)
    (hbad : s.ctile.badDir = []) {v : W64} {u : List (W64 × BitVec 32)} (hf : f s.ctile t = (u, v)) :
    ∃ t', exec i s = .next ((s.issued t').setTile s.tx { (s.issued t').ctile with dir := u }) ∧
      (∀ r, t'.rd r = if r = 0 then 0 else if r = d then v else t.rd r) ∧ { t' with g := t.g } = t.stepped := by
  have heff : (dirHalf d a l f).eff s (s.issued t.stepped) = ((s.issued t.stepped).modCtile (Tile.withDir u)).modCur fun t => t.wr d v := by
    change ((s.issued t.stepped).modCtile (Tile.withDir (f s.ctile s.cthr).1)).modCur (fun t => t.wr d (f s.ctile s.cthr).2) = _
    rw [h.cthr, hf]
  refine ⟨t.stepped.wr d v, ?_, fun r => t.stepped.rd_wr r d v, t.stepped.wr_restore d v⟩
  rw [h.runPlain hi ⟨fun _ => rfl, rfl⟩ hc (dirHalf_checks hbad ..) (fun e => by rw [Thread.not_speculative hspec] at e; cases e) rfl rfl, heff,
    h.modCur_modCtile (g := Tile.withDir u) _ _ (fun _ => rfl) fun _ _ => rfl]
  rfl
/-- An insertion under a key that stands there replaces its value. -/
theorem mem_dir_replaced {dir : List (W64 × BitVec 32)} {k : W64} (v : BitVec 32) {o : W64 × BitVec 32} (ho : o ∈ dir) (hk : o.1 = k)
    (e : W64 × BitVec 32) : e ∈ dir.map (fun e => if e.1 = k then (k, v) else e) ↔ e = (k, v) ∨ (e ∈ dir ∧ e.1 ≠ k) := by
  rw [List.mem_map]
  constructor
  · rintro ⟨x, hx, rfl⟩
    split
    · exact .inl rfl
    · exact .inr ⟨hx, ‹_›⟩
  · rintro (rfl | ⟨he, hne⟩)
    · exact ⟨o, ho, if_pos hk⟩
    · exact ⟨e, he, if_neg hne⟩
/-- Settles O10: what each of the three operations makes of the directory, by whether the search finds the key. -/
theorem directoryResult : Obligations.DirectoryResult := by
  intro s t d a b h hc hspec hbad key found miss res
  have op {i : Instr} {l : List Reg} {f : Tile → Thread → List (W64 × BitVec 32) × W64} (hi : IssuesHalf i (dirHalf d a l f))
      (hl : l ⊆ [a, b]) (u : List (W64 × BitVec 32)) {v : W64} (hf : f s.ctile t = (u, v)) {dir' : List (W64 × BitVec 32) → Prop}
      (hu : dir' u) : res i v dir' := by
    have hsub : l ++ [d] ⊆ [d, a, b] := List.append_subset.2 ⟨fun r hr => List.mem_cons_of_mem d (hl hr), by simp⟩
    obtain ⟨t', hex, hrd, hfr⟩ := h.dir_result hi (hc.subset hsub) hspec hbad hf
    exact ⟨u, t', hex, hu, hrd, hfr⟩
  have hfind : s.ctile.dirFind key = (s.ctile.dir.find? fun e => e.1 == key).map Prod.snd := rfl
  have hfound : slotWord (s.ctile.dirFind key) = found.getD miss := by rw [slotWord, hfind, Option.map_map]; rfl
  refine ⟨op (fun _ => rfl) (l := [a]) (by simp) _ (Prod.ext rfl hfound) rfl,
    op (fun _ => rfl) (l := [a]) (by simp) _ (Prod.ext rfl hfound) fun e => by simp [key], fun hroom => ?_, fun hnone hfull => ?_⟩
  · cases ho : s.ctile.dir.find? fun e => e.1 == key with
    | some o =>
      have hkey : o.1 = key := by simpa using List.find?_some ho
      have hres : found.getD miss = o.2.zeroExtend 64 := congrArg (fun x => (Option.map (fun e : W64 × BitVec 32 => e.2.zeroExtend 64) x).getD miss) ho
      rw [hres]
      refine op (fun _ => rfl) (List.Subset.refl _) _ ?_
        (mem_dir_replaced ((t.rd b).truncate 32) (List.mem_of_find?_eq_some ho) hkey)
      dsimp only
      rw [hfind, ho]
      rfl
    | none =>
      have hres : found = none := congrArg (Option.map _) ho
      have hroom : s.ctile.dir.length < 256 := hroom.resolve_left (by rw [hres]; exact Bool.false_ne_true)
      have hother : ∀ e ∈ s.ctile.dir, e.1 ≠ key := by simpa using ho
      rw [hres]
      refine op (fun _ => rfl) (List.Subset.refl _) (s.ctile.dir ++ [(key, (t.rd b).truncate 32)]) ?_ fun e => ?_
      · dsimp only
        rw [hfind, ho]
        exact if_pos hroom
      · rw [List.mem_append, List.mem_singleton, or_comm]
        exact or_congr_right (iff_self_and.2 (hother e))
  · have ho : s.ctile.dirFind key = none := by rw [hfind]; simpa [found] using hnone
    refine op (fun _ => rfl) (List.Subset.refl _) s.ctile.dir ?_ rfl
    dsimp only
    rw [ho]
    exact if_neg hfull.not_gt

end Sys2Proof.Machine
end

section
/-! Loads (05_scratchpad.md R144 to R146, R157, R350). -/
namespace Sys2Proof.Machine

/-! The bytes that a thread sees, as a number. -/
theorem natOfBytes_map_range (g : Nat → Byte) (n : Nat) :
    natOfBytes ((List.range n).map g) = ((List.range n).map fun k => (g k).toNat * 2 ^ (8 * k)).sum := by
  induction n generalizing g with
  | zero => rfl
  | succ n ih =>
    have hpow : ∀ k, (g (k + 1)).toNat * 2 ^ (8 * (k + 1)) = 256 * ((g (k + 1)).toNat * 2 ^ (8 * k)) := fun k => by
      rw [Nat.mul_succ, pow_add]
      ring
    rw [List.range_succ_eq_map, List.map_cons, List.map_map, natOfBytes, ih, List.map_cons, List.map_map, List.sum_cons]
    simp only [Function.comp_def, Nat.succ_eq_add_one, hpow, List.sum_map_mul_left, Nat.mul_zero, pow_zero, Nat.mul_one]
theorem Memory.readN_eq_natOfBytes (m : Memory) (a n : Nat) : m.readN a n = natOfBytes ((List.range n).map fun k => m.read (a + k)) := by
  induction n generalizing a with
  | zero => rfl
  | succ n ih =>
    rw [Memory.readN, ih, List.range_succ_eq_map, List.map_cons, List.map_map, natOfBytes]
    simp only [Function.comp_def, Nat.succ_eq_add_one, Nat.add_assoc, Nat.add_comm 1, Nat.add_zero]
theorem State.seenN_eq_natOfBytes (s : State) (t : Thread) (a n : Nat) :
    s.seenN t a n = natOfBytes ((List.range n).map fun k => s.seen t (a + k)) := (natOfBytes_map_range ..).symm
/-- A load reads the bytes that its thread sees (R157). -/
theorem State.load_eq_seenN (s : State) (t : Thread) (a n : Nat) : s.load s.tx t a n = s.seenN t a n := by
  rw [State.seenN_eq_natOfBytes]
  unfold State.load State.seen
  cases t.spec with
  | none => exact Memory.readN_eq_natOfBytes ..
  | some sp => rfl

/-! What a load notes. -/
theorem Thread.mark_read_of_none {t : Thread} (h : t.spec = none) (a n : Nat) : t.mark_read a n = t := by
  unfold Thread.mark_read
  rw [h]
/-- Read bits stand in the window's record alone. -/
theorem Thread.stepped_mark_read (t : Thread) (a n : Nat) : t.stepped.mark_read a n = { t.stepped with spec := (t.mark_read a n).spec } := by
  unfold Thread.mark_read
  rw [show t.stepped.spec = t.spec from rfl]
  split
  · split <;> rfl
  · rfl
theorem State.Issues.noteLoad {s : State} {t : Thread} (h : s.Issues t) (u : Thread) (a n : Nat) :
    (s.issued u).noteLoad a n = (s.issued (u.mark_read a n)).scrub s.tx a n := by
  rw [State.noteLoad, h.modCur_issued]
  rfl
/-- Scrubbing comes before or after a change of the issuing thread alike. -/
theorem State.Issues.modCur_scrub {s : State} {t : Thread} (h : s.Issues t) (u : Thread) (f : Thread → Thread) (a n : Nat) :
    ((s.issued u).scrub s.tx a n).modCur f = (s.issued (f u)).scrub s.tx a n := by
  have htx : ((s.issued u).scrub s.tx a n).tx = s.tx := congrArg Prod.fst (State.scrub_cur ..)
  have hsx : ((s.issued u).scrub s.tx a n).sx = s.sx := congrArg Prod.snd (State.scrub_cur ..)
  rw [State.modCur, htx, hsx, ← State.modThr_scrub]
  exact congrArg (State.scrub · s.tx a n) (h.modCur_issued u f)

/-! The instructions. -/
/-- An access without a failing check of R144. -/
theorem Tile.access_nil {l : Tile} {a n : Nat} {ecc : Bool} (h : accessTrap l a n ecc = none) : l.access a n ecc = [] := by
  rw [Tile.access_eq]
  unfold accessTrap at h
  split_ifs at h ⊢
  all_goals simp_all
/-- A load issues the half of its access with the extension and the warning of the rule (R145, R146). -/
theorem load_issues_rule {i : Instr} {m : Access} {d : Reg} {e : Nat → W64} {w : BitVec 9} (h : loadRule i = some (m, d, e, w)) :
    m.ecc = true ∧ IssuesHalf i (loadHalf d m.regs m.addr m.n e w) := by
  have hs {n : Nat} (hn : n ≤ 64) : (fun v => ruleSext v n) = sextN n := funext fun v => (sextN_eq_ruleSext hn v).symm
  have hz (n : Nat) : (fun v => ruleZext v n) = zextN n := rfl
  unfold loadRule at h
  split at h
  all_goals
    simp only [← dispOf_eq, ← indexOf_eq, Option.some.injEq, Prod.mk.injEq, reduceCtorEq] at h
  all_goals obtain ⟨rfl, rfl, rfl, rfl⟩ := h
  case h_1 | h_3 | h_5 => exact ⟨rfl, by rw [hs (by decide)]; exact fun _ => rfl⟩
  case h_2 | h_4 | h_6 | h_7 => exact ⟨rfl, fun _ => rfl⟩
  case h_8 sz zx scaled d a b =>
    refine ⟨rfl, ?_⟩
    have hn : 8 * 2 ^ sz.toNat ≤ 64 := by
      have : sz.toNat < 4 := sz.isLt
      interval_cases sz.toNat <;> decide
    have he : (fun v => if zx then ruleZext v (8 * 2 ^ sz.toNat) else ruleSext v (8 * 2 ^ sz.toNat)) =
        if zx then zextN (8 * 2 ^ sz.toNat) else sextN (8 * 2 ^ sz.toNat) := by
      rw [← hs hn, ← hz]
      cases zx <;> rfl
    have hw : (if zx = true ∧ sz = 3 then 0x080 else 0) = if zx && sz == 3 then warnXz else 0 :=
      if_congr (by simp) rfl rfl
    rw [he, hw]
    exact fun _ => rfl
/-- Settles O5: a load writes the bytes that its thread sees, and notes its read beside that. -/
theorem loadResult : Obligations.LoadResult := by
  intro i m d e w hrule s t h hc ha
  obtain ⟨hecc, hi⟩ := load_issues_rule hrule
  have hacc := loadHalf_accesses d m e w hecc
  have hk : (loadHalf d m.regs m.addr m.n e w).checks s = [] := by rw [hacc.checks, h.cthr, Tile.access_nil ha]
  have heff : (loadHalf d m.regs m.addr m.n e w).eff s (s.issued t.stepped) =
      (s.issued (((t.stepped.mark_read (m.addr t) m.n).wr d (e (s.seenN t (m.addr t) m.n))).setWarn w)).scrub s.tx (m.addr t) m.n := by
    change ((s.issued t.stepped).noteLoad (m.addr s.cthr) m.n).modCur _ = _
    rw [h.cthr, h.noteLoad, h.modCur_scrub, State.load_eq_seenN]
  refine ⟨_, (h.runPlain hi hacc.plain (fun r hr => hc r (hacc.regs r hr)) hk (fun _ => rfl) rfl rfl).trans (congrArg _ heff), fun r => ?_, ?_, ?_, ?_⟩
  all_goals rw [Thread.stepped_mark_read]
  · exact Thread.rd_wr _ r d _
  · rw [Thread.setWarn, Thread.wr_warn]
    rfl
  · rw [Thread.setWarn, Thread.wr_spec]
  · exact congrArg (fun u : Thread => { u with spec := t.spec }) (Thread.wr_setWarn_restore { t.stepped with spec := (t.mark_read (m.addr t) m.n).spec } d _ w)

end Sys2Proof.Machine
end

section
/-! Operations that write a tile's scratchpad and full/empty bits (05_scratchpad.md R94, R138, R139, R149; 11_sync.md R351): what they leave
unchanged. -/
namespace Sys2Proof.Machine

/-! One tile. -/
/-- A thread on which a write at `a` has no bearing: it holds no speculation and does not wait on the word of `a`. -/
def Thread.Apart (a : Nat) (t : Thread) : Prop := t.spec = none ∧ ∀ f, t.wait ≠ .fe (a / 8 * 8) f
theorem Thread.apart_of_none {t : Thread} (hs : t.spec = none) (hw : t.wait = .none) (a : Nat) : t.Apart a :=
  ⟨hs, fun f e => by rw [hw] at e; cases e⟩
/-- Tile `l'` is `l` but for what a write at `a` may change. -/
structure Tile.WrittenAt (a : Nat) (l l' : Tile) : Prop where
  rest : l.restored l' = l
  slots : ∀ q, (∀ th, (l.slot q).thr = some th → th.Apart a) → l'.slot q = l.slot q
theorem Tile.WrittenAt.refl (a : Nat) (l : Tile) : l.WrittenAt a l := ⟨rfl, fun _ _ => rfl⟩
theorem Tile.WrittenAt.trans {a : Nat} {l m n : Tile} (h : l.WrittenAt a m) (h' : m.WrittenAt a n) : l.WrittenAt a n where
  rest := (congrArg l.restored h'.rest).trans h.rest
  slots q hq := (h'.slots q fun th hth => hq th (by rw [← h.slots q hq]; exact hth)).trans (h.slots q hq)
theorem Tile.writtenAt_withSoft (a : Nat) (l : Tile) (x : List Nat) : l.WrittenAt a (l.withSoft x) := ⟨rfl, fun _ _ => rfl⟩
theorem Tile.writtenAt_withWords (a : Nat) (l : Tile) (sp : Memory) (bad : List Nat) : l.WrittenAt a (l.withWords sp bad) := ⟨rfl, fun _ _ => rfl⟩
theorem Tile.writtenAt_conflict (a : Nat) (l : Tile) (who : Option Nat) (ls : List Nat) : l.WrittenAt a (l.conflict who ls) :=
  ⟨l.restored_conflict l who ls, fun _ hq => Tile.slot_conflict l who ls fun th hth => (hq th hth).1⟩
/-- The spilled contexts' ages are in their own records. -/
theorem Tile.ageSpills_eq (l : Tile) : ∃ x, l.ageSpills = { l with spills := x } := by
  unfold Tile.ageSpills
  dsimp only
  split
  · exact ⟨_, rfl⟩
  · exact ⟨l.spills, rfl⟩
/-- The list of full words after the bit of word `w` has been set to `f`. -/
def fullAfter (w : Nat) (f : Bool) (ws : List Nat) : List Nat := if f then (if ws.contains w then ws else w :: ws) else ws.filter (· != w)
theorem mem_fullAfter (w : Nat) (f : Bool) (ws : List Nat) (x : Nat) : x ∈ fullAfter w f ws ↔ if x = w then f = true else x ∈ ws := by
  unfold fullAfter
  by_cases hx : x = w
  · subst hx
    cases f <;> by_cases h : x ∈ ws <;> simp [h]
  · cases f <;> by_cases h : w ∈ ws <;> simp [h, hx]
/-- A slot with its thread changed by `f`. -/
def Slot.mapThr (f : Thread → Thread) (v : Slot) : Slot := { v with thr := v.thr.map f }
theorem Slot.mapThr_of_fixed {f : Thread → Thread} {v : Slot} (h : ∀ th, v.thr = some th → f th = th) : v.mapThr f = v := by
  obtain ⟨lend, limit, count, thr⟩ := v
  cases thr with
  | none => rfl
  | some th =>
    unfold Slot.mapThr
    rw [Option.map_some, h th rfl]
theorem slots_map_fixed (l : Vector Slot 8) (f : Thread → Thread) {q : Nat} (h : ∀ th, (l[q]?.getD {}).thr = some th → f th = th) :
    (l.map (Slot.mapThr f))[q]?.getD {} = l[q]?.getD {} := by
  rw [Vector.getElem?_map]
  cases hv : l[q]? with
  | none => rfl
  | some v =>
    rw [hv] at h
    exact Slot.mapThr_of_fixed h
/-- A thread that waits for word `w` to become full or empty, as `f` says, returns to Running. -/
def Thread.wokenBy (w : Nat) (f : Bool) (t : Thread) : Thread := if t.wait = .fe (w * 8) f then t.wakeUp else t
theorem Tile.setFull_eq (l : Tile) (a : Nat) (f : Bool) : ∃ x, l.setFull a f =
    { l with full := fullAfter (a / 8) f l.full, spills := x,
             slots := l.slots.map (Slot.mapThr (Thread.wokenBy (a / 8) f)) } := by
  unfold Tile.setFull
  dsimp only
  exact Tile.ageSpills_eq _
theorem Tile.setFull_full (l : Tile) (a : Nat) (f : Bool) : (l.setFull a f).full = fullAfter (a / 8) f l.full := by
  obtain ⟨x, h⟩ := l.setFull_eq a f
  rw [h]
theorem Tile.setFull_bad (l : Tile) (a : Nat) (f : Bool) : (l.setFull a f).bad = l.bad := by
  obtain ⟨x, h⟩ := l.setFull_eq a f
  rw [h]
theorem Tile.writtenAt_setFull (a : Nat) (l : Tile) (f : Bool) : l.WrittenAt a (l.setFull a f) := by
  obtain ⟨x, h⟩ := l.setFull_eq a f
  rw [h]
  exact ⟨rfl, fun q hq => slots_map_fixed l.slots _ fun th hth => if_neg ((hq th hth).2 f)⟩
/-- The tile after a thread's store of the low `n` bytes of `v`, before its conflicts and corrections. -/
def Tile.stored (a n v : Nat) (l : Tile) : Tile :=
  if n == 8 && l.bad.contains (a / 8) then (l.withWords (l.sp.writeN a n v) (l.bad.filter (· != a / 8))).setFull a false
  else l.withWords (l.sp.writeN a n v) l.bad
theorem State.store_eq (s : State) (x : Nat) (who : Option Nat) (a n v : Nat) :
    s.store x who a n v = ((s.modTile x (Tile.stored a n v)).conflict x who a n).scrub x a n := by
  have : (Tile.stored a n v) = fun t : Tile =>
      let wasBad := n == 8 && t.bad.contains (a / 8)
      let t := { t with sp := t.sp.writeN a n v, bad := if wasBad then t.bad.filter (· != a / 8) else t.bad }
      if wasBad then t.setFull a false else t := by
    funext l
    unfold Tile.stored
    dsimp only
    split <;> rfl
  rw [this]
  rfl
theorem Tile.writtenAt_stored (a n v : Nat) (l : Tile) : l.WrittenAt a (l.stored a n v) := by
  unfold Tile.stored
  split
  · exact (Tile.writtenAt_withWords ..).trans (Tile.writtenAt_setFull ..)
  · exact Tile.writtenAt_withWords ..
theorem Tile.stored_sp (a n v : Nat) (l : Tile) : (l.stored a n v).sp = l.sp.writeN a n v := by
  unfold Tile.stored
  split
  · exact Tile.setFull_sp ..
  · rfl
theorem Tile.mem_bad_stored (a n v : Nat) (l : Tile) (w : Nat) : w ∈ (l.stored a n v).bad ↔ w ∈ l.bad ∧ ¬ (n = 8 ∧ w = a / 8) := by
  unfold Tile.stored
  split
  · rename_i h
    rw [Tile.setFull_bad]
    simp_all [Tile.withWords]
  · rename_i h
    change w ∈ l.bad ↔ _
    simp only [Bool.and_eq_true, beq_iff_eq, List.contains_iff_mem] at h
    exact (iff_self_and.2 fun hw hn => h ⟨hn.1, hn.2 ▸ hw⟩)
theorem Tile.mem_full_stored (a n v : Nat) (l : Tile) (w : Nat) :
    w ∈ (l.stored a n v).full ↔ w ∈ l.full ∧ ¬ (n = 8 ∧ w = a / 8 ∧ w ∈ l.bad) := by
  unfold Tile.stored
  split
  · rename_i h
    rw [Tile.setFull_full, mem_fullAfter]
    simp only [Bool.and_eq_true, beq_iff_eq, List.contains_iff_mem] at h
    by_cases hw : w = a / 8
    · subst hw
      simp [h]
    · simp [hw, Tile.withWords]
  · rename_i h
    change w ∈ l.full ↔ _
    simp only [Bool.and_eq_true, beq_iff_eq, List.contains_iff_mem] at h
    exact (iff_self_and.2 fun _ hn => h ⟨hn.1, hn.2.1 ▸ hn.2.2⟩)
/-- A store into a word whose code is good, or into part of a word, writes the bytes alone. -/
theorem Tile.stored_of_good {a n : Nat} {l : Tile} (h : ¬ (n = 8 ∧ a / 8 ∈ l.bad)) (v : Nat) :
    l.stored a n v = l.withWords (l.sp.writeN a n v) l.bad := if_neg (by simpa using h)

/-! The package. -/
/-- `u` is `s` but for what a write at `a` in tile `x` may change. -/
structure State.WrittenAt (x a : Nat) (s u : State) : Prop where
  onTile : s.OnTile x u
  tile : (s.tile x).WrittenAt a (u.tile x)
theorem State.WrittenAt.refl (x a : Nat) (s : State) : s.WrittenAt x a s := ⟨.refl .., .refl ..⟩
theorem State.WrittenAt.trans {x a : Nat} {s u v : State} (h : s.WrittenAt x a u) (h' : u.WrittenAt x a v) : s.WrittenAt x a v :=
  ⟨h.onTile.trans h'.onTile, h.tile.trans h'.tile⟩
theorem State.WrittenAt.tx {x a : Nat} {s u : State} (h : s.WrittenAt x a u) : u.tx = s.tx := congrArg Prod.fst h.onTile.cur
theorem State.WrittenAt.sx {x a : Nat} {s u : State} (h : s.WrittenAt x a u) : u.sx = s.sx := congrArg Prod.snd h.onTile.cur
theorem State.WrittenAt.thr {x a q : Nat} {s u : State} {t : Thread} (h : s.WrittenAt x a u) (ht : s.thr x q = some t) (ha : t.Apart a) :
    u.thr x q = some t := by
  have : u.slot x q = s.slot x q := h.tile.slots q fun th hth => by
    rw [show ((s.tile x).slot q).thr = some t from ht] at hth
    exact Option.some.inj hth ▸ ha
  rw [State.thr, this]
  exact ht
theorem State.writtenAt_modTile (s : State) (x a : Nat) {f : Tile → Tile} (h : (s.tile x).WrittenAt a (f (s.tile x))) :
    s.WrittenAt x a (s.modTile x f) := ⟨.modTile .., by rw [State.tile_modTile]; exact h⟩
theorem State.writtenAt_scrub (s : State) (x a b n : Nat) : s.WrittenAt x a (s.scrub x b n) := by
  obtain ⟨m, hm⟩ := s.tile_scrub x b n
  exact ⟨.scrub .., by rw [hm]; exact Tile.writtenAt_withSoft ..⟩
theorem State.writtenAt_conflict (s : State) (x a : Nat) (who : Option Nat) (b n : Nat) : s.WrittenAt x a (s.conflict x who b n) :=
  s.writtenAt_modTile x a (Tile.writtenAt_conflict ..)
theorem State.writtenAt_store (s : State) (x : Nat) (who : Option Nat) (a n v : Nat) : s.WrittenAt x a (s.store x who a n v) := by
  rw [State.store_eq]
  exact ((s.writtenAt_modTile x a (Tile.writtenAt_stored ..)).trans (State.writtenAt_conflict ..)).trans (State.writtenAt_scrub ..)
/-- The words of a tile: its bytes, its full words, its uncorrectable words. -/
def Tile.words (l : Tile) : Memory × List Nat × List Nat := (l.sp, l.full, l.bad)
theorem State.words_scrub (s : State) (x a n : Nat) : ((s.scrub x a n).tile x).words = (s.tile x).words := by
  obtain ⟨m, hm⟩ := s.tile_scrub x a n
  rw [hm]
  rfl
theorem State.words_conflict (s : State) (x : Nat) (who : Option Nat) (a n : Nat) : ((s.conflict x who a n).tile x).words = (s.tile x).words := by
  rw [State.conflict, State.tile_modTile]
  rfl
theorem State.words_modThr (s : State) (x q : Nat) (f : Thread → Thread) : ((s.modThr x q f).tile x).words = (s.tile x).words := by
  unfold State.modThr
  split
  · rw [State.setSlot, State.tile_modTile]
    rfl
  · rfl
theorem State.words_store (s : State) (x : Nat) (who : Option Nat) (a n v : Nat) :
    ((s.store x who a n v).tile x).words = ((s.tile x).stored a n v).words := by
  rw [State.store_eq, State.words_scrub, State.words_conflict, State.tile_modTile]
theorem State.words_issued (s : State) (t : Thread) : ((s.issued t).tile s.tx).words = s.ctile.words := by
  rw [State.issued, State.setSlot, State.tile_modTile]
  rfl
/-- Writing the bytes that already stand there. -/
theorem byte_of_seenN {s : State} {t : Thread} (h : t.spec = none) {a n x : Nat} (hx : a ≤ x ∧ x < a + n) :
    BitVec.ofNat 8 (s.seenN t a n / 2 ^ (8 * (x - a))) = s.ctile.sp.read x := by
  have hlen : x - a < ((List.range n).map fun k => s.seen t (a + k)).length := by
    rw [List.length_map, List.length_range]
    omega
  rw [State.seenN_eq_natOfBytes, byte_natOfBytes _ hlen, List.getD_eq_getElem?_getD, List.getElem?_eq_getElem hlen, Option.getD_some,
    List.getElem_map, List.getElem_range, Nat.add_sub_cancel' hx.1]
  unfold State.seen
  rw [h]
theorem State.OnTile.issued (s : State) (u : Thread) : s.OnTile s.tx (s.issued u) := by
  unfold State.issued State.setSlot
  exact State.OnTile.modTile ..
/-- An issue that writes at `a` in its own tile, its thread changed last. -/
theorem State.stored_of_writtenAt {s v : State} {u : Thread} {a n x : Nat} (hw : (s.issued u).WrittenAt s.tx a v)
    (hb : ∀ k, (v.tile s.tx).sp.read k = if a ≤ k ∧ k < a + n then BitVec.ofNat 8 (x / 2 ^ (8 * (k - a))) else s.ctile.sp.read k) :
    s.Stored v a n x := by
  have hon : s.OnTile s.tx v := (State.OnTile.issued s u).trans hw.onTile
  have hrest := hw.tile.rest
  have htile : (s.issued u).tile s.tx = s.ctile.setSlot s.sx (s.issuedSlot u) := State.tile_modTile ..
  refine ⟨?_, hon.other, hon.rest, fun q hq hs => ?_, ?_⟩
  · rw [State.ctile, show v.tx = s.tx from hw.tx]
    exact hb
  · have hold : (s.issued u).slot s.tx q = s.slot s.tx q := by
      rw [State.slot, htile]
      exact Tile.slot_setSlot_other _ _ hq
    refine (hw.tile.slots q fun th hth => hs th ?_).trans hold
    rw [State.thr, ← hold]
    exact hth
  · rw [State.ctile, show v.tx = s.tx from hw.tx]
    rw [htile] at hrest
    exact congrArg (fun l : Tile => { l with slots := s.ctile.slots }) hrest
/-- A last change of the issuing thread is no part of what is stored. -/
theorem State.Stored.modThr {s v : State} {a n x : Nat} (h : s.Stored v a n x) (hv : v.tx = s.tx) (f : Thread → Thread) :
    s.Stored (v.modThr s.tx s.sx f) a n x := by
  obtain ⟨hb, hother, hrest, hslots, htile⟩ := h
  cases ht : v.thr s.tx s.sx with
  | none =>
    rw [State.modThr_none ht]
    exact ⟨hb, hother, hrest, hslots, htile⟩
  | some t =>
    rw [State.modThr_some ht]
    have hc : (v.setSlot s.tx s.sx { v.slot s.tx s.sx with thr := some (f t) }).ctile =
        v.ctile.setSlot s.sx { v.slot s.tx s.sx with thr := some (f t) } := by
      rw [State.ctile, State.tx_setSlot, hv, State.setSlot, State.tile_modTile, State.ctile, hv]
    refine ⟨by rw [hc]; exact hb, fun y hy => (State.tile_modTile_other _ _ _ _ hy).trans (hother y hy), hrest, fun q hq hs => ?_, by rw [hc]; exact htile⟩
    refine Eq.trans ?_ (hslots q hq hs)
    rw [State.slot, State.setSlot, State.tile_modTile]
    exact Tile.slot_setSlot_other _ _ hq

end Sys2Proof.Machine
end

section
/-! What an issue writes into its own tile, step by step, and the stores outside a speculative window (05_scratchpad.md R139, R145, R146). -/
namespace Sys2Proof.Machine

theorem Memory.read_writeN {m : Memory} (hm : m.wf = true) (a n v x : Nat) :
    (m.writeN a n v).read x = if a ≤ x ∧ x < a + n then BitVec.ofNat 8 (v / 2 ^ (8 * (x - a))) else m.read x := by
  by_cases hx : a ≤ x ∧ x < a + n
  · obtain ⟨k, rfl⟩ := Nat.exists_eq_add_of_le hx.1
    rw [if_pos hx, Memory.read_writeN_in a n v k hm (by omega), Nat.add_sub_cancel_left, Nat.pow_mul]
  · rw [if_neg hx, Memory.read_writeN_other a n v x hm (by omega)]
theorem Tile.eq_words {l : Tile} {m : Memory} {ws bs : List Nat} (h : l.words = (m, ws, bs)) : l.sp = m ∧ l.full = ws ∧ l.bad = bs := by
  simpa [Tile.words] using h
theorem Tile.words_stored (a n v : Nat) (l : Tile) : (l.stored a n v).words =
    if n == 8 && l.bad.contains (a / 8) then (l.sp.writeN a n v, fullAfter (a / 8) false l.full, l.bad.filter (· != a / 8))
    else (l.sp.writeN a n v, l.full, l.bad) := by
  unfold Tile.stored Tile.words
  split
  · rw [Tile.setFull_sp, Tile.setFull_full, Tile.setFull_bad]
    rfl
  · rfl
theorem State.threadStore_of_spec {s : State} {t : Thread} (ht : s.thr s.tx s.sx = some t) (h : t.spec = none) (a n v : Nat) :
    s.threadStore a n v = s.store s.tx (some t.cid) a n v := by
  have : s.cthr = t := by rw [State.cthr, ht]; rfl
  unfold State.threadStore
  dsimp only
  rw [this, h]

/-- `v` is the package after thread `u` has issued and its operation has written at `a`, so that its tile's words are now `w`. -/
structure State.Writes (s : State) (u : Thread) (a : Nat) (w : Memory × List Nat × List Nat) (v : State) : Prop where
  written : (s.issued u).WrittenAt s.tx a v
  thr : v.thr s.tx s.sx = some u
  words : (v.tile s.tx).words = w
section
variable {s v : State} {t u : Thread} {a : Nat} {w : Memory × List Nat × List Nat}
theorem State.Issues.writes (h : s.Issues t) (u : Thread) (a : Nat) : s.Writes u a s.ctile.words (s.issued u) :=
  ⟨.refl .., h.thr_issued u, s.words_issued u⟩
/-- One more change that a write at `a` may make. -/
theorem State.Writes.step (h : s.Writes u a w v) (hu : u.Apart a) {v' : State} {w' : Memory × List Nat × List Nat}
    (hv : v.WrittenAt s.tx a v') (hw : (v'.tile s.tx).words = w') : s.Writes u a w' v' :=
  ⟨h.written.trans hv, hv.thr h.thr hu, hw⟩
theorem State.Writes.tx (h : s.Writes u a w v) : v.tx = s.tx := h.written.tx
theorem State.Writes.sx (h : s.Writes u a w v) : v.sx = s.sx := h.written.sx
theorem State.Writes.ctile (h : s.Writes u a w v) : v.ctile.words = w := by rw [State.ctile, h.tx, h.words]
theorem State.Writes.cthr (h : s.Writes u a w v) : v.cthr = u := by rw [State.cthr, h.tx, h.sx, h.thr]; rfl
theorem State.Writes.scrub (h : s.Writes u a w v) (hu : u.Apart a) (b n : Nat) : s.Writes u a w (v.scrub s.tx b n) :=
  h.step hu (State.writtenAt_scrub ..) ((State.words_scrub ..).trans h.words)
theorem State.Writes.threadStore (h : s.Writes u a w v) (hu : u.Apart a) (n x : Nat) :
    s.Writes u a ((v.tile s.tx).stored a n x).words (v.threadStore a n x) := by
  have hthr : v.thr v.tx v.sx = some u := by rw [h.tx, h.sx, h.thr]
  rw [State.threadStore_of_spec hthr hu.1, h.tx]
  exact h.step hu (State.writtenAt_store ..) (State.words_store ..)
theorem State.Writes.setFullAt {m : Memory} {ws bs : List Nat} (h : s.Writes u a (m, ws, bs) v) (hu : u.Apart a) (f : Bool) :
    s.Writes u a (m, fullAfter (a / 8) f ws, bs) (v.setFullAt a f) := by
  have htx : (v.modCtile fun l => l.setFull a f).tx = s.tx := h.tx
  obtain ⟨rfl, rfl, rfl⟩ := Tile.eq_words h.words
  have htile : ((v.modTile s.tx fun l => l.setFull a f).tile s.tx) = (v.tile s.tx).setFull a f := State.tile_modTile ..
  rw [State.setFullAt, h.tx, State.modCtile, h.tx]
  refine h.step hu ((State.writtenAt_modTile _ _ _ (Tile.writtenAt_setFull ..)).trans (State.writtenAt_conflict ..)) ?_
  rw [State.words_conflict, htile]
  unfold Tile.words
  rw [Tile.setFull_sp, Tile.setFull_full, Tile.setFull_bad]
/-- What stands stored at the end, and the thread changed last. -/
theorem State.Writes.stored {m : Memory} {ws bs : List Nat} (h : s.Writes u a (m, ws, bs) v) {n x : Nat}
    (hm : ∀ k, m.read k = if a ≤ k ∧ k < a + n then BitVec.ofNat 8 (x / 2 ^ (8 * (k - a))) else s.ctile.sp.read k) :
    s.Stored v a n x :=
  State.stored_of_writtenAt h.written (by rw [(Tile.eq_words h.words).1]; exact hm)
theorem State.Writes.modCur (h : s.Writes u a w v) (f : Thread → Thread) :
    (v.modCur f).thr s.tx s.sx = some (f u) ∧ (v.modCur f).ctile.words = w ∧ ∀ {n x : Nat}, s.Stored v a n x → s.Stored (v.modCur f) a n x := by
  have hcur : v.modCur f = v.modThr s.tx s.sx f := by rw [State.modCur, h.tx, h.sx]
  have htx : (v.modThr s.tx s.sx f).tx = s.tx := (congrArg Prod.fst (State.modThr_cur ..)).trans h.tx
  rw [hcur]
  refine ⟨by rw [State.thr_modThr, h.thr]; rfl, ?_, fun hst => hst.modThr h.tx f⟩
  rw [State.ctile, htx, State.words_modThr, h.words]
end

/-! Stores. -/
theorem Thread.apart_stepped {t : Thread} (hs : t.spec = none) (hw : t.wait = .none) (a : Nat) : t.stepped.Apart a :=
  Thread.apart_of_none (t := t.stepped) hs hw a
theorem State.Issues.storeHalf_eff {s : State} {t : Thread} (h : s.Issues t) (d : Reg) (m : Access) :
    (storeHalf d m.regs m.addr m.n).eff s (s.issued t.stepped) = (s.issued t.stepped).threadStore (m.addr t) m.n (t.rd d).toNat := by
  change (s.issued t.stepped).threadStore (m.addr s.cthr) m.n (s.cthr.rd d).toNat = _
  rw [h.cthr]
theorem storeAct_of_spec {s : State} (h : s.cthr.spec = none) (a n : Nat) : storeAct a n s = .go := by
  unfold storeAct
  rw [h]
/-- A store outside a speculative window writes its bytes. -/
theorem State.Issues.store_result {s : State} {t : Thread} (h : s.Issues t) {i : Instr} {m : Access} {d : Reg} (hr : storeRule i = some (m, d))
    (hc : t.Clear (d :: m.regs)) (hspec : t.spec = none) (hwait : t.wait = .none) (hwf : s.ctile.sp.wf = true)
    (ha : accessTrap s.ctile (m.addr t) m.n m.ecc = none) :
    ∃ u, exec i s = .next u ∧ s.Stored u (m.addr t) m.n (t.rd d).toNat ∧ u.thr s.tx s.sx = some t.stepped ∧
      u.ctile.words = (s.ctile.stored (m.addr t) m.n (t.rd d).toNat).words := by
  obtain ⟨hecc, hi⟩ := store_issues hr
  have hacc := storeHalf_accesses d m hecc
  have hk : (storeHalf d m.regs m.addr m.n).checks s = [] := by rw [hacc.checks, h.cthr, Tile.access_nil ha]
  have hw := (h.writes t.stepped (m.addr t)).threadStore (Thread.apart_stepped hspec hwait _) m.n (t.rd d).toNat
  have hwords : (((s.issued t.stepped).tile s.tx).stored (m.addr t) m.n (t.rd d).toNat).words =
      (s.ctile.stored (m.addr t) m.n (t.rd d).toNat).words := by
    obtain ⟨hsp, hfull, hbad⟩ := Tile.eq_words (s.words_issued t.stepped)
    rw [Tile.words_stored, Tile.words_stored, hsp, hfull, hbad]
  rw [hwords] at hw
  refine ⟨_, (h.runPlain hi hacc.plain (fun r hr => hc r (hacc.regs r hr)) hk (fun e => ?_) rfl rfl).trans (congrArg _ (h.storeHalf_eff d m)),
    hw.stored fun k => ?_, hw.thr, hw.ctile⟩
  · rw [Thread.not_speculative hspec] at e
    cases e
  · rw [Tile.stored_sp, Memory.read_writeN hwf]

end Sys2Proof.Machine
end

section
/-! Stores into the buffer of a speculative window, and O6 itself (05_scratchpad.md R157; 11_sync.md R349). -/
namespace Sys2Proof.Machine

/-! The store buffer. -/
theorem bytesOfNat_getD {n i : Nat} (hi : i < n) (v : Nat) : (bytesOfNat n v).getD i 0 = BitVec.ofNat 8 (v / 2 ^ (8 * i)) := by
  induction n generalizing i v with
  | zero => exact absurd hi (Nat.not_lt_zero i)
  | succ n ih =>
    cases i with
    | zero => simp [bytesOfNat]
    | succ i =>
      rw [bytesOfNat, List.getD_cons_succ, ih (Nat.lt_of_succ_lt_succ hi), Nat.div_div_eq_div_mul, Nat.mul_succ, Nat.add_comm (8 * i), pow_add]
      rfl
/-- The byte that a store buffer holds for an address. -/
def bufByte (buf : List BufLine) (x : Nat) : Option Byte := (buf.find? fun l => l.line == x / 64).bind fun l => l.bytes.find (x % 64)
/-- A line with byte `b` at `x`, if it is the line of `x`. -/
def BufLine.put (x : Nat) (b : Byte) (e : BufLine) : BufLine := if e.line == x / 64 then { e with bytes := e.bytes.put (x % 64) b } else e
/-- A store buffer after a store of byte `b` at `x`. -/
def bufPut (x : Nat) (b : Byte) (buf : List BufLine) : List BufLine :=
  if buf.any fun e => e.line == x / 64 then buf.map (BufLine.put x b) else buf ++ [⟨x / 64, [(x % 64, b)]⟩]
theorem BufLine.put_line (x : Nat) (b : Byte) (e : BufLine) : (e.put x b).line = e.line := by
  unfold BufLine.put
  split <;> rfl
theorem find?_map_put (x : Nat) (b : Byte) (y : Nat) (buf : List BufLine) :
    (buf.map (BufLine.put x b)).find? (fun l => l.line == y / 64) = (buf.find? fun l => l.line == y / 64).map (BufLine.put x b) := by
  rw [List.find?_map]
  simp only [Function.comp_def, BufLine.put_line]
theorem bufByte_bufPut (x : Nat) (b : Byte) (buf : List BufLine) (y : Nat) :
    bufByte (bufPut x b buf) y = if y = x then some b else bufByte buf y := by
  unfold bufByte bufPut
  split
  · rename_i hany
    rw [find?_map_put]
    cases hf : buf.find? fun l => l.line == y / 64 with
    | none =>
      have : y ≠ x := fun e => by
        rw [List.find?_eq_none] at hf
        obtain ⟨l, hl, hx⟩ := List.any_eq_true.1 hany
        exact hf l hl (e ▸ hx)
      simp [this]
    | some l =>
      have hline : l.line = y / 64 := by simpa using List.find?_some hf
      rw [Option.map_some, Option.bind_some, Option.bind_some, BufLine.put, hline]
      by_cases hxy : y = x
      · rw [if_pos hxy, hxy, beq_self_eq_true, if_pos rfl, Map.find_put_same]
      · rw [if_neg hxy]
        by_cases hl : y / 64 = x / 64
        · rw [hl, beq_self_eq_true, if_pos rfl, Map.find_put_other _ _ _ _ fun hm => hxy (by omega)]
        · rw [if_neg (by simpa using hl)]
  · rename_i hany
    have hnone : buf.find? (fun l => l.line == x / 64) = none := by simpa using hany
    rw [List.find?_append]
    by_cases hxy : y = x
    · rw [if_pos hxy, hxy, hnone]
      simp [Map.find]
    · rw [if_neg hxy]
      cases hf : buf.find? fun l => l.line == y / 64 with
      | some l => rfl
      | none =>
        by_cases hl : x / 64 = y / 64
        · have : x % 64 ≠ y % 64 := by omega
          simp [hl, Map.find, this]
        · simp [hl]
/-- The first `n` bytes of `bs`, stored from `a` on. -/
def bufAll (a : Nat) (bs : List Byte) (buf : List BufLine) (n : Nat) : List BufLine :=
  (List.range n).foldl (fun buf i => bufPut (a + i) (bs.getD i 0) buf) buf
theorem bufByte_bufAll (a : Nat) (bs : List Byte) (buf : List BufLine) (n y : Nat) :
    bufByte (bufAll a bs buf n) y = if a ≤ y ∧ y < a + n then some (bs.getD (y - a) 0) else bufByte buf y := by
  induction n with
  | zero => rw [if_neg (by omega)]; rfl
  | succ n ih =>
    have : bufAll a bs buf (n + 1) = bufPut (a + n) (bs.getD n 0) (bufAll a bs buf n) := by simp [bufAll, List.range_succ]
    rw [this, bufByte_bufPut, ih]
    by_cases hy : y = a + n
    · rw [if_pos hy, if_pos (by omega), hy, Nat.add_sub_cancel_left]
    · rw [if_neg hy]
      exact if_congr (by omega) rfl rfl
theorem Spec.buffer_eq (sp : Spec) (a : Nat) (bs : List Byte) : sp.buffer a bs = { sp with buf := bufAll a bs sp.buf bs.length } := rfl
/-- Bytes of a number in the buffer read back as the number's bytes. -/
theorem Spec.byte_buffer (sp : Spec) (a n v x : Nat) : (sp.buffer a (bytesOfNat n v)).byte x =
    if a ≤ x ∧ x < a + n then some (BitVec.ofNat 8 (v / 2 ^ (8 * (x - a)))) else sp.byte x := by
  rw [Spec.buffer_eq, bytesOfNat_length]
  refine (bufByte_bufAll ..).trans ?_
  split
  · rw [bytesOfNat_getD (by omega)]
  · rfl

/-! Stores in an active window. -/
theorem store_size {i : Instr} {m : Access} {d : Reg} (h : storeRule i = some (m, d)) : m.n = 1 ∨ m.n = 2 ∨ m.n = 4 ∨ m.n = 8 := by
  unfold storeRule at h
  split at h
  all_goals simp only [Option.some.injEq, Prod.mk.injEq, reduceCtorEq] at h
  all_goals obtain ⟨rfl, rfl⟩ := h
  case h_1 | h_2 | h_3 | h_4 => simp
  case h_5 sz _ _ _ _ =>
    have : ∀ sz : BitVec 2, 2 ^ sz.toNat = 1 ∨ 2 ^ sz.toNat = 2 ∨ 2 ^ sz.toNat = 4 ∨ 2 ^ sz.toNat = 8 := by decide
    exact this sz
theorem accessTrap_aligned {l : Tile} {a n : Nat} {ecc : Bool} (h : accessTrap l a n ecc = none) : a % n = 0 := by
  unfold accessTrap at h
  split at h
  · cases h
  · rwa [not_not] at *
/-- An aligned access of at most eight bytes touches one line, so that it needs one new entry at most. -/
theorem Spec.need_le_one (sp : Spec) {a n : Nat} (hn : n = 1 ∨ n = 2 ∨ n = 4 ∨ n = 8) (ha : a % n = 0) : sp.need a n ≤ 1 := by
  refine (List.length_filter_le ..).trans ?_
  unfold linesOf
  rw [if_neg (by omega), List.length_map, List.length_range]
  rcases hn with rfl | rfl | rfl | rfl <;> omega
/-- A store in an active window outside the speculation area goes into the buffer. -/
theorem State.Issues.threadStore_active {s : State} {t : Thread} (h : s.Issues t) {u : Thread} {sp : Spec} (hspec : u.spec = some sp)
    (hst : sp.st = .active) {a n : Nat} (harea : areaHas sp.area a n = false) (v : Nat) :
    (s.issued u).threadStore a n v = s.issued { u with spec := some (sp.buffer a (bytesOfNat n v)) } := by
  have hact : (sp.st = .active && !areaHas sp.area a n) = true := by rw [hst, harea]; rfl
  unfold State.threadStore
  dsimp only
  rw [h.cthr_issued, hspec]
  dsimp only
  rw [if_pos hact, h.modCur_issued, hspec]
  rfl
/-- Settles O6: the bytes of a store reach its tile's words, or the buffer of its window. -/
theorem storeResult : Obligations.StoreResult := by
  refine ⟨fun i m d hr s t h hc hspec hwait hwf ha => ?_, fun i m d hr s t sp h hc hspec hst ha harea _ hroom => ?_⟩
  · obtain ⟨u, hex, hstored, hthr, hwords⟩ := h.store_result hr hc hspec hwait hwf ha
    obtain ⟨-, hfull, hbad⟩ := Tile.eq_words hwords
    exact ⟨u, hex, hstored, hthr, fun w => by rw [hbad, Tile.mem_bad_stored], fun w => by rw [hfull, Tile.mem_full_stored]⟩
  · obtain ⟨hecc, hi⟩ := store_issues hr
    have hacc := storeHalf_accesses d m hecc
    have hk : (storeHalf d m.regs m.addr m.n).checks s = [] := by rw [hacc.checks, h.cthr, Tile.access_nil ha]
    have hgo : storeAct (m.addr s.cthr) m.n s = .go := by
      have hneed := sp.need_le_one (store_size hr) (accessTrap_aligned ha)
      unfold storeAct
      rw [h.cthr, hspec]
      exact if_pos (by omega)
    refine ⟨{ t.stepped with spec := some (sp.buffer (m.addr t) (bytesOfNat m.n (t.rd d).toNat)) }, _,
      (h.runPlain hi hacc.plain (fun r hr => hc r (hacc.regs r hr)) hk (fun _ => hgo) rfl rfl).trans (congrArg _ ?_), rfl,
      sp.byte_buffer (m.addr t) m.n (t.rd d).toNat, rfl, rfl⟩
    rw [h.storeHalf_eff, h.threadStore_active (u := t.stepped) hspec hst harea]

end Sys2Proof.Machine
end

section
/-! Full/empty instructions whose condition holds (05_scratchpad.md R147, R149). -/
namespace Sys2Proof.Machine

theorem accessTrap_good {l : Tile} {a n : Nat} (h : accessTrap l a n true = none) : a / 8 ∉ l.bad := by
  unfold accessTrap at h
  split_ifs at h with _ _ _ hbad
  exact fun hm => hbad ⟨rfl, hm⟩
/-- The access of a full/empty instruction: it stores `src`, or loads into `dst`. -/
def feAccess (pre : State) (a : Nat) (dst src : Option Reg) (v : State) : State := match src, dst with
  | some r, _ => v.threadStore a 8 (pre.cthr.rd r).toNat
  | none, some d => v.readInto pre d a
  | none, none => v.noteLoad a 8
/-- The bit of the word of `a` set to `after`. -/
def feMark (a : Nat) (after : Option Bool) (v : State) : State := match after with
  | some f => v.setFullAt a f
  | none => v
/-- The full/empty word that makes an instruction fail that waits for `want`. -/
def feGate (want : Option Bool) (a : Nat) (l : Tile) : Option (Nat × Bool) := match want with
  | some f => if l.isFull a = f then none else some (a, f)
  | none => none
def feReset (t : Thread) : Thread := { t with feCount := 0 }
/-- What the rule of a full/empty instruction says of its half. -/
structure Half.FullEmpty (hs : Half) (m : Access) (want : Option Bool) (dst src : Option Reg) (after : Option Bool) : Prop where
  access : hs.Accesses m (dst.toList ++ src.toList ++ m.regs)
  size : m.n = 8 ∧ m.ecc = true
  gate : ∀ s, hs.gate s = feGate want (m.addr s.cthr) s.ctile
  stops : ∀ s, hs.stops s = Option.none
  eff : ∀ s v, hs.eff s v = (feMark (m.addr s.cthr) after (feAccess s (m.addr s.cthr) dst src v)).modCur feReset
  one : src = Option.none ∨ dst = Option.none
theorem fullEmpty_half {i : Instr} {m : Access} {want : Option Bool} {dst src : Option Reg} {after : Option Bool}
    (h : fullEmptyRule i = some (m, want, dst, src, after)) : ∃ hs : Half, hs.FullEmpty m want dst src after ∧ IssuesHalf i hs := by
  unfold fullEmptyRule at h
  split at h
  all_goals
    simp only [← dispOf_eq, Option.some.injEq, Prod.mk.injEq, reduceCtorEq] at h
  all_goals obtain ⟨rfl, rfl, rfl, rfl, rfl⟩ := h
  case h_1 d a i =>
    exact ⟨halfLdf d a i, ⟨⟨⟨fun _ => rfl, rfl⟩, fun r hr => by simpa [halfLdf, feHalf, or_comm] using hr, fun _ => rfl⟩, ⟨rfl, rfl⟩,
      fun _ => rfl, fun _ => rfl, fun _ _ => rfl, .inl rfl⟩, fun _ => rfl⟩
  case h_2 d a i =>
    exact ⟨halfLde d a i, ⟨⟨⟨fun _ => rfl, rfl⟩, fun r hr => by simpa [halfLde, feHalf, or_comm] using hr, fun _ => rfl⟩, ⟨rfl, rfl⟩,
      fun _ => rfl, fun _ => rfl, fun _ _ => rfl, .inl rfl⟩, fun _ => rfl⟩
  case h_3 d a i =>
    exact ⟨halfStf d a i, ⟨⟨⟨fun _ => rfl, rfl⟩, fun r hr => by simpa [halfStf, feHalf] using hr, fun _ => rfl⟩, ⟨rfl, rfl⟩,
      fun _ => rfl, fun _ => rfl, fun _ _ => rfl, .inr rfl⟩, fun _ => rfl⟩
  case h_4 d a i =>
    exact ⟨halfSte d a i, ⟨⟨⟨fun _ => rfl, rfl⟩, fun r hr => by simpa [halfSte, feHalf] using hr, fun _ => rfl⟩, ⟨rfl, rfl⟩,
      fun _ => rfl, fun _ => rfl, fun _ _ => rfl, .inr rfl⟩, fun _ => rfl⟩
  case h_5 a i =>
    exact ⟨halfWaitf a i, ⟨⟨⟨fun _ => rfl, rfl⟩, fun r hr => by simpa [halfWaitf, feHalf] using hr, fun _ => rfl⟩, ⟨rfl, rfl⟩,
      fun _ => rfl, fun _ => rfl, fun _ _ => rfl, .inl rfl⟩, fun _ => rfl⟩
/-- The condition of a full/empty instruction, as the rule speaks of it. -/
theorem feGate_of_holds {want : Option Bool} {a : Nat} {l : Tile} (h : ∀ f, want = some f → decide (a / 8 ∈ l.full) = f) : feGate want a l = none := by
  cases want with
  | none => rfl
  | some f => exact if_pos (by rw [Tile.isFull, List.contains_eq_mem]; exact h f rfl)
theorem feGate_of_fails {f : Bool} {a : Nat} {l : Tile} (h : decide (a / 8 ∈ l.full) = !f) : feGate (some f) a l = some (a, f) :=
  if_neg (by rw [Tile.isFull, List.contains_eq_mem, h]; cases f <;> decide)

theorem Thread.apart_wr {t : Thread} {a : Nat} (h : t.Apart a) (d : Reg) (v : W64) : (t.wr d v).Apart a := by
  unfold Thread.Apart at *
  rwa [Thread.wr_spec, Thread.wr_wait]
/-- A thread with the word it has loaded. -/
def Thread.loaded (dst : Option Reg) (v : W64) (t : Thread) : Thread := match dst with
  | some d => t.wr d v
  | none => t
theorem Thread.apart_loaded {t : Thread} {a : Nat} (h : t.Apart a) (dst : Option Reg) (v : W64) : (t.loaded dst v).Apart a := by
  cases dst with
  | none => exact h
  | some d => exact Thread.apart_wr h d v
theorem Thread.rd_loaded (t : Thread) (dst : Option Reg) (v : W64) (r : Reg) :
    (t.loaded dst v).rd r = if r = 0 then 0 else if some r = dst then v else t.rd r := by
  cases dst with
  | none =>
    by_cases hr : r = 0
    · rw [if_pos hr, hr]
      rfl
    · rw [if_neg hr, if_neg (fun h => by cases h)]
      rfl
  | some d =>
    simp only [Option.some.injEq]
    exact t.rd_wr r d v
theorem Thread.loaded_restore (t : Thread) (dst : Option Reg) (v : W64) : { t.loaded dst v with g := t.g } = t := by
  cases dst with
  | none => rfl
  | some d => exact t.wr_restore d v
section
variable {s : State} {t : Thread}
/-- The number that a full/empty instruction leaves in its word. -/
def State.feWord (s : State) (t : Thread) (a : Nat) (src : Option Reg) : Nat := match src with
  | some r => (t.rd r).toNat
  | none => s.seenN t a 8
/-- The event's access to its word. -/
theorem State.Issues.writes_feAccess (h : s.Issues t) {a : Nat} {dst src : Option Reg} (hone : src = Option.none ∨ dst = Option.none) (hspec : t.spec = none)
    (hwait : t.wait = .none) (hwf : s.ctile.sp.wf = true) (hgood : a / 8 ∉ s.ctile.bad) : ∃ m : Memory,
    s.Writes (t.stepped.loaded dst (wrapN (s.seenN t a 8))) a (m, s.ctile.full, s.ctile.bad) (feAccess s a dst src (s.issued t.stepped)) ∧
      ∀ k, m.read k = if a ≤ k ∧ k < a + 8 then BitVec.ofNat 8 (s.feWord t a src / 2 ^ (8 * (k - a))) else s.ctile.sp.read k := by
  have hapart := Thread.apart_stepped hspec hwait a
  have hnone : t.stepped.mark_read a 8 = t.stepped := Thread.mark_read_of_none (t := t.stepped) hspec a 8
  cases src with
  | some r =>
    obtain rfl := hone.resolve_left (by simp)
    refine ⟨s.ctile.sp.writeN a 8 (t.rd r).toNat, ?_, Memory.read_writeN hwf a 8 _⟩
    have hw := (h.writes t.stepped a).threadStore hapart 8 (s.cthr.rd r).toNat
    obtain ⟨hsp, hfull, hbad⟩ := Tile.eq_words (s.words_issued t.stepped)
    rw [Tile.stored_of_good (by rw [hbad]; exact fun hb => hgood hb.2)] at hw
    rw [← hsp, ← hfull, ← hbad]
    exact h.cthr ▸ hw
  | none =>
    refine ⟨s.ctile.sp, ?_, fun k => ?_⟩
    · have hw := (h.writes (t.stepped.loaded dst (wrapN (s.seenN t a 8))) a).scrub (Thread.apart_loaded hapart _ _) a 8
      have heq : feAccess s a dst none (s.issued t.stepped) = (s.issued (t.stepped.loaded dst (wrapN (s.seenN t a 8)))).scrub s.tx a 8 := by
        unfold feAccess
        cases dst with
        | none =>
          dsimp only
          rw [h.noteLoad, hnone]
          rfl
        | some d =>
          dsimp only
          rw [State.readInto, h.noteLoad, hnone, h.modCur_scrub, h.cthr, State.load_eq_seenN]
          rfl
      rw [heq]
      exact hw
    · split
      · exact (byte_of_seenN hspec ‹_›).symm
      · rfl
/-- The words of a tile after the bit of the word of `a` has been set to `after`. -/
def fullMarked (a : Nat) (after : Option Bool) (ws : List Nat) : List Nat := match after with
  | some f => fullAfter (a / 8) f ws
  | none => ws
theorem mem_fullMarked (a : Nat) (after : Option Bool) (ws : List Nat) (w : Nat) :
    w ∈ fullMarked a after ws ↔ if w = a / 8 ∧ after.isSome then after = some true else w ∈ ws := by
  cases after with
  | none => simp [fullMarked]
  | some f => simp [fullMarked, mem_fullAfter]
theorem State.Writes.writes_feMark {u : Thread} {v : State} {a : Nat} {m : Memory} {ws bs : List Nat} (h : s.Writes u a (m, ws, bs) v) (hu : u.Apart a)
    (after : Option Bool) : s.Writes u a (m, fullMarked a after ws, bs) (feMark a after v) := by
  cases after with
  | none => exact h
  | some f => exact h.setFullAt hu f
/-- A full/empty instruction whose condition holds. -/
theorem State.Issues.fullEmpty_result (h : s.Issues t) {i : Instr} {m : Access} {want : Option Bool} {dst src : Option Reg} {after : Option Bool}
    (hr : fullEmptyRule i = some (m, want, dst, src, after)) (hc : t.Clear (dst.toList ++ src.toList ++ m.regs)) (hspec : t.spec = none)
    (hwait : t.wait = .none) (hwf : s.ctile.sp.wf = true) (ha : accessTrap s.ctile (m.addr t) 8 true = none)
    (hwant : ∀ f, want = some f → decide (m.addr t / 8 ∈ s.ctile.full) = f) :
    let u := feReset (t.stepped.loaded dst (wrapN (s.seenN t (m.addr t) 8)))
    ∃ v, exec i s = .next v ∧ v.thr s.tx s.sx = some u ∧ s.Stored v (m.addr t) 8 (s.feWord t (m.addr t) src) ∧
      v.ctile.full = fullMarked (m.addr t) after s.ctile.full ∧ v.ctile.bad = s.ctile.bad := by
  obtain ⟨hs, hfe, hi⟩ := fullEmpty_half hr
  have hk : hs.checks s = [] := by rw [hfe.access.checks, h.cthr, hfe.size.1, hfe.size.2, Tile.access_nil ha]
  have hgate : hs.gate s = none := by rw [hfe.gate, h.cthr, feGate_of_holds hwant]
  have hex := h.runPlain hi hfe.access.plain (fun r hr => hc r (hfe.access.regs r hr)) hk
    (fun e => by rw [Thread.not_speculative hspec] at e; cases e) hgate (hfe.stops s)
  rw [hfe.eff, h.cthr] at hex
  obtain ⟨mem, hw, hmem⟩ := h.writes_feAccess hfe.one hspec hwait hwf (accessTrap_good ha)
  have hw := hw.writes_feMark (Thread.apart_loaded (Thread.apart_stepped hspec hwait _) _ _) after
  obtain ⟨hthr, hwords, hst⟩ := hw.modCur feReset
  obtain ⟨-, hfull, hbad⟩ := Tile.eq_words hwords
  exact ⟨_, hex, hthr, hst (hw.stored hmem), hfull, hbad⟩
end

end Sys2Proof.Machine
end

section
/-! Full/empty instructions whose condition fails, and O7 itself (05_scratchpad.md R148 to R150). -/
namespace Sys2Proof.Machine

theorem State.modCur_eq {s : State} {t : Thread} (h : s.thr s.tx s.sx = some t) (f : Thread → Thread) :
    s.modCur f = s.setSlot s.tx s.sx { s.slot s.tx s.sx with thr := some (f t) } := State.modThr_some h f
/-- Only what the change makes of the issuing thread counts. -/
theorem State.modCur_congr {s : State} {t : Thread} (h : s.thr s.tx s.sx = some t) {f g : Thread → Thread} (hfg : f t = g t) :
    s.modCur f = s.modCur g := by
  rw [State.modCur_eq h, State.modCur_eq h, hfg]
theorem State.tx_modCur (s : State) (f : Thread → Thread) : (s.modCur f).tx = s.tx := congrArg Prod.fst (State.modThr_cur ..)
theorem State.sx_modCur (s : State) (f : Thread → Thread) : (s.modCur f).sx = s.sx := congrArg Prod.snd (State.modThr_cur ..)
theorem State.thr_modCur (s : State) (f : Thread → Thread) : (s.modCur f).thr s.tx s.sx = (s.thr s.tx s.sx).map f := State.thr_modThr ..
theorem State.modCur_modCur (s : State) (f g : Thread → Thread) : (s.modCur f).modCur g = s.modCur (g ∘ f) := by
  rw [State.modCur, State.tx_modCur, State.sx_modCur]
  exact State.modThr_modThr ..
theorem State.cycleOf_modCur (s : State) (f : Thread → Thread) (x : Nat) : (s.modCur f).cycleOf x = s.cycleOf x := by
  unfold State.cycleOf State.die
  rw [show (s.modCur f).dies = s.dies from State.modThr_dies ..]
theorem State.tvec_modCur (s : State) (f : Thread → Thread) : (s.modCur f).ctile.tvec = s.ctile.tvec := by
  rw [State.ctile, State.tx_modCur]
  unfold State.modCur State.modThr
  split
  · rw [State.setSlot, State.tile_modTile]
    rfl
  · rfl
/-- Parking after a change of the thread. -/
theorem State.park_modCur (s : State) (f : Thread → Thread) (w : Wait) :
    (s.modCur f).park w = s.modCur fun t => { f t with wait := w, outSince := s.cycleOf s.tx } := by
  rw [State.park, State.modCur_modCur, State.cycleOf_modCur, State.tx_modCur]
  rfl
theorem State.OnTile.cycleOf {x y : Nat} {s u : State} (h : s.OnTile x u) : u.cycleOf y = s.cycleOf y := by
  unfold State.cycleOf State.die
  rw [← h.rest]
/-- A trap taken outside speculation and outside a handler, after a change of the thread. -/
theorem State.takeTrap_modCur {s : State} {t : Thread} (h : s.thr s.tx s.sx = some t) {f : Thread → Thread} (hs : (f t).speculative = false)
    (ht : (f t).tact = false) (tr : Trap) : (s.modCur f).takeTrap tr = s.modCur fun t => (f t).trapEntry s.ctile.tvec tr := by
  have hcthr : (s.modCur f).cthr = f t := by rw [State.cthr, State.tx_modCur, State.sx_modCur, State.thr_modCur, h]; rfl
  unfold State.takeTrap
  dsimp only
  rw [hcthr, hs, ht, if_neg Bool.false_ne_true, if_neg Bool.false_ne_true, State.modCur_modCur]
  exact congrArg (fun v => s.modCur ((fun t => t.trapEntry v tr) ∘ f)) (s.tvec_modCur f)

/-- Outside speculation a half whose full/empty condition fails does not issue (R148). -/
theorem State.Issues.gateFails {s : State} {t : Thread} (h : s.Issues t) {i : Instr} {hs : Half} (hi : IssuesHalf i hs) (hp : hs.Plain)
    (hc : t.Clear (hs.srcs ++ hs.dsts)) (hk : hs.checks s = []) (hspec : t.spec = none) {a : Nat} {f : Bool} (hg : hs.gate s = some (a, f)) :
    exec i s = .next (s.feFail a f) := by
  have htraps : bundleTraps (encodeWord i) true hs Half.none s = [] := by
    rw [h.trapsPlain _ hp, hc.none, hk]
    rfl
  rw [hi s, State.issueS, State.issue]
  dsimp only
  rw [h.cthr, h.noCause, htraps, Thread.not_speculative hspec]
  simp only [firstTrap, List.foldl_nil, Bool.false_eq_true, ↓reduceIte, reduceCtorEq, hg]

/-- The three outcomes of a failed condition (R148 to R150). -/
theorem State.Issues.feFail_first {s : State} {t : Thread} (h : s.Issues t) (ht : t.feTried = false) (a : Nat) (f : Bool) :
    s.feFail a f = ((s.scrub s.tx a 8).modCur fun t => { t with feTried := true, wait := .fe a f, outSince := s.cycleOf s.tx }).progress := by
  have hon := State.OnTile.scrub s s.tx a 8
  unfold State.feFail
  dsimp only
  rw [h.cthr, ht, if_neg Bool.false_ne_true, State.park_modCur, hon.cycleOf, show (s.scrub s.tx a 8).tx = s.tx from congrArg Prod.fst hon.cur]
section
variable {s : State} {t : Thread}
theorem State.Issues.thr_scrub (h : s.Issues t) (a n : Nat) :
    (s.scrub s.tx a n).thr (s.scrub s.tx a n).tx (s.scrub s.tx a n).sx = some t := by
  have hcur : (s.scrub s.tx a n).cur = s.cur := State.scrub_cur ..
  obtain ⟨m, hm⟩ := s.tile_scrub s.tx a n
  rw [show (s.scrub s.tx a n).tx = s.tx from congrArg Prod.fst hcur, show (s.scrub s.tx a n).sx = s.sx from congrArg Prod.snd hcur, State.thr,
    State.slot, hm]
  exact h.1
theorem State.Issues.feFail_again (h : s.Issues t) (ht : t.feTried = true) (hl : t.feLimit ≠ min (t.feCount + 1) 0xFFFF ∨ t.feLimit = 0)
    (a : Nat) (f : Bool) : s.feFail a f = ((s.scrub s.tx a 8).modCur fun t =>
      { t with feCount := min (t.feCount + 1) 0xFFFF, wait := .fe a f, outSince := s.cycleOf s.tx }).progress := by
  have hon := State.OnTile.scrub s s.tx a 8
  have hl : ¬ (t.feLimit ≠ 0 ∧ min (t.feCount + 1) 0xFFFF = t.feLimit) := fun e => hl.elim (fun h => h e.2.symm) e.1
  unfold State.feFail
  dsimp only
  rw [h.cthr, if_pos ht, if_neg hl, State.park_modCur, hon.cycleOf, show (s.scrub s.tx a 8).tx = s.tx from congrArg Prod.fst hon.cur]
  exact congrArg State.progress (State.modCur_congr (h.thr_scrub a 8) rfl)
theorem State.Issues.feFail_limit (h : s.Issues t) (ht : t.feTried = true) (hl : t.feLimit = min (t.feCount + 1) 0xFFFF) (hz : t.feLimit ≠ 0)
    (hact : t.tact = false) (hspec : t.spec = none) (a : Nat) (f : Bool) : s.feFail a f = (s.scrub s.tx a 8).modCur fun t =>
      { t with feCount := 0, feTried := false, tcause := 7, tval := wrapN a, tpc := BitVec.ofNat 48 t.pc, pmode := t.sys, sys := true,
               tact := true, pc := s.ctile.tvec } := by
  have htx : (s.scrub s.tx a 8).tx = s.tx := congrArg Prod.fst (State.scrub_cur ..)
  have htvec : (s.scrub s.tx a 8).ctile.tvec = s.ctile.tvec := by
    obtain ⟨m, hm⟩ := s.tile_scrub s.tx a 8
    rw [State.ctile, htx, hm]
    rfl
  unfold State.feFail
  dsimp only
  rw [h.cthr, if_pos ht, if_pos ⟨hz, hl.symm⟩,
    State.takeTrap_modCur (h.thr_scrub a 8) (Thread.not_speculative (t := { t with feCount := 0, feTried := false }) hspec) hact, htvec]
  rfl
end
/-- Settles O7: the event of a full/empty instruction, and the three ways in which a failed one stays at its bundle. -/
theorem fullEmptyResult : Obligations.FullEmptyResult := by
  refine ⟨fun i m want dst src after hr s t h hc hspec hwait hwf ha hwant => ?_, ?_⟩
  · obtain ⟨u, hex, hthr, hst, hfull, hbad⟩ := h.fullEmpty_result hr hc hspec hwait hwf ha hwant
    refine ⟨u, _, hex, hthr, ?_, fun w => by rw [hfull, mem_fullMarked], hbad, Thread.rd_loaded t.stepped dst _,
      congrArg (fun u : Thread => { u with feCount := t.feCount }) (t.stepped.loaded_restore dst _), rfl⟩
    cases src <;> exact hst
  · intro i m f dst src after hr s t h hc hspec ha hfull z
    obtain ⟨hs, hfe, hi⟩ := fullEmpty_half hr
    have hk : hs.checks s = [] := by rw [hfe.access.checks, h.cthr, hfe.size.1, hfe.size.2, Tile.access_nil ha]
    have hgate : hs.gate s = some (m.addr t, f) := by rw [hfe.gate, h.cthr, feGate_of_fails hfull]
    have hex := h.gateFails hi hfe.access.plain (fun r hr => hc r (hfe.access.regs r hr)) hk hspec hgate
    refine ⟨fun ht => hex.trans (congrArg _ ?_), fun ht hl => hex.trans (congrArg _ ?_), fun ht hl hz hact => hex.trans (congrArg _ ?_)⟩
    · exact (h.feFail_first ht _ f).trans (congrArg State.progress (State.modCur_congr (h.thr_scrub _ 8) rfl))
    · exact (h.feFail_again ht hl _ f).trans (congrArg State.progress (State.modCur_congr (h.thr_scrub _ 8) rfl))
    · exact (h.feFail_limit ht hl hz hact hspec _ f).trans (State.modCur_congr (h.thr_scrub _ 8) rfl)

end Sys2Proof.Machine
end

section
/-! The order of floating-point values in which −0 stands below +0 (03_numbers.md R127; 05_scratchpad.md R153). -/
namespace Sys2Proof.Machine

/-- A finite value has a positive denominator. -/
def Val.Proper : Val → Prop
  | .fin _ _ d _ => 0 < d
  | _ => True
theorem val_proper (c b : Nat) : (val c b).Proper := by
  unfold val
  dsimp only
  split_ifs
  -- the two integer signs, the subnormal and the normal codes; infinities and NaN
  exacts [Nat.one_pos, Nat.one_pos, Nat.one_pos, Nat.one_pos, Nat.one_pos, trivial, trivial]
theorem Val.rat_negative (n d : Nat) (e : Int) : Val.rat (.fin true n d e) = -Val.rat (.fin false n d e) := by simp [Val.rat]

/-! The model's comparison by signs: negative values, zeros, positive values. -/
theorem vCmp_inf_left (s t : Bool) (n d : Nat) (e : Int) : vCmp (.inf s) (.fin t n d e) = if s then -1 else 1 := by
  cases n <;> cases s <;> cases t <;> rfl
theorem vCmp_inf_right (s t : Bool) (n d : Nat) (e : Int) : vCmp (.fin s n d e) (.inf t) = if t then 1 else -1 := by
  cases n <;> cases s <;> cases t <;> rfl
theorem vCmp_zeros (s t : Bool) (d d' : Nat) (e e' : Int) : vCmp (.fin s 0 d e) (.fin t 0 d' e') = 0 := rfl
theorem vCmp_zero_left (s t : Bool) (d : Nat) (e : Int) {n : Nat} (hn : 0 < n) (d' : Nat) (e' : Int) :
    vCmp (.fin s 0 d e) (.fin t n d' e') = if t then 1 else -1 := by
  obtain ⟨n, rfl⟩ := Nat.exists_eq_add_one.2 hn
  cases t <;> rfl
theorem vCmp_zero_right (s t : Bool) {n : Nat} (hn : 0 < n) (d : Nat) (e : Int) (d' : Nat) (e' : Int) :
    vCmp (.fin s n d e) (.fin t 0 d' e') = if s then -1 else 1 := by
  obtain ⟨n, rfl⟩ := Nat.exists_eq_add_one.2 hn
  cases s <;> rfl
theorem vCmp_opposite {s t : Bool} (hs : t = !s) {n n' : Nat} (hn : 0 < n) (hn' : 0 < n') (d d' : Nat) (e e' : Int) :
    vCmp (.fin s n d e) (.fin t n' d' e') = if s then -1 else 1 := by
  subst hs
  obtain ⟨n, rfl⟩ := Nat.exists_eq_add_one.2 hn
  obtain ⟨n', rfl⟩ := Nat.exists_eq_add_one.2 hn'
  cases s <;> rfl
theorem vCmp_negatives {n n' : Nat} (hn : 0 < n) (hn' : 0 < n') (d d' : Nat) (e e' : Int) :
    vCmp (.fin true n d e) (.fin true n' d' e') = -vCmp (.fin false n d e) (.fin false n' d' e') := by
  have hneg : ¬ ((-1 : Int) = 0 ∨ (-1 : Int) = 2 ∨ (-1 : Int) = -2) := by decide
  have hpos : ¬ ((1 : Int) = 0 ∨ (1 : Int) = 2 ∨ (1 : Int) = -2) := by decide
  simp only [vCmp, hn.ne', hn'.ne', if_false, if_true, lt_irrefl, Bool.false_eq_true, hneg, hpos, neg_one_mul, one_mul]
theorem vCmp_fin_lt_zero_iff (s t : Bool) {n d n' d' : Nat} (hd : 0 < d) (hd' : 0 < d') (e e' : Int) :
    vCmp (.fin s n d e) (.fin t n' d' e') < 0 ↔ Val.rat (.fin s n d e) < Val.rat (.fin t n' d' e') := by
  have hpos {n d : Nat} (hn : 0 < n) (hd : 0 < d) (e : Int) := Val.rat_magnitude_pos hn hd e
  rcases Nat.eq_zero_or_pos n with rfl | hn <;> rcases Nat.eq_zero_or_pos n' with rfl | hn'
  · rw [vCmp_zeros, Val.rat_zero, Val.rat_zero]
    exact iff_of_false (lt_irrefl _) (lt_irrefl _)
  · have := hpos hn' hd' e'
    rw [vCmp_zero_left s t d e hn', Val.rat_zero]
    cases t <;> simp [Val.rat_negative, this, this.le]
  · have := hpos hn hd e
    rw [vCmp_zero_right s t hn, Val.rat_zero]
    cases s <;> simp [Val.rat_negative, this, this.le]
  · have h := hpos hn hd e
    have h' := hpos hn' hd' e'
    match s, t with
    | false, true =>
      rw [vCmp_opposite (s := false) (t := true) rfl hn hn', Val.rat_negative]
      exact iff_of_false (by decide) (by linarith)
    | true, false =>
      rw [vCmp_opposite (s := true) (t := false) rfl hn hn', Val.rat_negative]
      exact iff_of_true (by decide) (by linarith)
    | false, false =>
      rw [vCmp_magnitude hd hd']
      split_ifs <;> simp [*]
    | true, true =>
      rw [vCmp_negatives hn hn', vCmp_magnitude hd hd', Val.rat_negative, Val.rat_negative, neg_lt_neg_iff]
      split_ifs with h1 h2
      · simp [h1.le]
      · simp [h2]
      · simp [h2]
theorem vCmp_lt_zero_iff {x y : Val} (hx : x.Proper) (hy : y.Proper) (hnx : x.isNan = false) (hny : y.isNan = false) :
    vCmp x y < 0 ↔ ruleLess x y = true := by
  match x, hx, hnx, y, hy, hny with
  | .inf s, _, _, .inf t, _, _ => cases s <;> cases t <;> decide
  | .inf s, _, _, .fin t n d e, _, _ =>
    rw [vCmp_inf_left]
    cases s <;> simp [ruleLess]
  | .fin s n d e, _, _, .inf t, _, _ =>
    rw [vCmp_inf_right]
    cases t <;> simp [ruleLess]
  | .fin s n d e, hd, _, .fin t n' d' e', hd', _ => rw [vCmp_fin_lt_zero_iff s t hd hd', ruleLess, decide_eq_true_eq]
/-- Zeros compare equal, and neither is less than the other. -/
theorem isZero_compare {x y : Val} (hx : x.isZero = true) (hy : y.isZero = true) : vCmp x y = 0 ∧ ruleLess x y = false := by
  match x, hx, y, hy with
  | .fin s 0 d e, _, .fin t 0 d' e', _ => exact ⟨rfl, by simp [ruleLess, Val.rat_zero]⟩
/-- The model's order with signed zeros is the rule's. -/
theorem vCmpZ_lt_zero {x y : Val} (hx : x.Proper) (hy : y.Proper) (hnx : x.isNan = false) (hny : y.isNan = false) :
    decide (vCmpZ x y < 0) = ruleUnder x y := by
  unfold vCmpZ ruleUnder
  dsimp only
  by_cases hz : x.isZero = true ∧ y.isZero = true
  · obtain ⟨hc, hl⟩ := isZero_compare hz.1 hz.2
    rw [if_pos ⟨hc, hz⟩, hl, hz.1, hz.2]
    cases x.sign <;> cases y.sign <;> rfl
  · have hz' : (x.isZero && y.isZero) = false := by simpa using hz
    rw [if_neg fun h => hz h.2, hz', Bool.false_and, Bool.false_and, Bool.or_false]
    exact Bool.eq_iff_iff.2 (decide_eq_true_iff.trans (vCmp_lt_zero_iff hx hy hnx hny))

/-- The extremes of R153, as the model takes them. -/
theorem fMinMaxNan_eq_atomicExtreme {f : FloatFormat} (hf : f ∈ floatFormats) (isMax : Bool) {a b : Nat} (ha : a < 2 ^ fmtWidth f.code)
    (hb : b < 2 ^ fmtWidth f.code) : fMinMaxNan f.code isMax a b = atomicExtreme f.code isMax a b := by
  have ht := floatFormats_tabled hf
  rw [ht.width] at ha hb
  unfold fMinMaxNan atomicExtreme
  dsimp only
  rw [ht.nan]
  split
  · rfl
  · rename_i hnan
    obtain ⟨hx, hy⟩ : (val f.code a).isNan = false ∧ (val f.code b).isNan = false := by simpa using hnan
    have hnv {x : Val} (h : x.isNan = false) : x.nv = 0 := by
      cases x with
      | nan s => cases h
      | inf s | fin s n d e => rfl
    unfold fMinMax
    dsimp only
    rw [hx, hy, hnv hx, hnv hy, vCmpZ_lt_zero (val_proper ..) (val_proper ..) hx hy, Nat.mod_eq_of_lt ha, Nat.mod_eq_of_lt hb]
    cases ruleUnder (val f.code a) (val f.code b) <;> cases isMax <;> rfl

end Sys2Proof.Machine
end

section
/-! Atomics, and O8 itself (05_scratchpad.md R151 to R154). -/
namespace Sys2Proof.Machine

/-- The signed order of the values that the low bits stand for. -/
theorem ruleSext_toInt {w : Nat} (hw : w ≤ 64) (x : Nat) : (ruleSext x w).toInt = Int.bmod (x : Int) (2 ^ w) := by
  have hle : (2 : Nat) ^ w ≤ 2 ^ 64 := Nat.pow_le_pow_right (by decide) hw
  have hlo := Int.le_bmod (x := (x : Int)) (Nat.two_pow_pos w)
  have hhi := Int.bmod_lt (x := (x : Int)) (Nat.two_pow_pos w)
  rw [ruleSext, wrapI, BitVec.toInt_ofInt]
  exact Int.bmod_eq_of_le (by omega) (by omega)
theorem sltN_eq {w : Nat} (hw : w ≤ 64) (a b : Nat) :
    sltN w a b = decide (Int.bmod (a : Int) (2 ^ w) < Int.bmod (b : Int) (2 ^ w)) := by
  rw [sltN, BitVec.slt, sextN_eq_ruleSext hw, sextN_eq_ruleSext hw, ruleSext_toInt hw, ruleSext_toInt hw]
theorem natOfBytes_lt (bs : List Byte) : natOfBytes bs < 2 ^ (8 * bs.length) := by
  induction bs with
  | nil => exact Nat.one_pos
  | cons b bs ih =>
    have hb : b.toNat < 256 := b.isLt
    have : 2 ^ (8 * (b :: bs).length) = 256 * 2 ^ (8 * bs.length) := by
      rw [List.length_cons, Nat.mul_succ, Nat.add_comm, pow_add]
      rfl
    rw [this, natOfBytes]
    omega
theorem State.seenN_lt (s : State) (t : Thread) (a n : Nat) : s.seenN t a n < 2 ^ (8 * n) := by
  have := natOfBytes_lt ((List.range n).map fun k => s.seen t (a + k))
  rwa [List.length_map, List.length_range, ← State.seenN_eq_natOfBytes] at this

/-- The thread after an atomic: the old word in its register, unless nothing is returned, and the flags. -/
def Thread.amoDone (noret : Bool) (d : Reg) (r : W64) (fl : FFlags) (t : Thread) : Thread := (if noret then t else t.wr d r).orFlags fl
theorem Thread.rd_amoDone (t : Thread) (noret : Bool) (d : Reg) (v : W64) (fl : FFlags) (r : Reg) :
    (t.amoDone noret d v fl).rd r = if r = 0 then 0 else if r = d ∧ noret = false then v else t.rd r := by
  cases noret with
  | true =>
    by_cases hr : r = 0
    · rw [if_pos hr, hr]
      rfl
    · rw [if_neg hr, if_neg (fun h => by cases h.2)]
      rfl
  | false =>
    simp only [and_true]
    exact t.rd_wr r d v
theorem Thread.amoDone_fflags (t : Thread) (noret : Bool) (d : Reg) (v : W64) (fl : FFlags) :
    (t.amoDone noret d v fl).fflags = (t.fflags ||| fl) := by
  cases noret with
  | true => rfl
  | false => exact congrArg (· ||| fl) (t.wr_fflags d v)
theorem Thread.amoDone_restore (t : Thread) (noret : Bool) (d : Reg) (v : W64) (fl : FFlags) :
    { t.amoDone noret d v fl with g := t.g, fflags := t.fflags } = t := by
  cases noret with
  | true => rfl
  | false =>
    unfold Thread.amoDone Thread.wr
    split_ifs
    all_goals rfl
/-- The write of an atomic, if it makes one. -/
def amoWrite (a n : Nat) (new : Option Nat) (v : State) : State := match new with
  | some x => v.threadStore a n x
  | none => v
section
variable {s : State} {t : Thread}
/-- The event of an atomic reaches its word alone. -/
theorem State.Issues.writes_amo (h : s.Issues t) {a n : Nat} (new : Option Nat) (hspec : t.spec = none) (hwait : t.wait = .none)
    (hwf : s.ctile.sp.wf = true) (hgood : a / 8 ∉ s.ctile.bad) : ∃ m : Memory,
    s.Writes t.stepped a (m, s.ctile.full, s.ctile.bad) (amoWrite a n new ((s.issued t.stepped).scrub s.tx a n)) ∧
      ∀ k, m.read k = if a ≤ k ∧ k < a + n then BitVec.ofNat 8 (new.getD (s.seenN t a n) / 2 ^ (8 * (k - a))) else s.ctile.sp.read k := by
  have hapart := Thread.apart_stepped hspec hwait a
  have hw := (h.writes t.stepped a).scrub hapart a n
  cases new with
  | none =>
    refine ⟨s.ctile.sp, hw, fun k => ?_⟩
    split
    · exact (byte_of_seenN hspec ‹_›).symm
    · rfl
  | some x =>
    refine ⟨s.ctile.sp.writeN a n x, ?_, Memory.read_writeN hwf a n x⟩
    obtain ⟨hsp, hfull, hbad⟩ := Tile.eq_words hw.words
    have hst := hw.threadStore hapart n x
    rw [Tile.stored_of_good (by rw [hbad]; exact fun hb => hgood hb.2)] at hst
    rw [← hsp, ← hfull, ← hbad]
    exact hst
/-- An atomic outside a speculative window: `f` gives the word that it writes, its result and its flags. -/
theorem State.Issues.amo_result (h : s.Issues t) {i : Instr} {n : Nat} {noret cas : Bool} {d a b : Reg}
    {f : Nat → Nat → Nat → Option Nat × W64 × FFlags} (hi : IssuesHalf i (amoHalf n noret cas d a b f)) (hc : t.Clear [a, b, d])
    (hspec : t.spec = none) (hwait : t.wait = .none) (hwf : s.ctile.sp.wf = true) (ha : accessTrap s.ctile (t.rd a).toNat n true = none)
    {new : Option Nat} {v : W64} {fl : FFlags}
    (hf : f (s.seenN t (t.rd a).toNat n) ((t.rd b).toNat % 2 ^ (8 * n)) ((t.rd d).toNat % 2 ^ (8 * n)) = (new, v, fl)) :
    ∃ u, exec i s = .next u ∧ u.thr s.tx s.sx = some (t.stepped.amoDone noret d v fl) ∧
      s.Stored u (t.rd a).toNat n (new.getD (s.seenN t (t.rd a).toNat n)) ∧ u.ctile.full = s.ctile.full ∧ u.ctile.bad = s.ctile.bad := by
  have hacc := amoHalf_accesses n noret cas d a b f
  have hk : (amoHalf n noret cas d a b f).checks s = [] := by rw [hacc.checks, h.cthr, Tile.access_nil ha]
  have hregs : t.Clear [d, a, b] := hc.subset (by simp)
  have hex := h.runPlain hi hacc.plain (fun r hr => hregs r (hacc.regs r hr)) hk
    (fun e => by rw [Thread.not_speculative hspec] at e; cases e) rfl rfl
  have heff : (amoHalf n noret cas d a b f).eff s (s.issued t.stepped) =
      (amoWrite (t.rd a).toNat n new ((s.issued t.stepped).scrub s.tx (t.rd a).toNat n)).modCur (Thread.amoDone noret d v fl) := by
    unfold amoHalf
    dsimp only
    rw [h.cthr, State.load_eq_seenN, hf]
    rfl
  obtain ⟨mem, hw, hmem⟩ := h.writes_amo (n := n) new hspec hwait hwf (accessTrap_good ha)
  obtain ⟨hthr, hwords, hst⟩ := hw.modCur (Thread.amoDone noret d v fl)
  obtain ⟨-, hfull, hbad⟩ := Tile.eq_words hwords
  exact ⟨_, hex.trans (congrArg _ heff), hthr, hst (hw.stored hmem), hfull, hbad⟩
end

/-! The instructions. -/
/-- The bytes of an integer atomic's word. -/
def amoSize (wide : Bool) : Nat := if wide then 8 else 4
theorem amoSize_le (wide : Bool) : 8 * amoSize wide ≤ 64 := by cases wide <;> decide
/-- What an integer atomic that writes the word `new` gives: the old word in the register, no flags (R151). -/
def amoGives (wide z : Bool) (new : Nat → Nat → Nat → Option Nat) (o x y : Nat) : Option Nat × W64 × FFlags :=
  (new o x y, if z then ruleZext o (8 * amoSize wide) else ruleSext o (8 * amoSize wide), 0)
/-- One that always writes. -/
theorem amoInt_gives {i : Instr} {wide noret z : Bool} {d a b : Reg} {g : Nat → Nat → Nat → Nat} (hi : IssuesHalf i (amoInt wide noret z d a b g))
    (hg : ∀ o x y, some (g (8 * amoSize wide) o x) = atomicNew (8 * amoSize wide) i o x y) :
    IssuesHalf i (amoHalf (amoSize wide) noret false d a b (amoGives wide z (atomicNew (8 * amoSize wide) i))) := by
  have : amoGives wide z (atomicNew (8 * amoSize wide) i) = fun old b _ =>
      (some (g (8 * amoSize wide) old b), if z then zextN (8 * amoSize wide) old else sextN (8 * amoSize wide) old, 0) := by
    funext o x y
    unfold amoGives
    rw [← hg, sextN_eq_ruleSext (amoSize_le wide)]
    rfl
  rw [this]
  exact hi
/-- An integer atomic writes the word of the rule and returns the old one (R151). -/
theorem atomic_half {i : Instr} {wide noret cas z : Bool} {d a b : Reg} (h : atomicRule i = some (wide, noret, d, a, b, cas, z)) :
    IssuesHalf i (amoHalf (amoSize wide) noret cas d a b (amoGives wide z (atomicNew (8 * amoSize wide) i))) := by
  have hslt := sltN_eq (amoSize_le wide)
  unfold atomicRule at h
  split at h
  all_goals simp only [Option.some.injEq, Prod.mk.injEq, reduceCtorEq] at h
  all_goals obtain ⟨rfl, rfl, rfl, rfl, rfl, rfl, rfl⟩ := h
  case h_1 | h_6 | h_7 | h_8 | h_9 => exact amoInt_gives (fun _ => rfl) fun _ _ _ => rfl
  case h_2 | h_3 =>
    refine amoInt_gives (fun _ => rfl) fun o x _ => congrArg some ?_
    rw [hslt]
    exact if_congr decide_eq_true_iff rfl rfl
  case h_4 => exact amoInt_gives (fun _ => rfl) fun o x _ => congrArg some (by split <;> omega)
  case h_5 => exact amoInt_gives (fun _ => rfl) fun o x _ => congrArg some (by split <;> omega)
  case h_10 wide noret d a b =>
    have : amoGives wide false (atomicNew (8 * amoSize wide) (.amocas wide noret d a b)) = fun old x y =>
        (if old = y ∧ x ≠ old then some x else none, sextN (8 * amoSize wide) old, 0) := by
      funext o x y
      rw [sextN_eq_ruleSext (amoSize_le wide)]
      rfl
    rw [this]
    exact fun _ => rfl
/-- The bytes and the format of a floating-point atomic's word (R152). -/
def amoFpSize (half : Bool) : Nat := if half then 2 else 4
def amoFpFormat (half : Bool) : Nat := if half then 9 else 8
/-- What a floating-point atomic that computes by `g` gives. -/
def amoFpGives (half : Bool) (g : Nat → Nat → Nat → Nat × FFlags) (o x _ : Nat) : Option Nat × W64 × FFlags :=
  (some (g (amoFpFormat half) o x).1, ruleZext o (8 * amoFpSize half), (g (amoFpFormat half) o x).2)
theorem amoFp_eq (half noret : Bool) (d a b : Reg) (g : Nat → Nat → Nat → Nat × FFlags) :
    amoFp half noret d a b g = amoHalf (amoFpSize half) noret false d a b (amoFpGives half g) := rfl
theorem fMinMaxNan_amo (half isMax : Bool) {o x : Nat} (ho : o < 2 ^ (8 * amoFpSize half)) (hx : x < 2 ^ (8 * amoFpSize half)) :
    fMinMaxNan (amoFpFormat half) isMax o x = atomicExtreme (amoFpFormat half) isMax o x := by
  cases half with
  | false => exact fMinMaxNan_eq_atomicExtreme (f := ⟨8, 8, 23, 127, true, 0x7F7FFFFF⟩) (by decide) isMax ho hx
  | true => exact fMinMaxNan_eq_atomicExtreme (f := ⟨9, 5, 10, 15, true, 0x7BFF⟩) (by decide) isMax ho hx
/-- A floating-point atomic computes the new word of the rule (R152, R153). -/
theorem atomicFloat_half {i : Instr} {half noret : Bool} {d a b : Reg} {f : Nat → Nat → Nat × FFlags}
    (h : atomicFloatRule i = some (half, noret, d, a, b, f)) : ∃ g, IssuesHalf i (amoHalf (amoFpSize half) noret false d a b (amoFpGives half g)) ∧
      ∀ o x, o < 2 ^ (8 * amoFpSize half) → x < 2 ^ (8 * amoFpSize half) → g (amoFpFormat half) o x = f o x := by
  unfold atomicFloatRule at h
  split at h
  all_goals simp only [Option.some.injEq, Prod.mk.injEq, reduceCtorEq] at h
  all_goals obtain ⟨rfl, rfl, rfl, rfl, rfl, rfl⟩ := h
  case h_1 half noret d a b =>
    refine ⟨fun c x y => fArith c 0 x y 0 0, ?_, fun _ _ _ _ => rfl⟩
    rw [← amoFp_eq]
    exact fun _ => rfl
  case h_2 half noret d a b =>
    refine ⟨fun c x y => fMinMaxNan c true x y, ?_, fun _ _ => fMinMaxNan_amo half true⟩
    rw [← amoFp_eq]
    exact fun _ => rfl
  case h_3 half noret d a b =>
    refine ⟨fun c x y => fMinMaxNan c false x y, ?_, fun _ _ => fMinMaxNan_amo half false⟩
    rw [← amoFp_eq]
    exact fun _ => rfl
/-- Settles O8: an atomic is one event on its word, and computes what the tables give. -/
theorem atomicResult : Obligations.AtomicResult := by
  refine ⟨fun i wide noret d a b cas z hr _ s t h hc hspec hwait hwf => ?_, fun i half noret d a b f hr _ s t h hc hspec hwait hwf => ?_⟩
  · intro n w ha old new
    have hf : amoGives wide z (atomicNew (8 * amoSize wide) i) (s.seenN t (t.rd a).toNat (amoSize wide))
        ((t.rd b).toNat % 2 ^ (8 * amoSize wide)) ((t.rd d).toNat % 2 ^ (8 * amoSize wide)) =
        (new, if z then ruleZext old w else ruleSext old w, 0) := rfl
    obtain ⟨u, hex, hthr, hst, hfull, hbad⟩ := h.amo_result (atomic_half hr) hc hspec hwait hwf ha hf
    refine ⟨u, _, hex, hthr, hst, hfull, hbad, t.stepped.rd_amoDone noret d _ 0, ?_⟩
    have hfl : (t.stepped.amoDone noret d (if z then ruleZext old w else ruleSext old w) 0).fflags = t.fflags :=
      (t.stepped.amoDone_fflags noret d _ 0).trans BitVec.or_zero
    refine Eq.trans ?_ (t.stepped.amoDone_restore noret d (if z then ruleZext old w else ruleSext old w) 0)
    exact congrArg (fun x : FFlags =>
      { t.stepped.amoDone noret d (if z then ruleZext old w else ruleSext old w) 0 with g := t.g, fflags := x }) hfl
  · intro n ha old new
    obtain ⟨g, hi, hg⟩ := atomicFloat_half hr
    have hnew : g (amoFpFormat half) old ((t.rd b).toNat % 2 ^ (8 * n)) = new :=
      hg _ _ (s.seenN_lt t _ n) (Nat.mod_lt _ (Nat.two_pow_pos _))
    have hf : amoFpGives half g (s.seenN t (t.rd a).toNat (amoFpSize half)) ((t.rd b).toNat % 2 ^ (8 * amoFpSize half))
        ((t.rd d).toNat % 2 ^ (8 * amoFpSize half)) = (some new.1, ruleZext old (8 * n), new.2) :=
      congrArg (fun y : Nat × FFlags => (some y.1, ruleZext old (8 * n), y.2)) hnew
    obtain ⟨u, hex, hthr, hst, hfull, hbad⟩ := h.amo_result hi hc hspec hwait hwf ha hf
    exact ⟨u, _, hex, hthr, hst, hfull, hbad, t.stepped.rd_amoDone noret d _ new.2, t.stepped.amoDone_fflags noret d _ new.2,
      t.stepped.amoDone_restore noret d _ new.2⟩

end Sys2Proof.Machine
end

section
/-! Instructions that end a speculative window, `SPEND` outside one and `SPST`: O28 itself (05_scratchpad.md R157; 11_sync.md R352, R361, R362). -/
namespace Sys2Proof.Machine

theorem State.Issues.cur_thr {s : State} {t : Thread} (h : s.Issues t) : s.thr s.tx s.sx = some t := h.1
/-- What a half says that ends a speculative window at the bundle where it would issue: its checks passed, it answers so and probes no word. -/
structure Half.Ends (hs : Half) (s : State) (rs : List Reg) : Prop where
  plain : hs.Plain
  regs : ∀ r, r ∈ hs.srcs ++ hs.dsts → r ∈ rs
  checks : hs.checks s = []
  spec : hs.spec s = .ends
  probes : hs.probes s = Option.none
/-- The thread parked at its bundle, in the ended state (R352). -/
def Thread.specEnded (sp : Spec) (now : Nat) (t : Thread) : Thread :=
  { t with spec := some { sp with st := .ended }, wait := .spec, outSince := now }
section
variable {s : State} {t : Thread}
theorem State.Issues.parkSpec (h : s.Issues t) {sp : Spec} (hsp : t.spec = some sp) :
    s.parkSpec .ended = s.modCur fun _ => t.specEnded sp (s.cycleOf s.tx) := by
  rw [State.parkSpec, State.park_modCur]
  refine State.modCur_congr h.cur_thr ?_
  rw [hsp]
  rfl
theorem State.Issues.endsSpeculation (h : s.Issues t) {i : Instr} {hs : Half} {rs : List Reg} (hi : IssuesHalf i hs) (he : hs.Ends s rs)
    (hc : t.Clear rs) {sp : Spec} (hsp : t.spec = some sp) (hst : sp.st = .active) :
    exec i s = .next (s.modCur fun _ => t.specEnded sp (s.cycleOf s.tx)) := by
  have hclear : t.Clear (hs.srcs ++ hs.dsts) := fun r hr => hc r (he.regs r hr)
  have htraps : bundleTraps (encodeWord i) true hs Half.none s = [] := by
    rw [h.trapsPlain _ he.plain, hclear.none, he.checks]
    rfl
  have hspec : t.speculative = true := by
    unfold Thread.speculative
    rw [hsp]
    dsimp only
    rw [hst]
    rfl
  have hattempted : s.attempted hs = s := by rw [State.attempted, he.probes]
  rw [hi s, State.issueS, State.issue]
  dsimp only
  rw [h.cthr, h.noCause, htraps, hspec]
  simp only [firstTrap, List.foldl_nil, Bool.false_eq_true, ↓reduceIte, reduceCtorEq, he.spec, hattempted]
  exact congrArg _ (h.parkSpec hsp)
end

/-! The halves of R157 and R352. -/
section
variable {s : State} {t : Thread}
theorem feHalf_ends (h : s.Issues t) {srcs dsts rs : List Reg} (hr : ∀ r, r ∈ srcs ++ dsts → r ∈ rs) {a : Reg} {x : BitVec 9}
    {await : Option Bool} {ev : State → Nat → State → State} (ha : accessTrap s.ctile (ruleDisp (t.rd a) x 8) 8 true = none) :
    (feHalf srcs dsts a x await endsAct ev).Ends s rs where
  plain := ⟨fun _ => rfl, rfl⟩
  regs := hr
  checks := by
    change s.ctile.access (dispOf a x 8 s.cthr) 8 true = []
    rw [dispOf_eq, h.cthr, Tile.access_nil ha]
  spec := rfl
  probes := rfl
theorem amoHalf_ends (h : s.Issues t) {n : Nat} {noret cas : Bool} {d a b : Reg} {f : Nat → Nat → Nat → Option Nat × W64 × FFlags}
    (ha : accessTrap s.ctile (t.rd a).toNat n true = none) : (amoHalf n noret cas d a b f).Ends s [d, a, b] where
  plain := (amoHalf_accesses n noret cas d a b f).plain
  regs := (amoHalf_accesses n noret cas d a b f).regs
  checks := by rw [(amoHalf_accesses n noret cas d a b f).checks, h.cthr, Tile.access_nil ha]
  spec := rfl
  probes := rfl
theorem amoInt_ends (h : s.Issues t) {wide noret z : Bool} {d a b : Reg} {f : Nat → Nat → Nat → Nat}
    (ha : accessTrap s.ctile (t.rd a).toNat (if wide then 8 else 4) true = none) : (amoInt wide noret z d a b f).Ends s [d, a, b] := by
  unfold amoInt
  exact amoHalf_ends h ha
theorem amocas_ends (h : s.Issues t) {wide noret : Bool} {d a b : Reg}
    (ha : accessTrap s.ctile (t.rd a).toNat (if wide then 8 else 4) true = none) : (halfAmocas wide noret d a b).Ends s [d, a, b] := by
  unfold halfAmocas
  exact amoHalf_ends h ha
end
theorem badHandle_nil {s : State} {t : Thread} (h : s.Issues t) {a : Reg} (ha : homeNameOk ((t.rd a).toNat / 2 ^ 32) = true) :
    badHandle a s = [] := by
  have hhome : hHome (t.rd a) = (t.rd a).toNat / 2 ^ 32 := Nat.mod_eq_of_lt (by have := (t.rd a).isLt; omega)
  unfold badHandle
  dsimp only
  rw [h.cthr, hhome, ha]
  rfl

/-! The speculation word (R362). -/
theorem specNo_lt (t : Thread) : t.specNo < 8 := by
  unfold Thread.specNo
  split
  · decide
  · split <;> decide
/-- The fields of R362 in a word that holds them side by side. -/
theorem specFields {r c k e u n : Nat} (hr : r < 256) (hc : c < 256) (hk : k < 16) (he : e < 16) (hu : u < 128) (hn : n < 8) {v : W64}
    (hv : v = BitVec.ofNat 64 (r * 2 ^ 32 + c * 2 ^ 24 + k * 2 ^ 20 + e * 2 ^ 16 + u * 2 ^ 8 + n)) :
    v.toNat / 2 ^ 40 = 0 ∧ v.toNat / 2 ^ 32 % 256 = r ∧ v.toNat / 2 ^ 24 % 256 = c ∧ v.toNat / 2 ^ 20 % 16 = k ∧ v.toNat / 2 ^ 16 % 16 = e ∧
      v.toNat / 2 ^ 15 % 2 = 0 ∧ v.toNat / 2 ^ 3 % 32 = 0 ∧ v.toNat / 2 ^ 8 % 128 = u ∧ v.toNat % 8 = n := by
  have : v.toNat = r * 2 ^ 32 + c * 2 ^ 24 + k * 2 ^ 20 + e * 2 ^ 16 + u * 2 ^ 8 + n := by
    rw [hv, BitVec.toNat_ofNat]
    exact Nat.mod_eq_of_lt (by omega)
  omega
/-- The entries of the store buffer in use, none outside a window. -/
def Thread.specUsed (t : Thread) : Nat := match t.spec with
  | some sp => sp.used
  | none => 0
/-- Settles O28: each of these halves ends speculation where its checks pass; the fields of the speculation word stand side by side. -/
theorem speculationEnds : Obligations.SpeculationEnds := by
  refine ⟨fun s t d a b x w n h => ⟨fun hspec => ?_, fun sp i hsp hst => ?_⟩, fun s t d h hc hrbk hcmt hused => ?_⟩
  · exact h.runPlain (hs := halfSpend) (fun _ => rfl) ⟨fun _ => rfl, rfl⟩ (fun r hr => by cases hr) rfl
      (fun e => by rw [Thread.not_speculative hspec] at e; cases e) rfl rfl
  · have ends {hs : Half} {rs : List Reg} (hi : IssuesHalf i hs) (he : hs.Ends s rs) (hc : t.Clear rs) :
        exec i s = .next (s.modCur fun _ => t.specEnded sp (s.cycleOf s.tx)) := h.endsSpeculation hi he hc hsp hst
    refine ⟨fun hi => ?_, fun hi hc hbad hhome => ?_, fun hi hc ha => ?_, fun hi hc ha => ?_⟩
    · have hnone : t.Clear [] := fun r hr => by cases hr
      simp only [List.mem_cons, List.not_mem_nil, or_false] at hi
      rcases hi with rfl | rfl | rfl
      · exact ends (hs := halfSpend) (fun _ => rfl) ⟨⟨fun _ => rfl, rfl⟩, fun r hr => hr, rfl, rfl, rfl⟩ hnone
      · exact ends (hs := halfExit) (fun _ => rfl) ⟨⟨fun _ => rfl, rfl⟩, fun r hr => hr, rfl, rfl, rfl⟩ hnone
      · exact ends (hs := halfTfence) (fun _ => rfl) ⟨⟨fun _ => rfl, rfl⟩, fun r hr => hr, rfl, rfl, rfl⟩ hnone
    · simp only [List.mem_cons, List.not_mem_nil, or_false] at hi
      rcases hi with rfl | rfl | rfl | rfl | rfl | rfl | rfl | rfl | rfl | rfl | rfl
      · exact ends (hs := halfPrio a) (fun _ => rfl) ⟨⟨fun _ => rfl, rfl⟩, by simp [halfPrio, Half.own], rfl, rfl, rfl⟩ hc
      · exact ends (hs := halfLend a) (fun _ => rfl) ⟨⟨fun _ => rfl, rfl⟩, by simp [halfLend], rfl, rfl, rfl⟩ hc
      · exact ends (hs := halfWake a) (fun _ => rfl) ⟨⟨fun _ => rfl, rfl⟩, by simp [halfWake], rfl, rfl, rfl⟩ hc
      · exact ends (hs := halfBars d a) (fun _ => rfl) ⟨⟨fun _ => rfl, rfl⟩, by simp [halfBars], rfl, rfl, rfl⟩ hc
      · exact ends (hs := halfSleep d a) (fun _ => rfl) ⟨⟨fun _ => rfl, rfl⟩, by simp [halfSleep], rfl, rfl, rfl⟩ hc
      · exact ends (hs := halfResume d a) (fun _ => rfl) ⟨⟨fun _ => rfl, rfl⟩, by simp [halfResume], rfl, rfl, rfl⟩ hc
      · exact ends (hs := halfFree d a) (fun _ => rfl) ⟨⟨fun _ => rfl, rfl⟩, by simp [halfFree], rfl, rfl, rfl⟩ hc
      · exact ends (hs := halfSusp d a b) (fun _ => rfl) ⟨⟨fun _ => rfl, rfl⟩, by simp [halfSusp], rfl, rfl, rfl⟩ hc
      · exact ends (hs := halfTimer a b) (fun _ => rfl) ⟨⟨fun _ => rfl, rfl⟩, by simp [halfTimer], rfl, rfl, rfl⟩ hc
      · exact ends (hs := halfTcancel d a) (fun _ => rfl) ⟨⟨fun _ => rfl, rfl⟩, by simp [halfTcancel, plainHalf], badHandle_nil h (hhome rfl), rfl, rfl⟩ hc
      · exact ends (hs := halfDlook d a) (fun _ => rfl) ⟨⟨fun _ => rfl, rfl⟩, by simp [halfDlook, dirHalf], dirHalf_checks hbad .., rfl, rfl⟩ hc
    · simp only [List.mem_cons, List.not_mem_nil, or_false] at hi
      rcases hi with rfl | rfl | rfl
      · exact ends (hs := halfLde d a x) (fun _ => rfl) (feHalf_ends h (by simp) ha) hc
      · exact ends (hs := halfStf d a x) (fun _ => rfl) (feHalf_ends h (by simp) ha) hc
      · exact ends (hs := halfSte d a x) (fun _ => rfl) (feHalf_ends h (by simp) ha) hc
    · simp only [List.mem_cons, List.not_mem_nil, or_false] at hi
      rcases hi with rfl | rfl | rfl
      · exact ends (hs := amoInt w n false d a b _) (fun _ => rfl) (amoInt_ends h ha) hc
      · exact ends (hs := amoInt w n false d a b _) (fun _ => rfl) (amoInt_ends h ha) hc
      · exact ends (hs := halfAmocas w n d a b) (fun _ => rfl) (amocas_ends h ha) hc
  · have hu : t.specUsed < 128 := by
      unfold Thread.specUsed
      split
      · exact (hused _ ‹_›).trans_lt (by decide)
      · decide
    obtain ⟨h40, h32, h24, h20, h16, h15, h3, h8, h0⟩ := specFields hrbk hcmt t.specCause.isLt t.specEntry.isLt hu (specNo_lt t) (v := t.specWord) rfl
    refine ⟨t.specWord, congrArg Host.Outcome.next (h.alu (.spst d) d [] Thread.specWord hc), h40, h32, h24, h20, h16, h15, h3, h8, fun hspec => ?_,
      fun sp hsp hst => ?_⟩
    · rw [h0, Thread.specNo, hspec]
    · rw [h0, Thread.specNo, hsp]
      dsimp only
      rw [hst]

end Sys2Proof.Machine
end

section
/-! What happens outside the tiles: messages, links between packages, homes, the host ports, the energy reserve, page walks and the images of spilled
contexts (10_spanning.md R313, R329 to R333; 13_system.md R404, R412 to R417, R425). No tile changes, no message that has left the networks returns. -/
namespace Sys2Proof.Machine

/-! Neither tiles nor networks. -/
/-- State `u` is `s` but for what is neither on a tile nor on the networks; the dies' cycles stay. -/
structure State.OffNet (s u : State) : Prop where
  tiles : u.tiles = s.tiles
  cur : u.cur = s.cur
  net : u.net = s.net
  nextId : s.nextId ≤ u.nextId
  cycle : ∀ d, (u.die d).cycle = (s.die d).cycle
theorem State.OffNet.refl (s : State) : s.OffNet s := ⟨rfl, rfl, rfl, Nat.le_refl _, fun _ => rfl⟩
theorem State.OffNet.trans {s u v : State} (h : s.OffNet u) (h' : u.OffNet v) : s.OffNet v :=
  ⟨h'.tiles.trans h.tiles, h'.cur.trans h.cur, h'.net.trans h.net, h.nextId.trans h'.nextId, fun d => (h'.cycle d).trans (h.cycle d)⟩
theorem State.OffNet.foldl {α : Type} {f : State → α → State} (h : ∀ (s : State) (a : α), s.OffNet (f s a)) (l : List α) (s : State) :
    s.OffNet (l.foldl f s) :=
  List.foldlRecOn l f (.refl s) fun _ hu a _ => hu.trans (h _ a)
theorem State.OffNet.ite {s u v : State} {p : Prop} [Decidable p] (h : s.OffNet u) (h' : s.OffNet v) : s.OffNet (if p then u else v) := by
  split
  · exact h
  · exact h'
theorem State.cycle_debit (s : State) (d cost e : Nat) : ((s.debit d cost).die e).cycle = (s.die e).cycle := by
  show ((s.dies.setIfInBounds d { s.die d with reserve := (s.die d).reserve - cost })[e]?.getD {}).cycle = (s.dies[e]?.getD {}).cycle
  rw [Vector.getElem?_setIfInBounds]
  split
  case isFalse => rfl
  case isTrue he =>
    subst he
    split
    · rfl
    · next hd => rw [Vector.getElem?_eq_none (Nat.le_of_not_lt hd)]
theorem State.offNet_debit (s : State) (d cost : Nat) : s.OffNet (s.debit d cost) := ⟨rfl, rfl, rfl, Nat.le_refl _, s.cycle_debit d cost⟩
theorem State.offNet_bump (s : State) : s.OffNet s.bump := ⟨rfl, rfl, rfl, Nat.le_succ _, fun _ => rfl⟩
theorem State.offNet_setPeer (s : State) (c : Nat) (v : Peer) : s.OffNet (s.setPeer c v) := ⟨rfl, rfl, rfl, Nat.le_refl _, fun _ => rfl⟩
theorem State.offNet_setSpirePort (s : State) (p : Nat) (v : SpirePort) : s.OffNet (s.setSpirePort p v) := ⟨rfl, rfl, rfl, Nat.le_refl _, fun _ => rfl⟩
theorem State.offNet_setPort (s : State) (p : Nat) (v : HostPort) : s.OffNet (s.setPort p v) := ⟨rfl, rfl, rfl, Nat.le_refl _, fun _ => rfl⟩
theorem State.offNet_setHome (s : State) (p : Nat) (v : Home) : s.OffNet (s.setHome p v) := ⟨rfl, rfl, rfl, Nat.le_refl _, fun _ => rfl⟩
theorem State.offNet_writeDram (s : State) (p : Nat) (bs : List Byte) : s.OffNet (s.writeDram p bs) := ⟨rfl, rfl, rfl, Nat.le_refl _, fun _ => rfl⟩

/-! The sending side of the spire link. -/
theorem State.offNet_wire (s : State) (p : Nat) (k : SpirePacket) : s.OffNet (s.wire p k) := .ite (s.offNet_setSpirePort _ _) (.refl s)
theorem State.offNet_usePeer (s : State) (c : Nat) : s.OffNet (s.usePeer c) := s.offNet_bump.trans (State.offNet_setPeer _ _ _)
theorem State.offNet_spireAgain (s : State) (c : Nat) : s.OffNet (s.spireAgain c) :=
  .foldl (fun s _ => .ite (.refl s) (((s.offNet_debit _ _).trans (State.offNet_setPeer _ _ _)).trans (State.offNet_wire _ _ _))) _ s
theorem State.offNet_spireGo (s : State) (c f : Nat) : s.OffNet (s.spireGo c f) := by
  induction f generalizing s with
  | zero => exact .refl s
  | succ f ih =>
    unfold State.spireGo
    dsimp only
    split
    · exact .refl s
    · exact .ite (.refl s) (((((s.offNet_debit _ _).trans (State.offNet_setPeer _ _ _)).trans (State.offNet_usePeer _ _)).trans
        (State.offNet_wire _ _ _)).trans (ih _))
theorem State.offNet_spireFlush (s : State) (c : Nat) : s.OffNet (s.spireFlush c) :=
  .ite ((s.offNet_spireAgain c).trans (State.offNet_spireGo _ _ _)) (.refl s)
theorem State.offNet_spireSend (s : State) (c : Nat) (m : Msg) : s.OffNet (s.spireSend c m) := by
  unfold State.spireSend
  dsimp only
  refine .ite (.refl s) (.trans ?_ (State.offNet_spireFlush _ _))
  exact ⟨rfl, rfl, rfl, Nat.le_refl _, fun _ => rfl⟩

/-! The host ports. -/
theorem State.offNet_raiseVector (s : State) (t v : Nat) : s.OffNet (s.raiseVector t v) := by
  unfold State.raiseVector
  exact .ite (.refl s) (.ite (s.offNet_setPort _ _) (s.offNet_setPort _ _))

/-! Page walks, and the images of spilled contexts. -/
theorem State.offNet_xlate (s : State) (d tn asid va perm : Nat) : s.OffNet (s.xlate d tn asid va perm).2 := by
  unfold State.xlate
  split
  · exact .refl s
  · split
    · exact .refl s
    · have h : s.OffNet (if (s.walk tn asid va).lines = 0 then s else s.debit d (2000 * (s.walk tn asid va).lines)) := .ite (.refl s) (s.offNet_debit _ _)
      dsimp only
      split
      · exact h.trans ⟨rfl, rfl, rfl, Nat.le_refl _, fun _ => rfl⟩
      · exact h.trans ⟨rfl, rfl, rfl, Nat.le_refl _, fun _ => rfl⟩
theorem State.offNet_spillPieces (s : State) (x va n perm f : Nat) : s.OffNet (s.spillPieces x va n perm f).2 := by
  induction f generalizing s va n with
  | zero => exact .refl s
  | succ f ih =>
    unfold State.spillPieces
    split
    · exact .refl s
    · have h := s.offNet_xlate (dieOf x) (s.tenantOf x) (s.afirst (s.tenantOf x)) va perm
      dsimp only
      split
      · next p left u e =>
        rw [e] at h
        have h' := h.trans (ih u (va + min n left) (n - min n left))
        split
        · exact h
        · split
          · next e' => rw [e'] at h'; exact h'
          · next e' => rw [e'] at h'; exact h'
      · next e => rw [e] at h; exact h
      · next e => rw [e] at h; exact h
theorem State.offNet_writePhys (s : State) (l : List (Nat × Nat)) (bs : List Byte) : s.OffNet (s.writePhys l bs) :=
  List.foldlRecOn (motive := fun (a : State × List Byte) => s.OffNet a.1) l _ (.refl s) fun a ha _ _ => ha.trans (a.1.offNet_writeDram _ _)
theorem State.offNet_writeImage (s : State) (x place off : Nat) (v : W64) : s.OffNet (s.writeImage x place off v) := by
  -- unfolded before it is applied, as for `State.writeImage_canonical`: the kernel would otherwise run the two steps of `spillPieces`
  generalize hf : State.writeImage = f
  delta State.writeImage at hf
  subst hf
  dsimp only
  split
  · next l u hp =>
    have h : s.OffNet u := (congrArg Prod.snd hp).subst (s.offNet_spillPieces ..)
    exact (h.trans (u.offNet_debit _ _)).trans (State.offNet_writePhys _ _ _)
  · next hp => exact (congrArg Prod.snd hp).subst (s.offNet_spillPieces ..)
/-- What the spill engine writes into the images beside a change lies in memory alone. -/
theorem State.offNet_imaged (s : State) (x : Nat) (f : State → State) : (f s).OffNet (s.imaged x f) :=
  .foldl (fun s _ => .ite (.refl s) (.foldl (fun s _ => .ite (.refl s) (s.offNet_writeImage _ _ _ _)) _ s)) _ (f s)

/-! Messages. -/
/-- State `u` is `s` but for what is not on a tile; a message that is not on the networks does not return there. -/
structure State.OffTile (s u : State) : Prop where
  tiles : u.tiles = s.tiles
  cur : u.cur = s.cur
  nextId : s.nextId ≤ u.nextId
  cycle : ∀ d, (u.die d).cycle = (s.die d).cycle
  gone : ∀ m, m < s.nextId → s.msg m = none → u.msg m = none
theorem State.OffTile.refl (s : State) : s.OffTile s := ⟨rfl, rfl, Nat.le_refl _, fun _ => rfl, fun _ _ h => h⟩
theorem State.OffTile.trans {s u v : State} (h : s.OffTile u) (h' : u.OffTile v) : s.OffTile v where
  tiles := h'.tiles.trans h.tiles
  cur := h'.cur.trans h.cur
  nextId := h.nextId.trans h'.nextId
  cycle d := (h'.cycle d).trans (h.cycle d)
  gone m hm hs := h'.gone m (Nat.lt_of_lt_of_le hm h.nextId) (h.gone m hm hs)
theorem State.OffTile.foldl {α : Type} {f : State → α → State} (h : ∀ (s : State) (a : α), s.OffTile (f s a)) (l : List α) (s : State) :
    s.OffTile (l.foldl f s) :=
  List.foldlRecOn l f (.refl s) fun _ hu a _ => hu.trans (h _ a)
theorem State.OffTile.tile {s u : State} (h : s.OffTile u) (x : Nat) : u.tile x = s.tile x := congrArg (fun t => t.at {} x) h.tiles
theorem State.OffTile.thr {s u : State} (h : s.OffTile u) (x q : Nat) : u.thr x q = s.thr x q := congrArg (fun l => (l.slot q).thr) (h.tile x)
theorem State.OffTile.cycleOf {s u : State} (h : s.OffTile u) (x : Nat) : u.cycleOf x = s.cycleOf x := congrArg BitVec.toNat (h.cycle _)
theorem State.OffNet.offTile {s u : State} (h : s.OffNet u) : s.OffTile u :=
  ⟨h.tiles, h.cur, h.nextId, h.cycle, fun m _ hs => by unfold State.msg at hs ⊢; rw [h.net]; exact hs⟩
theorem State.msg_eq_none (s : State) (m : Nat) : s.msg m = none ↔ ∀ a ∈ s.net, a.id ≠ m := by simp [State.msg]
/-- Sending `a` puts at most `a` itself on the networks. -/
theorem State.sendFar_cases (s : State) (a : Msg) : s.sendFar a = { s with net := s.net ++ [a] } ∨ s.OffNet (s.sendFar a) := by
  unfold State.sendFar
  split
  · split
    · exact .inl rfl
    · exact .inr (s.offNet_spireSend _ _)
  · exact .inl rfl
/-- State `u` is `s` but for what is not on a tile; messages of the numbers `ids` alone come onto the networks. -/
structure State.SendsOnly (ids : Nat → Prop) (s u : State) : Prop where
  tiles : u.tiles = s.tiles
  cur : u.cur = s.cur
  nextId : s.nextId ≤ u.nextId
  cycle : ∀ d, (u.die d).cycle = (s.die d).cycle
  gone : ∀ m, ¬ ids m → s.msg m = none → u.msg m = none
theorem State.SendsOnly.trans {ids : Nat → Prop} {s u v : State} (h : s.SendsOnly ids u) (h' : u.SendsOnly ids v) : s.SendsOnly ids v where
  tiles := h'.tiles.trans h.tiles
  cur := h'.cur.trans h.cur
  nextId := h.nextId.trans h'.nextId
  cycle d := (h'.cycle d).trans (h.cycle d)
  gone m hm hs := h'.gone m hm (h.gone m hm hs)
theorem State.SendsOnly.offTile {ids : Nat → Prop} {s u : State} (h : s.SendsOnly ids u) (hi : ∀ m, m < s.nextId → s.msg m = none → ¬ ids m) :
    s.OffTile u := ⟨h.tiles, h.cur, h.nextId, h.cycle, fun m hm hs => h.gone m (hi m hm hs) hs⟩
theorem State.sendsOnly_sendFar (s : State) (a : Msg) {ids : Nat → Prop} (ha : ids a.id) : s.SendsOnly ids (s.sendFar a) := by
  rcases s.sendFar_cases a with e | e
  · rw [e]
    refine ⟨rfl, rfl, Nat.le_refl _, fun _ => rfl, fun m hm h => ?_⟩
    rw [State.msg_eq_none] at h ⊢
    intro b hb
    rcases List.mem_append.mp hb with hb | hb
    · exact h b hb
    · rw [List.mem_singleton.mp hb]
      exact fun e => hm (e ▸ ha)
  · exact ⟨e.tiles, e.cur, e.nextId, e.cycle, fun m _ h => by unfold State.msg at h ⊢; rw [e.net]; exact h⟩
theorem State.offTile_post (s : State) (a : Msg) : s.OffTile (s.post a) := by
  have h := s.bump.sendsOnly_sendFar { a with id := s.nextId } (ids := (· = s.nextId)) rfl
  exact ⟨h.tiles, h.cur, (Nat.le_succ _).trans h.nextId, h.cycle, fun m hm hs => h.gone m (Nat.ne_of_lt hm) hs⟩
theorem State.offTile_send (s : State) (src dst : Agent) (tn asid : Nat) (b : Body) : s.OffTile (s.send src dst tn asid b) := s.offTile_post _
theorem State.offTile_releaseFar (s : State) : s.OffTile s.releaseFar := by
  refine State.SendsOnly.offTile (ids := fun m => s.msg m ≠ none) ?_ fun m _ hm h => h hm
  refine List.foldlRecOn (motive := s.SendsOnly fun m => s.msg m ≠ none) _ _
    ⟨rfl, rfl, Nat.le_refl _, fun _ => rfl, fun m _ hm => ?_⟩ fun u hu a ha => hu.trans (u.sendsOnly_sendFar a fun h => ?_)
  · rw [State.msg_eq_none] at hm ⊢
    exact fun a ha => hm a (List.mem_filter.mp ha).1
  · exact (s.msg_eq_none a.id).mp h a (List.mem_filter.mp ha).1 rfl
/-- A change of the messages on the networks that keeps their numbers. -/
theorem State.offTile_mapNet (s : State) (f : Msg → Msg) (hf : ∀ a, (f a).id = a.id) : s.OffTile { s with net := s.net.map f } :=
  ⟨rfl, rfl, Nat.le_refl _, fun _ => rfl, fun m _ h => by
    rw [State.msg_eq_none] at h ⊢
    intro a ha
    obtain ⟨b, hb, rfl⟩ := List.mem_map.mp ha
    rw [hf]
    exact h b hb⟩
theorem State.msg_dropMsg (s : State) (m : Nat) : (s.dropMsg m).msg m = none := by
  rw [State.msg_eq_none]
  exact fun a ha => by simpa using (List.mem_filter.mp ha).2
theorem State.offTile_dropMsg (s : State) (m : Nat) : s.OffTile (s.dropMsg m) :=
  ⟨rfl, rfl, Nat.le_refl _, fun _ => rfl, fun k _ h => by
    rw [State.msg_eq_none] at h ⊢
    exact fun a ha => h a (List.mem_filter.mp ha).1⟩
theorem State.offTile_noteBack (s : State) (a : Msg) : s.OffTile (s.noteBack a) := by
  unfold State.noteBack
  split
  · exact s.offTile_send _ _ _ _ _
  · exact .refl s

end Sys2Proof.Machine
end

section
/-! A thread found by its context number, wake-ups, and the arrivals that a tile sends (11_sync.md R344; 12_tasks.md R375; 13_system.md R404). -/
namespace Sys2Proof.Machine

/-! Slots under changes of threads. -/
theorem Tile.slot_mapSlots (l : Tile) (f : Slot → Slot) {q : Nat} (hq : q < 8) : Tile.slot { l with slots := l.slots.map f } q = f (l.slot q) := by
  simp [Tile.slot, hq]
theorem Tile.slot_modCid (l : Tile) (cid : Nat) (f : Thread → Thread) {q : Nat} {th : Thread} (h : (l.slot q).thr = some th) (hc : th.cid = cid)
    (hq : q < 8) : (l.modCid cid f).slot q = { l.slot q with thr := some (f th) } := by
  refine (Tile.slot_mapSlots l _ hq).trans ?_
  rw [h]
  exact if_pos hc
@[simp] theorem Tile.slot_ageSpills (l : Tile) (q : Nat) : l.ageSpills.slot q = l.slot q := by
  obtain ⟨v, hv⟩ := l.ageSpills_eq
  rw [hv]
  rfl
@[simp] theorem Tile.slots_ageSpills (l : Tile) : l.ageSpills.slots = l.slots := by
  obtain ⟨v, hv⟩ := l.ageSpills_eq
  rw [hv]
@[simp] theorem Tile.ops_ageSpills (l : Tile) : l.ageSpills.ops = l.ops := by
  obtain ⟨v, hv⟩ := l.ageSpills_eq
  rw [hv]
@[simp] theorem Tile.bar_ageSpills (l : Tile) (e : Nat) : l.ageSpills.bar e = l.bar e := by
  obtain ⟨v, hv⟩ := l.ageSpills_eq
  rw [hv]
  rfl
theorem Tile.slotOf_some {l : Tile} {cid q : Nat} (h : l.slotOf cid = some q) : q < 8 ∧ ∃ th, (l.slot q).thr = some th ∧ th.cid = cid := by
  have hp := List.find?_some h
  refine ⟨List.mem_range.mp (List.mem_of_find?_eq_some h), ?_⟩
  cases ht : (l.slot q).thr with
  | none => rw [ht] at hp; cases hp
  | some th => rw [ht] at hp; exact ⟨th, rfl, by simpa using hp⟩
theorem Tile.slot_of_ge (l : Tile) {q : Nat} (h : ¬ q < 8) : l.slot q = {} := by simp [Tile.slot, h]
/-- The slot of a context depends on the slots' context numbers alone. -/
theorem Tile.slotOf_congr {l l' : Tile} (h : ∀ q, q < 8 → (l'.slot q).thr.map Thread.cid = (l.slot q).thr.map Thread.cid) (c : Nat) :
    l'.slotOf c = l.slotOf c := by
  refine congrArg (fun p => (List.range 8).find? p) (funext fun q => ?_)
  have hq : (l'.slot q).thr.map Thread.cid = (l.slot q).thr.map Thread.cid := by
    by_cases hq : q < 8
    · exact h q hq
    · rw [l.slot_of_ge hq, l'.slot_of_ge hq]
  cases ht : (l.slot q).thr with
  | none =>
    rw [ht, Option.map_none, Option.map_eq_none_iff] at hq
    rw [hq]
  | some th =>
    rw [ht, Option.map_some, Option.map_eq_some_iff] at hq
    obtain ⟨th', ht', hc⟩ := hq
    simp only [ht', hc]
theorem Tile.slotOf_modCid (l : Tile) (cid : Nat) {f : Thread → Thread} (hf : ∀ t, (f t).cid = t.cid) (c : Nat) :
    (l.modCid cid f).slotOf c = l.slotOf c := by
  refine Tile.slotOf_congr (fun q hq => ?_) c
  rw [show (l.modCid cid f).slot q = _ from Tile.slot_mapSlots l _ hq]
  cases ht : (l.slot q).thr with
  | none => rw [ht]
  | some th =>
    dsimp only
    split
    · exact congrArg some (hf th)
    · rw [ht]

/-! A resident thread. -/
/-- Thread `th` is in slot `q` of tile `x`, and it is the resident thread with its context number. -/
structure State.Resident (s : State) (x q : Nat) (th : Thread) : Prop where
  thr : s.thr x q = some th
  slotOf : (s.tile x).slotOf th.cid = some q
section
variable {s u : State} {x q : Nat} {th : Thread}
theorem State.Resident.lt (h : s.Resident x q th) : q < 8 := State.slot_lt h.thr
theorem State.Resident.thread (h : s.Resident x q th) : (s.tile x).thread th.cid = some th := by
  unfold Tile.thread
  rw [h.slotOf]
  exact h.thr
theorem State.Resident.congr (h : s.Resident x q th) (ht : (u.tile x).slots = (s.tile x).slots) : u.Resident x q th where
  thr := (congrArg (fun v : Vector Slot 8 => (v[q]?.getD {}).thr) ht).trans h.thr
  slotOf := (Tile.slotOf_congr (fun r _ => congrArg (fun v : Vector Slot 8 => (v[r]?.getD {}).thr.map Thread.cid) ht) _).trans h.slotOf
theorem State.Resident.modTile (h : s.Resident x q th) {f : Tile → Tile} (hf : (f (s.tile x)).slots = (s.tile x).slots) :
    (s.modTile x f).Resident x q th := h.congr (by rw [State.tile_modTile, hf])
theorem State.Resident.offTile (h : s.Resident x q th) (hu : s.OffTile u) : u.Resident x q th := h.congr (congrArg Tile.slots (hu.tile x))
theorem State.Resident.slot_modCid (h : s.Resident x q th) (f : Thread → Thread) :
    ((s.tile x).modCid th.cid f).slot q = { s.slot x q with thr := some (f th) } := Tile.slot_modCid _ _ _ h.thr rfl h.lt
theorem State.Resident.modCid (h : s.Resident x q th) {f : Thread → Thread} (hf : ∀ t, (f t).cid = t.cid) :
    (s.modCid x th.cid f).Resident x q (f th) where
  thr := by
    rw [State.thr, State.slot, State.tile_modCid, h.slot_modCid]
  slotOf := by
    rw [State.tile_modCid, hf, Tile.slotOf_modCid _ _ hf]
    exact h.slotOf
theorem State.Resident.thr_modCid (h : s.Resident x q th) (f : Thread → Thread) : (s.modCid x th.cid f).thr x q = some (f th) := by
  rw [State.thr, State.slot, State.tile_modCid, h.slot_modCid]
theorem State.Resident.thr_modThr (h : s.Resident x q th) (f : Thread → Thread) : (s.modThr x q f).thr x q = some (f th) := by
  rw [State.thr_modThr, h.thr, Option.map_some]
theorem State.Resident.modThr (h : s.Resident x q th) {f : Thread → Thread} (hf : (f th).cid = th.cid) : (s.modThr x q f).Resident x q (f th) where
  thr := h.thr_modThr f
  slotOf := by
    rw [hf, State.modThr_some h.thr, State.setSlot, State.tile_modTile]
    refine (Tile.slotOf_congr (fun r hr => ?_) _).trans h.slotOf
    by_cases hrq : r = q
    · subst hrq
      rw [Tile.slot_setSlot _ hr, show ((s.tile x).slot r).thr = some th from h.thr]
      exact congrArg some hf
    · rw [Tile.slot_setSlot_other _ _ hrq]
theorem State.Resident.thr_wakeCid (h : s.Resident x q th) : (s.wakeCid x th.cid).thr x q = some th.wakeUp := by
  rw [State.thr, State.slot, State.wakeCid, State.tile_modTile, Tile.slot_ageSpills, h.slot_modCid]
end
/-- A thread that is not Suspended, woken, is as before but for what it waited on. -/
theorem Thread.wakeUp_eq {t : Thread} (h : t.susp = false) (hb : t.spillBan = false) : t.wakeUp = { t with wait := .none } := by
  unfold Thread.wakeUp
  show _ = ({ t with wait := .none, evt := t.evt, spillBan := t.spillBan } : Thread)
  rw [h, hb, Bool.or_false, Bool.false_and]

/-! Barrier entries, and arrivals. -/
theorem Tile.bar_setBar (l : Tile) {e : Nat} (v : BarEntry) (h : e < 16) : (l.setBar e v).bar e = v := by
  simp [Tile.bar, Tile.setBar, h]
theorem Tile.bar_setBar_other (l : Tile) {e f : Nat} (v : BarEntry) (h : f ≠ e) : (l.setBar e v).bar f = l.bar f := by
  simp [Tile.bar, Tile.setBar, Ne.symm h]
/-- State `u` is `s` on tile `x` but for the arrivals that have been sent; no message that has left the networks returns. -/
structure State.Arrived (x : Nat) (s u : State) : Prop where
  rest : { u.tile x with bars := (s.tile x).bars } = s.tile x
  bar : ∀ e, (u.tile x).bar e = { (s.tile x).bar e with sent := ((u.tile x).bar e).sent }
  cur : u.cur = s.cur
  nextId : s.nextId ≤ u.nextId
  gone : ∀ m, m < s.nextId → s.msg m = none → u.msg m = none
theorem State.OffTile.arrived {s u : State} (h : s.OffTile u) (x : Nat) : s.Arrived x u where
  rest := by rw [h.tile x]
  bar e := by rw [h.tile x]
  cur := h.cur
  nextId := h.nextId
  gone := h.gone
theorem State.Arrived.refl (x : Nat) (s : State) : s.Arrived x s := (State.OffTile.refl s).arrived x
theorem State.Arrived.trans {x : Nat} {s u v : State} (h : s.Arrived x u) (h' : u.Arrived x v) : s.Arrived x v where
  rest := (congrArg (fun l : Tile => { l with bars := (s.tile x).bars }) h'.rest).trans h.rest
  bar e := by rw [h'.bar e, h.bar e]
  cur := h'.cur.trans h.cur
  nextId := h.nextId.trans h'.nextId
  gone m hm hs := h'.gone m (Nat.lt_of_lt_of_le hm h.nextId) (h.gone m hm hs)
theorem State.Arrived.slots {x : Nat} {s u : State} (h : s.Arrived x u) : (u.tile x).slots = (s.tile x).slots := (congrArg Tile.slots h.rest :)
theorem State.Arrived.slot {x : Nat} {s u : State} (h : s.Arrived x u) (q : Nat) : u.slot x q = s.slot x q := (congrArg (Tile.slot · q) h.rest :)
theorem State.Arrived.thr {x : Nat} {s u : State} (h : s.Arrived x u) (q : Nat) : u.thr x q = s.thr x q := congrArg Slot.thr (h.slot q)
theorem State.Arrived.sp {x : Nat} {s u : State} (h : s.Arrived x u) : (u.tile x).sp = (s.tile x).sp := (congrArg Tile.sp h.rest :)
theorem State.Arrived.reg {x : Nat} {s u : State} (h : s.Arrived x u) (e : Nat) : ((u.tile x).bar e).reg = ((s.tile x).bar e).reg :=
  (congrArg BarEntry.reg (h.bar e) :)
theorem State.Arrived.arr {x : Nat} {s u : State} (h : s.Arrived x u) (e : Nat) : ((u.tile x).bar e).arr = ((s.tile x).bar e).arr :=
  (congrArg BarEntry.arr (h.bar e) :)
theorem State.Arrived.phase {x : Nat} {s u : State} (h : s.Arrived x u) (e : Nat) : ((u.tile x).bar e).phase = ((s.tile x).bar e).phase :=
  (congrArg BarEntry.phase (h.bar e) :)
/-- The mark that an arrival has been sent. -/
theorem State.arrived_markSent (s : State) (x : Nat) {e : Nat} (he : e < 16) :
    s.Arrived x (s.modTile x fun t => t.setBar e { (s.tile x).bar e with sent := true }) where
  rest := by rw [State.tile_modTile]; rfl
  bar f := by
    rw [State.tile_modTile]
    by_cases hf : f = e
    · subst hf
      rw [Tile.bar_setBar _ _ he]
    · rw [Tile.bar_setBar_other _ _ hf]
  cur := rfl
  nextId := Nat.le_refl _
  gone _ _ h := h
theorem State.arrived_arrivals (s : State) (x : Nat) : s.Arrived x (s.arrivals x) := by
  refine List.foldlRecOn _ _ (State.Arrived.refl x s) fun u hu e he => hu.trans ?_
  dsimp only
  split
  · have h := u.arrived_markSent x (List.mem_range.mp he)
    split
    · exact h.trans ((State.offTile_send _ _ _ _ _ _).arrived x)
    · exact h
  · exact .refl x u

end Sys2Proof.Machine
end

section
/-! Events of one thread: a pending cause is taken, the watchdog, the timer, a sleep that ends (13_system.md R402; 12_tasks.md R365, R392). -/
namespace Sys2Proof.Machine

theorem State.event_next {s : State} (h : s.stopped = false) (f : State → State) : s.event f = .next (f s) := by
  unfold State.event
  rw [if_neg (by simpa [State.stopped] using h)]

section
variable {s : State} {x q : Nat} {th : Thread}

/-! Pending causes (R402). -/
/-- A trap taken on a slot's own behalf, counted as an issue, after a change of its thread. -/
theorem State.Resident.thr_trapWithin (h : s.Resident x q th) {f : Thread → Thread} (hs : (f th).speculative = false) (ht : (f th).tact = false)
    (tr : Trap) :
    (s.within x q fun s => (s.countWdog.modCur f).takeTrap tr).thr x q = some ((f th).trapEntry (s.tile x).tvec tr) := by
  let v : State := { s with cur := (x, q) }
  have hthr : v.countWdog.thr x q = some th := (State.thr_setSlot _ h.lt).trans h.thr
  have hvec : v.countWdog.ctile.tvec = (s.tile x).tvec := (congrArg Tile.tvec (v.tile_modTile x fun t => t.setSlot q _) :)
  show ((v.countWdog.modCur f).takeTrap tr).thr x q = _
  rw [State.takeTrap_modCur hthr hs ht, hvec]
  exact (State.thr_modCur v.countWdog _).trans (congrArg (Option.map _) hthr)
theorem State.within_congr {f g : State → State} (h : f { s with cur := (x, q) } = g { s with cur := (x, q) }) : s.within x q f = s.within x q g := by
  unfold State.within
  rw [h]
/-- The cause of lower number is taken first: WATCHDOG. -/
theorem State.Resident.within_takePending_wdog (h : s.Resident x q th) (ht : th.tact = false) (hs : th.spec = none) {v : W64} (hv : th.pwdg = some v) :
    s.within x q State.takePending = s.within x q fun s => (s.countWdog.modCur fun t => { t with pwdg := none }).takeTrap ⟨1, cWATCHDOG, v⟩ := by
  refine State.within_congr ?_
  have hc : State.cthr { s with cur := (x, q) } = th := congrArg (fun t : Option Thread => t.getD {}) h.thr
  unfold State.takePending
  dsimp only
  rw [hc, ht, Thread.not_speculative hs, hv]
  rfl
theorem State.Resident.within_takePending_timer (h : s.Resident x q th) (ht : th.tact = false) (hs : th.spec = none) (hw : th.pwdg = none) {v : W64}
    (hv : th.ptim = some v) :
    s.within x q State.takePending = s.within x q fun s => (s.countWdog.modCur fun t => { t with ptim := none }).takeTrap ⟨1, cTIMER, v⟩ := by
  refine State.within_congr ?_
  have hc : State.cthr { s with cur := (x, q) } = th := congrArg (fun t : Option Thread => t.getD {}) h.thr
  unfold State.takePending
  dsimp only
  rw [hc, ht, Thread.not_speculative hs, hw, hv]
  rfl
theorem State.Resident.pendingTaken_eq (h : s.Resident x q th) (hr : th.running = true) (hp : th.pwdg.isSome ∨ th.ptim.isSome) :
    s.pendingTaken x q = s.within x q State.takePending := by
  unfold State.pendingTaken
  rw [h.thr]
  exact if_pos ⟨hr, hp⟩

theorem State.Resident.thr_pendingTaken_wdog (h : s.Resident x q th) (hr : th.running = true) (ht : th.tact = false) (hs : th.spec = none) {v : W64}
    (hv : th.pwdg = some v) : (s.pendingTaken x q).thr x q = some ({ th with pwdg := none }.trapEntry (s.tile x).tvec ⟨1, cWATCHDOG, v⟩) := by
  rw [h.pendingTaken_eq hr (.inl (by rw [hv]; rfl)), h.within_takePending_wdog ht hs hv]
  exact h.thr_trapWithin (Thread.not_speculative hs) ht _
theorem State.Resident.thr_pendingTaken_timer (h : s.Resident x q th) (hr : th.running = true) (ht : th.tact = false) (hs : th.spec = none)
    (hw : th.pwdg = none) {v : W64} (hv : th.ptim = some v) :
    (s.pendingTaken x q).thr x q = some ({ th with ptim := none }.trapEntry (s.tile x).tvec ⟨1, cTIMER, v⟩) := by
  rw [h.pendingTaken_eq hr (.inr (by rw [hv]; rfl)), h.within_takePending_timer ht hs hw hv]
  exact h.thr_trapWithin (Thread.not_speculative hs) ht _

/-! The watchdog and the timer (R392, R402). -/
theorem State.Resident.slot_watchdog (h : s.Resident x q th) (hl : (s.slot x q).wdogLimit ≠ 0) (hc : (s.slot x q).wdogLimit ≤ (s.slot x q).wdogCount) :
    (s.watchdog x q).slot x q =
      { s.slot x q with wdogCount := 0, thr := some { th with pwdg := some ((s.slot x q).wdogLimit.zeroExtend 64) } } := by
  have ht : (s.slot x q).thr = some th := h.thr
  have hthr : ∀ v : Slot, v.thr = some th → (s.setSlot x q v).thr x q = some th := fun v hv => (State.thr_setSlot v h.lt).trans hv
  unfold State.watchdog
  dsimp only
  rw [if_pos ⟨hl, BitVec.le_def.mp hc, by rw [ht]; rfl⟩, State.modThr_some (hthr { s.slot x q with wdogCount := 0 } ht), State.slot_setSlot _ h.lt,
    State.slot_setSlot _ h.lt]
/-- A thread that does not sleep keeps no more of a wake-up than its wake bit. -/
theorem State.Resident.wakeBit_eq (h : s.Resident x q th) (hw : ∀ op due, th.wait ≠ .sleep op due) :
    s.wakeBit x th.cid = s.modCid x th.cid fun t => { t with wake := true } := by
  have hr := h.modCid (f := fun t => { t with wake := true }) fun _ => rfl
  unfold State.wakeBit State.endSleep
  rw [show ((s.modCid x th.cid fun t => { t with wake := true }).tile x).thread th.cid = _ from hr.thread]
  dsimp only
  split
  · next e => exact absurd e (hw _ _)
  · rfl
theorem State.Resident.timerFire_eq (h : s.Resident x q th) (hq : (s.tile x).timSlot.toNat = q) (hz : (s.tile x).timecmp ≠ 0)
    (hd : (s.tile x).timecmp.toNat ≤ s.cycleOf x) (hw : ∀ op due, th.wait ≠ .sleep op due) :
    s.timerFire x = ((s.setTile x { s.tile x with timecmp := 0 }).modThr x q fun th => { th with ptim := some (s.tile x).timecmp }).modCid x th.cid
      fun t => { t with wake := true } := by
  have hr : (s.setTile x { s.tile x with timecmp := 0 }).Resident x q th := h.modTile (f := fun t => { t with timecmp := 0 }) rfl
  have hr' := hr.modThr (f := fun th => { th with ptim := some (s.tile x).timecmp }) rfl
  unfold State.timerFire
  dsimp only
  rw [if_neg (not_or.mpr ⟨hz, Nat.not_lt.mpr hd⟩), hq, hr.thr]
  exact hr'.wakeBit_eq hw
theorem State.Resident.timerFire (h : s.Resident x q th) (hq : (s.tile x).timSlot.toNat = q) (hz : (s.tile x).timecmp ≠ 0)
    (hd : (s.tile x).timecmp.toNat ≤ s.cycleOf x) (hw : ∀ op due, th.wait ≠ .sleep op due) :
    ((s.timerFire x).tile x).timecmp = 0 ∧ (s.timerFire x).thr x q = some { th with ptim := some (s.tile x).timecmp, wake := true } := by
  have hr : (s.setTile x { s.tile x with timecmp := 0 }).Resident x q th := h.modTile (f := fun t => { t with timecmp := 0 }) rfl
  rw [h.timerFire_eq hq hz hd hw]
  refine ⟨?_, (hr.modThr (f := fun th => { th with ptim := some (s.tile x).timecmp }) rfl).thr_modCid _⟩
  rw [State.tile_modCid, State.modThr_some hr.thr, State.setSlot, State.tile_modTile, State.tile_setTile]
  rfl

/-! Sleep (R365). -/
theorem Tile.modCid_id (l : Tile) (cid : Nat) : (l.modCid cid fun t => t).slots = l.slots := by
  refine Vector.ext fun i hi => ?_
  rw [show (l.modCid cid fun t => t).slots[i] = _ from Vector.getElem_map ..]
  cases ht : l.slots[i].thr with
  | none => rfl
  | some th =>
    dsimp only
    split
    · rw [← ht]
    · rfl
theorem find?_filter_ne {α : Type} (l : List α) (f : α → Nat) (n : Nat) : (l.filter fun a => f a != n).find? (fun a => f a == n) = none := by
  rw [List.find?_eq_none]
  exact fun a ha => by simpa using (List.mem_filter.mp ha).2
/-- A result changes registers, pending bits and outstanding operations alone. -/
theorem Thread.land_eq (t : Thread) (op : Nat) (rd : Reg) (v : W64) : ∃ g p o, t.land op rd v = { t with g := g, pend := p, outs := o } := by
  unfold Thread.land Thread.wr
  split
  · split
    · exact ⟨_, _, _, rfl⟩
    · exact ⟨_, _, _, rfl⟩
  · exact ⟨_, _, _, rfl⟩
theorem Thread.land_cid (t : Thread) (op : Nat) (rd : Reg) (v : W64) : (t.land op rd v).cid = t.cid := by
  obtain ⟨_, _, _, e⟩ := t.land_eq op rd v
  rw [e]
theorem Thread.land_wait (t : Thread) (op : Nat) (rd : Reg) (v : W64) : (t.land op rd v).wait = t.wait := by
  obtain ⟨_, _, _, e⟩ := t.land_eq op rd v
  rw [e]
theorem Thread.wakeUp_land {t : Thread} (hs : t.susp = false) (hb : t.spillBan = false) (op : Nat) (rd : Reg) (v : W64) :
    (t.land op rd v).wakeUp = { t.land op rd v with wait := .none } := by
  obtain ⟨_, _, _, e⟩ := t.land_eq op rd v
  exact Thread.wakeUp_eq (by rw [e]; exact hs) (by rw [e]; exact hb)
/-- What a thread makes of the result of a long-latency operation: it goes on waiting unless it waits for that tuple operation. -/
def Thread.landed (op : Nat) (rd : Reg) (v : W64) (t : Thread) : Thread :=
  if (t.land op rd v).wait = .tuple op then (t.land op rd v).wakeUp else t.land op rd v
theorem Thread.landed_cid (op : Nat) (rd : Reg) (v : W64) (t : Thread) : (t.landed op rd v).cid = t.cid := by
  unfold Thread.landed
  split
  · exact t.land_cid op rd v
  · exact t.land_cid op rd v
theorem Thread.landed_of_ne {t : Thread} (op : Nat) (rd : Reg) (v : W64) (h : t.wait ≠ .tuple op) : t.landed op rd v = t.land op rd v :=
  if_neg (by rw [Thread.land_wait]; exact h)
theorem State.tile_land (s : State) (x cid op : Nat) (rd : Reg) (v : W64) :
    (s.land x cid op rd v).tile x = ((s.tile x).modCid cid (Thread.landed op rd v)).ageSpills :=
  ((s.offNet_imaged x _).offTile.tile x).trans (State.tile_modTile ..)
theorem State.Resident.land (h : s.Resident x q th) (op : Nat) (rd : Reg) (v : W64) (hw : th.wait ≠ .tuple op) :
    (s.land x th.cid op rd v).Resident x q (th.land op rd v) := by
  rw [← Thread.landed_of_ne op rd v hw]
  refine (h.modCid (Thread.landed_cid op rd v)).congr ?_
  rw [State.tile_land, Tile.slots_ageSpills, State.tile_modCid]
theorem State.endOp_eq {o : TOp} (hg : o.gdDone = false) (v : W64) :
    s.endOp x o v = (s.modTile x fun t => { t with ops := t.ops.filter fun p => p.id != o.id }).land x o.cid o.id o.rd v := by
  unfold State.endOp
  rw [hg]
  rfl
theorem State.Resident.endOp (h : s.Resident x q th) {o : TOp} (hc : o.cid = th.cid) (hg : o.gdDone = false) (v : W64) (hw : th.wait ≠ .tuple o.id) :
    (s.endOp x o v).Resident x q (th.land o.id o.rd v) := by
  rw [State.endOp_eq hg, hc]
  exact (h.modTile rfl).land o.id o.rd v hw
theorem State.op_endOp {o : TOp} (hg : o.gdDone = false) (v : W64) : ((s.endOp x o v).tile x).op o.id = none := by
  unfold Tile.op
  rw [State.endOp_eq hg, State.tile_land, Tile.ops_ageSpills, State.tile_modTile]
  exact find?_filter_ne _ TOp.id o.id
theorem State.op_wakeCid (s : State) (x cid n : Nat) : ((s.wakeCid x cid).tile x).op n = (s.tile x).op n := by
  unfold Tile.op
  rw [State.wakeCid, State.tile_modTile, Tile.ops_ageSpills]
  rfl
/-- A change of a thread's fields, with its image if it is spilled. -/
theorem State.tile_imaged_modCid (s : State) (x cid : Nat) (f : Thread → Thread) :
    (s.imaged x fun s => s.modCid x cid f).tile x = (s.tile x).modCid cid f := ((s.offNet_imaged x _).offTile.tile x).trans (State.tile_modCid ..)
theorem State.Resident.imaged (h : s.Resident x q th) {f : Thread → Thread} (hf : ∀ t, (f t).cid = t.cid) :
    (s.imaged x fun s => s.modCid x th.cid f).Resident x q (f th) := (h.modCid hf).offTile (s.offNet_imaged x fun s => s.modCid x th.cid f).offTile
/-- What the end of a sleep with result `v` makes of the thread's wake bit (R365). -/
def Thread.sleepEnds (v : W64) (t : Thread) : Thread := if v = 1 then { t with wake := false } else t
/-- A sleeping thread whose time has come lands zero in its register and returns. -/
theorem State.Resident.endSleep_zero (h : s.Resident x q th) {op : Nat} {due : Option Nat} (hw : th.wait = .sleep op due) {o : TOp}
    (ho : (s.tile x).ops.find? (fun o => o.id == op) = some o) (hc : o.cid = th.cid) (hg : o.gdDone = false) :
    (s.endSleep x th.cid 0).thr x q = some (th.land o.id o.rd 0).wakeUp ∧ ((s.endSleep x th.cid 0).tile x).op o.id = none := by
  have hr : (s.imaged x fun s => s.modCid x th.cid (Thread.sleepEnds 0)).Resident x q th := h.imaged fun _ => rfl
  have he : s.endSleep x th.cid 0 = (State.endOp (s.imaged x fun s => s.modCid x th.cid (Thread.sleepEnds 0)) x o 0).wakeCid x th.cid := by
    unfold State.endSleep
    rw [h.thread]
    dsimp only
    rw [hw]
    show (match ((s.imaged x fun s => s.modCid x th.cid (Thread.sleepEnds 0)).tile x).ops.find? (fun o => o.id == op) with
      | some o => (State.endOp (s.imaged x fun s => s.modCid x th.cid (Thread.sleepEnds 0)) x o 0).wakeCid x th.cid
      | none => (s.imaged x fun s => s.modCid x th.cid (Thread.sleepEnds 0)).wakeCid x th.cid) = _
    rw [State.tile_imaged_modCid, show ((s.tile x).modCid th.cid _).ops.find? (fun o => o.id == op) = some o from ho]
  have hr := hr.endOp hc hg 0 (by rw [hw]; exact fun e => by cases e)
  rw [he]
  exact ⟨Thread.land_cid th o.id o.rd 0 ▸ hr.thr_wakeCid, (State.op_wakeCid ..).trans (State.op_endOp hg 0)⟩
theorem State.Resident.sleepExpire_eq (h : s.Resident x q th) {op due : Nat} (hw : th.wait = .sleep op (some due)) (hd : due ≤ s.cycleOf x) :
    s.sleepExpire x th.cid = s.endSleep x th.cid 0 := by
  unfold State.sleepExpire
  rw [h.thread]
  dsimp only
  rw [hw]
  exact if_pos hd
end

end Sys2Proof.Machine
end

section
/-! Events of one thread: an arrival, the ends of `TFENCE`, `FENCE`, `NOTIFY` and `EXIT`, the images of a refill and of a spill (11_sync.md R345,
R363; 09_tuple_instr.md R304; 12_tasks.md R384; 13_system.md R403 to R405, R425). -/
namespace Sys2Proof.Machine

section
variable {s : State} {x q : Nat} {th : Thread}

/-! Arrival at an entry without a window (R345). -/
/-- A tile after the arrival of the context in slot `q` on entry `e`. -/
def Tile.arrivedOn (l : Tile) (q cid e : Nat) : Tile :=
  (l.modCid cid fun t => { t with touched := 0, wait := .release e }).setBar e { l.bar e with arr := (l.bar e).arr ||| bit8 q }
theorem State.Resident.tryArrive_eq (h : s.Resident x q th) {e : Nat} (hw : th.wait = .arrive e false) (ho : th.outs = []) (hf : s.fenced x th.cid = true) :
    ∃ u : State, u.tile x = (s.tile x).arrivedOn q th.cid e ∧ s.tryArrive x th.cid = u.arrivals x := by
  unfold State.tryArrive
  dsimp only
  rw [h.thread]
  dsimp only
  rw [hw]
  dsimp only
  rw [ho, hf, if_pos (by rfl)]
  simp only [Bool.false_and, Bool.false_eq_true, if_false]
  refine ⟨_, ?_, rfl⟩
  refine ((s.offNet_imaged x _).offTile.tile x).trans ?_
  refine (State.tile_modTile ..).trans ?_
  rw [Tile.slotOf_modCid (f := fun t => { t with touched := 0, wait := .release e }) _ _ (fun _ => rfl), h.slotOf]
  rfl
theorem getLsbD_bit8 {q : Nat} (h : q < 8) : (bit8 q).getLsbD q = true := by
  simp [bit8, h]
theorem State.Resident.tryArrive (h : s.Resident x q th) {e : Nat} (he : e < 16) (hw : th.wait = .arrive e false) (ho : th.outs = [])
    (hf : s.fenced x th.cid = true) : (((s.tryArrive x th.cid).tile x).bar e).arr.getLsbD q = true ∧
      (s.tryArrive x th.cid).thr x q = some { th with touched := 0, wait := .release e } := by
  obtain ⟨u, hu, hs⟩ := h.tryArrive_eq hw ho hf
  have ha := u.arrived_arrivals x
  rw [hs]
  constructor
  · rw [ha.arr, hu, Tile.arrivedOn, Tile.bar_setBar _ _ he, BitVec.getLsbD_or, getLsbD_bit8 h.lt, Bool.or_true]
  · rw [ha.thr, State.thr, State.slot, hu]
    exact congrArg Slot.thr (h.slot_modCid fun t => { t with touched := 0, wait := .release e })

/-! The ends of waits (R304, R363, R425). -/
theorem State.Resident.tryTfence (h : s.Resident x q th) (hw : th.wait = .tfence) (hf : s.fenced x th.cid = true) :
    (s.tryTfence x th.cid).thr x q = some { th with touched := 0 }.wakeUp := by
  unfold State.tryTfence
  dsimp only
  rw [h.thread]
  dsimp only
  rw [if_pos ⟨hw, hf⟩]
  exact (h.imaged (f := fun t => { t with touched := 0 }) fun _ => rfl).thr_wakeCid
theorem State.Resident.tryFence (h : s.Resident x q th) {ids : List Nat} (hw : th.wait = .fence ids) (hi : ids.any (s.tile x).live = false) :
    (s.tryFence x th.cid).thr x q = some th.wakeUp := by
  unfold State.tryFence
  dsimp only
  rw [h.thread]
  dsimp only
  rw [hw]
  dsimp only
  rw [hi]
  exact h.thr_wakeCid
theorem State.Resident.tryNotify_eq (h : s.Resident x q th) {v : Nat} (hw : th.wait = .notify v) (hf : s.fenced x th.cid = true) :
    s.tryNotify x th.cid = (s.raiseVector (s.tenantOf x) v).wakeCid x th.cid := by
  unfold State.tryNotify
  dsimp only
  rw [h.thread]
  dsimp only
  rw [hw]
  exact if_pos hf
theorem State.Resident.tryNotify (h : s.Resident x q th) {v : Nat} (hw : th.wait = .notify v) (hf : s.fenced x th.cid = true) :
    (s.tryNotify x th.cid).thr x q = some th.wakeUp ∧ (s.tryNotify x th.cid).ports = (s.raiseVector (s.tenantOf x) v).ports := by
  rw [h.tryNotify_eq hw hf]
  exact ⟨(h.offTile (s.offNet_raiseVector _ _).offTile).thr_wakeCid, rfl⟩

/-! `EXIT` (R343, R384). -/
theorem Tile.reg_unregister (l : Tile) {q e : Nat} (cid : Nat) (he : e < 16) (hq : q < 8) : ((l.unregister q cid).bar e).reg.getLsbD q = false := by
  have hm : (1#8 <<< q).getLsbD q = true := by simp [hq]
  simp [Tile.unregister, Tile.bar, he, hm]
/-- A slot and the window of its thread are free again. -/
theorem Tile.release_eq {l : Tile} (h : (l.slot q).thr = some th) : l.release q = if th.compute then
      (l.setSlot q { l.slot q with thr := none }).setWin th.win { l.win th.win with owner := none, ckpt := none }
    else l.setSlot q { l.slot q with thr := none } := by
  unfold Tile.release
  rw [h]
  rfl
theorem Tile.thr_release {l : Tile} (h : (l.slot q).thr = some th) (hq : q < 8) : ((l.release q).slot q).thr = none := by
  have hs := Tile.slot_setSlot (t := l) { l.slot q with thr := none } hq
  rw [Tile.release_eq h]
  split
  · exact congrArg Slot.thr hs
  · exact congrArg Slot.thr hs
theorem Tile.bar_release (l : Tile) (q e : Nat) : (l.release q).bar e = l.bar e := by
  unfold Tile.release
  split
  · rfl
  · dsimp only
    split <;> rfl
theorem Tile.owner_release {l : Tile} (h : (l.slot q).thr = some th) (hc : th.compute = true) (hw : th.win < 4) :
    ((l.release q).win th.win).owner = none := by
  rw [Tile.release_eq h, if_pos hc, Tile.win_setWin _ hw]
theorem State.Resident.tryExit_eq (h : s.Resident x q th) (hw : th.wait = .exit) (hf : s.fenced x th.cid = true) (hs : th.susp = false)
    (hsucc : th.succ = []) : s.tryExit x th.cid = ((s.modTile x fun t => t.unregister q th.cid).arrivals x).modTile x fun t => t.release q := by
  have ht : ((s.tile x).slot q).thr = some th := h.thr
  unfold State.tryExit
  dsimp only
  rw [h.slotOf]
  dsimp only
  rw [ht]
  dsimp only
  rw [if_pos ⟨hw, by rw [hs]; rfl, hf⟩]
  unfold State.leave
  rw [h.thr]
  dsimp only
  rw [hsucc, List.foldl_nil]
theorem State.Resident.tryExit (h : s.Resident x q th) (hw : th.wait = .exit) (hf : s.fenced x th.cid = true) (hs : th.susp = false)
    (hsucc : th.succ = []) : (s.tryExit x th.cid).thr x q = none ∧
      (∀ e, e < 16 → (((s.tryExit x th.cid).tile x).bar e).reg.getLsbD q = false) ∧
      (th.compute = true → th.win < 4 → (((s.tryExit x th.cid).tile x).win th.win).owner = none) := by
  have hr : (s.modTile x fun t => t.unregister q th.cid).Resident x q th := h.modTile rfl
  have ha := (s.modTile x fun t => t.unregister q th.cid).arrived_arrivals x
  have ht : ((((s.modTile x fun t => t.unregister q th.cid).arrivals x).tile x).slot q).thr = some th := (ha.thr q).trans hr.thr
  rw [h.tryExit_eq hw hf hs hsucc, State.thr, State.slot, State.tile_modTile]
  refine ⟨Tile.thr_release ht h.lt, fun e he => ?_, fun hc hw => Tile.owner_release ht hc hw⟩
  rw [Tile.bar_release, ha.reg, State.tile_modTile]
  exact Tile.reg_unregister _ _ he h.lt

/-! Refill and spill (R403 to R405). -/
theorem State.Resident.refillArrived (h : s.Resident x q th) (hc : (s.tile x).refilling.contains th.cid = true) :
    (s.refillArrived x th.cid).thr x q = some { th with readyAt := s.cycleOf x + 8 } ∧
      ((s.refillArrived x th.cid).tile x).refilling = (s.tile x).refilling.filter (· != th.cid) := by
  have hr : (s.modTile x fun t => { t with refilling := t.refilling.filter (· != th.cid) }).Resident x q th := h.modTile rfl
  unfold State.refillArrived
  rw [if_pos hc]
  refine ⟨hr.thr_modCid _, ?_⟩
  rw [State.tile_modCid, State.tile_modTile]
  rfl
theorem State.spillStart_eq {r : Ready} (h : (s.tile x).spilling = none) (hl : (s.tile x).spills.length < 256) (hs : th.spec = none)
    (hr : (s.tile x).wantsRoom = some r) (hv : (s.tile x).victim r = some th) :
    s.spillStart x = s.setTile x { s.tile x with spilling := some th.cid } := by
  have hfull : ¬ (s.tile x).spills.length ≥ Config.spillPlaces := Nat.not_le.mpr hl
  unfold State.spillStart
  dsimp only
  rw [h, decide_eq_false hfull, if_neg (by decide), hr]
  dsimp only
  rw [hv]
  dsimp only
  rw [Thread.not_speculative hs]
  rfl
theorem Tile.foldl_setBar (g : Tile → Nat → BarEntry) (es : List Nat) (l : Tile) :
    ∃ B, es.foldl (fun t e => t.setBar e (g t e)) l = { l with bars := B } :=
  List.foldlRecOn (motive := fun t : Tile => ∃ B, t = { l with bars := B }) es _ ⟨l.bars, rfl⟩ fun _ ht _ _ => by
    obtain ⟨B, rfl⟩ := ht
    exact ⟨_, rfl⟩
/-- An entry once the context `cid` has been spilled from slot `q` (R343). -/
def BarEntry.spillOut (q cid : Nat) (v : BarEntry) : BarEntry :=
  { v with reg := v.reg &&& ~~~(bit8 q), arr := v.arr &&& ~~~(bit8 q), sreg := if v.reg.getLsbD q then v.sreg ++ [cid] else v.sreg,
           sarr := if v.arr.getLsbD q then v.sarr ++ [cid] else v.sarr }
/-- A control context that leaves its slot: the table records the thread and its place. -/
theorem Tile.spillOut_eq {l : Tile} (h : (l.slot q).thr = some th) (hc : th.compute = false) (hy : ∀ n, th.wait ≠ .yielded n) (place cplace : Nat) :
    ∃ B e, e.thr = th ∧ e.place = place ∧ l.spillOut q th place cplace =
      Tile.ageSpills { (l.setSlot q { l.slot q with thr := none }) with bars := B, spills := l.spills ++ [e], spilling := none } := by
  obtain ⟨B, hB⟩ := Tile.foldl_setBar (fun t e => (t.bar e).spillOut q th.cid) (List.range 16) l
  unfold BarEntry.spillOut at hB
  unfold Tile.spillOut
  dsimp only at hB ⊢
  rw [hB, Tile.release_eq (l := { l with bars := B }) h, hc]
  refine ⟨B, _, ?_, ?_, rfl⟩
  · dsimp only
    split
    · next w => exact absurd w (hy _)
    · rfl
  · rfl
theorem Tile.mem_ageSpills {l : Tile} {e : Spilled} (h : e ∈ l.spills) : ∃ e' ∈ l.ageSpills.spills, e'.thr = e.thr ∧ e'.place = e.place := by
  unfold Tile.ageSpills
  dsimp only
  split
  · refine ⟨_, List.mem_map_of_mem h, ?_⟩
    split
    · exact ⟨rfl, rfl⟩
    · exact ⟨rfl, rfl⟩
  · exact ⟨e, h, rfl, rfl⟩
/-- A control context's spill, once its image can be written and paid for (R404). -/
theorem State.Resident.spillDone_eq (h : s.Resident x q th) (hsp : (s.tile x).spilling = some th.cid) (hc : th.compute = false) (hs : th.spec = none)
    {ps : List (Nat × Nat)} {z : State}
    (hcov : s.covers (dieOf x) (s.imageCost x th (lowestFree ((s.tile x).spills.map Spilled.place)) (lowestFree (s.tile x).cplaces)) = true)
    (him : s.imagePieces x th (lowestFree ((s.tile x).spills.map Spilled.place)) (lowestFree (s.tile x).cplaces) pW = (.ok (ps, []), z)) :
    ∃ u, z.OffNet u ∧ s.spillDone x = (u.modTile x fun t =>
      t.spillOut q th (lowestFree ((s.tile x).spills.map Spilled.place)) (lowestFree (s.tile x).cplaces)).arrivals x := by
  have ht : ((s.tile x).slot q).thr = some th := h.thr
  have hend : th.ending = false := by unfold Thread.ending; rw [hs]
  unfold State.spillDone
  dsimp only
  rw [hsp]
  dsimp only
  rw [h.slotOf]
  dsimp only
  rw [ht]
  dsimp only
  rw [Thread.not_speculative hs, hend, hc, hcov, him]
  simp only [Bool.false_and, Bool.or_false, Bool.not_true, Bool.false_eq_true, if_false]
  refine ⟨_, ?_, rfl⟩
  exact (z.offNet_debit _ _).trans (State.offNet_writePhys _ _ _)
theorem State.Resident.spillDone (h : s.Resident x q th) (hsp : (s.tile x).spilling = some th.cid) (hc : th.compute = false) (hs : th.spec = none)
    (hy : ∀ n, th.wait ≠ .yielded n) {ps : List (Nat × Nat)} {z : State}
    (hcov : s.covers (dieOf x) (s.imageCost x th (lowestFree ((s.tile x).spills.map Spilled.place)) (lowestFree (s.tile x).cplaces)) = true)
    (him : s.imagePieces x th (lowestFree ((s.tile x).spills.map Spilled.place)) (lowestFree (s.tile x).cplaces) pW = (.ok (ps, []), z))
    (hz : z.tile x = s.tile x) : (s.spillDone x).thr x q = none ∧ ((s.spillDone x).tile x).spilling = none ∧
      ((s.spillDone x).tile x).sp = (s.tile x).sp ∧
      ∃ e ∈ ((s.spillDone x).tile x).spills, e.thr = th ∧ e.place = lowestFree ((s.tile x).spills.map Spilled.place) := by
  obtain ⟨u, hu, he⟩ := h.spillDone_eq hsp hc hs hcov him
  have htile : u.tile x = s.tile x := (hu.offTile.tile x).trans hz
  generalize lowestFree ((s.tile x).spills.map Spilled.place) = place at he ⊢
  generalize lowestFree (s.tile x).cplaces = cplace at he
  obtain ⟨B, e, heth, hepl, hout⟩ := Tile.spillOut_eq (l := s.tile x) h.thr hc hy place cplace
  obtain ⟨sps, hage⟩ := Tile.ageSpills_eq { ((s.tile x).setSlot q { (s.tile x).slot q with thr := none }) with
    bars := B, spills := (s.tile x).spills ++ [e], spilling := none }
  obtain ⟨e', he', hth', hpl'⟩ := Tile.mem_ageSpills (l := { ((s.tile x).setSlot q { (s.tile x).slot q with thr := none }) with
    bars := B, spills := (s.tile x).spills ++ [e], spilling := none }) (List.mem_append_right _ (List.mem_singleton.mpr rfl))
  have ha := (u.modTile x fun t => t.spillOut q th place cplace).arrived_arrivals x
  have hv : (u.modTile x fun t => t.spillOut q th place cplace).tile x = _ :=
    (State.tile_modTile ..).trans ((congrArg (Tile.spillOut · q th place cplace) htile).trans hout)
  rw [he]
  refine ⟨?_, ?_, ?_, e', ?_, hth'.trans heth, hpl'.trans hepl⟩
  · rw [ha.thr, State.thr, State.slot, hv, Tile.slot_ageSpills]
    exact congrArg Slot.thr (Tile.slot_setSlot (t := s.tile x) _ h.lt)
  · rw [show _ = _ from (congrArg Tile.spilling ha.rest :), hv, hage]
  · rw [ha.sp, hv, Tile.ageSpills_sp]
    rfl
  · rw [show _ = _ from (congrArg Tile.spills ha.rest :), hv]
    exact he'
end

end Sys2Proof.Machine
end

section
/-! Turns of speculation: a watch's notification, a rollback, the end of a drain (11_sync.md R351, R354, R355). -/
namespace Sys2Proof.Machine

/-! The homes' watches. -/
theorem State.offTile_toTarget (s : State) (h : Nat) (sp : SplitSrc) (b : Body) : s.OffTile (s.toTarget h sp b) := by
  unfold State.toTarget
  split
  · exact s.offTile_send _ _ _ _ _
  · exact .refl s
theorem State.offTile_dropWatch (s : State) (h place : Nat) : s.OffTile (s.dropWatch h place) := by
  have h1 (s : State) (f : Home → Home) : s.OffTile (s.modHome h f) := (s.offNet_setHome _ _).offTile
  unfold State.dropWatch
  dsimp only
  split
  · split
    · exact ((h1 _ _).trans (h1 _ _)).trans (State.offTile_toTarget _ _ _ _)
    · exact h1 _ _
  · exact h1 _ _
theorem State.offTile_unwatch (s : State) (x cid : Nat) (sp : Spec) : s.OffTile (s.unwatch x cid sp) := by
  unfold State.unwatch
  dsimp only
  refine .trans ?_ (.foldl (fun u a => ?_) _ _)
  case refine_1 =>
    refine .trans (.foldl (fun s _ => .foldl (fun s _ => s.offTile_dropWatch _ _) _ s) _ s) (State.offTile_mapNet _ _ ?_)
    intro a
    split <;> rfl
  case refine_2 =>
    split
    · exact u.offTile_post _
    · refine .foldl (fun s f => ?_) _ u
      split
      · exact s.offTile_post _
      · exact .refl s
    · exact .refl u

section
variable {s : State} {x q : Nat} {th : Thread}
theorem Thread.rollback_active {sp : Spec} (hs : th.spec = some sp) (ha : sp.st = .active) (c : Nat) :
    th.rollback c = { th with spec := some { sp with st := .rolling, cause := c }, wait := .spec } := by
  have hsp : th.speculative = true := by unfold Thread.speculative; rw [hs]; simp [ha]
  unfold Thread.rollback
  rw [hs]
  exact if_pos hsp
/-- A watch's notification starts the rollback of the window that it names, and leaves the networks. -/
theorem State.Resident.notifyAt (h : s.Resident x q th) {m : Nat} {a : Msg} (ha : s.Arrives m a) (hd : a.dst = .tile x) {sp : Spec} {note : Nat}
    (hb : a.body = .notify th.cid sp.no note) (hs : th.spec = some sp) (hact : sp.st = .active) : (s.notifyAt m).msg m = none ∧
      (s.notifyAt m).thr x q = some { th with spec := some { sp with st := .rolling, cause := 2 }, wait := .spec } := by
  obtain ⟨-, hm, hmsg, hdel⟩ := ha
  let f : Thread → Thread := fun t => if t.spec.map Spec.no = some sp.no then t.rollback 2 else t
  let u := (s.dropMsg m).modCid x th.cid f
  have he : s.notifyAt m = (u.noteBack a).releaseFar := by
    unfold State.notifyAt
    rw [hmsg]
    dsimp only
    rw [hd, hb]
    exact if_pos hdel
  have hoff : u.OffTile (s.notifyAt m) := he ▸ (u.offTile_noteBack a).trans (State.offTile_releaseFar _)
  have hf : f th = th.rollback 2 := if_pos (by rw [hs]; rfl)
  refine ⟨hoff.gone m hm (s.msg_dropMsg m), ?_⟩
  rw [hoff.thr, (h.offTile (s.offTile_dropMsg m)).thr_modCid, hf, Thread.rollback_active hs hact]

/-! Rollback and the end of the drain (R354, R355). -/
theorem State.tile_modThr_sp (s : State) (x q : Nat) (f : Thread → Thread) : ((s.modThr x q f).tile x).sp = (s.tile x).sp := by
  cases h : s.thr x q with
  | none => rw [State.modThr_none h]
  | some t =>
    rw [State.modThr_some h, State.setSlot, State.tile_modTile]
    rfl
theorem Thread.lateSuspend_false {sp : Spec} (h : sp.susp = false) (t : Thread) (now : Nat) : t.lateSuspend sp now = t := by
  unfold Thread.lateSuspend
  rw [h]
  rfl
/-- What a rollback makes of its thread (R354), `rel` where the entry has been released meanwhile. -/
def Thread.rolledBack (sp : Spec) (rel : Bool) (now : Nat) (t : Thread) : Thread :=
  let t := { t.restore sp with specCause := BitVec.ofNat 4 sp.cause, rbk := min (t.rbk + 1) 255 }
  if rel then { t with spec := none, wait := .none }
  else { t with spec := some { sp with st := .rolledBack, buf := [], puts := [], reads := [], watches := [], holds := [], written := [] },
                wait := .release sp.entry, outSince := now }
/-- The registers of the checkpoint, the cause and the count of rollbacks. -/
theorem Thread.rolledBack_regs (sp : Spec) (rel : Bool) (now : Nat) (t : Thread) : (t.rolledBack sp rel now).pc = sp.resume ∧
    (t.rolledBack sp rel now).g = sp.g ∧ (t.rolledBack sp rel now).p = sp.p ∧ (t.rolledBack sp rel now).round = sp.round ∧
    (t.rolledBack sp rel now).specCause = BitVec.ofNat 4 sp.cause ∧ (t.rolledBack sp rel now).rbk = min (t.rbk + 1) 255 := by
  cases rel with
  | true => exact ⟨rfl, rfl, rfl, rfl, rfl, rfl⟩
  | false => exact ⟨rfl, rfl, rfl, rfl, rfl, rfl⟩
theorem State.Resident.rollBack_eq (h : s.Resident x q th) {sp : Spec} (hs : th.spec = some sp) (hst : sp.st = .rolling) (hsu : sp.susp = false)
    (hp : sp.puts = []) (ho : th.outs = []) (hv : th.vheld = none) (hc : th.compute = false) : ∃ now, s.rollBack x q =
      (s.unwatch x th.cid sp).modThr x q (Thread.rolledBack sp (!((s.tile x).bar sp.entry).arr.getLsbD q) now) := by
  have hoff := s.offTile_unwatch x th.cid sp
  unfold State.rollBack
  rw [h.thr]
  dsimp only
  rw [hs]
  dsimp only
  rw [hst, ho, hv, hc, hp]
  simp only [ne_eq, not_true_eq_false, decide_false, List.isEmpty_nil, Bool.not_true, Option.isSome_none, Bool.false_and, Bool.or_false,
    Bool.false_eq_true, if_false, List.foldl_nil, hoff.tile x, Thread.lateSuspend_false hsu]
  exact ⟨_, rfl⟩
theorem State.Resident.rollBack (h : s.Resident x q th) {sp : Spec} (hs : th.spec = some sp) (hst : sp.st = .rolling) (hsu : sp.susp = false)
    (hp : sp.puts = []) (ho : th.outs = []) (hv : th.vheld = none) (hc : th.compute = false) : ((s.rollBack x q).tile x).sp = (s.tile x).sp ∧
      ∃ now, (s.rollBack x q).thr x q = some (th.rolledBack sp (!((s.tile x).bar sp.entry).arr.getLsbD q) now) := by
  have hoff := s.offTile_unwatch x th.cid sp
  obtain ⟨now, he⟩ := h.rollBack_eq hs hst hsu hp ho hv hc
  rw [he, State.tile_modThr_sp, hoff.tile x]
  exact ⟨rfl, now, (h.offTile hoff).thr_modThr _⟩
theorem State.Resident.endCommit_eq (h : s.Resident x q th) {sp : Spec} (hs : th.spec = some sp) (hst : sp.st = .committing) (hsu : sp.susp = false)
    (hp : sp.puts = []) (hv : th.vheld = none) (hc : th.compute = false) (hq : (s.tile x).queued ≤ 64) (hd : sp.drainEnd ≤ s.cycleOf x) :
    s.endCommit x q = (((s.unwatch x th.cid sp).modThr x q fun t => { t with spec := none, cmt := min (t.cmt + 1) 255 }).within x q id).modThr x q
      fun t => if t.wait = .spec then { t with wait := .none } else t := by
  have hd' : ¬ s.cycleOf x < sp.drainEnd := Nat.not_lt.mpr hd
  have hq' : ¬ (s.tile x).queued + 0 > Config.requestQueue := Nat.not_lt.mpr hq
  unfold State.endCommit
  rw [h.thr]
  dsimp only
  rw [hs]
  dsimp only
  rw [hst, hv, hc, hp, decide_eq_false hd', List.length_nil, decide_eq_false hq']
  simp only [ne_eq, not_true_eq_false, decide_false, Option.isSome_none, Bool.false_and, Bool.or_false, Bool.false_eq_true, if_false, List.foldl_nil,
    Thread.lateSuspend_false hsu]
  rfl
theorem State.Resident.endCommit (h : s.Resident x q th) {sp : Spec} (hs : th.spec = some sp) (hst : sp.st = .committing) (hsu : sp.susp = false)
    (hp : sp.puts = []) (hv : th.vheld = none) (hc : th.compute = false) (hq : (s.tile x).queued ≤ 64) (hd : sp.drainEnd ≤ s.cycleOf x) :
    ((s.endCommit x q).tile x).sp = (s.tile x).sp ∧ (s.endCommit x q).thr x q =
      some { th with spec := none, cmt := min (th.cmt + 1) 255, wait := if th.wait = .spec then .none else th.wait } := by
  have hoff := s.offTile_unwatch x th.cid sp
  rw [h.endCommit_eq hs hst hsu hp hv hc hq hd]
  constructor
  · rw [State.tile_modThr_sp]
    exact (State.tile_modThr_sp ..).trans (congrArg Tile.sp (hoff.tile x))
  · rw [State.thr_modThr]
    refine (congrArg (Option.map _) ((h.offTile hoff).thr_modThr _)).trans ?_
    dsimp only [Option.map_some]
    split
    · rfl
    · rfl
end

end Sys2Proof.Machine
end

section
/-! The drain of a store buffer's line: its pieces, their bytes, the tile that takes them (11_sync.md R355). -/
namespace Sys2Proof.Machine

/-! Writes of several pieces: address, number of bytes, value. -/
/-- The address lies in a piece. -/
def pieceHas (k : Nat) (p : Nat × Nat × Nat) : Prop := p.1 ≤ k ∧ k < p.1 + p.2.1
/-- A piece's bytes are those that `f` gives. -/
def PieceOf (f : Nat → Option Byte) (p : Nat × Nat × Nat) : Prop := ∀ i, i < p.2.1 → f (p.1 + i) = some (BitVec.ofNat 8 (p.2.2 / 2 ^ (8 * i)))
/-- Memory with the pieces written one after another. -/
def Memory.writePieces (m : Memory) (ps : List (Nat × Nat × Nat)) : Memory := ps.foldl (fun m p => m.writeN p.1 p.2.1 p.2.2) m
theorem Memory.read_writePieces {f : Nat → Option Byte} {ps : List (Nat × Nat × Nat)} (hp : ∀ p ∈ ps, PieceOf f p) {m : Memory} (hm : m.wf = true)
    (k : Nat) : ((∃ p ∈ ps, pieceHas k p) → some ((m.writePieces ps).read k) = f k) ∧
      ((∀ p ∈ ps, ¬ pieceHas k p) → (m.writePieces ps).read k = m.read k) := by
  induction ps generalizing m with
  | nil => exact ⟨fun ⟨_, h, _⟩ => absurd h List.not_mem_nil, fun _ => rfl⟩
  | cons p ps ih =>
    have ih := ih (fun r hr => hp r (List.mem_cons_of_mem _ hr)) (Memory.writeN_wf p.1 p.2.1 p.2.2 hm)
    have hread := Memory.read_writeN hm p.1 p.2.1 p.2.2 k
    constructor
    · rintro ⟨r, hr, hk⟩
      by_cases hps : ∃ r ∈ ps, pieceHas k r
      · exact ih.1 hps
      · have hrp : r = p := (List.mem_cons.mp hr).resolve_right fun h => hps ⟨r, h, hk⟩
        subst hrp
        rw [if_pos (show r.1 ≤ k ∧ k < r.1 + r.2.1 from hk)] at hread
        have := ih.2 fun r' hr' hk' => hps ⟨r', hr', hk'⟩
        obtain ⟨i, rfl⟩ := Nat.exists_eq_add_of_le hk.1
        rw [hp r (List.mem_cons_self ..) i (by have := hk.2; omega)]
        rw [Nat.add_sub_cancel_left] at hread
        exact congrArg some (this.trans hread)
    · intro hno
      rw [if_neg (show ¬ (p.1 ≤ k ∧ k < p.1 + p.2.1) from hno p (List.mem_cons_self ..))] at hread
      exact (ih.2 fun r hr => hno r (List.mem_cons_of_mem _ hr)).trans hread

/-! A buffered line. -/
/-- The byte that a buffered line holds for an address. -/
def BufLine.byteAt (l : BufLine) (k : Nat) : Option Byte := if k / 64 = l.line then l.bytes.find (k % 64) else none
theorem BufLine.byteAt_add (l : BufLine) {j : Nat} (h : j < 64) : l.byteAt (l.line * 64 + j) = l.bytes.find j := by
  unfold BufLine.byteAt
  rw [if_pos (by omega), show (l.line * 64 + j) % 64 = j by omega]
/-- Word `w` of a buffered line is held whole. -/
def BufLine.whole (l : BufLine) (w : Nat) : Bool := (List.range 8).all fun i => (l.bytes.find (8 * w + i)).isSome
/-- The pieces of a line: its whole words, and the single bytes of the others. -/
theorem mem_linePieces (l : BufLine) (p : Nat × Nat × Nat) : p ∈ linePieces l ↔ ∃ w < 8,
    (l.whole w = true ∧ p = (l.line * 64 + 8 * w, 8, natOfBytes ((List.range 8).map fun i => (l.bytes.find (8 * w + i)).getD 0))) ∨
    (l.whole w = false ∧ ∃ i < 8, ∃ b, l.bytes.find (8 * w + i) = some b ∧ p = (l.line * 64 + 8 * w + i, 1, b.toNat)) := by
  have hwhole (w : Nat) : ((List.range 8).all fun i => ((l.bytes.find (8 * w + i)).map BitVec.toNat).isSome) = l.whole w := by
    simp only [Option.isSome_map]
    rfl
  unfold linePieces
  rw [List.mem_flatMap]
  refine exists_congr fun w => ?_
  rw [List.mem_range]
  refine and_congr_right fun _ => ?_
  dsimp only
  rw [hwhole]
  cases l.whole w with
  | true => simp
  | false =>
    simp only [Bool.false_eq_true, if_false, false_and, false_or, true_and, List.mem_filterMap, List.mem_range, Option.map_map, Option.map_eq_some_iff]
    refine exists_congr fun i => and_congr_right fun _ => exists_congr fun b => and_congr_right fun _ => eq_comm
theorem BufLine.pieceOf_linePieces (l : BufLine) : ∀ p ∈ linePieces l, PieceOf l.byteAt p := by
  intro p hp
  obtain ⟨w, hw, ⟨hwhole, rfl⟩ | ⟨-, i, hi, b, hb, rfl⟩⟩ := (mem_linePieces l p).mp hp
  · intro i (hi : i < 8)
    have hsome := List.all_eq_true.mp hwhole i (List.mem_range.mpr hi)
    obtain ⟨b, hb⟩ := Option.isSome_iff_exists.mp hsome
    rw [byte_natOfBytes _ (by simpa using hi), Nat.add_assoc, l.byteAt_add (by omega), hb]
    simp [hi, hb]
  · intro j (hj : j < 1)
    obtain rfl : j = 0 := by omega
    rw [Nat.add_zero, Nat.add_assoc, l.byteAt_add (by omega), hb]
    simp
theorem BufLine.linePieces_cover (l : BufLine) {k : Nat} {b : Byte} (h : l.byteAt k = some b) : ∃ p ∈ linePieces l, pieceHas k p := by
  unfold BufLine.byteAt at h
  split at h
  case isFalse => cases h
  case isTrue hk =>
    have hj : 8 * (k % 64 / 8) + k % 8 = k % 64 := by omega
    cases hw : l.whole (k % 64 / 8) with
    | true => exact ⟨_, (mem_linePieces l _).mpr ⟨k % 64 / 8, by omega, .inl ⟨hw, rfl⟩⟩, by constructor <;> dsimp only <;> omega⟩
    | false =>
      exact ⟨_, (mem_linePieces l _).mpr ⟨k % 64 / 8, by omega, .inr ⟨hw, k % 8, by omega, b, by rw [hj]; exact h, rfl⟩⟩,
        by constructor <;> dsimp only <;> omega⟩
/-- After its drain, memory holds the bytes that the line held. -/
theorem Memory.read_drained (l : BufLine) {m : Memory} (hm : m.wf = true) (k : Nat) :
    (m.writePieces (linePieces l)).read k = if k / 64 = l.line then (l.bytes.find (k % 64)).getD (m.read k) else m.read k := by
  have h := Memory.read_writePieces l.pieceOf_linePieces hm k
  have hgoal : (if k / 64 = l.line then (l.bytes.find (k % 64)).getD (m.read k) else m.read k) = (l.byteAt k).getD (m.read k) := by
    unfold BufLine.byteAt
    split <;> rfl
  rw [hgoal]
  by_cases hc : ∃ p ∈ linePieces l, pieceHas k p
  · rw [← h.1 hc]
    rfl
  · have hnone : l.byteAt k = none := Option.eq_none_iff_forall_ne_some.mpr fun b hb => hc (l.linePieces_cover hb)
    rw [h.2 fun p hp hk => hc ⟨p, hp, hk⟩, hnone]
    rfl
/-- The pieces of a line lie in the bank of the line. -/
theorem bankOf_linePieces {l : BufLine} {p : Nat × Nat × Nat} (h : p ∈ linePieces l) : bankOf p.1 = bankOf (l.line * 64) := by
  unfold bankOf
  obtain ⟨w, hw, ⟨-, rfl⟩ | ⟨-, i, hi, b, -, rfl⟩⟩ := (mem_linePieces l p).mp h
  · dsimp only; omega
  · dsimp only; omega

/-! The tile. -/
/-- No thread of the tile speculates but those with context number `cid`. -/
def Tile.SpecOnly (l : Tile) (cid : Nat) : Prop := ∀ q, q < 8 → ∀ th, (l.slot q).thr = some th → th.spec = none ∨ th.cid = cid
/-- A thread's own stores leave it and threads without speculation alone. -/
theorem Tile.conflict_own {l : Tile} {cid : Nat} (h : l.SpecOnly cid) (ls : List Nat) :
    l.conflict (some cid) ls = l := by
  have hslots : (l.conflict (some cid) ls).slots = l.slots := by
    refine Vector.ext fun i hi => ?_
    have hs : l.slot i = l.slots[i] := by simp [Tile.slot, hi]
    rw [show (l.conflict (some cid) ls).slots[i] = _ from Vector.getElem_map ..]
    have hi := h i hi
    rw [hs] at hi
    cases ht : l.slots[i].thr with
    | none => rfl
    | some th =>
      dsimp only
      rcases hi th ht with he | he
      · rw [he]
      · rw [he]
        simp only [bne_self_eq_false, Bool.and_false, Bool.false_and, Bool.false_eq_true, if_false]
        split <;> rfl
  show { l with slots := (l.conflict (some cid) ls).slots } = l
  rw [hslots]
/-- A thread's store into good words of a tile where no other thread speculates. -/
theorem State.tile_store_own {s : State} {x cid : Nat} (hbad : (s.tile x).bad = [])
    (h : (s.tile x).SpecOnly cid) (a n v : Nat) :
    ∃ m, (s.store x (some cid) a n v).tile x = { s.tile x with sp := (s.tile x).sp.writeN a n v, soft := m } := by
  have hst := Tile.stored_of_good (a := a) (n := n) (l := s.tile x) (by rw [hbad]; simp) v
  obtain ⟨m, hm⟩ := ((s.modTile x (Tile.stored a n v)).conflict x (some cid) a n).tile_scrub x a n
  refine ⟨m, ?_⟩
  rw [State.store_eq, hm, State.conflict, State.tile_modTile, State.tile_modTile, hst,
    Tile.conflict_own (l := (s.tile x).withWords ((s.tile x).sp.writeN a n v) (s.tile x).bad) h]
  rfl
/-- The drain of pieces, none of them in a stationary bank, in a tile with good words where no other thread speculates. -/
theorem State.tile_drain {x cid : Nat} (ps : List (Nat × Nat × Nat)) {s : State} (hbad : (s.tile x).bad = [])
    (h : (s.tile x).SpecOnly cid) (hstat : ∀ p ∈ ps, (s.tile x).stat (bankOf p.1) = false) :
    ∃ m, (ps.foldl (fun s p => if (s.tile x).stat (bankOf p.1) then s else s.store x (some cid) p.1 p.2.1 p.2.2) s).tile x =
      { s.tile x with sp := (s.tile x).sp.writePieces ps, soft := m } := by
  induction ps generalizing s with
  | nil => exact ⟨(s.tile x).soft, rfl⟩
  | cons p ps ih =>
    obtain ⟨m, hm⟩ := State.tile_store_own hbad h p.1 p.2.1 p.2.2
    obtain ⟨m', hm'⟩ := ih (s := s.store x (some cid) p.1 p.2.1 p.2.2) (by rw [hm]; exact hbad) (by rw [hm]; exact h)
      (by rw [hm]; exact fun r hr => hstat r (List.mem_cons_of_mem _ hr))
    refine ⟨m', ?_⟩
    rw [List.foldl_cons, hstat p (List.mem_cons_self ..), if_neg (by decide), hm', hm]
    rfl

end Sys2Proof.Machine
end

section
/-! A release notice: commits on the entry, and threads that wait on it (11_sync.md R346, R355). -/
namespace Sys2Proof.Machine

/-! The commit of one line. -/
/-- The thread in slot `q` is the only one of its tile that speculates; its window is open and holds one buffered line, which may drain. -/
structure State.Commits (s : State) (x q : Nat) (th : Thread) (sp : Spec) (b : BufLine) : Prop where
  res : s.Resident x q th
  spec : th.spec = some sp
  act : sp.st = .active
  buf : sp.buf = [b]
  held : th.vheld = none
  others : ∀ r th', r < 8 → r ≠ q → s.thr x r = some th' → th'.spec = none
  bad : (s.tile x).bad = []
  wf : (s.tile x).sp.wf = true
  stat : (s.tile x).stat (bankOf (b.line * 64)) = false
/-- What the start of a commit makes of its thread, its drain ending in cycle `stop` (R355). -/
def Thread.committed (sp : Spec) (stop : Nat) (t : Thread) : Thread :=
  { t with spec := some { sp with st := .committing, drainEnd := stop, buf := [], reads := (sp.reads ++ sp.buf.map BufLine.line).eraseDups } }
section
variable {s : State} {x q : Nat} {th : Thread} {sp : Spec} {b : BufLine}
theorem State.Commits.specOnly (h : s.Commits x q th sp b) : (s.tile x).SpecOnly th.cid := by
  intro r hr th' hth
  by_cases hrq : r = q
  · subst hrq
    exact .inr (congrArg Thread.cid (Option.some.inj (hth.symm.trans h.res.thr)))
  · exact .inl (h.others r th' hr hrq hth)
theorem State.Commits.drainConflict (h : s.Commits x q th sp b) (e : Nat) (ls : List Nat) : (s.tile x).drainConflict q e ls = s.tile x := by
  refine List.foldlRecOn (motive := fun t => t = s.tile x) _ _ rfl fun t ht r hr => ?_
  subst ht
  cases hth : ((s.tile x).slot r).thr with
  | none => rfl
  | some th' =>
    dsimp only
    cases hsp : th'.spec with
    | none => rfl
    | some sp' =>
      refine if_neg fun hc => ?_
      rw [h.others r th' (List.mem_range.mp hr) hc.1 hth] at hsp
      cases hsp
theorem State.Commits.drained (h : s.Commits x q th sp b) (now : Nat) : (s.tile x).drained now = now := by
  refine List.foldlRecOn (motive := fun n => n = now) _ _ rfl fun n hn v hv => ?_
  obtain ⟨r, hr, rfl⟩ := List.getElem_of_mem hv
  have hr : r < 8 := by simpa using hr
  have hslot : (s.tile x).slots.toList[r] = (s.tile x).slot r := by simp [Tile.slot, hr]
  rw [hslot]
  cases hsp : ((s.tile x).slot r).thr.bind Thread.spec with
  | none => exact hn
  | some sp' =>
    obtain ⟨th', hth, hsp'⟩ := Option.bind_eq_some_iff.mp hsp
    have hrq : r = q := Classical.byContradiction fun hrq => by
      rw [h.others r th' hr hrq hth] at hsp'
      cases hsp'
    subst hrq
    obtain rfl : th' = th := Option.some.inj (hth.symm.trans h.res.thr)
    obtain rfl : sp' = sp := Option.some.inj (hsp'.symm.trans h.spec)
    dsimp only
    rw [h.act]
    exact hn
theorem State.runHeld_of_none (h : s.thr x q = some th) (hv : th.vheld = none) : s.runHeld x q = s := by
  unfold State.runHeld
  rw [h]
  dsimp only
  rw [hv]
/-- The drain of the line, which the conflicts of other windows leave as it is. -/
def State.drainLine (s : State) (x q cid e : Nat) (b : BufLine) : State :=
  (linePieces b).foldl (fun s p => if (s.tile x).stat (bankOf p.1) then s else s.store x (some cid) p.1 p.2.1 p.2.2)
    (s.modTile x fun t => t.drainConflict q e [b.line])
theorem State.Commits.commit_eq (h : s.Commits x q th sp b) : s.commit x q =
    ((s.drainLine x q th.cid sp.entry b).modThr x q (Thread.committed sp (s.cycleOf x + 1))).plainReads x th.cid := by
  unfold State.commit
  dsimp only
  rw [State.runHeld_of_none h.res.thr h.held, h.res.thr, Option.bind_some, h.held]
  simp only [Option.any_none, Bool.false_eq_true, if_false]
  rw [h.res.thr]
  dsimp only
  rw [h.spec]
  dsimp only
  rw [h.drained, h.buf]
  simp only [List.map_cons, List.map_nil, List.length_singleton, List.foldl_cons, List.foldl_nil]
  unfold State.drainLine Thread.committed
  rw [h.buf]
  rfl
theorem State.Commits.tile_drainLine (h : s.Commits x q th sp b) : ∃ m, (s.drainLine x q th.cid sp.entry b).tile x =
    { s.tile x with sp := (s.tile x).sp.writePieces (linePieces b), soft := m } := by
  have ht : (s.modTile x fun t => t.drainConflict q sp.entry [b.line]).tile x = s.tile x := (State.tile_modTile ..).trans (h.drainConflict _ _)
  obtain ⟨m, hm⟩ := State.tile_drain (s := s.modTile x fun t => t.drainConflict q sp.entry [b.line]) (linePieces b)
    (by rw [ht]; exact h.bad) (by rw [ht]; exact h.specOnly)
    fun p hp => by rw [ht, bankOf_linePieces hp]; exact h.stat
  rw [ht] at hm
  exact ⟨m, hm⟩
theorem State.tile_plainReads (s : State) (x cid : Nat) : ∃ v, (s.plainReads x cid).tile x = { s.tile x with ops := v } :=
  ⟨_, s.tile_modTile x fun t => { t with ops := t.ops.map fun (o : TOp) => if o.cid = cid then { o with spec := false } else o }⟩
theorem State.Commits.commit (h : s.Commits x q th sp b) : ((s.commit x q).tile x).sp = (s.tile x).sp.writePieces (linePieces b) ∧
    (s.commit x q).thr x q = some (th.committed sp (s.cycleOf x + 1)) ∧ ∀ r, r ≠ q → (s.commit x q).thr x r = s.thr x r := by
  obtain ⟨m, hm⟩ := h.tile_drainLine
  have hr : (s.drainLine x q th.cid sp.entry b).Resident x q th := h.res.congr (by rw [hm])
  obtain ⟨v, hv⟩ := ((s.drainLine x q th.cid sp.entry b).modThr x q (Thread.committed sp (s.cycleOf x + 1))).tile_plainReads x th.cid
  rw [← h.commit_eq] at hv
  refine ⟨?_, ?_, fun r hrq => ?_⟩
  · rw [hv]
    exact (State.tile_modThr_sp ..).trans (by rw [hm])
  · rw [State.thr, State.slot, hv]
    exact hr.thr_modThr _
  · rw [State.thr, State.slot, hv, State.modThr_some hr.thr, State.setSlot, State.tile_modTile]
    refine (congrArg Slot.thr (Tile.slot_setSlot_other _ _ hrq)).trans ?_
    rw [hm]
    rfl
end

/-! The release of an entry (R346). -/
/-- Slot `q` holds a thread whose window is open on entry `e`. -/
def State.specOn (s : State) (x e q : Nat) : Bool := match s.thr x q with
  | some th => th.speculative && (match th.spec with
    | some sp => sp.entry == e
    | none => false)
  | none => false
/-- The commits of the windows that are open on an entry. -/
def State.commitsOn (s : State) (x e : Nat) : State := (List.range 8).foldl (fun s q => if s.specOn x e q then s.commit x q else s) s
/-- A tile's entry after a release of a phase. -/
def Tile.releaseEntry (l : Tile) (e phase now : Nat) : Tile :=
  let t : Tile := { l with slots := l.slots.map fun (q : Slot) => { q with thr := q.thr.map fun th => th.released e now },
                           spills := l.spills.map fun (v : Spilled) => { v with thr := v.thr.released e now } }
  (t.setBar e { t.bar e with arr := 0, sarr := [], sent := false, phase := phase }).ageSpills
theorem State.releaseOn_eq (s : State) (x e phase : Nat) : s.releaseOn x e phase =
    ((s.commitsOn x e).imaged x fun s' => s'.modTile x fun t => t.releaseEntry e phase (s.cycleOf x)).arrivals x := rfl
theorem State.specOn_false {s : State} {x e q : Nat} (h : ∀ th, s.thr x q = some th → th.spec = none) : s.specOn x e q = false := by
  unfold State.specOn
  cases ht : s.thr x q with
  | none => rfl
  | some th =>
    dsimp only
    rw [Thread.not_speculative (h th ht)]
    rfl
theorem State.commitsOn_none {s : State} {x e : Nat} (h : ∀ q th, q < 8 → s.thr x q = some th → th.spec = none) : s.commitsOn x e = s :=
  List.foldlRecOn (motive := fun u => u = s) _ _ rfl fun u hu q hq => by
    subst hu
    exact if_neg (by rw [State.specOn_false fun th => h q th (List.mem_range.mp hq)]; decide)
theorem foldl_only {α β : Type} {f : β → α → β} {a : α} {b : β} {l : List α} (hn : l.Nodup) (ha : a ∈ l) (h : ∀ r ∈ l, r ≠ a → f b r = b)
    (h' : ∀ r ∈ l, r ≠ a → f (f b a) r = f b a) : l.foldl f b = f b a := by
  obtain ⟨l1, l2, rfl⟩ := List.append_of_mem ha
  have hfix : ∀ (c : β) (l' : List α), (∀ r ∈ l', f c r = c) → l'.foldl f c = c := fun c l' hc =>
    List.foldlRecOn (motive := fun u => u = c) l' f rfl fun u hu r hr => hu ▸ hc r hr
  have hne1 : ∀ r ∈ l1, r ≠ a := fun r hr e => (List.nodup_append.mp hn).2.2 r hr a (List.mem_cons_self ..) e
  have hne2 : ∀ r ∈ l2, r ≠ a := fun r hr e => (List.nodup_cons.mp (List.nodup_append.mp hn).2.1).1 (e ▸ hr)
  rw [List.foldl_append, hfix b l1 fun r hr => h r (List.mem_append_left _ hr) (hne1 r hr), List.foldl_cons,
    hfix (f b a) l2 fun r hr => h' r (List.mem_append_right _ (List.mem_cons_of_mem _ hr)) (hne2 r hr)]
section
variable {s : State} {x q e : Nat} {th : Thread} {sp : Spec} {b : BufLine}
theorem State.Commits.commitsOn (h : s.Commits x q th sp b) (he : sp.entry = e) : s.commitsOn x e = s.commit x q := by
  have hq : s.specOn x e q = true := by
    unfold State.specOn
    rw [h.res.thr]
    dsimp only
    rw [h.spec]
    unfold Thread.speculative
    rw [h.spec]
    simp [h.act, he]
  obtain ⟨-, -, hother⟩ := h.commit
  have hfirst : (if s.specOn x e q then s.commit x q else s) = s.commit x q := if_pos hq
  rw [← hfirst]
  refine foldl_only (List.nodup_range) (List.mem_range.mpr h.res.lt) (fun r hr hrq => ?_) fun r hr hrq => ?_
  · exact if_neg (by rw [State.specOn_false fun th' => h.others r th' (List.mem_range.mp hr) hrq]; decide)
  · rw [hfirst]
    exact if_neg (by rw [State.specOn_false fun th' ht => h.others r th' (List.mem_range.mp hr) hrq ((hother r hrq).symm.trans ht)]; decide)
theorem Tile.sp_releaseEntry (l : Tile) (e phase now : Nat) : (l.releaseEntry e phase now).sp = l.sp := Tile.ageSpills_sp _
theorem Tile.bar_releaseEntry (l : Tile) (he : e < 16) (phase now : Nat) :
    (l.releaseEntry e phase now).bar e = { l.bar e with arr := 0, sarr := [], sent := false, phase := phase } :=
  (Tile.bar_ageSpills ..).trans (Tile.bar_setBar _ _ he)
theorem Tile.thr_releaseEntry (l : Tile) (e phase now : Nat) (hq : q < 8) :
    ((l.releaseEntry e phase now).slot q).thr = (l.slot q).thr.map fun th => th.released e now := by
  rw [Tile.releaseEntry, Tile.slot_ageSpills]
  exact congrArg Slot.thr (Tile.slot_mapSlots l (fun v => { v with thr := v.thr.map fun th => th.released e now }) hq)
/-- A release leaves the commits' scratchpad, changes the threads of the entry, and empties the entry. -/
structure State.Released (x e phase now : Nat) (s u : State) : Prop where
  sp : (u.tile x).sp = (s.tile x).sp
  arr : ((u.tile x).bar e).arr = 0
  phase : ((u.tile x).bar e).phase = phase
  thr : ∀ q, q < 8 → u.thr x q = (s.thr x q).map fun th => th.released e now
  gone : ∀ m, m < s.nextId → s.msg m = none → u.msg m = none
theorem State.released_of_tile {v w : State} (he : e < 16) {phase now : Nat} (ht : v.tile x = (s.tile x).releaseEntry e phase now)
    (hv : (s.modTile x fun t => t.releaseEntry e phase now).OffTile v) (ha : v.Arrived x w) : s.Released x e phase now w where
  sp := by rw [ha.sp, ht, Tile.sp_releaseEntry]
  arr := by rw [ha.arr, ht, Tile.bar_releaseEntry _ he]
  phase := by rw [ha.phase, ht, Tile.bar_releaseEntry _ he]
  thr q hq := by
    rw [ha.thr, State.thr, State.slot, ht]
    exact Tile.thr_releaseEntry _ _ _ _ hq
  gone m hm hs := ha.gone m (Nat.lt_of_lt_of_le hm hv.nextId) (hv.gone m hm hs)
theorem State.released_releaseOn (s : State) (x : Nat) (he : e < 16) (phase : Nat) :
    (s.commitsOn x e).Released x e phase (s.cycleOf x) (s.releaseOn x e phase) := by
  have hv := ((s.commitsOn x e).offNet_imaged x fun s' => s'.modTile x fun t => t.releaseEntry e phase (s.cycleOf x)).offTile
  rw [State.releaseOn_eq]
  exact State.released_of_tile he ((hv.tile x).trans (State.tile_modTile ..)) hv (State.arrived_arrivals _ x)
theorem State.releaseAt_eq {m : Nat} {a : Msg} (ha : s.Arrives m a) (hd : a.dst = .tile x) {k : W64} {ph : Nat} (hb : a.body = .release k ph)
    (hk : (s.tile x).barOf k = some e) (ht : (s.tile x).tenant = some a.tenant) (hearly : s.earlierRelease a k ph = false) :
    s.releaseAt m = (s.dropMsg m).releaseOn x e ph := by
  obtain ⟨-, -, hmsg, hdel⟩ := ha
  unfold State.releaseAt
  rw [hmsg]
  dsimp only
  rw [hd, hb]
  dsimp only
  rw [hdel, hearly]
  simp only [Bool.not_true, Bool.or_self, Bool.false_eq_true, if_false]
  rw [show ((s.dropMsg m).tile x).barOf k = some e from hk]
  exact if_pos ht
theorem Tile.barOf_lt {l : Tile} {k : W64} (h : l.barOf k = some e) : e < 16 := List.mem_range.mp (List.mem_of_find?_eq_some h)
theorem Thread.released_of_waits (hw : th.wait = .release e) (hs : th.spec = none) (hsu : th.susp = false) (hb : th.spillBan = false) (now : Nat) :
    th.released e now = { th with wait := .none, readyAt := max th.readyAt (now + 1) } := by
  unfold Thread.released
  rw [if_pos hw, Thread.wakeUp_eq hsu hb]
  show ({ th with wait := .none, spec := none, readyAt := max th.readyAt (now + 1) } : Thread) = { th with wait := .none, spec := th.spec, readyAt := _ }
  rw [hs]
/-- A thread that waits on the entry returns. -/
theorem State.Resident.releaseAt_waiting (h : s.Resident x q th) {m : Nat} {a : Msg} (ha : s.Arrives m a) (hd : a.dst = .tile x) {k : W64} {ph : Nat}
    (hb : a.body = .release k ph) (hk : (s.tile x).barOf k = some e) (ht : (s.tile x).tenant = some a.tenant) (hearly : s.earlierRelease a k ph = false)
    (hother : ∀ r th', r < 8 → r ≠ q → s.thr x r = some th' → th'.spec = none) (hw : th.wait = .release e) (hs : th.spec = none)
    (hsu : th.susp = false) (hban : th.spillBan = false) : (s.releaseAt m).msg m = none ∧ (((s.releaseAt m).tile x).bar e).arr = 0 ∧
      (((s.releaseAt m).tile x).bar e).phase = ph ∧
      (s.releaseAt m).thr x q = some { th with wait := .none, readyAt := max th.readyAt (s.cycleOf x + 1) } ∧
      ((s.releaseAt m).tile x).sp = (s.tile x).sp := by
  have hnone : (s.dropMsg m).commitsOn x e = s.dropMsg m := State.commitsOn_none fun r th' hr hth => by
    by_cases hrq : r = q
    · subst hrq
      rw [Option.some.inj (hth.symm.trans h.thr), hs]
    · exact hother r th' hr hrq hth
  have hrel := (s.dropMsg m).released_releaseOn x (Tile.barOf_lt hk) ph
  rw [hnone, ← State.releaseAt_eq ha hd hb hk ht hearly] at hrel
  refine ⟨hrel.gone m ha.2.1 (s.msg_dropMsg m), hrel.arr, hrel.phase, ?_, hrel.sp⟩
  rw [hrel.thr q h.lt, (h.offTile (s.offTile_dropMsg m)).thr, Option.map_some, Thread.released_of_waits hw hs hsu hban]
  rfl
/-- The only window that is open on the entry commits. -/
theorem State.Commits.releaseAt (h : s.Commits x q th sp b) {m : Nat} {a : Msg} (ha : s.Arrives m a) (hd : a.dst = .tile x) {k : W64} {ph : Nat}
    (hb : a.body = .release k ph) (hk : (s.tile x).barOf k = some e) (ht : (s.tile x).tenant = some a.tenant) (hearly : s.earlierRelease a k ph = false)
    (he : sp.entry = e) (hw : th.wait ≠ .release e) : (((s.releaseAt m).tile x).bar e).arr = 0 ∧
      (s.releaseAt m).thr x q = some (th.committed sp (s.cycleOf x + 1)) ∧
      ((s.releaseAt m).tile x).sp = (s.tile x).sp.writePieces (linePieces b) := by
  have hdrop : (s.dropMsg m).Commits x q th sp b :=
    ⟨h.res.offTile (s.offTile_dropMsg m), h.spec, h.act, h.buf, h.held, h.others, h.bad, h.wf, h.stat⟩
  obtain ⟨hsp, hthr, -⟩ := hdrop.commit
  have hrel := (s.dropMsg m).released_releaseOn x (Tile.barOf_lt hk) ph
  rw [hdrop.commitsOn he, ← State.releaseAt_eq ha hd hb hk ht hearly] at hrel
  refine ⟨hrel.arr, ?_, hrel.sp.trans hsp⟩
  rw [hrel.thr q h.res.lt, hthr, Option.map_some]
  exact congrArg some (if_neg hw)
end

end Sys2Proof.Machine
end

section
/-! Events of a tile and of a die: a bundle line enters the cache, a packet binds, the energy reserve takes its share (01_machine.md R17, R18;
12_tasks.md R376; 13_system.md R416). -/
namespace Sys2Proof.Machine

/-! The bundle cache (R17, R18). -/
theorem Tile.bundleAt_cacheLine (l : Tile) (line : Nat) (ws : List W64) {i : Nat} (hi : i < 8) :
    (l.cacheLine l.asid line ws).bundleAt (line * 64 + 8 * i) = some (ws.getD i 0) := by
  have hpc : (line * 64 + 8 * i) / 64 = line := by omega
  have hword : (line * 64 + 8 * i) / 8 % 8 = i := by omega
  have hnone (n : Nat) : ((l.icache.filter fun e => !(e.1 == l.asid && e.2.1 == line)).drop n).find? (fun e => e.1 == l.asid && e.2.1 == line) = none := by
    rw [List.find?_eq_none]
    exact fun e he => by simpa [imp_iff_not_or] using (List.mem_filter.mp (List.mem_of_mem_drop he)).2
  have hhit (c : List (Nat × Nat × List W64)) (hc : c.find? (fun e => e.1 == l.asid && e.2.1 == line) = none) :
      (c ++ [(l.asid, line, ws)]).find? (fun e => e.1 == l.asid && e.2.1 == line) = some (l.asid, line, ws) := by
    rw [List.find?_append, hc]
    simp
  unfold Tile.bundleAt Tile.cacheLine
  dsimp only
  rw [hpc, hword, hhit _ (by split; exacts [hnone 0, hnone _])]
  rfl
theorem Tile.bundleAt_wakeLine (l : Tile) (line pc : Nat) : (l.wakeLine line).bundleAt pc = l.bundleAt pc := by
  unfold Tile.wakeLine
  dsimp only
  obtain ⟨v, hv⟩ := Tile.ageSpills_eq { l with
    slots := l.slots.map fun (q : Slot) => { q with thr := q.thr.map fun th => if th.wait = .pager line then th.wakeUp else th }
    spills := l.spills.map fun (e : Spilled) => { e with thr := if e.thr.wait = .pager line then e.thr.wakeUp else e.thr } }
  rw [hv]
  rfl
theorem State.bundleFill_eq {s z : State} {x va p n : Nat} (hs : s.service = .full) (ht : (s.tile x).tenant.isSome = true)
    (hw : (s.tile x).wantsLine (va / 64) = true) (hf : s.inFrozen (s.tenantOf x) (va / 64 * 64) 64 = true)
    (hx : s.xlate (dieOf x) (s.tenantOf x) (s.tile x).asid (va / 64 * 64) pX = (.ok p n, z)) (hb : z.badLine p 64 = false) :
    s.bundleFill x va = z.modTile x fun t =>
      (t.cacheLine (s.tile x).asid (va / 64) ((List.range 8).map (wordAt (z.dram.bytes p 64)))).wakeLine (va / 64) := by
  have ht' : (s.tile x).tenant.isNone = false := by rw [← Option.not_isSome, ht]; rfl
  unfold State.bundleFill
  dsimp only
  rw [if_neg (by rw [hs, ht', hw]; decide)]
  unfold State.fetchLine
  dsimp only
  rw [hf, hx]
  dsimp only
  rw [hb]
  rfl
theorem State.bundleFill_bundleAt {s z : State} {x va p n : Nat} (hs : s.service = .full) (ht : (s.tile x).tenant.isSome = true)
    (hw : (s.tile x).wantsLine (va / 64) = true) (hf : s.inFrozen (s.tenantOf x) (va / 64 * 64) 64 = true)
    (hx : s.xlate (dieOf x) (s.tenantOf x) (s.tile x).asid (va / 64 * 64) pX = (.ok p n, z)) (hb : z.badLine p 64 = false) {i : Nat} (hi : i < 8) :
    ((s.bundleFill x va).tile x).bundleAt (va / 64 * 64 + 8 * i) = some (wordAt (z.dram.bytes p 64) i) := by
  have hz : z.tile x = s.tile x := by
    have h := s.offNet_xlate (dieOf x) (s.tenantOf x) (s.tile x).asid (va / 64 * 64) pX
    rw [hx] at h
    exact h.offTile.tile x
  rw [State.bundleFill_eq hs ht hw hf hx hb, State.tile_modTile, Tile.bundleAt_wakeLine, ← hz, Tile.bundleAt_cacheLine _ _ _ hi]
  simp [hi]

/-! Binding (R376). -/
/-- The thread that a packet of a control task starts at cycle `now` under context number `cid`. -/
def boundThread (p : Packet) (cid now : Nat) : Thread :=
  { g := (List.range ((p.drop 1).take (pktLen p - 1 - pktSucc p)).length).foldl
      (fun g i => g.setIfInBounds (i + 1) (((p.drop 1).take (pktLen p - 1 - pktSucc p)).getD i 0)) (Vector.replicate 32 0),
    pc := bitsOf (p.headD 0) 16 48, cid := cid, word0 := p.headD 0, prio := BitVec.ofNat 2 (pktPrio p),
    succ := (p.drop (pktLen p - pktSucc p)).take (pktSucc p), readyAt := now + 8, outSince := now }
theorem Tile.bind_control (l : Tile) {p : Packet} (hc : pktCompute p = false) (q now : Nat) (wdog : BitVec 32) : ∃ cid next, l.bind p q now wdog =
    { l.setSlot q { l.slot q with wdogLimit := wdog, wdogCount := 0, thr := some (boundThread p cid now) } with cidNext := next } := by
  unfold Tile.bind
  dsimp only
  rw [hc]
  simp only [Bool.false_eq_true, if_false]
  exact ⟨l.nextCid l.cidNext 300, _, rfl⟩
/-- Threads that do not wait for the packet to bind elsewhere stay as they are. -/
theorem Tile.slot_unyield (l : Tile) (seq : Nat) {q : Nat} (h : ∀ th, (l.slot q).thr = some th → th.wait ≠ .yielded seq) :
    (l.unyield seq).slot q = l.slot q := by
  unfold Tile.unyield
  dsimp only
  rw [Tile.slot_ageSpills]
  exact slots_map_fixed l.slots (fun th => if th.wait = .yielded seq then th.wakeUp else th) fun th hth => if_neg (h th hth)
theorem Tile.ready_unyield (l : Tile) (seq : Nat) : (l.unyield seq).ready = l.ready := by
  unfold Tile.unyield
  dsimp only
  obtain ⟨v, hv⟩ := Tile.ageSpills_eq { l with
    slots := l.slots.map fun (q : Slot) => { q with thr := q.thr.map fun th => if th.wait = .yielded seq then th.wakeUp else th }
    spills := l.spills.map fun (e : Spilled) => { e with thr := if e.thr.wait = .yielded seq then e.thr.wakeUp else e.thr } }
  rw [hv]
section
variable {s : State} {x q : Nat} {r : Ready}
theorem State.bindOne_of_none (h : (s.tile x).bound = true ∨ (s.tile x).ready = [] ∧ (s.tile x).spills = []) : s.bindOne x = s := by
  unfold State.bindOne
  dsimp only
  rcases h with h | ⟨hr, hsp⟩
  · rw [h]
    rfl
  · split
    · rfl
    · unfold Tile.cands
      rw [hr, hsp]
      rfl
/-- The tile after the binding of its only packet. -/
theorem State.bindOne_packet (hr : (s.tile x).ready = [r]) (hsp : (s.tile x).spills = []) (hq : (s.tile x).freeSlot = some q)
    (hb : (s.tile x).bound = false) (hc : pktCompute r.words = false) : s.bindOne x = s.setTile x
      (Tile.unyield { ((s.tile x).bind r.words q (s.cycleOf x) (recWdog (s.curTenantRec x))) with ready := [], bound := true } r.seq) := by
  have hok : s.bindable x (.packet r) = true := by
    unfold State.bindable Tile.bindable Cand.compute
    dsimp only
    rw [hq, hc]
    rfl
  unfold State.bindOne
  dsimp only
  rw [hb, Tile.cands, hr, hsp, hq]
  simp only [List.map_cons, List.map_nil, List.filterMap_nil, List.append_nil, List.filter_cons_of_pos hok, List.filter_nil, firstCand, List.foldl_cons,
    List.foldl_nil, Bool.false_eq_true, if_false]
  rw [show [r].filter (· != r) = [] by simp]
theorem Tile.freeSlot_lt {l : Tile} (h : l.freeSlot = some q) : q < 8 := List.mem_range.mp (List.mem_of_find?_eq_some h)
theorem State.bindOne_spec (hr : (s.tile x).ready = [r]) (hsp : (s.tile x).spills = []) (hq : (s.tile x).freeSlot = some q)
    (hb : (s.tile x).bound = false) (hc : pktCompute r.words = false) : ((s.bindOne x).tile x).ready = [] ∧
      (∃ cid, (s.bindOne x).thr x q = some (boundThread r.words cid (s.cycleOf x))) ∧ ((s.bindOne x).tile x).sp = (s.tile x).sp ∧
      ∀ r', r' ≠ q → (∀ th', s.thr x r' = some th' → th'.wait ≠ .yielded r.seq) → (s.bindOne x).slot x r' = s.slot x r' := by
  obtain ⟨cid, next, hbind⟩ := (s.tile x).bind_control hc q (s.cycleOf x) (recWdog (s.curTenantRec x))
  have hlt := Tile.freeSlot_lt hq
  have htile : (s.bindOne x).tile x = _ := (congrArg (State.tile · x) (State.bindOne_packet hr hsp hq hb hc)).trans (State.tile_setTile ..)
  rw [hbind] at htile
  have hslot : ∀ v : Slot, ((s.tile x).setSlot q v).slot q = v := fun v => Tile.slot_setSlot v hlt
  refine ⟨?_, ⟨cid, ?_⟩, ?_, fun r' hr' hy => ?_⟩
  · rw [htile, Tile.ready_unyield]
  · rw [State.thr, State.slot, htile, Tile.slot_unyield]
    · exact congrArg Slot.thr (hslot _)
    · intro th hth
      obtain rfl := Option.some.inj (hth.symm.trans (congrArg Slot.thr (hslot _)))
      exact fun e => by cases e
  · rw [htile, Tile.unyield_sp]
    rfl
  · have hother : ∀ v : Slot, ((s.tile x).setSlot q v).slot r' = (s.tile x).slot r' := fun v => Tile.slot_setSlot_other _ v hr'
    rw [State.slot, htile, Tile.slot_unyield]
    · exact hother _
    · exact fun th hth => hy th ((congrArg Slot.thr (hother _)).symm.trans hth)
end

/-! The energy reserve (R416). -/
theorem Map.at_mem {α : Type} (m : Map α) (d : α) (k : Nat) : (k, m.at d k) ∈ m ∨ m.at d k = d := by
  induction m with
  | nil => exact .inr rfl
  | cons e m ih =>
    obtain ⟨j, v⟩ := e
    by_cases h : j = k
    · subst h
      refine .inl ?_
      rw [show Map.at ((j, v) :: m) d j = v by simp [Map.at, Map.find]]
      exact List.mem_cons_self ..
    · rw [show Map.at ((j, v) :: m) d k = Map.at m d k by simp [Map.at, Map.find, h]]
      exact ih.imp_left (List.mem_cons_of_mem _)
section
variable {s : State}
/-- No record waits at a host port. -/
theorem State.portFlush_idle (h : ∀ p, ∀ f ∈ (s.port p).fns, f.2.ops = []) (d : Nat) : s.portFlush d = s := by
  have hfn : ∀ p n, s.fnOn p n = true → ((s.port p).fn n).ops = [] := fun p n hn => by
    have hn : n ≠ 256 := by
      unfold State.fnOn at hn
      simp only [Bool.and_eq_true, decide_eq_true_eq] at hn
      omega
    unfold HostPort.fn
    rw [if_neg hn]
    rcases (s.port p).fns.at_mem {} n with hm | hm
    · exact h p _ hm
    · rw [hm]
  have hflush : ∀ p n, s.hostFlush p n = s := fun p n => by
    unfold State.hostFlush
    cases hon : s.fnOn p n with
    | false => rfl
    | true =>
      rw [hfn p n hon]
      rfl
  refine List.foldl_fixed' (fun p => ?_) _
  split
  · exact List.foldl_fixed' (fun f => hflush p f.1) _
  · rfl
/-- A context on which nothing is to be sent, handed on or acknowledged. -/
def Peer.idle (p : Peer) : Prop := p.txq = [] ∧ p.parts = [] ∧ p.window = [] ∧ p.ackDue = none ∧ p.ackCount < 16
theorem State.spireFlush_idle {c : Nat} (h : (s.peer c).idle) : s.spireFlush c = s := by
  obtain ⟨htx, -, hw, -, -⟩ := h
  have hagain : s.spireAgain c = s := by
    unfold State.spireAgain
    rw [hw]
    rfl
  unfold State.spireFlush
  rw [hagain, htx]
  split <;> rfl
theorem State.ackTimer_idle {c : Nat} (h : (s.peer c).idle) : s.ackTimer c = s := by
  obtain ⟨-, -, -, hd, hc⟩ := h
  unfold State.ackTimer State.ackIsDue
  rw [hd, decide_eq_false (Nat.not_le.mpr hc)]
  rfl
theorem State.handOnAll_idle {c : Nat} (h : (s.peer c).idle) (f : Nat) : s.handOnAll c f = s := by
  obtain ⟨-, hp, -, -, -⟩ := h
  cases f with
  | zero => rfl
  | succ f =>
    unfold State.handOnAll Peer.message
    dsimp only
    rw [hp]
    rfl
theorem State.linkFlush_idle (h : ∀ e ∈ s.peers, Peer.idle e.2) (d : Nat) : s.linkFlush d = s := by
  have hidle : ∀ c, (s.peer c).idle := fun c => by
    rcases Map.at_mem s.peers {} c with hm | hm
    · exact h _ hm
    · unfold State.peer
      rw [hm]
      exact ⟨rfl, rfl, rfl, rfl, by decide⟩
  refine List.foldl_fixed' (fun e => ?_) _
  rw [State.spireFlush_idle (hidle e.1), State.ackTimer_idle (hidle e.1)]
  dsimp only
  rw [State.handOnAll_idle (hidle e.1), ite_self]
theorem State.energyArrives_idle {d : Nat} (hd : (s.die d).refillAt ≤ (s.die d).cycle.toNat) (hf : ∀ p, ∀ f ∈ (s.port p).fns, f.2.ops = [])
    (hp : ∀ e ∈ s.peers, Peer.idle e.2) : s.energyArrives d = s.setDie d
      { s.die d with reserve := min 4500000000 ((s.die d).reserve + (s.die d).share * 1000000), refillAt := (s.die d).refillAt + s.usCycles } := by
  have hlt : ¬ (s.die d).cycle.toNat < (s.die d).refillAt := Nat.not_lt.mpr hd
  unfold State.energyArrives State.energyRefill
  dsimp only
  rw [if_neg hlt, if_neg hlt, State.portFlush_idle (s := s.setDie d _) hf, State.linkFlush_idle (s := s.setDie d _) hp, Nat.cast_mul]
  rfl
theorem State.die_setDie {d : Nat} (hd : d < 4) (v : Die) : (s.setDie d v).die d = v := by simp [State.die, State.setDie, hd]
theorem State.die_setDie_other {d e : Nat} (h : e ≠ d) (v : Die) : (s.setDie d v).die e = s.die e := by simp [State.die, State.setDie, Ne.symm h]
end

end Sys2Proof.Machine
end

section
/-! O37 itself: the events of a thread, of speculation, of a tile and of a die's reserve. -/
namespace Sys2Proof.Machine

/-- Settles O37: each event is its turn of `Machine/Speculation` or `Machine/Sched`, whose effect on the thread that the tile's slots hold is a lemma of
its own; what is sent meanwhile, and what goes into images, lies outside the tiles. -/
theorem threadEvents : Obligations.ThreadEvents := by
  refine ⟨fun s x q th hs ht hq hsu hban => ?_, fun s x q th hs ht hq _ => ?_, ?_, ?_, ?_, ?_⟩
  · have h : s.Resident x q th := ⟨ht, hq⟩
    have hwake := Thread.wakeUp_eq hsu hban
    refine ⟨fun hr hact hsp => ⟨fun v hv => ?_, fun v hw hv => ?_⟩, fun hl hc => ?_, fun hslot hz hd hw => ?_, fun op due o hw hd ho hid hc hg => ?_,
      fun e hw he _ ho hf => ?_, fun hw hf => ?_, fun ids hw hi => ?_, fun hw hf hsucc => ?_, fun v hw hf => ?_, fun hc => ?_,
      fun hsp hl hs' r hr hv => ?_, fun hsp hc hs' hy _ ps z hcov him hz => ?_⟩
    · exact ⟨_, _, State.event_next hs fun s => s.pendingTaken x q, h.thr_pendingTaken_wdog hr hact hsp hv, rfl⟩
    · exact ⟨_, _, State.event_next hs fun s => s.pendingTaken x q, h.thr_pendingTaken_timer hr hact hsp hw hv, rfl⟩
    · exact ⟨_, State.event_next hs fun s => s.watchdog x q, h.slot_watchdog hl hc⟩
    · exact ⟨_, State.event_next hs fun s => s.timerFire x, h.timerFire hslot hz hd hw⟩
    · refine ⟨_, State.event_next hs fun s => s.sleepExpire x th.cid, ?_⟩
      have hend := h.endSleep_zero hw ho hc hg
      rw [Thread.wakeUp_land hsu hban, hid, ← h.sleepExpire_eq hw hd] at hend
      exact hend
    · exact ⟨_, State.event_next hs fun s => s.tryArrive x th.cid, h.tryArrive he hw ho hf⟩
    · exact ⟨_, State.event_next hs fun s => s.tryTfence x th.cid, (h.tryTfence hw hf).trans (congrArg some (Thread.wakeUp_eq hsu hban))⟩
    · exact ⟨_, State.event_next hs fun s => s.tryFence x th.cid, hwake ▸ h.tryFence hw hi⟩
    · obtain ⟨hthr, hreg, hown⟩ := h.tryExit hw hf hsu hsucc
      exact ⟨_, State.event_next hs fun s => s.tryExit x th.cid, hthr, fun e he _ => hreg e he, hown⟩
    · exact ⟨_, State.event_next hs fun s => s.tryNotify x th.cid, hwake ▸ h.tryNotify hw hf⟩
    · exact ⟨_, State.event_next hs fun s => s.refillArrived x th.cid, h.refillArrived hc⟩
    · refine ⟨_, State.event_next hs fun s => s.spillStart x, ?_⟩
      rw [State.spillStart_eq hsp hl hs' hr hv, State.tile_setTile]
      exact ⟨rfl, (h.modTile (f := fun t => { t with spilling := some th.cid }) rfl).thr⟩
    · obtain ⟨hthr, hspill, hmem, e, he, hth, hpl⟩ := h.spillDone hsp hc hs' hy hcov him hz
      exact ⟨_, e, State.event_next hs fun s => s.spillDone x, hthr, hspill, he, hth, hpl, hmem⟩
  · have h : s.Resident x q th := ⟨ht, hq⟩
    refine ⟨fun m a sp note ha hd hb hsp hact => ⟨_, State.event_next hs fun s => s.notifyAt m, h.notifyAt ha hd hb hsp hact⟩,
      fun sp hsp hst hsu hp hw ho hv hc => ?_, fun sp hsp hst hsu hp hw hv hc hqu hd => ⟨_, State.event_next hs fun s => s.endCommit x q,
        h.endCommit hsp hst hsu hp hv hc hqu hd⟩, fun m a k ph e ha hd hb hk htn hearly hother => ⟨fun hw hsp hsu hban => ?_,
          fun sp b hsp hact he hbuf hbad hwf hw hv hstat => ?_⟩⟩
    · obtain ⟨hmem, now, hthr⟩ := h.rollBack hsp hst hsu hp ho hv hc
      obtain ⟨hpc, hg, hpr, hround, hcause, hrbk⟩ := th.rolledBack_regs sp (!((s.tile x).bar sp.entry).arr.getLsbD q) now
      refine ⟨_, _, State.event_next hs fun s => s.rollBack x q, hthr, hpc, hg, hpr, hround, hcause, hrbk, hmem, fun hrel => ?_, fun hrel => ?_⟩
      · rw [hrel]
        exact ⟨rfl, rfl⟩
      · rw [hrel]
        exact ⟨rfl, _, rfl, rfl, rfl⟩
    · exact ⟨_, State.event_next hs fun s => s.releaseAt m, h.releaseAt_waiting ha hd hb hk htn hearly hother hw hsp hsu hban⟩
    · have hcom : s.Commits x q th sp b := ⟨h, hsp, hact, hbuf, hv, hother, hbad, hwf, hstat⟩
      obtain ⟨harr, hthr, hmem⟩ := hcom.releaseAt ha hd hb hk htn hearly he hw
      refine ⟨_, State.event_next hs fun s => s.releaseAt m, harr, hthr.trans ?_, fun k => ?_⟩
      · rw [Thread.committed, hbuf]
        rfl
      · rw [hmem]
        exact Memory.read_drained b hwf k
  · intro s z x va p n hs ht hw hf hx hb
    refine ⟨_, State.event_next (by rw [State.stopped, hs]; rfl) fun s => s.bundleFill x va, fun i hi => State.bundleFill_bundleAt hs ht hw hf hx hb hi⟩
  · intro s x q r hs hr hsp hq hact hb hc
    obtain ⟨hready, ⟨cid, hthr⟩, hmem, hother⟩ := State.bindOne_spec hr hsp hq hb hc
    have hex : exec (.packetBind x) s = .next (s.bindOne x) :=
      (State.event_next hs fun s => if (s.tile x).acted then s.bindOne x else s).trans (congrArg Host.Outcome.next (if_pos hact))
    exact ⟨_, _, hex, hready, hthr, rfl, rfl, rfl, rfl, rfl, rfl, rfl, rfl, rfl, hmem, hother⟩
  · intro s x hs hno
    refine (State.event_next hs fun s => if (s.tile x).acted then s.bindOne x else s).trans (congrArg Host.Outcome.next ?_)
    rcases hno with hno | hno | hno
    · rw [State.bindOne_of_none (.inr hno), ite_self]
    · exact if_neg (by rw [hno]; decide)
    · rw [State.bindOne_of_none (.inl hno), ite_self]
  · intro s d hs hd hdue hf hp
    refine ⟨_, State.event_next hs fun s => s.energyArrives d, ?_⟩
    rw [State.energyArrives_idle hdue hf hp, State.die_setDie hd]
    exact ⟨rfl, rfl, fun e he => State.die_setDie_other he _, rfl⟩

end Sys2Proof.Machine
end

section
/-! A V operation enters its window (06_associative.md R160 to R164, R180), and O32 itself. -/
namespace Sys2Proof.Machine

/-! The window and the thread that an operation enters. -/
/-- A window after operation `v` with number `id` has entered it. -/
def Window.entered (v : VIssue) (id : Nat) (u : Window) : Window :=
  { u with fds := v.fd.elim u.fds fun p => u.fds.setIfInBounds p.1 p.2, queue := u.queue ++ [{ v.entry with id := id }] }
theorem Tile.entered_eq (w : Nat) (v : VIssue) (id : Nat) (l : Tile) : l.entered w v id = l.setWin w ((l.win w).entered v id) := rfl
/-- A thread outside speculation that an operation leaves. -/
theorem Thread.entered_eq {t : Thread} {v : VIssue} (hspec : t.spec = none) (hreads : v.reads = []) (id : Nat) :
    t.entered v id = { t with outs := t.outs ++ [id], vl := v.vl.getD t.vl, warn := t.warn ||| v.warn,
                              pend := match v.gdst with
                                | some d => if d = 0 then t.pend else t.pend ++ [(d, id)]
                                | none => t.pend } := by
  have hsized : (t.setWarn v.warn).sized v = { t with warn := t.warn ||| v.warn, vl := v.vl.getD t.vl } := by
    unfold Thread.sized Thread.setWarn
    rw [hspec, Option.map_none, ← hspec]
  unfold Thread.entered
  rw [hreads, List.foldl_nil, hsized]
  unfold Thread.launch
  cases v.gdst with
  | none => rfl
  | some d =>
    dsimp only
    split <;> rfl
theorem Tile.win_setWin_other {l : Tile} {w w' : Nat} (u : Window) (h : w' ≠ w) : (l.setWin w u).win w' = l.win w' := by
  simp [Tile.win, Tile.setWin, Ne.symm h]
/-- A tile around an operation's entry: the issuing slot counted before it, its thread changed after it. -/
def Tile.issuedEntered (l : Tile) (q : Nat) (a b : Slot) (m : List Nat) (w : Nat) (v : VIssue) (id : Nat) : Tile :=
  (((l.setSlot q a).withSoft m).entered w v id).setSlot q b
section
variable (l : Tile) (q : Nat) (a b : Slot) (m : List Nat) (v : VIssue) (id : Nat)
theorem Tile.issuedEntered_win {w : Nat} (h : w < 4) : (l.issuedEntered q a b m w v id).win w = (l.win w).entered v id := Tile.win_setWin _ h
theorem Tile.issuedEntered_win_other {w w' : Nat} (h : w' ≠ w) : (l.issuedEntered q a b m w v id).win w' = l.win w' :=
  Tile.win_setWin_other _ h
theorem Tile.issuedEntered_sp (w : Nat) : (l.issuedEntered q a b m w v id).sp = l.sp := rfl
end

/-! The state that an operation enters. -/
section
variable {r : State} {x q : Nat} {th : Thread}
theorem State.tile_vQueued (hth : r.thr x q = some th) (w : Nat) (v : VIssue) :
    (r.vQueued x q w v).tile x = ((r.tile x).entered w v r.nextId).setSlot q { r.slot x q with thr := some (th.entered v r.nextId) } := by
  have hslot : (r.bump.modTile x (Tile.entered w v r.nextId)).slot x q = r.slot x q := by
    rw [State.slot, State.tile_modTile]
    rfl
  unfold State.vQueued State.modThr
  rw [State.thr, hslot, ← State.thr, hth]
  dsimp only
  rw [State.setSlot, State.tile_modTile, State.tile_modTile]
  rfl
theorem State.thr_vQueued (hth : r.thr x q = some th) (w : Nat) (v : VIssue) : (r.vQueued x q w v).thr x q = some (th.entered v r.nextId) := by
  rw [State.thr, State.slot, State.tile_vQueued hth, Tile.slot_setSlot _ (State.slot_lt hth)]
theorem State.dram_vQueued (w : Nat) (v : VIssue) : (r.vQueued x q w v).dram = r.dram := by simp [State.vQueued]
end

/-- What the operation leaves, outside speculation. -/
structure State.Entered (s u : State) (t : Thread) (v : VIssue) : Prop where
  thr : u.thr s.tx s.sx = some (t.stepped.entered v s.nextId)
  win : u.ctile.win t.win = (s.ctile.win t.win).entered v s.nextId
  others : ∀ w, w ≠ t.win → u.ctile.win w = s.ctile.win w
  sp : u.ctile.sp = s.ctile.sp
  dram : u.dram = s.dram
/-- The shape record of a load is read first, which may correct single-bit errors. -/
theorem State.Issues.vEnter {s : State} {t : Thread} (h : s.Issues t) (hspec : t.spec = none) (v : VIssue) :
    ∃ r, (s.issued t.stepped).vEnter s.tx s.sx v = r.vQueued s.tx s.sx t.win v ∧ (s.issued t.stepped).OnTile s.tx r ∧
      ∃ m, r.tile s.tx = ((s.issued t.stepped).tile s.tx).withSoft m := by
  have hthr := h.thr_issued t.stepped
  have hwin : (((s.issued t.stepped).thr s.tx s.sx).getD {}).win = t.win := by rw [hthr]; rfl
  cases hl : v.load with
  | none => exact ⟨_, (State.vEnter_of_none hl).trans (by rw [hwin]), State.OnTile.refl .., _, rfl⟩
  | some a =>
    have hread : ((s.issued t.stepped).modThr s.tx s.sx fun t => t.mark_read a 32) = s.issued t.stepped := by
      refine (h.modCur_issued t.stepped _).trans ?_
      rw [Thread.mark_read_of_none (t := t.stepped) hspec]
    refine ⟨_, (State.vEnter_of_some hl).trans (by rw [hwin, hread]), State.OnTile.scrub .., State.tile_scrub ..⟩
theorem State.Issues.entered {s : State} {t : Thread} (h : s.Issues t) (hspec : t.spec = none) (hw : t.win < 4) (v : VIssue) :
    s.Entered ((s.issued t.stepped).vEnter s.tx s.sx v) t v := by
  obtain ⟨r, hr, hon, m, hm⟩ := h.vEnter hspec v
  have htile : r.tile s.tx = (s.ctile.setSlot s.sx (s.issuedSlot t.stepped)).withSoft m := hm.trans (congrArg _ (s.tile_issued t.stepped))
  have hthr : r.thr s.tx s.sx = some t.stepped := by
    rw [State.thr, State.slot, hm]
    exact h.thr_issued t.stepped
  have hid : r.nextId = s.nextId := by
    have := congrArg State.nextId hon.rest
    exact this
  have hdram : r.dram = s.dram := by
    have := congrArg State.dram hon.rest
    exact this
  have htx : (r.vQueued s.tx s.sx t.win v).tx = s.tx := by
    rw [State.tx, State.vQueued_cur, hon.cur]
    rfl
  obtain ⟨b, hctile⟩ : ∃ b, (r.vQueued s.tx s.sx t.win v).ctile =
      s.ctile.issuedEntered s.sx (s.issuedSlot t.stepped) b m t.win v s.nextId :=
    ⟨_, by rw [State.ctile, htx, State.tile_vQueued hthr, hid, htile, Tile.issuedEntered]⟩
  rw [hr]
  refine ⟨?_, ?_, fun w hne => ?_, ?_, ?_⟩
  · rw [State.thr_vQueued hthr, hid]
  · rw [hctile, Tile.issuedEntered_win _ _ _ _ _ _ _ hw]
  · rw [hctile, Tile.issuedEntered_win_other _ _ _ _ _ _ _ hne]
  · rw [hctile, Tile.issuedEntered_sp]
  · rw [State.dram_vQueued, hdram]

/-! Issue. -/
theorem encodeWord_of_vop {i : Instr} {o : VOp} (h : i.vop = some o) :
    encodeWord i = BitVec.ofNat 64 ((encodeNat ⟨false, 0, false, .nop, o⟩).getD 0) := by
  unfold encodeWord Instr.alone
  rw [h]
theorem Thread.stepped_unmarked (t : Thread) : { t.stepped with mark := false } = t.stepped := rfl
section
variable {i : Instr} {o : VOp} {s : State} {t : Thread} (hi : i.vop = some o) (h : s.Issues t)
include hi h
/-- `VNOP` has no effect (R180). -/
theorem exec_vnop (hk : o.kind = .vnop) : exec i s = .next (s.issued t.stepped) := by
  unfold Instr.vop at hi
  split at hi <;> cases hi
  case h_1 =>
    rw [exec_of_vop (i := .vnop) (o := .vnop) rfl, State.runV, State.issueV,
      h.runV _ false (fun _ hr => by cases hr) (fun e => absurd rfl e) rfl fun _ => vAct_vnop s, Thread.stepped_unmarked]
    exact congrArg Host.Outcome.next (if_pos rfl)
  all_goals exact nomatch hk
/-- A V operation in a control thread is ILLOP (R59 rank 2). -/
theorem exec_vop_control (hk : o.kind ≠ .vnop) (hc : t.compute = false) : exec i s = .next (s.trapped ⟨2, 1, encodeWord i⟩) := by
  have hvec : ((Half.none.vec || (halfV o).vec) && !t.compute) = true := by
    rw [hc]
    simpa [Half.none, halfV] using hk
  rw [exec_of_vop hi, State.runV, State.issueV, ← encodeWord_of_vop hi, ← State.issue_guardOff (hs := Half.none) (.inl rfl)]
  refine congrArg Host.Outcome.next (h.trap ?_)
  simp only [bundleTraps, h.cthr, hvec, ↓reduceIte, Bool.false_eq_true, List.append_nil, List.cons_append, List.nil_append]
  exact firstTrap_cons_of_le (List.forall_mem_append.mpr ⟨t.hazards_rank _, vChecks_rank _ s⟩)
/-- One that passes every check enters its window. -/
theorem exec_vop_compute (hk : o.kind ≠ .vnop) (hc : t.compute = true) (hspec : t.spec = none) (hw : t.win < 4)
    (hclear : t.Clear (vGSrcs o ++ (vGDst o).toList)) (hchk : vChecks o s = []) :
    ∃ u, exec i s = .next u ∧ s.Entered u t (vSample o s) := by
  have hsp : ¬ t.speculative = true := by simp [Thread.speculative, hspec]
  refine ⟨_, ?_, h.entered hspec hw (vSample o s)⟩
  rw [exec_of_vop hi, State.runV, State.issueV, h.runV _ false hclear (fun _ => hc) hchk fun e => absurd e hsp, Thread.stepped_unmarked]
  exact congrArg Host.Outcome.next (if_neg hk)
end

/-! What is sampled outside speculation. -/
section
variable {s : State} {t : Thread} (h : s.Issues t) (hspec : t.spec = none) (o : VOp)
include h hspec
theorem vSample_reads : (vSample o s).reads = [] := by
  unfold vSample
  simp [h.cthr, Thread.speculative, hspec]
theorem vSample_entry : (vSample o s).entry =
    let v := s.ctile.win t.win
    ⟨0, t.cid, o, fieldAt v o.d, fieldAt v o.a, fieldAt v o.b, t.vl, t.round,
      if o.kind = .vfrd then (fieldAt v o.a).word else t.rd (BitVec.ofNat 5 o.a), t.rd (BitVec.ofNat 5 o.b),
      if vQuiet o then [] else vShape o s, vQuiet o, false, none⟩ := by
  have hread (n : Nat) : t.readFld n = n := by rw [Thread.readFld, hspec]
  have hwrite (n : Nat) : t.writeFld n = n := by rw [Thread.writeFld, hspec]
  have hsp : t.speculative = false := by rw [Thread.speculative, hspec]
  unfold vSample
  simp only [h.cthr, hread, hwrite, hsp, ite_self]
end

theorem vSample_vl (o : VOp) (s : State) (hk : o.kind ∉ [VKind.vvl, .vvli]) : (vSample o s).vl = none := by
  unfold vSample
  dsimp only
  split <;> simp_all
/-- Only `VFLD`, `VFLDI` and `VFCPY` write a descriptor, the one that they name (R180). -/
theorem vSample_fd (o : VOp) (s : State) :
    (vSample o s).fd = none ∨ o.kind ∈ [VKind.vfld, .vfldi, .vfcpy] ∧ ∃ f, (vSample o s).fd = some (o.d, f) := by
  unfold vSample
  dsimp only
  split
  · exact .inr ⟨by simp [*], _, rfl⟩
  · exact .inr ⟨by simp [*], _, rfl⟩
  · exact .inr ⟨by simp [*], _, rfl⟩
  · exact .inl rfl
theorem fieldOf_rule (start width : Nat) :
    fieldOf start width = (ruleField start width, decide (width = 0 ∨ 256 < start + width)) := by
  by_cases hc : width = 0 ∨ 256 < start + width
  · rw [fieldOf, if_pos (by omega), ruleField, if_neg (by omega), decide_eq_true hc]
  · rw [fieldOf, if_neg (by omega), ruleField, if_pos (by omega), decide_eq_false hc]

/-- The window that an operation leaves: other descriptors stay. -/
theorem Window.entered_fds_other {v : VIssue} {o : VOp} {s : State} (hv : vSample o s = v) (id : Nat) (u : Window) {n : Nat}
    (hn : o.kind ∉ [VKind.vfld, .vfldi, .vfcpy] ∨ n ≠ o.d) : (u.entered v id).fds[n]? = u.fds[n]? := by
  subst hv
  unfold Window.entered
  rcases vSample_fd o s with hfd | ⟨hk, f, hfd⟩
  · rw [hfd]
    rfl
  · have hne : n ≠ o.d := hn.resolve_left fun h => h hk
    rw [hfd]
    exact Vector.getElem?_setIfInBounds_ne hne.symm
theorem Window.entered_fds_same {v : VIssue} {d : Nat} {f : FieldDesc} (hv : v.fd = some (d, f)) (id : Nat) (u : Window) (hd : d < 32) :
    (u.entered v id).fds[d]? = some f := by
  unfold Window.entered
  rw [hv]
  exact Vector.getElem?_setIfInBounds_self_of_lt hd

/-! The obligation. -/
section
variable {i : Instr} {o : VOp} {s : State} {t : Thread} (hi : i.vop = some o) (h : s.Issues t) (hk : o.kind ≠ .vnop) (hc : t.compute = true)
  (hspec : t.spec = none) (hw : t.win < 4)
include hi h hk hc hspec hw
/-- A setup operation that no check stops leaves its descriptor, the length and the warning. -/
theorem exec_setup (hclear : t.Clear (vGSrcs o ++ (vGDst o).toList)) (hchk : vChecks o s = []) : ∃ u t', exec i s = .next u ∧
    u.thr s.tx s.sx = some t' ∧ t'.vl = (vSample o s).vl.getD t.vl ∧ t'.warn = t.warn ||| (vSample o s).warn ∧
    ∀ d f, d < 32 → (vSample o s).fd = some (d, f) → (u.ctile.win t.win).fds[d]? = some f := by
  obtain ⟨u, hexec, hu⟩ := exec_vop_compute hi h hk hc hspec hw hclear hchk
  have ht := Thread.entered_eq (t := t.stepped) hspec (vSample_reads h hspec o) s.nextId
  refine ⟨u, _, hexec, hu.thr, by rw [ht]; rfl, by rw [ht]; rfl, fun d f hd hf => ?_⟩
  rw [hu.win]
  exact Window.entered_fds_same hf _ _ hd
end

/-- Settles O32: what every operation samples, and what the setup operations set. -/
theorem windowIssue : Obligations.WindowIssue := by
  unfold Obligations.WindowIssue
  intro i o hi _ s t h
  refine ⟨exec_vnop hi h, exec_vop_control hi h, fun hk hc hw hspec hclear hchk => ?_, fun hc hw hspec => ⟨?_, ?_, ?_, ?_, ?_⟩⟩
  · obtain ⟨u, hexec, hu⟩ := exec_vop_compute hi h hk hc hspec hw hclear hchk
    have hentry := vSample_entry h hspec o
    have ht := Thread.entered_eq (t := t.stepped) hspec (vSample_reads h hspec o) s.nextId
    refine ⟨u, { (vSample o s).entry with id := s.nextId }, _, hexec, hu.thr, ?_⟩
    rw [hu.win, hentry, ht]
    refine ⟨by rw [Window.entered, hentry], rfl, rfl, rfl, rfl, rfl, rfl, rfl, rfl, rfl, rfl, rfl, rfl, rfl, rfl, hu.sp, hu.dram,
      fun w _ => hu.others w, rfl, rfl, rfl, fun n _ hn => Window.entered_fds_other rfl _ _ hn, fun hvl => ?_⟩
    rw [vSample_vl o s hvl]
    rfl
  · rintro d a rfl hclear
    obtain rfl := Option.some.inj hi
    obtain ⟨u, t', hexec, hthr, -, hwarn, hfd⟩ := exec_setup hi h (fun hk => nomatch hk) hc hspec hw (by simpa [vGSrcs, vGDst] using hclear) rfl
    refine ⟨u, t', hexec, hthr, hfd _ _ d.isLt ?_, hwarn.trans (congrArg (t.warn ||| ·) ?_)⟩
    · simp only [vSample, h.cthr, fieldOf_rule, bitsOf]
      simp
    · simp only [vSample, h.cthr, fieldOf_rule, bitsOf]
      simp [warnIc]
  · rintro d st wd rfl
    obtain rfl := Option.some.inj hi
    obtain ⟨u, t', hexec, hthr, -, hwarn, hfd⟩ := exec_setup hi h (fun hk => nomatch hk) hc hspec hw (fun _ hr => absurd hr List.not_mem_nil) rfl
    have hx : (st.toNat + wd.toNat * 256) % 256 = st.toNat ∧ (st.toNat + wd.toNat * 256) / 256 % 512 = wd.toNat := by omega
    refine ⟨u, t', hexec, hthr, hfd _ _ d.isLt ?_, hwarn.trans (congrArg (t.warn ||| ·) ?_)⟩
    · simp only [vSample, fieldOf_rule, hx]
    · simp only [vSample, fieldOf_rule, hx]
      simp [warnIc]
  · rintro d a rfl
    obtain rfl := Option.some.inj hi
    obtain ⟨u, t', hexec, hthr, -, -, hfd⟩ := exec_setup hi h (fun hk => nomatch hk) hc hspec hw (fun _ hr => absurd hr List.not_mem_nil) rfl
    refine ⟨u, hexec, (hfd _ _ d.isLt rfl).trans ?_⟩
    have ha : a.toNat < 32 := a.isLt
    rw [h.cthr, fieldAt, Vector.getElem?_eq_getElem ha, Option.getD_some]
  · rintro a rfl hclear
    obtain rfl := Option.some.inj hi
    obtain ⟨u, t', hexec, hthr, hvl, hwarn, -⟩ := exec_setup hi h (fun hk => nomatch hk) hc hspec hw (by simpa [vGSrcs, vGDst] using hclear) rfl
    refine ⟨u, t', hexec, hthr, hvl.trans ?_, hwarn.trans (congrArg (t.warn ||| ·) ?_)⟩
    · simp [vSample, h.cthr, Config.rows]
    · simp [vSample, h.cthr, warnIc, Config.rows]
  · rintro n rfl
    obtain rfl := Option.some.inj hi
    obtain ⟨u, t', hexec, hthr, hvl, hwarn, -⟩ := exec_setup hi h (fun hk => nomatch hk) hc hspec hw (fun _ hr => absurd hr List.not_mem_nil) rfl
    have hx : n.toNat % 8192 = n.toNat := Nat.mod_eq_of_lt n.isLt
    refine ⟨u, t', hexec, hthr, hvl.trans ?_, hwarn.trans (congrArg (t.warn ||| ·) ?_)⟩
    · simp [vSample, hx, Config.rows]
    · simp [vSample, hx, warnIc, Config.rows]

end Sys2Proof.Machine
end

section
/-! The start of a V operation that is no transfer, in a window without parity errors: the rows it selects, what its run leaves, the flags
(06_associative.md R164 to R168, R204). -/
namespace Sys2Proof.Machine

theorem FieldDesc.get_lt (f : FieldDesc) (w : Nat) (row : Row) : f.get w row < 2 ^ w :=
  (Nat.mod_lt _ (Nat.two_pow_pos _)).trans_le (Nat.pow_le_pow_right Nat.two_pos (Nat.min_le_right ..))
theorem Window.failures_of_clean {v : Window} (h : v.badPar = []) (rs gs : List Nat) : v.failures rs gs = [] := by
  simp [Window.failures, h]
theorem Window.failing_of_clean {v : Window} (h : v.badPar = []) (r : Nat) (gs : List Nat) : v.failing r gs = [] := by
  simp [Window.failing, h]

theorem Window.all_of_rows {v v' : Window} (h : v'.rows = v.rows) : v'.all = v.all := congrArg (rowList _ _) h

/-! What a run leaves. -/
/-- The rows of a window that the operation selects. -/
def VEntry.chosen (e : VEntry) (v : Window) : List (Nat × Row) := v.all.filter fun p => e.selects p.1 p.2
/-- The window after every selected row `r` has become `f r`. -/
def VEntry.rewrite (e : VEntry) (v : Window) (f : Nat × Row → Row) : Window :=
  { v with rows := rowMap (v.all.map fun p => if e.selects p.1 p.2 then (p.1, f p) else p) }
/-- The union of the flags that rows raise. -/
def unionFlags (l : List (Nat × Row)) (f : Nat × Row → FFlags) : FFlags := l.foldl (fun x p => x ||| f p) 0
theorem VEntry.all_rewrite (e : VEntry) (v : Window) (f : Nat × Row → Row) :
    (e.rewrite v f).all = v.all.map fun p => (p.1, if e.selects p.1 p.2 then f p else p.2) := by
  rw [← v.all_map fun r row => if e.selects r row then f (r, row) else row]
  refine congrArg (fun l => Window.all { v with rows := rowMap l }) (List.map_congr_left fun p _ => ?_)
  split <;> rfl
theorem getLsbD_foldl_or (f : Nat × Row → FFlags) (l : List (Nat × Row)) (x : FFlags) (k : Nat) :
    (l.foldl (fun x p => x ||| f p) x).getLsbD k = (x.getLsbD k || l.any fun p => (f p).getLsbD k) := by
  induction l generalizing x with
  | nil => simp
  | cons p l ih => rw [List.foldl_cons, ih, BitVec.getLsbD_or, List.any_cons, Bool.or_assoc]
/-- A flag stands in the union if a selected row raises it. -/
theorem VEntry.getLsbD_unionFlags (e : VEntry) (v : Window) (f : Nat × Row → FFlags) (k : Nat) :
    (unionFlags (e.chosen v) f).getLsbD k = v.all.any fun p => (if e.selects p.1 p.2 then f p else 0).getLsbD k := by
  have hzero : (0 : FFlags).getLsbD k = false := BitVec.getLsbD_zero
  rw [unionFlags, getLsbD_foldl_or, VEntry.chosen, List.any_filter, hzero, Bool.false_or]
  refine congrArg (v.all.any) (funext fun p => ?_)
  split <;> simp [*]

/-! The start. -/
theorem State.Starts.start {s : State} {x w : Nat} {e : VEntry} {rest : List VEntry} (h : s.Starts x w e rest)
    (hk : isTransfer e.op.kind = false) {o : VOut} (hrun : e.run ((s.tile x).win w) = o) :
    ∃ u c, Machine.exec (.vopStart x w) s = .next u ∧
      ((u.tile x).win w) = { o.win with queue := rest, busy := some ⟨e, some o.g, o.flags, true, c⟩ } ∧ (u.tile x).sp = (s.tile x).sp := by
  have ht : e.turns = false := by simp [VEntry.turns, h.2.2.2.2.2.1, hk]
  obtain ⟨c, hwin, hsp⟩ := h.run ht
  exact ⟨_, c, h.exec, hrun ▸ hwin, hsp⟩
/-- An operation whose run keeps descriptors and microcode and raises these flags. -/
theorem State.Starts.ran {s : State} {x w : Nat} {e : VEntry} {rest : List VEntry} (h : s.Starts x w e rest)
    (hk : isTransfer e.op.kind = false) {o : VOut} (hrun : e.run ((s.tile x).win w) = o) (hfds : o.win.fds = ((s.tile x).win w).fds)
    (hucode : o.win.ucode = ((s.tile x).win w).ucode) {fl : Nat → Row → FFlags}
    (hfl : ∀ k, o.flags.getLsbD k = ((s.tile x).win w).all.any fun p => (fl p.1 p.2).getLsbD k) :
    ∃ u, Machine.exec (.vopStart x w) s = .next u ∧ s.Ran u x w e rest o.g fl ∧ ((u.tile x).win w).rows = o.win.rows := by
  obtain ⟨u, c, hexec, hwin, hsp⟩ := h.start hk hrun
  refine ⟨u, hexec, ⟨?_, ?_, ?_, hsp, ⟨e, some o.g, o.flags, true, c⟩, ?_, rfl, rfl, rfl, hfl⟩, ?_⟩
  all_goals rw [hwin]
  · exact hfds
  · exact hucode
/-- An operation that rewrites the selected rows. -/
theorem State.Starts.rewrites {s : State} {x w : Nat} {e : VEntry} {rest : List VEntry} (h : s.Starts x w e rest)
    (hk : isTransfer e.op.kind = false) {f : Nat × Row → Row} {fl : Nat × Row → FFlags}
    (hrun : e.run ((s.tile x).win w) = ⟨e.rewrite ((s.tile x).win w) f, 0, unionFlags (e.chosen ((s.tile x).win w)) fl, []⟩) :
    ∃ u, Machine.exec (.vopStart x w) s = .next u ∧
      s.Ran u x w e rest 0 (fun r row => if e.selects r row then fl (r, row) else 0) ∧
      ((u.tile x).win w).all = ((s.tile x).win w).all.map fun p => (p.1, if e.selects p.1 p.2 then f p else p.2) := by
  obtain ⟨u, hexec, hran, hrows⟩ := h.ran (fl := fun r row => if e.selects r row then fl (r, row) else 0) hk hrun rfl rfl
    (e.getLsbD_unionFlags _ fl)
  exact ⟨u, hexec, hran, (Window.all_of_rows hrows).trans (e.all_rewrite _ f)⟩
theorem State.Starts.clean {s : State} {x w : Nat} {e : VEntry} {rest : List VEntry} (h : s.Starts x w e rest) :
    ((s.tile x).win w).badPar = [] := h.2.2.2.2.1

/-! The operations that write a field or a tag row by row. -/
/-- The width of source field `i`. -/
def VEntry.srcWidth (e : VEntry) (i : Nat) : Nat := (((vSrcs e.op e.fa.width).find? fun q => q.1 == i).map Prod.snd).getD 0
def VEntry.srcA (e : VEntry) (row : Row) : Nat := e.fa.get (e.srcWidth 1) row
def VEntry.srcB (e : VEntry) (row : Row) : Nat := e.fb.get (e.srcWidth 2) row
/-- The tag that the model writes in a row. -/
def VEntry.tagOf (e : VEntry) (p : Nat × Row) : Bool × FFlags :=
  vTagRes e.op (ruleTag e.vl (e.op.a % 8) p.1 p.2) (ruleTag e.vl (e.op.b % 8) p.1 p.2) (e.srcA p.2) (e.srcB p.2)
/-- The field that the model writes in a row. -/
def VEntry.fieldOf (e : VEntry) (v : Window) (p : Nat × Row) : Nat × FFlags :=
  vFieldRes e.op e.round.toNat v.ucode 0 (e.srcA p.2) (e.srcB p.2)
/-- The width of the result field, and whether it is extended by its top bit. -/
def VEntry.dstWidth (e : VEntry) : Nat := (((vDsts e.op e.fa.width).head?).map Prod.snd).getD 0
def VEntry.dstSigned (e : VEntry) : Bool := e.op.kind != .vcopy && e.op.kind != .vdqbs && isI e.op.m

/-- The operations that do not treat each row by itself. -/
def wholeKinds : List VKind :=
  [.vnop, .vfld, .vfldi, .vfcpy, .vvl, .vvli, .vfrd, .vld, .vst, .vlds, .vsts, .vldr, .vstr, .vucload, .vget, .vput, .vbc, .vbci, .vtfirst,
   .vtcount, .vtany, .vrmax, .vrmin, .vrsum, .vrfsum, .vsel, .vqbs, .vpass, .vseq]
/-- The others write the tag or the field that the tables name, in every selected row. -/
theorem VEntry.run_rowwise {e : VEntry} {v : Window} (hq : e.quiet = false) (hp : v.badPar = []) (hk : e.op.kind ∉ wholeKinds) :
    e.run v = (vTagDst e.op).elim
      ⟨e.rewrite v fun p => e.fd.set e.dstWidth e.dstSigned (e.fieldOf v p).1 p.2, 0, unionFlags (e.chosen v) fun p => (e.fieldOf v p).2, []⟩
      fun d => ⟨e.rewrite v fun p => rowSetTag d (e.tagOf p).1 p.2, 0, unionFlags (e.chosen v) fun p => (e.tagOf p).2, []⟩ := by
  have hsigned : e.dstSigned = match e.op.kind with
      | .vcopy | .vdqbs => false
      | _ => isI e.op.m := by
    unfold VEntry.dstSigned
    split
    · simp [*]
    · simp [*]
    · rename_i hcopy hdqbs
      rw [bne_iff_ne.2 hcopy, bne_iff_ne.2 hdqbs]
      rfl
  unfold VEntry.run
  simp only [hq, v.failures_of_clean hp, List.any_nil, Bool.not_false, Bool.and_true, Bool.false_eq_true, if_false]
  split
  pick_goal -1
  · cases vTagDst e.op with
    | some d => rfl
    | none =>
      unfold VEntry.rewrite
      rw [hsigned]
      rfl
  all_goals
    rename_i h
    rw [h] at hk
    exact absurd (by decide) hk

end Sys2Proof.Machine
end

section
/-! The model's comparisons of values as the manual's (03_numbers.md R127, R129). -/
namespace Sys2Proof.Machine

/-- What the model compares of a value: its class by sign and kind, and its magnitude. -/
def Val.parts : Val → Int × Nat × Nat × Int
  | .nan _ => (0, 0, 1, 0)
  | .inf s => (if s then -2 else 2, 0, 1, 0)
  | .fin s n d e => if n = 0 then (0, 0, 1, 0) else (if s then -1 else 1, n, d, e)
/-- The comparison of two magnitudes over their common exponent. -/
def compareMagnitudes (a b : Nat × Nat × Int) : Int :=
  let e := if a.2.2 ≤ b.2.2 then a.2.2 else b.2.2
  let x := a.1 * 2 ^ (a.2.2 - e).toNat * b.2.1
  let y := b.1 * 2 ^ (b.2.2 - e).toNat * a.2.1
  if x < y then -1 else if y < x then 1 else 0
theorem vCmp_eq_parts (x y : Val) : vCmp x y =
    if x.parts.1 < y.parts.1 then -1 else if y.parts.1 < x.parts.1 then 1
    else if x.parts.1 = 0 ∨ x.parts.1 = 2 ∨ x.parts.1 = -2 then 0 else x.parts.1 * compareMagnitudes x.parts.2 y.parts.2 := rfl
theorem compareMagnitudes_swap (a b : Nat × Nat × Int) : compareMagnitudes b a = -compareMagnitudes a b := by
  have he : (if b.2.2 ≤ a.2.2 then b.2.2 else a.2.2) = if a.2.2 ≤ b.2.2 then a.2.2 else b.2.2 := by split_ifs <;> omega
  have order (x y : Nat) : (if y < x then (-1 : Int) else if x < y then 1 else 0) = -if x < y then (-1 : Int) else if y < x then 1 else 0 := by
    split_ifs <;> omega
  unfold compareMagnitudes
  rw [he]
  exact order _ _
theorem vCmp_swap (x y : Val) : vCmp y x = -vCmp x y := by
  rw [vCmp_eq_parts, vCmp_eq_parts, compareMagnitudes_swap]
  rcases lt_trichotomy x.parts.1 y.parts.1 with h | h | h
  · simp [h, h.not_gt]
  · rw [h]
    simp only [lt_irrefl, if_false, mul_neg]
    split_ifs <;> simp
  · simp [h, h.not_gt]
theorem vCmpZ_swap (x y : Val) : vCmpZ y x = -vCmpZ x y := by
  have hz : -vCmp x y = 0 ∧ y.isZero = true ∧ x.isZero = true ↔ vCmp x y = 0 ∧ x.isZero = true ∧ y.isZero = true := by
    rw [neg_eq_zero, and_comm (a := y.isZero = true)]
  unfold vCmpZ
  dsimp only
  rw [vCmp_swap x y]
  simp only [hz]
  split
  · cases x.sign <;> cases y.sign <;> rfl
  · rfl

/-! Comparisons of numbers (R129). -/
section
variable {x y : Val}
theorem vCmp_pos_iff (hx : x.Proper) (hy : y.Proper) (hnx : x.isNan = false) (hny : y.isNan = false) : 0 < vCmp x y ↔ ruleLess y x = true := by
  rw [← vCmp_lt_zero_iff hy hx hny hnx, vCmp_swap x y, neg_lt_zero]
theorem vCmp_eq_zero_iff (hx : x.Proper) (hy : y.Proper) (hnx : x.isNan = false) (hny : y.isNan = false) :
    vCmp x y = 0 ↔ ruleEqual x y = true := by
  have hlt := vCmp_lt_zero_iff hx hy hnx hny
  have hgt := vCmp_pos_iff hx hy hnx hny
  have hzero : vCmp x y = 0 ↔ ruleLess x y = false ∧ ruleLess y x = false := by
    rw [← Bool.not_eq_true, ← Bool.not_eq_true, ← hlt, ← hgt]
    omega
  rw [hzero]
  match x, y with
  | .inf s, .inf t => cases s <;> cases t <;> decide
  | .inf s, .fin t n d e => cases s <;> simp [ruleLess, ruleEqual]
  | .fin s n d e, .inf t => cases t <;> simp [ruleLess, ruleEqual]
  | .fin s n d e, .fin t n' d' e' => 
    rw [ruleLess, ruleLess, ruleEqual, decide_eq_false_iff_not, decide_eq_false_iff_not, not_lt, not_lt, decide_eq_true_iff, and_comm,
      ← le_antisymm_iff]
end
theorem ruleEqual_nan {x y : Val} (h : (x.isNan || y.isNan) = true) : ruleEqual x y = false := by
  match x, y with
  | .nan _, _ => rfl
  | .inf _, .nan _ => rfl
  | .fin .., .nan _ => rfl
theorem ruleLess_nan {x y : Val} (h : (x.isNan || y.isNan) = true) : ruleLess x y = false := by
  match x, y with
  | .nan _, _ => rfl
  | .inf _, .nan _ => rfl
  | .fin .., .nan _ => rfl
/-- The compares of R129 on encodings, as the rule has them. -/
theorem fCompare_rule (c a b : Nat) :
    fCompare c 0 a b = (ruleEqual (val c a) (val c b), (val c a).nv ||| (val c b).nv) ∧
    fCompare c 1 a b = (ruleLess (val c a) (val c b), if (val c a).isNan || (val c b).isNan then NV else 0) ∧
    fCompare c 2 a b =
      (ruleLess (val c a) (val c b) || ruleEqual (val c a) (val c b), if (val c a).isNan || (val c b).isNan then NV else 0) := by
  have hx := val_proper c a
  have hy := val_proper c b
  unfold fCompare
  dsimp only
  cases hn : (val c a).isNan || (val c b).isNan with
  | true => simp [ruleEqual_nan hn, ruleLess_nan hn]
  | false =>
    obtain ⟨hnx, hny⟩ := Bool.or_eq_false_iff.1 hn
    have hlt := vCmp_lt_zero_iff hx hy hnx hny
    have heq := vCmp_eq_zero_iff hx hy hnx hny
    have hle : decide (vCmp (val c a) (val c b) ≤ 0) = (ruleLess (val c a) (val c b) || ruleEqual (val c a) (val c b)) := by
      rw [Bool.eq_iff_iff, Bool.or_eq_true, ← hlt, ← heq, decide_eq_true_iff]
      omega
    refine ⟨congrArg (·, _) ?_, congrArg (·, _) ?_, congrArg (·, _) hle⟩
    · exact Bool.eq_iff_iff.2 ((beq_iff_eq).trans heq)
    · exact Bool.eq_iff_iff.2 ((decide_eq_true_iff).trans hlt)
theorem Val.proper_abs {x : Val} (h : x.Proper) : x.abs.Proper := by
  cases x <;> exact h
theorem Val.isNan_abs (x : Val) : x.abs.isNan = x.isNan := by cases x <;> rfl

end Sys2Proof.Machine
end

section
/-! The order of R197 among the encodings of a format, as a linear order of keys, and the extreme of a list of encodings. -/
namespace Sys2Proof.Machine

/-! Integer encodings. -/
theorem intFormat_width {m : Nat} (hm : m < 8) : 0 < fmtWidth m := by interval_cases m <;> decide
theorem isI_eq (m : Nat) : isI m = decide (m < 4) := rfl
theorem isFPA_not_int {m : Nat} (h : isFPA m = true) : ¬ m < 8 := by
  simp [isFPA] at h
  omega
/-- The number of an encoding, by the model and by the rule. -/
theorem intVal_eq_ruleInt {m a : Nat} (hm : m < 8) (ha : a < 2 ^ fmtWidth m) : intVal m a = ruleInt m a := by
  obtain ⟨w, hw⟩ : ∃ w, fmtWidth m = w + 1 := ⟨_, (Nat.succ_pred_eq_of_pos (intFormat_width hm)).symm⟩
  rw [hw] at ha
  unfold intVal ruleInt
  rw [isI_eq, hw]
  have hmod : (a : Int) % ((2 ^ (w + 1) : Nat) : Int) = a := Int.emod_eq_of_lt (Int.natCast_nonneg a) (by exact_mod_cast ha)
  by_cases hs : m < 4
  · simp only [hs, decide_true, Bool.true_and, decide_eq_true_eq, if_true, Int.bmod_def, hmod, Nat.add_sub_cancel]
    have hhalf : (((2 ^ (w + 1) : Nat) : Int) + 1) / 2 = (2 ^ w : Nat) := by
      rw [pow_succ]
      omega
    rw [hhalf]
    split_ifs <;> push_cast <;> grind
  · simp [hs]
theorem ruleInt_injective {m a b : Nat} (ha : a < 2 ^ fmtWidth m) (hb : b < 2 ^ fmtWidth m) (h : ruleInt m a = ruleInt m b) : a = b := by
  unfold ruleInt at h
  split at h
  · have hpos : 0 < 2 ^ fmtWidth m := Nat.two_pow_pos _
    have := congrArg (· % ((2 ^ fmtWidth m : Nat) : Int)) h
    simp only [Int.bmod_emod] at this
    rw [Int.emod_eq_of_lt (Int.natCast_nonneg a) (by exact_mod_cast ha), Int.emod_eq_of_lt (Int.natCast_nonneg b) (by exact_mod_cast hb)] at this
    exact_mod_cast this
  · exact_mod_cast h

/-! Keys. -/
/-- A value's place in the order of R197: below every number, among them by the number and the sign of a zero, or above them. -/
def Val.key : Val → Int ×ₗ (Rat ×ₗ Nat)
  | .nan _ => toLex (0, toLex (0, 0))
  | .inf s => toLex (if s then -1 else 1, toLex (0, 0))
  | .fin s n d e => toLex (0, toLex (Val.rat (.fin s n d e), if n = 0 ∧ s = false then 1 else 0))
theorem Val.rat_eq_zero_iff {s : Bool} {n d : Nat} (hd : 0 < d) (e : Int) : Val.rat (.fin s n d e) = 0 ↔ n = 0 := by
  refine ⟨fun h => ?_, fun h => h ▸ Val.rat_zero s d e⟩
  by_contra hn
  have := Val.rat_magnitude_pos (Nat.pos_of_ne_zero hn) hd e
  cases s
  · exact this.ne' h
  · rw [Val.rat_negative, neg_eq_zero] at h
    exact this.ne' h
theorem Val.key_fin_lt {s t : Bool} {n d n' d' : Nat} (hd : 0 < d) (hd' : 0 < d') (e e' : Int) :
    ruleUnder (.fin s n d e) (.fin t n' d' e') = true ↔ (Val.fin s n d e).key < (Val.fin t n' d' e').key := by
  have hzero (s : Bool) (n d : Nat) (e : Int) : (Val.fin s n d e).isZero = decide (n = 0) := by cases n <;> rfl
  have hn : Val.rat (.fin s n d e) = 0 ↔ n = 0 := Val.rat_eq_zero_iff hd e
  have hn' : Val.rat (.fin t n' d' e') = 0 ↔ n' = 0 := Val.rat_eq_zero_iff hd' e'
  simp only [ruleUnder, ruleLess, hzero, Val.sign, Val.key, Prod.Lex.toLex_lt_toLex, lt_irrefl, false_or, true_and, Bool.or_eq_true,
    Bool.and_eq_true, decide_eq_true_eq, Bool.not_eq_true']
  refine or_congr_right ?_
  by_cases h : n = 0
  · by_cases h' : n' = 0
    · subst h h'
      rw [Val.rat_zero, Val.rat_zero]
      cases s <;> cases t <;> simp
    · have : ¬ 0 = Val.rat (.fin t n' d' e') := fun h0 => h' (hn'.1 h0.symm)
      simp [hn.2 h, h', this]
  · have : Val.rat (.fin s n d e) = Val.rat (.fin t n' d' e') → n' ≠ 0 := fun he h0 => h (hn.1 (he.trans (hn'.2 h0)))
    simp [h]
    exact fun he h0 => absurd h0 (this he)
theorem ruleUnder_iff_key {x y : Val} (hx : x.Proper) (hy : y.Proper) (hnx : x.isNan = false) (hny : y.isNan = false) :
    ruleUnder x y = true ↔ x.key < y.key := by
  match x, hx, hnx, y, hy, hny with
  | .inf s, _, _, .inf t, _, _ => cases s <;> cases t <;> simp [ruleUnder, ruleLess, Val.key, Val.isZero, Prod.Lex.toLex_lt_toLex]
  | .inf s, _, _, .fin t n d e, _, _ => cases s <;> simp [ruleUnder, ruleLess, Val.key, Val.isZero, Prod.Lex.toLex_lt_toLex]
  | .fin s n d e, _, _, .inf t, _, _ => cases t <;> simp [ruleUnder, ruleLess, Val.key, Val.isZero, Prod.Lex.toLex_lt_toLex]
  | .fin s n d e, hd, _, .fin t n' d' e', hd', _ => exact Val.key_fin_lt hd hd' e e'
/-- The model's order with signed zeros by keys. -/
theorem vCmpZ_lt_zero_iff_key {x y : Val} (hx : x.Proper) (hy : y.Proper) (hnx : x.isNan = false) (hny : y.isNan = false) :
    vCmpZ x y < 0 ↔ x.key < y.key := by
  rw [← ruleUnder_iff_key hx hy hnx hny, ← vCmpZ_lt_zero hx hy hnx hny, decide_eq_true_iff]
theorem vCmpZ_eq_zero_iff_key {x y : Val} (hx : x.Proper) (hy : y.Proper) (hnx : x.isNan = false) (hny : y.isNan = false) :
    vCmpZ x y = 0 ↔ x.key = y.key := by
  have hlt := vCmpZ_lt_zero_iff_key hx hy hnx hny
  have hgt := vCmpZ_lt_zero_iff_key hy hx hny hnx
  rw [vCmpZ_swap x y, neg_lt_zero] at hgt
  rcases lt_trichotomy x.key y.key with h | h | h
  · exact iff_of_false (hlt.2 h).ne h.ne
  · exact iff_of_true (le_antisymm (not_lt.1 fun hp => (hgt.1 hp).ne' h) (not_lt.1 fun hm => (hlt.1 hm).ne h)) h
  · exact iff_of_false (hgt.2 h).ne' h.ne'

/-! Encodings of a format. -/
/-- The key of an encoding. -/
def ruleKey (m a : Nat) : Int ×ₗ (Rat ×ₗ Nat) := if m < 8 then toLex (ruleInt m a, toLex (0, 0)) else (val m a).key
theorem isNan_of_counts {m a : Nat} (hm : ¬ m < 8) (h : ruleCounts m a = true) : (val m a).isNan = false := by
  simpa [ruleCounts, hm] using h
theorem ruleBelow_iff_key {m a b : Nat} (ha : ruleCounts m a = true) (hb : ruleCounts m b = true) :
    ruleBelow m a b = true ↔ ruleKey m a < ruleKey m b := by
  unfold ruleBelow ruleKey
  by_cases hm : m < 8
  · simp [hm, Prod.Lex.toLex_lt_toLex]
  · simp only [hm, if_false]
    exact ruleUnder_iff_key (val_proper ..) (val_proper ..) (isNan_of_counts hm ha) (isNan_of_counts hm hb)
/-- The order by which the model finds an extreme. -/
def modelBelow (m a b : Nat) : Bool := if isInt m then decide (intVal m a < intVal m b) else decide (vCmpZ (val m a) (val m b) < 0)
theorem modelBelow_iff_key {m a b : Nat} (ha : a < 2 ^ fmtWidth m) (hb : b < 2 ^ fmtWidth m) (hca : ruleCounts m a = true)
    (hcb : ruleCounts m b = true) : modelBelow m a b = true ↔ ruleKey m a < ruleKey m b := by
  unfold modelBelow ruleKey
  by_cases hm : m < 8
  · simp [(isInt_iff m).2 hm, hm, intVal_eq_ruleInt hm ha, intVal_eq_ruleInt hm hb, Prod.Lex.toLex_lt_toLex]
  · rw [if_neg (mt (isInt_iff m).1 hm), if_neg hm, if_neg hm, decide_eq_true_iff]
    exact vCmpZ_lt_zero_iff_key (val_proper ..) (val_proper ..) (isNan_of_counts hm hca) (isNan_of_counts hm hcb)
theorem tied_iff_key {m a x : Nat} (ha : a < 2 ^ fmtWidth m) (hx : x < 2 ^ fmtWidth m) (hcx : ruleCounts m x = true) :
    tied m a x = true ↔ ruleCounts m a = true ∧ ruleKey m a = ruleKey m x := by
  unfold tied ruleKey
  by_cases hm : m < 8
  · have hinj : a = x ↔ ruleInt m a = ruleInt m x := ⟨fun h => h ▸ rfl, ruleInt_injective ha hx⟩
    simp [(isInt_iff m).2 hm, hm, ruleCounts, hinj]
  · rw [if_neg (mt (isInt_iff m).1 hm), if_neg hm, if_neg hm, Bool.and_eq_true, beq_iff_eq,
      show ruleCounts m a = !(val m a).isNan by simp [ruleCounts, hm]]
    refine and_congr_right fun ha => ?_
    exact vCmpZ_eq_zero_iff_key (val_proper ..) (val_proper ..) (by simpa using ha) (isNan_of_counts hm hcx)

/-! The extreme of a list (R197). -/
/-- The better of two elements, the first among equals. -/
def pickBetter (better : Nat → Nat → Bool) (best : Option Nat) (x : Nat) : Option Nat :=
  best.elim (some x) fun b => if better b x then some x else some b
theorem extreme_eq (m : Nat) (isMax : Bool) (xs : List Nat) : extreme m isMax xs =
    (xs.filter (ruleCounts m)).foldl (pickBetter fun b x => if isMax then modelBelow m b x else modelBelow m x b) none := by
  unfold extreme
  dsimp only
  congr 1
  funext best x
  cases best <;> rfl
/-- Folding from `b` on finds an element of greatest key. -/
theorem foldl_pickBetter {β : Type} [LinearOrder β] (key : Nat → β) {better : Nat → Nat → Bool} {l : List Nat} {b : Nat}
    (h : ∀ x ∈ b :: l, ∀ y ∈ b :: l, better x y = true ↔ key x < key y) :
    ∃ x ∈ b :: l, l.foldl (pickBetter better) (some b) = some x ∧ ∀ y ∈ b :: l, key y ≤ key x := by
  induction l generalizing b with
  | nil => exact ⟨b, by simp, rfl, by simp⟩
  | cons a l ih =>
    have hab := h b (by simp) a (by simp)
    have hstep : pickBetter better (some b) a = some (if better b a then a else b) := by
      simp only [pickBetter, Option.elim]
      split <;> rfl
    have hmem : (if better b a then a else b) ∈ b :: a :: l := by split <;> simp
    have hge : key b ≤ key (if better b a then a else b) ∧ key a ≤ key (if better b a then a else b) := by
      split
      · exact ⟨(hab.1 ‹_›).le, le_rfl⟩
      · exact ⟨le_rfl, not_lt.1 fun hlt => absurd (hab.2 hlt) ‹_›⟩
    obtain ⟨x, hx, hfold, hmax⟩ := ih (b := if better b a then a else b) fun x hx y hy =>
      h x (by rcases List.mem_cons.1 hx with rfl | hx; exacts [hmem, by simp [hx]])
        y (by rcases List.mem_cons.1 hy with rfl | hy; exacts [hmem, by simp [hy]])
    refine ⟨x, by rcases List.mem_cons.1 hx with rfl | hx; exacts [hmem, by simp [hx]], by rw [List.foldl_cons, hstep, hfold], fun y hy => ?_⟩
    have hbest := hmax _ (List.mem_cons_self ..)
    rcases List.mem_cons.1 hy with rfl | hy
    · exact hge.1.trans hbest
    rcases List.mem_cons.1 hy with rfl | hy
    · exact hge.2.trans hbest
    · exact hmax y (by simp [hy])
/-- An extreme of the encodings that take part, if there is one. -/
theorem extreme_spec {m : Nat} (isMax : Bool) {xs : List Nat} (hxs : ∀ x ∈ xs, x < 2 ^ fmtWidth m) :
    (extreme m isMax xs = none ∧ ∀ x ∈ xs, ruleCounts m x = false) ∨
    ∃ x ∈ xs, ruleCounts m x = true ∧ extreme m isMax xs = some x ∧
      ∀ y ∈ xs, ruleCounts m y = true → if isMax then ruleKey m y ≤ ruleKey m x else ruleKey m x ≤ ruleKey m y := by
  have hmem (x : Nat) : x ∈ xs.filter (ruleCounts m) ↔ x ∈ xs ∧ ruleCounts m x = true := List.mem_filter
  have hbelow : ∀ x ∈ xs.filter (ruleCounts m), ∀ y ∈ xs.filter (ruleCounts m), modelBelow m x y = true ↔ ruleKey m x < ruleKey m y := by
    intro x hx y hy
    obtain ⟨hx, hcx⟩ := (hmem x).1 hx
    obtain ⟨hy, hcy⟩ := (hmem y).1 hy
    exact modelBelow_iff_key (hxs x hx) (hxs y hy) hcx hcy
  rw [extreme_eq]
  cases hl : xs.filter (ruleCounts m) with
  | nil => exact .inl ⟨rfl, fun x hx => by simpa [hx, hl] using hmem x⟩
  | cons b l =>
    rw [hl] at hbelow
    right
    cases isMax with
    | true =>
      obtain ⟨x, hx, hfold, hmax⟩ := foldl_pickBetter (ruleKey m) hbelow
      obtain ⟨hx, hcx⟩ := (hmem x).1 (hl ▸ hx)
      exact ⟨x, hx, hcx, hfold, fun y hy hc => hmax y (hl ▸ (hmem y).2 ⟨hy, hc⟩)⟩
    | false =>
      obtain ⟨x, hx, hfold, hmin⟩ := foldl_pickBetter (fun x => OrderDual.toDual (ruleKey m x)) fun x hx y hy => hbelow y hy x hx
      obtain ⟨hx, hcx⟩ := (hmem x).1 (hl ▸ hx)
      exact ⟨x, hx, hcx, hfold, fun y hy hc => hmin y (hl ▸ (hmem y).2 ⟨hy, hc⟩)⟩
theorem not_better_iff_key {m : Nat} (isMax : Bool) {a q : Nat} (ha : ruleCounts m a = true) (hq : ruleCounts m q = true) :
    (!if isMax then ruleBelow m a q else ruleBelow m q a) = true ↔
      if isMax then ruleKey m q ≤ ruleKey m a else ruleKey m a ≤ ruleKey m q := by
  cases isMax <;> simp only [Bool.not_eq_true', ← Bool.not_eq_true, if_true, if_false, Bool.false_eq_true]
  · rw [ruleBelow_iff_key hq ha, not_lt]
  · rw [ruleBelow_iff_key ha hq, not_lt]
/-- An element is tied with the extreme if it takes part and none that does is better. -/
theorem tied_extreme {m : Nat} (isMax : Bool) {xs : List Nat} {a : Nat} (ha : a ∈ xs) (hxs : ∀ x ∈ xs, x < 2 ^ fmtWidth m) :
    (extreme m isMax xs).elim false (tied m a) =
      (ruleCounts m a && xs.all fun q => !ruleCounts m q || !if isMax then ruleBelow m a q else ruleBelow m q a) := by
  rcases extreme_spec isMax hxs with ⟨hnone, hno⟩ | ⟨x, hx, hcx, hsome, hbest⟩
  · rw [hnone, hno a ha]
    rfl
  · rw [hsome, Option.elim, Bool.eq_iff_iff, tied_iff_key (hxs a ha) (hxs x hx) hcx, Bool.and_eq_true, List.all_eq_true]
    refine and_congr_right fun hca => ⟨fun htie q hq => ?_, fun hall => ?_⟩
    · cases hcq : ruleCounts m q with
      | false => rfl
      | true => exact (not_better_iff_key isMax hca hcq).2 (htie ▸ hbest q hq hcq)
    · have hax := (not_better_iff_key isMax hca hcx).1 (by simpa [hcx] using hall x hx)
      have hxa := hbest a ha hca
      cases isMax
      · exact le_antisymm hax hxa
      · exact le_antisymm hxa hax

end Sys2Proof.Machine
end

section
/-! Operations that write a tag, and O34 itself (06_associative.md R189, R190, R193, R197, R202). -/
namespace Sys2Proof.Machine

/-- The format of an operation that writes something is in its set (R66 row 1). -/
theorem vFmtOk_of_not_quiet {o : VOp} (h : vQuiet o = false) : vFmtOk o = true := by
  unfold vQuiet at h
  simpa using (Bool.or_eq_false_iff.1 h).1
theorem vTagDst_of_rule {o : VOp} {f : Bool → Bool → Nat → Nat → Bool × FFlags} (h : windowTagRule o.kind o.m = some f) :
    vTagDst o = some o.d ∧ o.kind ∉ wholeKinds ∧ isTransfer o.kind = false := by
  unfold windowTagRule at h
  unfold vTagDst
  split at h <;> cases h
  all_goals
    rename_i hk
    rw [hk]
    exact ⟨rfl, by decide, rfl⟩
theorem vCmp_abs_rule {m a b : Nat} :
    ((val m a).isNan || (!(val m b).isNan && decide (vCmp (val m a).abs (val m b) > 0))) =
      ((val m a).isNan || (!(val m b).isNan && ruleLess (val m b) (val m a).abs)) := by
  cases hna : (val m a).isNan with
  | true => rfl
  | false =>
    cases hnb : (val m b).isNan with
    | true => rfl
    | false =>
      have hgt := vCmp_pos_iff (Val.proper_abs (val_proper m a)) (val_proper m b) ((Val.isNan_abs _).trans hna) hnb
      rw [Bool.false_or, Bool.not_false, Bool.true_and, Bool.false_or, Bool.true_and, Bool.eq_iff_iff, decide_eq_true_iff]
      exact hgt
/-- The tag that the model writes is the rule's. -/
theorem VEntry.tagOf_rule {e : VEntry} {f : Bool → Bool → Nat → Nat → Bool × FFlags} (h : windowTagRule e.op.kind e.op.m = some f)
    (hq : vQuiet e.op = false) (p : Nat × Row) : e.tagOf p =
      f (ruleTag e.vl (e.op.a % 8) p.1 p.2) (ruleTag e.vl (e.op.b % 8) p.1 p.2) (e.fa.get (fmtWidth e.op.m) p.2) (e.fb.get (fmtWidth e.op.m) p.2) := by
  have hfmt := vFmtOk_of_not_quiet hq
  have ha := e.fa.get_lt (fmtWidth e.op.m) p.2
  have hb := e.fb.get_lt (fmtWidth e.op.m) p.2
  have hsrc : e.op.kind ∈ [.vceq, .vclt, .vcle, .vfceq, .vfclt, .vfcle, .voutl] →
      e.srcA p.2 = e.fa.get (fmtWidth e.op.m) p.2 ∧ e.srcB p.2 = e.fb.get (fmtWidth e.op.m) p.2 := by
    intro hk
    simp only [List.mem_cons, List.not_mem_nil, or_false] at hk
    unfold VEntry.srcA VEntry.srcB VEntry.srcWidth vSrcs
    rcases hk with hk | hk | hk | hk | hk | hk | hk <;> rw [hk] <;> exact ⟨rfl, rfl⟩
  unfold VEntry.tagOf
  unfold windowTagRule at h
  generalize ruleTag e.vl (e.op.a % 8) p.1 p.2 = t at *
  generalize ruleTag e.vl (e.op.b % 8) p.1 p.2 = u at *
  split at h <;> cases h
  all_goals rename_i hk
  case h_1 | h_2 | h_3 | h_4 | h_5 | h_6 => simp only [vTagRes, hk]
  all_goals
    obtain ⟨hsa, hsb⟩ := hsrc (by simp [hk])
    rw [hsa, hsb]
    simp only [vFmtOk, hk] at hfmt
  case h_7 | h_8 | h_9 =>
    have hm := (isInt_iff _).1 hfmt
    have hbeq (x y : Int) : (x == y) = decide (x = y) := rfl
    simp only [vTagRes, hk, intVal_eq_ruleInt hm ha, intVal_eq_ruleInt hm hb, hbeq]
  case h_10 | h_11 | h_12 =>
    obtain ⟨heq, hlt, hle⟩ := fCompare_rule e.op.m (e.fa.get (fmtWidth e.op.m) p.2) (e.fb.get (fmtWidth e.op.m) p.2)
    simp only [vTagRes, hk, heq, hlt, hle]
  case h_13 =>
    simp only [vTagRes, hk]
    by_cases hm : e.op.m < 8
    · have hf : isFPA e.op.m = false := Bool.eq_false_iff.2 fun hf => isFPA_not_int hf hm
      rw [hf, if_neg Bool.false_ne_true, if_pos hm, intVal_eq_ruleInt hm ha, intVal_eq_ruleInt hm hb, Int.natCast_natAbs]
      rfl
    · have hf : isFPA e.op.m = true := by simpa [mt (isInt_iff _).1 hm] using hfmt
      rw [if_pos hf, if_neg hm, vCmp_abs_rule]

/-! The operations over all selected rows. -/
theorem unionFlags_zero (l : List (Nat × Row)) : unionFlags l (fun _ => 0) = 0 := by
  induction l with
  | nil => rfl
  | cons p l ih => exact (congrArg (fun z => List.foldl (fun x _ => x ||| (0 : FFlags)) z l) BitVec.or_zero).trans ih
theorem VEntry.chosen_eq (e : VEntry) (v : Window) : v.all.filter (fun p => e.sel p.1 p.2) = e.chosen v := rfl
theorem VEntry.run_vrextreme {e : VEntry} {v : Window} (hq : e.quiet = false) (hp : v.badPar = [])
    (hk : e.op.kind = .vrmax ∨ e.op.kind = .vrmin) :
    e.run v = ⟨e.rewrite v fun p => rowSetTag e.op.d
      ((extreme e.op.m (e.op.kind == .vrmax) ((e.chosen v).map fun q => e.fa.get (fmtWidth e.op.m) q.2)).elim
        false (tied e.op.m (e.fa.get (fmtWidth e.op.m) p.2))) p.2, 0, 0, []⟩ := by
  have hsrc : (fun row => e.fa.get (((vSrcs e.op e.fa.width).find? fun q => q.1 == 1).map Prod.snd |>.getD 0) row) =
      e.fa.get (fmtWidth e.op.m) := by
    rcases hk with hk | hk <;> simp [vSrcs, hk]
  rcases hk with hk | hk
  all_goals
    unfold VEntry.run
    simp only [hq, v.failures_of_clean hp, List.any_nil, Bool.not_false, Bool.and_true, Bool.false_eq_true, if_false, hk, hsrc, VEntry.chosen_eq]
    refine congrArg (fun f => VOut.mk (e.rewrite v f) 0 0 []) (funext fun p => congrArg (rowSetTag e.op.d · p.2) ?_)
    cases extreme _ _ _ <;> rfl
/-- The first of the rows chosen is the one of least number. -/
theorem VEntry.chosen_sorted (e : VEntry) (v : Window) : (e.chosen v).Pairwise fun p q => p.1 < q.1 := by
  refine List.Pairwise.filter _ ?_
  have h : (v.all.map Prod.fst).Pairwise (· < ·) := by
    rw [Window.all, rowList_fst]
    exact List.pairwise_lt_range'
  exact List.pairwise_map.1 h
theorem VEntry.mem_chosen {e : VEntry} {v : Window} {p : Nat × Row} (h : p ∈ v.all) (hs : e.selects p.1 p.2 = true) : p ∈ e.chosen v :=
  List.mem_filter.2 ⟨h, hs⟩
theorem VEntry.rewrite_congr {e : VEntry} {v : Window} {f g : Nat × Row → Row} (h : ∀ p ∈ e.chosen v, f p = g p) : e.rewrite v f = e.rewrite v g := by
  refine congrArg (fun l => ({ v with rows := rowMap l } : Window)) (List.map_congr_left fun p hp => ?_)
  by_cases hs : e.selects p.1 p.2 = true
  · rw [if_pos hs, if_pos hs, h p (VEntry.mem_chosen hp hs)]
  · rw [if_neg hs, if_neg hs]
theorem VEntry.map_rewrite_none {e : VEntry} {v : Window} (h : e.chosen v = []) (f : Nat × Row → Row) :
    (v.all.map fun p => (p.1, if e.selects p.1 p.2 then f p else p.2)) = v.all := by
  refine (List.map_congr_left fun p hp => ?_).trans (List.map_id _)
  have hs : ¬ e.selects p.1 p.2 = true := fun hs => List.not_mem_nil (h ▸ VEntry.mem_chosen hp hs)
  rw [if_neg hs]
  rfl
/-- `VTFIRST` (R189) leaves the window as it is where no row is chosen. -/
theorem VEntry.run_vtfirst {e : VEntry} {v : Window} (hq : e.quiet = false) (hp : v.badPar = []) (hk : e.op.kind = .vtfirst) :
    ∃ v', e.run v = ⟨v', 0, 0, []⟩ ∧ v'.fds = v.fds ∧ v'.ucode = v.ucode ∧ v'.all = v.all.map fun p =>
      (p.1, if e.selects p.1 p.2 then rowSetTag e.op.d ((e.chosen v).all fun q => decide (p.1 ≤ q.1)) p.2 else p.2) := by
  have hsorted := e.chosen_sorted v
  unfold VEntry.run
  simp only [hq, v.failures_of_clean hp, List.any_nil, Bool.not_false, Bool.and_true, Bool.false_eq_true, if_false, hk, VEntry.chosen_eq]
  cases hc : e.chosen v with
  | nil => exact ⟨v, rfl, rfl, rfl, (VEntry.map_rewrite_none hc _).symm⟩
  | cons f l =>
    refine ⟨_, rfl, rfl, rfl, ?_⟩
    rw [hc] at hsorted
    have hfirst : ∀ p ∈ e.chosen v, (p.1 == f.1) = (f :: l).all fun q => decide (p.1 ≤ q.1) := by
      intro p hp
      rw [Bool.eq_iff_iff, beq_iff_eq, List.all_eq_true]
      have hle : ∀ q ∈ f :: l, f.1 ≤ q.1 := fun q hq => by
        rcases List.mem_cons.1 hq with rfl | hq
        · exact le_rfl
        · exact ((List.pairwise_cons.1 hsorted).1 q hq).le
      refine ⟨fun h q hq => decide_eq_true (h ▸ hle q hq), fun h => ?_⟩
      exact le_antisymm (of_decide_eq_true (h f (List.mem_cons_self ..))) (hle p (hc ▸ hp))
    exact (congrArg Window.all (VEntry.rewrite_congr fun p hp => congrArg (rowSetTag e.op.d · p.2) (hfirst p hp))).trans (e.all_rewrite v _)

/-- The row holds the greatest or the least of the chosen values (R197). -/
def VEntry.isExtreme (e : VEntry) (v : Window) (isMax : Bool) (row : Row) : Bool :=
  let a := fun (row : Row) => e.fa.get (fmtWidth e.op.m) row
  ruleCounts e.op.m (a row) && (e.chosen v).all fun q =>
    !ruleCounts e.op.m (a q.2) || !if isMax then ruleBelow e.op.m (a row) (a q.2) else ruleBelow e.op.m (a q.2) (a row)
/-- `VRMAX` and `VRMIN` (R197). -/
theorem State.Starts.extremes {s : State} {x w : Nat} {e : VEntry} {rest : List VEntry} (h : s.Starts x w e rest) (hquiet : e.quiet = false)
    (isMax : Bool) (hk : e.op.kind = if isMax then .vrmax else .vrmin) :
    ∃ u, Machine.exec (.vopStart x w) s = .next u ∧ s.Ran u x w e rest 0 (fun r row => if e.selects r row then 0 else 0) ∧
      ((u.tile x).win w).all = ((s.tile x).win w).all.map fun p =>
        (p.1, if e.selects p.1 p.2 then rowSetTag e.op.d (e.isExtreme ((s.tile x).win w) isMax p.2) p.2 else p.2) := by
  have hmax : (e.op.kind == .vrmax) = isMax := by cases isMax <;> rw [hk] <;> rfl
  have htied (p) (hp : p ∈ e.chosen ((s.tile x).win w)) : (extreme e.op.m isMax ((e.chosen ((s.tile x).win w)).map fun q =>
      e.fa.get (fmtWidth e.op.m) q.2)).elim false (tied e.op.m (e.fa.get (fmtWidth e.op.m) p.2)) =
      e.isExtreme ((s.tile x).win w) isMax p.2 := by
    rw [tied_extreme isMax (List.mem_map_of_mem hp) (List.forall_mem_map.2 fun _ _ => FieldDesc.get_lt ..), List.all_map]
    rfl
  have hrun := VEntry.run_vrextreme hquiet h.clean (by cases isMax <;> simp [hk])
  rw [hmax, ← unionFlags_zero (e.chosen ((s.tile x).win w)), VEntry.rewrite_congr fun p hp => congrArg (rowSetTag e.op.d · p.2) (htied p hp)] at hrun
  exact h.rewrites (by cases isMax <;> rw [hk] <;> rfl) hrun

/-- Settles O34: the tables row by row, the first row by the order of the rows, the extremes by the order of keys. -/
theorem windowTagResult : Obligations.WindowTagResult := by
  unfold Obligations.WindowTagResult
  intro s x w e rest h hquiet hq _
  refine ⟨fun f hf => ?_, fun hk => ?_, fun hk => h.extremes hquiet true hk, fun hk => h.extremes hquiet false hk⟩
  · obtain ⟨hdst, hk, ht⟩ := vTagDst_of_rule hf
    have hrun := VEntry.run_rowwise hquiet h.clean hk
    rw [hdst, Option.elim] at hrun
    simp only [VEntry.tagOf_rule hf hq] at hrun
    exact h.rewrites ht hrun
  · obtain ⟨v', hrun, hfds, hucode, hall⟩ := VEntry.run_vtfirst hquiet h.clean hk
    obtain ⟨u, hexec, hran, hrows⟩ := h.ran (fl := fun r row => if e.selects r row then 0 else 0) (by rw [hk]; rfl) hrun hfds hucode
      (fun k => by simp)
    exact ⟨u, hexec, hran, (Window.all_of_rows hrows).trans hall⟩

end Sys2Proof.Machine
end

section
/-! Operations that write a field row by row: the model's results are those of the tables (06_associative.md R188, R190, R191, R193 to R196, R201). -/
namespace Sys2Proof.Machine

/-! Integer codes. -/
theorem lowBits_eq (n : Nat) (i : Int) : lowBits n i = (i % 2 ^ n).toNat := by
  unfold lowBits
  push_cast
  rfl
theorem lowBits_eq_codeOf (m : Nat) (i : Int) : lowBits (fmtWidth m) i = codeOf m i := lowBits_eq _ _
theorem codeOf_natCast (m a : Nat) : codeOf m a = a % 2 ^ fmtWidth m := by
  unfold codeOf
  exact_mod_cast Int.toNat_natCast (a % 2 ^ fmtWidth m)
theorem codeOf_complement {m a : Nat} (ha : a < 2 ^ fmtWidth m) : codeOf m (-1 - a) = 2 ^ fmtWidth m - 1 - a := by
  have h : (-1 - (a : Int)) % 2 ^ fmtWidth m = (2 ^ fmtWidth m - 1 - a : Nat) := by
    have hpos := Nat.two_pow_pos (fmtWidth m)
    have hsum : (-1 - (a : Int)) = (2 ^ fmtWidth m - 1 - a : Nat) + (2 ^ fmtWidth m : Nat) * (-1) := by omega
    rw [hsum, show (2 : Int) ^ fmtWidth m = (2 ^ fmtWidth m : Nat) by push_cast; rfl, Int.add_mul_emod_self_left]
    exact Int.emod_eq_of_lt (Int.natCast_nonneg _) (by omega)
  rw [codeOf, h, Int.toNat_natCast]
/-- The high bit of a byte flipped (R194). -/
theorem xor_128_eq : ∀ a < 256, a ^^^ 128 = (a + 128) % 256 := by decide +kernel
theorem intVal_byte {a : Nat} (ha : a < 256) : intVal 0 a = Int.bmod (a : Int) 256 := by
  have h : intVal 0 a = ruleInt 0 a := intVal_eq_ruleInt (by decide) (by simpa [fmtWidth] using ha)
  simpa [ruleInt, fmtWidth] using h
theorem ucByte_lt (u : Vector W64 128) (i : Nat) : ucByte u i < 256 := Nat.mod_lt _ (by decide)
/-- `VLUT8` (R194). -/
theorem vlut8_rule {m a : Nat} (hm : m = 0 ∨ m = 4) (ha : a < 2 ^ fmtWidth m) (u : Nat → Nat) :
    u (if m = 0 then a ^^^ 0x80 else a) = u (if m < 4 then (a + 128) % 256 else a) := by
  rcases hm with rfl | rfl
  · exact congrArg u (xor_128_eq a ha)
  · rfl
/-- `VLUT16` (R194). -/
theorem vlut16_index {m a : Nat} (hm : m = 1 ∨ m = 5) (ha : a < 2 ^ fmtWidth m) :
    (if m = 1 then a / 256 ^^^ 0x80 else a / 256) = if m < 4 then (a / 256 + 128) % 256 else a / 256 := by
  have hlt : a / 256 < 256 := by rcases hm with rfl | rfl <;> simp [fmtWidth] at ha <;> omega
  rcases hm with rfl | rfl
  · exact xor_128_eq _ hlt
  · rfl
/-- `FMIN` and `FMAX` of R127. -/
theorem fMinMax_rule {c : Nat} (hc : isFPA c = true) (isMax : Bool) (a b : Nat) : fMinMax c isMax a b = ruleMinMax c isMax a b := by
  obtain ⟨f, hf, rfl⟩ := exists_floatFormat (c := c) (by simp [isFPA] at hc; omega)
  have ht := floatFormats_tabled hf
  unfold fMinMax ruleMinMax
  dsimp only
  rw [ht.nan, ht.width]
  cases hnx : (val f.code a).isNan <;> cases hny : (val f.code b).isNan
  · simp only [vCmpZ_lt_zero (val_proper ..) (val_proper ..) hnx hny]
    cases ruleUnder (val f.code a) (val f.code b) <;> cases isMax <;> rfl
  all_goals simp

/-! The tables. -/
section
variable {e : VEntry} {n sb : Nat} {dw sw : Option Nat} {sg : Bool} {f : Nat → (Nat → Nat) → Nat → Nat → Nat × FFlags}
/-- Where the sources and the result stand. -/
theorem VEntry.layout_of_rule (h : windowRule e.op.kind e.op.m n = some (dw, sw, sb, sg, f))
    (hn : n = if e.op.kind = .vsfn then e.op.b % 8 else e.op.b) :
    vTagDst e.op = none ∧ e.op.kind ∉ wholeKinds ∧ isTransfer e.op.kind = false ∧
      e.dstWidth = dw.getD e.fa.width ∧ e.dstSigned = sg ∧ e.srcWidth 1 = sw.getD e.fa.width := by
  unfold windowRule at h
  unfold vTagDst VEntry.dstWidth VEntry.dstSigned VEntry.srcWidth vDsts vSrcs
  dsimp only at h
  split at h
  pick_goal -1
  · cases h
  all_goals
    rename_i hk
    cases h
    rw [hk] at hn ⊢
    subst hn
    exact ⟨rfl, by decide, rfl, rfl, rfl, rfl⟩
/-- The microcode RAM as bytes. -/
def Window.byteAt (v : Window) (i : Nat) : Nat := (v.ucode[i / 8]?.getD 0).toNat / 2 ^ (8 * (i % 8)) % 256
/-- The field that the model writes is the rule's. -/
theorem VEntry.fieldOf_rule (h : windowRule e.op.kind e.op.m n = some (dw, sw, sb, sg, f)) (hn : n = if e.op.kind = .vsfn then e.op.b % 8 else e.op.b)
    (hq : vQuiet e.op = false) (v : Window) (p : Nat × Row) :
    e.fieldOf v p = f e.round.toNat v.byteAt (e.fa.get (sw.getD e.fa.width) p.2) (e.fb.get sb p.2) := by
  obtain ⟨-, -, -, -, -, hsrc⟩ := VEntry.layout_of_rule h hn
  have hfmt := vFmtOk_of_not_quiet hq
  have hmode : e.round.toNat < 4 := e.round.isLt
  have ha := e.fa.get_lt (fmtWidth e.op.m) p.2
  have hb := e.fb.get_lt (fmtWidth e.op.m) p.2
  have hsrcB : e.op.kind ∈ [.vadd, .vsub, .vmin, .vmax, .vmul, .vand, .vor, .vxor, .vfadd, .vfsub, .vfmul, .vfmin, .vfmax] →
      e.srcB p.2 = e.fb.get (fmtWidth e.op.m) p.2 := by
    intro hk
    simp only [List.mem_cons, List.not_mem_nil, or_false] at hk
    unfold VEntry.srcB VEntry.srcWidth vSrcs
    rcases hk with hk | hk | hk | hk | hk | hk | hk | hk | hk | hk | hk | hk | hk <;> rw [hk] <;> rfl
  unfold VEntry.fieldOf
  rw [VEntry.srcA, hsrc]
  unfold windowRule at h
  dsimp only at h
  split at h
  pick_goal -1
  · cases h
  all_goals
    rename_i hk
    cases h
    simp only [vFmtOk, hk] at hfmt
  -- the binary operations: integers, bits, floating numbers
  case h_2 | h_3 | h_6 | h_7 =>
    have hm := (isInt_iff _).1 hfmt
    simp only [hsrcB (by simp [hk]), vFieldRes, hk, Option.getD_some, intVal_eq_ruleInt hm ha, intVal_eq_ruleInt hm hb, lowBits_eq_codeOf,
      Int.min_def, Int.max_def]
  case h_8 =>
    have hm := (isInt_iff _).1 (Bool.and_eq_true_iff.1 hfmt).1
    simp only [hsrcB (by simp [hk]), vFieldRes, hk, Option.getD_some, intVal_eq_ruleInt hm ha, intVal_eq_ruleInt hm hb, lowBits_eq]
  case h_9 | h_10 | h_11 =>
    simp only [hsrcB (by simp [hk]), vFieldRes, hk, Option.getD_some, codeOf_natCast, Nat.mod_eq_of_lt (Nat.and_lt_two_pow _ hb),
      Nat.mod_eq_of_lt (Nat.or_lt_two_pow ha hb), Nat.mod_eq_of_lt (Nat.xor_lt_two_pow ha hb)]
  case h_15 | h_16 | h_17 => simp only [hsrcB (by simp [hk]), vFieldRes, hk, Option.getD_some]
  case h_18 | h_19 => simp only [hsrcB (by simp [hk]), vFieldRes, hk, Option.getD_some, fMinMax_rule hfmt]
  -- the unary operations
  case h_1 | h_22 => simp only [vFieldRes, hk, hn, Option.getD_some, Option.getD_none, if_true]
  case h_4 | h_5 =>
    have hm := (isInt_iff _).1 hfmt
    simp only [vFieldRes, hk, Option.getD_some, intVal_eq_ruleInt hm ha, lowBits_eq_codeOf, Int.natCast_natAbs, abs_eq_max_neg]
  case h_12 => simp only [vFieldRes, hk, Option.getD_some, codeOf_complement ha]
  case h_13 =>
    have hcast (x k : Nat) : (x : Int) * 2 ^ k = (x * 2 ^ k : Nat) := by push_cast; rfl
    simp only [vFieldRes, hk, hn, reduceCtorEq, if_false, Option.getD_some, hcast, codeOf_natCast]
  case h_14 =>
    have hm := (isInt_iff _).1 hfmt
    have hcast (k : Nat) : ((2 ^ k : Nat) : Int) = 2 ^ k := by push_cast; rfl
    simp only [vFieldRes, hk, hn, reduceCtorEq, if_false, Option.getD_some, intVal_eq_ruleInt hm ha, lowBits_eq_codeOf, hcast]
  case h_23 =>
    have hdef : cvtDefined e.op.m e.op.b = true := by
      simpa [vQuiet, vFmtOk, hk] using hq
    obtain ⟨hdst, -⟩ := Bool.and_eq_true_iff.1 (cvtDefined_eq .. ▸ hdef)
    simp only [vFieldRes, hk, hn, reduceCtorEq, if_false, Option.getD_some, convert_eq hdst hmode]
  case h_24 =>
    have hscale : e.srcB p.2 = e.fb.get 8 p.2 := by
      unfold VEntry.srcB VEntry.srcWidth vSrcs
      rw [hk]
      rfl
    simp only [vFieldRes, hk, Option.getD_some, hscale]
    rfl
  -- the tables in the microcode RAM
  case h_20 =>
    have hm : e.op.m = 0 ∨ e.op.m = 4 := by simpa using hfmt
    simp only [vFieldRes, hk, Option.getD_some]
    exact congrArg (·, _) (vlut8_rule hm ha v.byteAt)
  case h_21 =>
    have hm : e.op.m = 1 ∨ e.op.m = 5 := by simpa using hfmt
    simp only [vFieldRes, hk, Option.getD_some, vlut16_index hm ha, lowBits_eq, intVal_byte (ucByte_lt _ _)]
    rfl
end
end Sys2Proof.Machine
end

section
/-! `VBC`, `VBCI`, `VSEL` and `VQBS` over a window's rows (06_associative.md R188, R192, R200). -/
namespace Sys2Proof.Machine

/-! Broadcasts and selection. -/
theorem FieldDesc.set_mod (f : FieldDesc) (w v : Nat) (sx : Bool) (row : Row) : f.set w sx (v % 2 ^ w) row = f.set w sx v row := by
  unfold FieldDesc.set
  rw [Nat.mod_mod]
theorem VEntry.run_broadcast {e : VEntry} {v : Window} (hq : e.quiet = false) (hp : v.badPar = []) (hk : e.op.kind = .vbc ∨ e.op.kind = .vbci) :
    e.run v = ⟨e.rewrite v fun p => e.fd.set (fmtWidth e.op.m) (isI e.op.m)
      (if e.op.kind = .vbc then e.ga.toNat % 2 ^ fmtWidth e.op.m else vbciVal e.op.m e.op.x) p.2, 0, 0, []⟩ := by
  have hclean (w : Window) (hw : w.badPar = []) (a : Window) : (if w.badPar.isEmpty then w else a) = w := by simp [hw]
  unfold VEntry.run
  rcases hk with hk | hk
  all_goals
    simp only [hq, hk, Bool.false_eq_true, if_false]
    exact congrArg (fun w => VOut.mk w 0 0 []) (hclean (e.rewrite v _) hp _)
theorem VEntry.run_vsel {e : VEntry} {v : Window} (hq : e.quiet = false) (hp : v.badPar = []) (hk : e.op.kind = .vsel) :
    e.run v = ⟨{ v with rows := rowMap (v.all.map fun p => (p.1, e.fd.set (fmtWidth e.op.m) (isI e.op.m)
      (if e.selects p.1 p.2 then e.fa.get (fmtWidth e.op.m) p.2 else e.fb.get (fmtWidth e.op.m) p.2) p.2)) }, 0, 0, []⟩ := by
  unfold VEntry.run
  simp only [hq, hp, hk, Bool.false_eq_true, if_false, List.isEmpty_nil, if_true, List.any_nil]
  rfl
/-- The immediate of `VBCI` (R54). -/
theorem vbciVal_eq (m x : Nat) : vbciVal m x =
    if m = 2 ∨ m = 3 then codeOf m (Int.bmod (x : Int) (2 ^ 29)) else if m = 8 then 8 * x % 2 ^ 32 else x % 2 ^ fmtWidth m := by
  unfold vbciVal
  refine ite_congr rfl (fun hm => ?_) fun _ => by rw [Nat.mul_comm]
  rw [sextN_eq_ruleSext (by decide), ruleSext, wrapI, BitVec.toNat_ofInt]
  unfold codeOf
  generalize Int.bmod (x : Int) (2 ^ 29) = i
  rcases hm with rfl | rfl <;> simp only [fmtWidth] <;> omega

/-- `VBC` and `VBCI` (R188). -/
theorem State.Starts.broadcasts {s : State} {x w : Nat} {e : VEntry} {rest : List VEntry} (h : s.Starts x w e rest) (hquiet : e.quiet = false)
    (hk : e.op.kind = .vbc ∨ e.op.kind = .vbci) :
    ∃ u, Machine.exec (.vopStart x w) s = .next u ∧ s.Ran u x w e rest 0 (fun _ _ => 0) ∧
      ((u.tile x).win w).all = ((s.tile x).win w).all.map fun p => (p.1, if e.selects p.1 p.2 then e.fd.set (fmtWidth e.op.m) (e.op.m < 4)
        (if e.op.kind = .vbc then e.ga.toNat % 2 ^ fmtWidth e.op.m else vbciVal e.op.m e.op.x) p.2 else p.2) := by
  have hrun := VEntry.run_broadcast hquiet h.clean hk
  rw [← unionFlags_zero (e.chosen ((s.tile x).win w))] at hrun
  obtain ⟨u, hexec, hran, hall⟩ := h.rewrites (by rcases hk with hk | hk <;> rw [hk] <;> rfl) hrun
  simp only [ite_self] at hran
  exact ⟨u, hexec, hran, hall⟩
/-- `VSEL` (R192). -/
theorem State.Starts.selection {s : State} {x w : Nat} {e : VEntry} {rest : List VEntry} (h : s.Starts x w e rest) (hquiet : e.quiet = false)
    (hk : e.op.kind = .vsel) :
    ∃ u, Machine.exec (.vopStart x w) s = .next u ∧ s.Ran u x w e rest 0 (fun _ _ => 0) ∧
      ((u.tile x).win w).all = ((s.tile x).win w).all.map fun p => (p.1, e.fd.set (fmtWidth e.op.m) (e.op.m < 4)
        (if e.selects p.1 p.2 then e.fa.get (fmtWidth e.op.m) p.2 else e.fb.get (fmtWidth e.op.m) p.2) p.2) := by
  obtain ⟨u, hexec, hran, hrows⟩ := h.ran (fl := fun _ _ => 0) (by rw [hk]; rfl) (VEntry.run_vsel hquiet h.clean hk) rfl rfl (fun k => by simp)
  refine ⟨u, hexec, hran, (Window.all_of_rows hrows).trans ?_⟩
  exact Window.all_map _ fun r row => e.fd.set (fmtWidth e.op.m) (e.op.m < 4)
    (if e.selects r row then e.fa.get (fmtWidth e.op.m) row else e.fb.get (fmtWidth e.op.m) row) row

/-! Groups of sixteen rows (R200). -/
theorem flatMap_chunks {α : Type} (l : List α) (n : Nat) :
    ((List.range n).flatMap fun k => (l.drop (16 * k)).take 16) = l.take (16 * n) := by
  induction n with
  | zero => rfl
  | succ n ih => rw [List.range_succ, List.flatMap_append, ih, Nat.mul_succ, List.take_add, List.flatMap_singleton]
/-- The rows of group `k`. -/
def Window.group (v : Window) (k : Nat) : List (Nat × Row) := (v.all.drop (16 * k)).take 16
theorem Window.all_length (v : Window) : v.all.length = 4096 := by
  rw [← List.length_map (f := Prod.fst), Window.all, rowList_fst, List.length_range']
  rfl
theorem Window.all_getElem_fst (v : Window) (i : Nat) (h : i < v.all.length) : v.all[i].1 = i := by
  have h' : i < (v.all.map Prod.fst).length := by simpa using h
  have : (v.all.map Prod.fst)[i] = i := by
    simp only [Window.all, rowList_fst, List.getElem_range']
    omega
  simpa using this
theorem Window.all_eq_groups (v : Window) : v.all = (List.range 256).flatMap v.group :=
  ((flatMap_chunks v.all 256).trans (List.take_of_length_le v.all_length.le)).symm
/-- Row `r` stands at place `r % 16` of group `r / 16`. -/
theorem Window.group_getElem (v : Window) {k i : Nat} (h : i < (v.group k).length) : (v.group k)[i].1 / 16 = k ∧ (v.group k)[i].1 % 16 = i := by
  have hi : i < 16 := by
    have := h
    simp [Window.group] at this
    omega
  have : (v.group k)[i].1 = 16 * k + i := by
    simp only [Window.group, List.getElem_take, List.getElem_drop]
    exact v.all_getElem_fst ..
  omega
/-- The quantised block of group `k` (R89, R200): the rows that are not selected count as zero. -/
def VEntry.block (e : VEntry) (v : Window) (k : Nat) : Nat × List Nat × FFlags :=
  quantise (blkElem e.op.m) ((v.group k).map fun p => if e.selects p.1 p.2 then val 8 (e.fa.get 32 p.2) else .fin false 0 1 0)
/-- A selected row with its element and its scale. -/
def VEntry.quantised (e : VEntry) (row : Row) (sc el : Nat) : Row := e.fb.set 8 false sc (e.fd.set (fmtWidth (blkElem e.op.m)) false el row)
/-- What the model makes of a group. -/
def VEntry.quantiseGroup (e : VEntry) (v : Window) (k : Nat) : List (Nat × Row) × FFlags :=
  if (v.group k).any fun p => e.selects p.1 p.2 then
    (((v.group k).zip (e.block v k).2.1).map fun p => if e.selects p.1.1 p.1.2 then (p.1.1, e.quantised p.1.2 (e.block v k).1 p.2) else p.1,
      (e.block v k).2.2)
  else (v.group k, 0)
theorem VEntry.run_vqbs {e : VEntry} {v : Window} (hq : e.quiet = false) (hp : v.badPar = []) (hk : e.op.kind = .vqbs) :
    e.run v = ⟨{ v with rows := rowMap (((List.range 256).map (e.quantiseGroup v)).flatMap Prod.fst) }, 0,
      ((List.range 256).map (e.quantiseGroup v)).foldl (fun x g => x ||| g.2) 0, []⟩ := by
  unfold VEntry.run
  simp only [hq, v.failures_of_clean hp, hk, List.any_nil, Bool.not_false, Bool.and_true, Bool.false_eq_true, if_false]
  rfl
theorem VEntry.block_length (e : VEntry) (v : Window) (k : Nat) : (e.block v k).2.1.length = (v.group k).length := by
  rw [VEntry.block, quantise_length, List.length_map]
/-- What becomes of a row, by its number. -/
def VEntry.quantisedRow (e : VEntry) (v : Window) (r : Nat) (row : Row) : Row :=
  if e.selects r row then e.quantised row (e.block v (r / 16)).1 ((e.block v (r / 16)).2.1.getD (r % 16) 0) else row
theorem VEntry.quantiseGroup_fst (e : VEntry) (v : Window) (k : Nat) :
    (e.quantiseGroup v k).1 = (v.group k).map fun p => (p.1, e.quantisedRow v p.1 p.2) := by
  have hlen := e.block_length v k
  unfold VEntry.quantiseGroup VEntry.quantisedRow
  split
  · refine List.ext_getElem (by simp [hlen]) fun i hi hi' => ?_
    rw [List.length_map] at hi'
    obtain ⟨hdiv, hmod⟩ := v.group_getElem hi'
    simp only [List.getElem_map, List.getElem_zip, hdiv, hmod, List.getD_eq_getElem _ _ (hlen.symm ▸ hi')]
    split <;> rfl
  · rename_i hnone
    refine ((List.map_congr_left fun p hp => ?_).trans (List.map_id _)).symm
    have hs : ¬ e.selects p.1 p.2 = true := fun hs => hnone (List.any_eq_true.2 ⟨p, hp, hs⟩)
    rw [if_neg hs]
    rfl
theorem Window.mem_group (v : Window) {k : Nat} {p : Nat × Row} (h : p ∈ v.group k) : p.1 / 16 = k := by
  obtain ⟨i, hi, rfl⟩ := List.getElem_of_mem h
  exact (v.group_getElem hi).1
theorem VEntry.quantiseGroups_eq (e : VEntry) (v : Window) : ((List.range 256).map (e.quantiseGroup v)).flatMap Prod.fst =
    v.all.map fun p => (p.1, e.quantisedRow v p.1 p.2) := by
  conv_rhs => rw [Window.all_eq_groups, List.map_flatMap]
  rw [List.flatMap_map]
  exact congrArg (fun f => (List.range 256).flatMap f) (funext fun k => e.quantiseGroup_fst v k)
/-- A flag stands if a selected row's group raises it. -/
theorem VEntry.quantiseGroup_flags (e : VEntry) (v : Window) (j : Nat) :
    (((List.range 256).map (e.quantiseGroup v)).foldl (fun x g => x ||| g.2) (0 : FFlags)).getLsbD j =
      v.all.any fun p => (if e.selects p.1 p.2 then (e.block v (p.1 / 16)).2.2 else 0).getLsbD j := by
  have hor (l : List (List (Nat × Row) × FFlags)) (x : FFlags) :
      (l.foldl (fun x g => x ||| g.2) x).getLsbD j = (x.getLsbD j || l.any fun g => g.2.getLsbD j) := by
    induction l generalizing x with
    | nil => simp
    | cons g l ih => rw [List.foldl_cons, ih, BitVec.getLsbD_or, List.any_cons, Bool.or_assoc]
  have hgroup (k : Nat) : (e.quantiseGroup v k).2.getLsbD j =
      (v.group k).any fun p => (if e.selects p.1 p.2 then (e.block v (p.1 / 16)).2.2 else 0).getLsbD j := by
    have hrow : ∀ p ∈ v.group k, (if e.selects p.1 p.2 then (e.block v (p.1 / 16)).2.2 else 0).getLsbD j =
        (e.selects p.1 p.2 && (e.block v k).2.2.getLsbD j) := fun p hp => by
      rw [v.mem_group hp]
      split <;> simp [*]
    unfold VEntry.quantiseGroup
    split
    · rename_i hany
      obtain ⟨p, hp, hs⟩ := List.any_eq_true.1 hany
      rw [Bool.eq_iff_iff, List.any_eq_true]
      refine ⟨fun h => ⟨p, hp, (hrow p hp).trans (Bool.and_eq_true_iff.2 ⟨hs, h⟩)⟩, fun ⟨q, hq, h⟩ => ?_⟩
      exact (Bool.and_eq_true_iff.1 ((hrow q hq).symm.trans h)).2
    · rename_i hnone
      refine BitVec.getLsbD_zero.trans (List.any_eq_false.2 fun p hp => ?_).symm
      rw [hrow p hp]
      exact fun h => hnone (List.any_eq_true.2 ⟨p, hp, (Bool.and_eq_true_iff.1 h).1⟩)
  conv_rhs => rw [v.all_eq_groups, List.any_flatMap]
  rw [hor, List.any_map]
  simp only [Function.comp_def, hgroup]
  simp
/-- `VQBS` (R200, log 74). -/
theorem State.Starts.quantises {s : State} {x w : Nat} {e : VEntry} {rest : List VEntry} (h : s.Starts x w e rest) (hquiet : e.quiet = false)
    (hk : e.op.kind = .vqbs) :
    ∃ u, Machine.exec (.vopStart x w) s = .next u ∧
      s.Ran u x w e rest 0 (fun r row => if e.selects r row then (e.block ((s.tile x).win w) (r / 16)).2.2 else 0) ∧
      ((u.tile x).win w).all = ((s.tile x).win w).all.map fun p => (p.1, e.quantisedRow ((s.tile x).win w) p.1 p.2) := by
  have hrun := VEntry.run_vqbs hquiet h.clean hk
  have hflags := e.quantiseGroup_flags ((s.tile x).win w)
  rw [e.quantiseGroups_eq] at hrun
  generalize ((List.range 256).map (e.quantiseGroup ((s.tile x).win w))).foldl (fun x g => x ||| g.2) (0 : FFlags) = flags at hrun hflags
  obtain ⟨u, hexec, hran, hrows⟩ := h.ran (fl := fun r row => if e.selects r row then (e.block ((s.tile x).win w) (r / 16)).2.2 else 0)
    (by rw [hk]; rfl) hrun rfl rfl hflags
  refine ⟨u, hexec, hran, ?_⟩
  rw [← Window.all_map]
  exact Window.all_of_rows hrows

end Sys2Proof.Machine
end

section
/-! The special functions (06_associative.md R195): integer square roots, roots with a sticky bit, and the named and exact results. -/
namespace Sys2Proof.Machine

/-! Square roots. -/
theorem isqrt_go_spec {n : Nat} (b r : Nat) (hlo : r * r ≤ n) (hhi : n < (r + 2 ^ b) * (r + 2 ^ b)) :
    isqrt.go n b r * isqrt.go n b r ≤ n ∧ n < (isqrt.go n b r + 1) * (isqrt.go n b r + 1) := by
  induction b generalizing r with
  | zero => exact ⟨hlo, hhi⟩
  | succ b ih =>
    unfold isqrt.go
    split
    · rename_i h
      exact ih _ h (by rwa [pow_succ, Nat.mul_two, ← Nat.add_assoc] at hhi)
    · rename_i h
      exact ih r hlo (not_le.1 h)
theorem isqrt_spec (n : Nat) : isqrt n * isqrt n ≤ n ∧ n < (isqrt n + 1) * (isqrt n + 1) := by
  refine isqrt_go_spec _ 0 (Nat.zero_le n) ?_
  rw [Nat.zero_add, ← pow_add]
  exact Nat.lt_log2_self.trans_le (Nat.pow_le_pow_right Nat.two_pos (by omega))
/-- A number whose square is v compares like the root. -/
theorem rootLike_of_sq {q v : Rat} (hq : 0 ≤ q) (h : q ^ 2 = v) : RootLike q v := by
  intro k j _
  dsimp only
  have hg : (0 : Rat) ≤ k * 2 ^ j := mul_nonneg (Nat.cast_nonneg k) (two_zpow_pos j).le
  rw [← h]
  exact ⟨(pow_lt_pow_iff_left₀ hg hq two_ne_zero).symm, (pow_lt_pow_iff_left₀ hq hg two_ne_zero).symm⟩
/-- A multiple of a power of two with a short significand is at most `r` or at least `r + 1`. -/
theorem short_beside (r k : Nat) (j : Int) (hr : 2 ^ 60 ≤ r) (hk : k < 2 ^ 60) : (k : Rat) * 2 ^ j ≤ r ∨ (r : Rat) + 1 ≤ k * 2 ^ j := by
  rcases lt_or_ge j 0 with hj | hj
  · left
    have hone : (2 : Rat) ^ j ≤ 1 := by simpa using two_zpow_le.2 hj.le
    calc (k : Rat) * 2 ^ j ≤ k * 1 := mul_le_mul_of_nonneg_left hone (Nat.cast_nonneg k)
      _ ≤ r := by rw [mul_one]; exact_mod_cast (hk.le.trans hr)
  · obtain ⟨m, rfl⟩ := Int.eq_ofNat_of_zero_le hj
    rw [two_zpow_natCast]
    rcases Nat.lt_or_ge r (k * 2 ^ m) with h | h
    · exact .inr (by exact_mod_cast h)
    · exact .inl (by exact_mod_cast h)
/-- Between two integers the half compares like the root. -/
theorem rootLike_half {r : Nat} {v : Rat} {h : Int} (hr : 2 ^ 60 ≤ r) (hlo : (r : Rat) ^ 2 < v * 2 ^ (2 * h))
    (hhi : v * 2 ^ (2 * h) < ((r : Rat) + 1) ^ 2) :
    RootLike (((2 * r + 1 : Nat) : Rat) * 2 ^ (-h - 1)) v := by
  intro k j hk
  dsimp only
  have hp := two_zpow_pos h
  have hsq (x : Rat) : x ^ 2 * 2 ^ (2 * h) = (x * 2 ^ h) ^ 2 := by rw [two_mul, two_zpow_add]; ring
  have hscale (x y : Rat) : x < y ↔ x * 2 ^ h < y * 2 ^ h := (mul_lt_mul_iff_left₀ hp).symm
  have hscale2 (x y : Rat) : x < y ↔ x * 2 ^ (2 * h) < y * 2 ^ (2 * h) := (mul_lt_mul_iff_left₀ (two_zpow_pos _)).symm
  have hq : ((2 * r + 1 : Nat) : Rat) * 2 ^ (-h - 1) * 2 ^ h = r + 1 / 2 := by
    rw [mul_assoc, ← two_zpow_add, show -h - 1 + h = -1 by ring]
    push_cast
    norm_num
    ring
  have hg : (0 : Rat) ≤ k * 2 ^ (j + h) := mul_nonneg (Nat.cast_nonneg k) (two_zpow_pos _).le
  have hr0 : (0 : Rat) ≤ r := Nat.cast_nonneg r
  have hg2 : (k : Rat) * 2 ^ j * 2 ^ h = k * 2 ^ (j + h) := by rw [mul_assoc, ← two_zpow_add]
  rw [hscale (k * 2 ^ j), hscale _ (k * 2 ^ j), hscale2 _ v, hscale2 v, hsq, hq, hg2]
  rcases short_beside r k (j + h) hr hk with hle | hge
  · have hsmall : ((k : Rat) * 2 ^ (j + h)) ^ 2 < v * 2 ^ (2 * h) := (pow_le_pow_left₀ hg hle 2).trans_lt hlo
    exact ⟨iff_of_true (by linarith) hsmall, iff_of_false (by linarith) hsmall.not_gt⟩
  · have hbig : v * 2 ^ (2 * h) < ((k : Rat) * 2 ^ (j + h)) ^ 2 := hhi.trans_le (pow_le_pow_left₀ (by linarith) hge 2)
    exact ⟨iff_of_false (by linarith) hbig.not_gt, iff_of_true (by linarith) hbig⟩
/-- The model's root: the integer root of the value scaled by an even power of two, with a sticky bit. -/
theorem sqrtVal_spec {n d : Nat} (hn : 0 < n) (hd : 0 < d) : ∃ m k, sqrtVal n d 0 = .fin false m 1 k ∧ 0 < m ∧
    RootLike (Val.rat (.fin false m 1 k)) ((n : Rat) / d) := by
  obtain ⟨hval, hb⟩ := scale2_rat n hd 0
  rw [zpow_zero, mul_one] at hval
  have ha : 0 < (scale2 n d 0).1 := Nat.mul_pos hn (Nat.two_pow_pos _)
  obtain ⟨hlo, -⟩ := floorLog2_spec ha hb
  unfold sqrtVal
  dsimp only
  generalize scale2 n d 0 = s at *
  generalize floorLog2 s.1 s.2 = k at *
  rw [← hval]
  have hsh : (160 : Int) - 2 * (k / 2) = 2 * (80 - k / 2) := by ring
  have hhalf : 2 * ((80 : Int) - k / 2) / 2 = 80 - k / 2 := by omega
  rw [hsh, hhalf]
  obtain ⟨hV, hb1⟩ := scale2_rat s.1 hb (2 * (80 - k / 2))
  generalize scale2 s.1 s.2 (2 * (80 - k / 2)) = y at *
  have hbig : (2 : Rat) ^ (160 : Int) ≤ y.1 / y.2 := by
    rw [hV]
    calc (2 : Rat) ^ (160 : Int) ≤ 2 ^ (k + 2 * (80 - k / 2)) := two_zpow_le.2 (by omega)
      _ ≤ _ := by rw [two_zpow_add]; exact mul_le_mul_of_nonneg_right hlo (two_zpow_pos _).le
  generalize (s.1 : Rat) / s.2 = v at *
  generalize (80 : Int) - k / 2 = h at *
  have hround := roundInt_rounds y.1 hb1 false 1
  obtain ⟨hr1, hr2⟩ := isqrt_spec (y.1 / y.2)
  have hr : 2 ^ 80 ≤ isqrt (y.1 / y.2) := by
    have hq : 2 ^ 160 < y.1 / y.2 + 1 := by
      have := hbig.trans_lt hround.lt
      rw [show (160 : Int) = (160 : Nat) from rfl, two_zpow_natCast] at this
      exact_mod_cast this
    by_contra hlt
    have : (isqrt (y.1 / y.2) + 1) * (isqrt (y.1 / y.2) + 1) ≤ 2 ^ 80 * 2 ^ 80 := Nat.mul_le_mul (by omega) (by omega)
    omega
  generalize isqrt (y.1 / y.2) = r at *
  have hsqle : (r : Rat) ^ 2 ≤ (y.1 / y.2 : Nat) := by rw [sq]; exact_mod_cast hr1
  have hsqlt : (y.1 : Rat) / y.2 < ((r : Rat) + 1) ^ 2 := by
    refine hround.lt.trans_le ?_
    rw [sq]
    exact_mod_cast hr2
  split
  · rename_i hexact
    obtain ⟨hrq, hrem⟩ := hexact
    refine ⟨r, -h, rfl, by omega, rootLike_of_sq ?_ ?_⟩
    · exact Val.rat_magnitude_nonneg ..
    · have hcast : (y.1 : Rat) / y.2 = (r : Rat) ^ 2 := by
        rw [← Nat.cast_div_charZero (Nat.dvd_of_mod_eq_zero hrem), ← hrq, sq, Nat.cast_mul]
      have hunit : (2 : Rat) ^ (2 * h) * ((2 : Rat) ^ (-h)) ^ 2 = 1 := by
        rw [sq, ← two_zpow_add, ← two_zpow_add, show 2 * h + (-h + -h) = 0 by ring, zpow_zero]
      have hrat : Val.rat (.fin false r 1 (-h)) = r * 2 ^ (-h) := by simp [Val.rat]
      rw [hrat, mul_pow, ← hcast, hV, mul_assoc, hunit, mul_one]
  · rename_i hne
    refine ⟨2 * r + 1, -h - 1, rfl, by omega, ?_⟩
    have hq : Val.rat (.fin false (2 * r + 1) 1 (-h - 1)) = ((2 * r + 1 : Nat) : Rat) * 2 ^ (-h - 1) := by simp [Val.rat]
    rw [hq]
    refine rootLike_half (by omega) ?_ (hV ▸ hsqlt)
    rw [← hV]
    refine lt_of_le_of_ne (hsqle.trans hround.le) fun heq => hne ?_
    have hint : ((y.1 / y.2 : Nat) : Rat) = y.1 / y.2 := le_antisymm hround.le (heq ▸ hsqle)
    refine ⟨?_, ?_⟩
    · rw [← hint, sq] at heq
      exact_mod_cast heq
    · by_contra hrem
      exact hround.inexact_iff.1 (by simp [roundInt, hrem]) hint

/-! The results that R195 names. -/
theorem specialFn_of_named {c fn a mode : Nat} (hfn : fn < 8) {r : Val} {fl : FFlags} (h : specialRule fn (val c a) = some (r, fl)) :
    specialFn c fn a mode = ((roundVal c r mode).1, fl) := by
  unfold specialFn
  dsimp only
  generalize val c a = x at h
  match x with
  | .nan s =>
    cases h
    rfl
  | .inf s =>
    interval_cases fn <;> cases s <;> cases h <;> rfl
  | .fin s 0 d e =>
    interval_cases fn <;> cases h <;> rfl
  | .fin s (n + 1) d e =>
    simp only [specialRule, Nat.add_one_ne_zero, if_false] at h
    split at h
    · rename_i hneg
      cases h
      obtain ⟨rfl, rfl | rfl | rfl⟩ := hneg <;> rfl
    · cases h

/-! Operands of which R195 names no result: nonzero numbers, positive for the roots and the logarithm. -/
theorem specialRule_none {fn : Nat} {x : Val} (h : specialRule fn x = none) :
    ∃ s n d e, x = .fin s (n + 1) d e ∧ (fn = 1 ∨ fn = 2 ∨ fn = 4 → s = false) := by
  match x with
  | .nan s => cases h
  | .inf s =>
    unfold specialRule at h
    dsimp only at h
    split at h <;> cases h
  | .fin s 0 d e =>
    simp only [specialRule, if_true] at h
    split at h <;> cases h
  | .fin s (n + 1) d e =>
    refine ⟨s, n, d, e, rfl, fun hfn => ?_⟩
    simp only [specialRule, Nat.add_one_ne_zero, if_false] at h
    cases s with
    | false => rfl
    | true => simp [hfn] at h
section
variable {c a mode n : Nat} {s : Bool} {e : Int}
/-- The operand as a fraction without an exponent. -/
theorem scale2_operand (n : Nat) (e : Int) : let p := scale2 (n + 1) 1 e
    0 < p.1 ∧ 0 < p.2 ∧ (p.1 : Rat) / p.2 = Val.rat (.fin false (n + 1) 1 e) := by
  obtain ⟨hval, hq⟩ := scale2_rat (n + 1) Nat.one_pos e
  have hrat : (((scale2 (n + 1) 1 e).1 : Nat) : Rat) / (scale2 (n + 1) 1 e).2 = Val.rat (.fin false (n + 1) 1 e) := by rw [hval]; simp [Val.rat]
  refine ⟨?_, hq, hrat⟩
  have hpos := Val.rat_magnitude_pos (Nat.succ_pos n) Nat.one_pos e
  rw [← hrat, div_pos_iff_of_pos_right (Nat.cast_pos.2 hq)] at hpos
  exact_mod_cast hpos
/-- 1/x (R195). -/
theorem specialFn_reciprocal (hv : val c a = .fin s (n + 1) 1 e) : ∃ n' d, 0 < n' ∧ 0 < d ∧
    Val.rat (.fin s n' d 0) = 1 / (val c a).rat ∧ specialFn c 0 a mode = roundVal c (.fin s n' d 0) mode := by
  obtain ⟨hp, hq, hrat⟩ := scale2_operand n e
  refine ⟨(scale2 (n + 1) 1 e).2, (scale2 (n + 1) 1 e).1, hq, hp, ?_, ?_⟩
  · rw [hv, Val.rat_fin, Val.rat_fin s (n + 1), ← hrat]
    cases s <;> simp [Val.rat, signOf]
  · unfold specialFn
    rw [hv]
    rfl
/-- 1/√x and √x (R195). -/
theorem specialFn_root (hv : val c a = .fin false (n + 1) 1 e) (inv : Bool) : ∃ m k, 0 < m ∧
    RootLike (Val.rat (.fin false m 1 k)) (if inv then 1 / (val c a).rat else (val c a).rat) ∧
    specialFn c (if inv then 1 else 2) a mode = roundVal c (.fin false m 1 k) mode := by
  obtain ⟨hp, hq, hrat⟩ := scale2_operand n e
  cases inv with
  | true =>
    obtain ⟨m, k, hsqrt, hm, hroot⟩ := sqrtVal_spec hq hp
    refine ⟨m, k, hm, ?_, ?_⟩
    · rw [if_pos rfl, hv, ← hrat, one_div_div]
      exact hroot
    · unfold specialFn
      rw [hv, ← hsqrt]
      rfl
  | false =>
    obtain ⟨m, k, hsqrt, hm, hroot⟩ := sqrtVal_spec hp hq
    refine ⟨m, k, hm, ?_, ?_⟩
    · rw [if_neg Bool.false_ne_true, hv, ← hrat]
      exact hroot
    · unfold specialFn
      rw [hv, ← hsqrt]
      rfl
/-- 2 to an integer (R195). -/
theorem specialFn_power (hv : val c a = .fin s (n + 1) 1 e) {k : Int} (hk : (val c a).rat = k) (hlo : -1024 < k) (hhi : k < 1024) :
    specialFn c 3 a mode = roundVal c (.fin false 1 1 k) mode := by
  obtain ⟨hp, hq, hrat⟩ := scale2_operand n e
  have habs : ((scale2 (n + 1) 1 e).1 : Rat) / (scale2 (n + 1) 1 e).2 = signedInt s k := by
    rw [hrat]
    rw [hv, Val.rat_fin] at hk
    cases s <;> simp [signOf, signedInt] at hk ⊢ <;> linarith
  have hspecial : specialFn c 3 a mode =
      let p := scale2 (n + 1) 1 e
      if p.1 % p.2 = 0 ∧ p.1 / p.2 < 1024 then roundVal c (.fin false 1 1 (signedInt s (p.1 / p.2 : Nat))) mode
      else if floorLog2 p.1 p.2 ≥ 9 then roundVal c (.fin false 3 1 (if s then -1024 else 1024)) mode
      else if floorLog2 p.1 p.2 < -40 then roundVal c (addFin false 1 1 0 s (n + 1) (2 * 1) e 0) mode
      else sfnRound c 3 mode s p.1 p.2 sfnPrecisions := by
    unfold specialFn
    rw [hv]
    rfl
  rw [hspecial]
  generalize scale2 (n + 1) 1 e = p at *
  have hmul : (p.1 : Int) = signedInt s k * p.2 := by
    rw [div_eq_iff (Nat.cast_pos.2 hq).ne'] at habs
    exact_mod_cast habs
  have hpos : 0 < signedInt s k := (pos_iff_pos_of_mul_pos (hmul ▸ Int.natCast_pos.2 hp)).2 (Int.natCast_pos.2 hq)
  obtain ⟨m, hm⟩ := Int.eq_ofNat_of_zero_le hpos.le
  have hpq : p.1 = m * p.2 := by rw [hm] at hmul; exact_mod_cast hmul
  have hlt : m < 1024 := by cases s <;> simp [signedInt] at hm <;> omega
  dsimp only
  rw [hpq, Nat.mul_mod_left, Nat.mul_div_cancel _ hq, if_pos ⟨rfl, hlt⟩]
  congr 2
  cases s <;> simp [signedInt] at hm ⊢ <;> omega
theorem floorLog2_eq {p q : Nat} (hp : 0 < p) (hq : 0 < q) {k : Int} (h : (p : Rat) / q = 2 ^ k) : floorLog2 p q = k := by
  obtain ⟨hlo, hhi⟩ := floorLog2_spec hp hq
  rw [h] at hlo hhi
  have h1 := two_zpow_le.1 hlo
  have h2 : ¬ floorLog2 p q + 1 ≤ k := fun hle => (two_zpow_le.2 hle).not_gt hhi
  omega
/-- The logarithm of a power of two (R195). -/
theorem specialFn_log (hv : val c a = .fin false (n + 1) 1 e) {k : Int} (hk : (val c a).rat = 2 ^ k) :
    specialFn c 4 a mode = roundVal c (.fin (k < 0) k.natAbs 1 0) mode := by
  obtain ⟨hp, hq, hrat⟩ := scale2_operand n e
  rw [← hv, hk] at hrat
  have hspecial : specialFn c 4 a mode =
      let p := scale2 (n + 1) 1 e
      let l := floorLog2 p.1 p.2
      let r := scale2 p.1 p.2 (-l)
      if r.1 = r.2 then roundVal c (.fin (l < 0) l.natAbs 1 0) mode else sfnRound c 4 mode false p.1 p.2 sfnPrecisions := by
    unfold specialFn
    rw [hv]
    rfl
  rw [hspecial]
  generalize scale2 (n + 1) 1 e = p at *
  obtain ⟨hval, hpos⟩ := scale2_rat p.1 hq (-k)
  have hone : (scale2 p.1 p.2 (-k)).1 = (scale2 p.1 p.2 (-k)).2 := by
    rw [hrat, ← two_zpow_add, add_neg_cancel, zpow_zero, div_eq_one_iff_eq (Nat.cast_pos.2 hpos).ne'] at hval
    exact_mod_cast hval
  dsimp only
  rw [floorLog2_eq hp hq hrat, if_pos hone]
/-- `VSFN` (R195). -/
theorem specialFn_spec {fn : Nat} (hc : c ∈ [8, 9, 10]) (hfn : fn < 8) : SpecialFunction c fn a mode (specialFn c fn a mode) := by
  refine ⟨fun r fl h => specialFn_of_named hfn h, fun h => ?_⟩
  obtain ⟨s, n, d, e, hv, hsign⟩ := specialRule_none h
  obtain rfl := val_den hv
  refine ⟨fun h0 => ?_, fun h1 => ?_, fun h2 => ?_, fun h3 k hk hlo hhi => ?_, fun h4 k hk hne => ?_, fun h4 hk => ?_⟩
  · obtain ⟨n', d, hn, hd, hrat, hy⟩ := specialFn_reciprocal (mode := mode) hv
    exact ⟨s, n', d, 0, hn, hd, hrat, h0 ▸ hy⟩
  · obtain rfl := hsign (.inl h1)
    obtain ⟨m, k, hm, hroot, hy⟩ := specialFn_root (mode := mode) hv true
    exact ⟨false, m, 1, k, hm, Nat.one_pos, hroot, h1 ▸ hy⟩
  · obtain rfl := hsign (.inr (.inl h2))
    obtain ⟨m, k, hm, hroot, hy⟩ := specialFn_root (mode := mode) hv false
    exact ⟨false, m, 1, k, hm, Nat.one_pos, hroot, h2 ▸ hy⟩
  · exact ⟨false, 1, 1, k, Nat.one_pos, Nat.one_pos, by simp [Val.rat], h3 ▸ specialFn_power hv hk hlo hhi⟩
  · obtain rfl := hsign (.inr (.inr h4))
    exact ⟨k < 0, k.natAbs, 1, 0, Int.natAbs_pos.2 hne, Nat.one_pos, Val.rat_ofInt k, h4 ▸ specialFn_log hv hk⟩
  · obtain rfl := hsign (.inr (.inr h4))
    rw [h4, specialFn_log (k := 0) hv (by rw [hk, zpow_zero])]
    simp only [List.mem_cons, List.not_mem_nil, or_false] at hc
    rcases hc with rfl | rfl | rfl <;> rfl
end
end Sys2Proof.Machine
end

section
/-! O33 itself: the special functions, the elements of a block, and the operations that write a field of the rows. -/
namespace Sys2Proof.Machine

/-- Settles O33: the special functions, the block elements, and the operations that write a field. -/
theorem windowFieldResult : Obligations.WindowFieldResult := by
  unfold Obligations.WindowFieldResult
  refine ⟨fun c hc fn a mode hfn _ => ?_, fun ef hef sc hsc el _ => ?_, fun s x w e rest h hquiet hq => ⟨fun dw sw sb sg f hf => ?_, fun hk => ?_,
    fun hk => ?_, fun hk => ?_, fun hk => ?_⟩⟩
  · exact specialFn_spec hc hfn
  · exact dequantise_spec (by simpa using hef) hsc el
  · obtain ⟨hdst, hwhole, ht, hwidth, hsigned, -⟩ := VEntry.layout_of_rule hf rfl
    have hrun := VEntry.run_rowwise hquiet h.clean hwhole
    rw [hdst, Option.elim, hwidth, hsigned] at hrun
    simp only [VEntry.fieldOf_rule hf rfl hq] at hrun
    exact h.rewrites ht hrun
  · obtain ⟨u, hexec, hran, hall⟩ := h.broadcasts hquiet (.inl hk)
    exact ⟨u, hexec, hran, by simpa only [hk, if_true] using hall⟩
  · obtain ⟨u, hexec, hran, hall⟩ := h.broadcasts hquiet (.inr hk)
    exact ⟨u, hexec, hran, by simpa only [hk, reduceCtorEq, if_false, vbciVal_eq] using hall⟩
  · exact h.selection hquiet hk
  · exact h.quantises hquiet hk

end Sys2Proof.Machine
end

section
/-! The exact sum of `VRFSUM` over the rationals, with its special cases and zero signs (06_associative.md R199). -/
namespace Sys2Proof.Machine

/-! Sums of finite values. -/
theorem two_zpow_sub_toNat {e k : Int} (h : k ≤ e) : ((2 : Rat) ^ (e - k).toNat) * 2 ^ k = 2 ^ e := by
  rw [← zpow_natCast, Int.toNat_of_nonneg (by omega), ← zpow_add₀ two_ne_zero]
  congr 1
  omega
/-- The numerator of a value's rational over a larger denominator and a lower exponent. -/
theorem Val.rat_rescale (s : Bool) (n : Nat) {d d' : Nat} (hd : 0 < d) (hd' : 0 < d') {e k : Int} (h : k ≤ e) :
    Val.rat (.fin s n d e) = (((if s then -1 else 1) * (n * 2 ^ (e - k).toNat * d' : Nat) : Int) : Rat) / ((d * d' : Nat) : Rat) * 2 ^ k := by
  have hd : (d : Rat) ≠ 0 := by positivity
  have hd' : (d' : Rat) ≠ 0 := by positivity
  rw [Val.rat, ← two_zpow_sub_toNat h]
  generalize (2 : Rat) ^ k = q
  cases s
  · simp only [Bool.false_eq_true, if_false]
    push_cast
    field_simp
  · simp only [if_true]
    push_cast
    field_simp
theorem Val.rat_ofInt_div (t : Int) (d : Nat) (e : Int) : Val.rat (.fin (t < 0) t.natAbs d e) = (t : Rat) / (d : Rat) * 2 ^ e := by
  rcases lt_or_ge t 0 with h | h
  · have : ((t.natAbs : Int) : Rat) = -(t : Rat) := by rw [Int.ofNat_natAbs_of_nonpos h.le, Int.cast_neg]
    simp only [Val.rat, h, decide_true, if_true]
    rw [show ((t.natAbs : Nat) : Rat) = -(t : Rat) from this]
    ring
  · have : ((t.natAbs : Int) : Rat) = (t : Rat) := by rw [Int.natAbs_of_nonneg h]
    simp only [Val.rat, h.not_gt, decide_false, Bool.false_eq_true, if_false]
    rw [show ((t.natAbs : Nat) : Rat) = (t : Rat) from this]
    ring
theorem addFin_spec (s1 : Bool) (n1 : Nat) {d1 : Nat} (e1 : Int) (s2 : Bool) (n2 : Nat) {d2 : Nat} (e2 : Int) (mode : Nat)
    (h1 : 0 < d1) (h2 : 0 < d2) :
    (addFin s1 n1 d1 e1 s2 n2 d2 e2 mode).isFin = true ∧ (addFin s1 n1 d1 e1 s2 n2 d2 e2 mode).Proper ∧
      (addFin s1 n1 d1 e1 s2 n2 d2 e2 mode).rat = Val.rat (.fin s1 n1 d1 e1) + Val.rat (.fin s2 n2 d2 e2) := by
  have hk1 : (if e1 ≤ e2 then e1 else e2) ≤ e1 := by split_ifs <;> omega
  have hk2 : (if e1 ≤ e2 then e1 else e2) ≤ e2 := by split_ifs <;> omega
  have hsum : Val.rat (.fin s1 n1 d1 e1) + Val.rat (.fin s2 n2 d2 e2) = _ :=
    congrArg₂ (· + ·) (Val.rat_rescale s1 n1 h1 h2 hk1) (Val.rat_rescale s2 n2 h2 h1 hk2)
  rw [Nat.mul_comm d2 d1, ← add_mul, ← add_div, ← Int.cast_add] at hsum
  unfold addFin
  dsimp only
  rw [hsum]
  generalize (if e1 ≤ e2 then e1 else e2) = k
  generalize (if s1 then -1 else 1) * ((n1 * 2 ^ (e1 - k).toNat * d2 : Nat) : Int) +
    (if s2 then -1 else 1) * ((n2 * 2 ^ (e2 - k).toNat * d1 : Nat) : Int) = t
  split_ifs with hzero hsame
  · exact ⟨rfl, Nat.one_pos, by rw [hzero, Val.rat_zero, Int.cast_zero, zero_div, zero_mul]⟩
  · exact ⟨rfl, Nat.one_pos, by rw [hzero, Val.rat_zero, Int.cast_zero, zero_div, zero_mul]⟩
  · exact ⟨rfl, Nat.mul_pos h1 h2, Val.rat_ofInt_div ..⟩
theorem vAdd_spec {x y : Val} (mode : Nat) (hx : x.isFin = true) (hy : y.isFin = true) (hpx : x.Proper) (hpy : y.Proper) :
    (vAdd x y mode).1.isFin = true ∧ (vAdd x y mode).1.Proper ∧ (vAdd x y mode).1.rat = x.rat + y.rat := by
  match x, y with
  | .fin s1 n1 d1 e1, .fin s2 n2 d2 e2 => exact addFin_spec s1 n1 e1 s2 n2 e2 mode hpx hpy
theorem foldl_vAdd_spec {xs : List Val} {z : Val} (hxs : ∀ x ∈ xs, x.isFin = true ∧ x.Proper) (hz : z.isFin = true) (hpz : z.Proper) :
    (xs.foldl (fun a x => (vAdd a x 0).1) z).isFin = true ∧ (xs.foldl (fun a x => (vAdd a x 0).1) z).Proper ∧
      (xs.foldl (fun a x => (vAdd a x 0).1) z).rat = z.rat + (xs.map Val.rat).sum := by
  induction xs generalizing z with
  | nil => exact ⟨hz, hpz, by simp⟩
  | cons x xs ih =>
    obtain ⟨hx, hpx⟩ := hxs x (List.mem_cons_self ..)
    obtain ⟨hfin, hproper, hrat⟩ := vAdd_spec 0 hz hx hpz hpx
    obtain ⟨hf, hp, hr⟩ := ih (fun y hy => hxs y (List.mem_cons_of_mem _ hy)) hfin hproper
    exact ⟨hf, hp, by rw [List.foldl_cons, hr, hrat, List.map_cons, List.sum_cons, add_assoc]⟩

/-! The exact sum. -/
section
variable {xs : List Val}
theorem any_eq_inf (s : Bool) : (xs.any (· == .inf s)) = xs.any fun y => y.isInf && y.sign == s := by
  refine congrArg xs.any (funext fun y => ?_)
  cases y with
  | inf t => cases s <;> cases t <;> decide
  | nan t => rfl
  | fin t n d e => rfl
/-- A finite sum: the exact sum, and the sign of a zero (R199). -/
theorem exactSum_finite (mode : Nat) (hxs : ∀ x ∈ xs, x.isFin = true ∧ x.Proper) :
    ∃ sg n d k, exactSum xs mode = (.fin sg n d k, 0) ∧ 0 < d ∧ Val.rat (.fin sg n d k) = (xs.map Val.rat).sum ∧
      (n = 0 → sg = (!xs.isEmpty && (xs.all (fun y => y.isZero && y.sign) || mode == 2))) := by
  have hnan : xs.any Val.isNan = false := List.any_eq_false.2 fun x hx => by
    obtain ⟨hf, -⟩ := hxs x hx
    cases x <;> simp_all [Val.isFin, Val.isNan]
  have hinf (s : Bool) : xs.any (· == .inf s) = false := List.any_eq_false.2 fun x hx h => by
    rw [beq_iff_eq.1 h] at hx
    exact Bool.false_ne_true (hxs _ hx).1
  obtain ⟨hfin, hproper, hrat⟩ := foldl_vAdd_spec (z := .fin false 0 1 0) hxs rfl Nat.one_pos
  rw [Val.rat_zero, zero_add] at hrat
  unfold exactSum
  simp only [hnan, hinf, Bool.false_eq_true, if_false, Bool.and_self]
  generalize xs.foldl (fun a x => (vAdd a x 0).1) (.fin false 0 1 0) = t at hfin hproper hrat
  match t with
  | .fin sg (n + 1) d k => exact ⟨sg, n + 1, d, k, rfl, hproper, hrat, fun h => by omega⟩
  | .fin sg 0 d k =>
    have hzero (s : Bool) : Val.rat (.fin s 0 1 0) = (xs.map Val.rat).sum := by rw [← hrat, Val.rat_zero, Val.rat_zero]
    by_cases he : xs.isEmpty = true
    · exact ⟨false, 0, 1, 0, if_pos he, Nat.one_pos, hzero _, fun _ => by rw [he]; rfl⟩
    · exact ⟨_, 0, 1, 0, if_neg he, Nat.one_pos, hzero _, fun _ => by rw [Bool.eq_false_iff.2 he, Bool.or_comm]; rfl⟩
theorem foldl_nv (xs : List Val) : xs.foldl (fun (f : FFlags) x => f ||| x.nv) 0 = if xs.any (fun y => y.nv == NV) then NV else 0 := by
  have hnv (y : Val) : y.nv = if y.nv == NV then NV else 0 := by
    match y with
    | .nan true | .nan false | .inf _ | .fin .. => rfl
  have hfold (b : Bool) : xs.foldl (fun (f : FFlags) x => f ||| x.nv) (if b then NV else 0) =
      if b || xs.any (fun y => y.nv == NV) then NV else 0 := by
    induction xs generalizing b with
    | nil => simp
    | cons x xs ih =>
      rw [List.foldl_cons, List.any_cons, ← Bool.or_assoc, ← ih, hnv x]
      congr 1
      cases b <;> cases x.nv == NV <;> decide
  exact hfold false
/-- A sum with a NaN or an infinity (R199). -/
theorem exactSum_special (mode : Nat) (h : xs.all Val.isFin = false) :
    exactSum xs mode =
      if xs.any Val.isNan then (.nan false, if xs.any (fun y => y.nv == NV) then NV else 0)
      else if xs.any (fun y => y.isInf && y.sign) = true ∧ xs.any (fun y => y.isInf && !y.sign) = true then (.nan false, NV)
      else (.inf (xs.any fun y => y.isInf && y.sign), 0) := by
  have hneg : xs.any (· == .inf true) = xs.any fun y => y.isInf && y.sign := by simp [any_eq_inf]
  have hpos : xs.any (· == .inf false) = xs.any fun y => y.isInf && !y.sign := by simp [any_eq_inf]
  unfold exactSum
  simp only [foldl_nv, hneg, hpos]
  cases hnan : xs.any Val.isNan with
  | true => rfl
  | false =>
    have hsome : (xs.any (fun y => y.isInf && y.sign) || xs.any fun y => y.isInf && !y.sign) = true := by
      obtain ⟨x, hx, hf⟩ := List.all_eq_false.1 h
      have hn := List.any_eq_false.1 hnan x hx
      rw [Bool.or_eq_true, List.any_eq_true, List.any_eq_true]
      match x with
      | .nan s => exact absurd rfl hn
      | .inf true => exact .inl ⟨_, hx, rfl⟩
      | .inf false => exact .inr ⟨_, hx, rfl⟩
      | .fin .. => exact absurd rfl hf
    cases hm : xs.any (fun y => y.isInf && y.sign) <;> cases hp : xs.any (fun y => y.isInf && !y.sign) <;> simp_all
end

theorem exactSum_special_proper (mode : Nat) {xs : List Val} (h : xs.all Val.isFin = false) : (exactSum xs mode).1.Proper := by
  rw [exactSum_special mode h]
  split_ifs <;> trivial

/-! Encodings of a sum. -/
/-- The formats of the set FPA (R61) have a NaN, infinities and a sign bit on top. -/
theorem exists_floatFormat_of_isFPA {m : Nat} (hm : isFPA m = true) : ∃ f ∈ floatFormats, f.code = m ∧ (canonicalNan f.code).isSome = true ∧
    (positiveInf f.code).isSome = true ∧ f.e + f.m = fmtWidth f.code - 1 := by
  have hm : m = 8 ∨ m = 9 ∨ m = 10 := by simpa [isFPA, or_assoc] using hm
  rcases hm with rfl | rfl | rfl <;> decide
/-- The result of a sum with a NaN or an infinity, as an encoding (R199). -/
theorem roundVal_exactSum_special {m : Nat} (hm : isFPA m = true) {xs : List Val} (mode : Nat) (h : xs.all Val.isFin = false) :
    ((roundVal m (exactSum xs mode).1 mode).1, (exactSum xs mode).2 ||| (roundVal m (exactSum xs mode).1 mode).2) =
      if xs.any Val.isNan = true then ((canonicalNan m).getD 0, if xs.any (fun y => y.nv == NV) then NV else 0)
      else if xs.any (fun y => y.isInf && y.sign) = true ∧ xs.any (fun y => y.isInf && !y.sign) = true then ((canonicalNan m).getD 0, NV)
      else ((positiveInf m).getD 0 + (if xs.any (fun y => y.isInf && y.sign) then 2 ^ (fmtWidth m - 1) else 0), 0) := by
  obtain ⟨f, hf, rfl, hnan, hinf, hw⟩ := exists_floatFormat_of_isFPA hm
  have ht := floatFormats_tabled hf
  obtain ⟨q, hq⟩ := Option.isSome_iff_exists.1 hnan
  obtain ⟨i, hi⟩ := Option.isSome_iff_exists.1 hinf
  rw [exactSum_special mode h]
  split_ifs
  all_goals simp [FloatFormat.roundVal_nan ht, FloatFormat.roundVal_inf ht, FloatFormat.withSign, Nat.add_comm, *]

end Sys2Proof.Machine
end

section
/-! The operations with a register result (06_associative.md R187, R189, R198, R199). -/
namespace Sys2Proof.Machine

theorem Map.at_del_same {α : Type} (m : Map α) (d : α) (k : Nat) : (m.del k).at d k = d := by
  induction m with
  | nil => rfl
  | cons e m ih =>
    obtain ⟨j, v⟩ := e
    by_cases h : j = k
    · simpa [Map.del, h] using ih
    · simpa [Map.del, h, Map.at, Map.find] using ih
theorem Map.at_del_other {α : Type} (m : Map α) (d : α) {k j : Nat} (h : j ≠ k) : (m.del k).at d j = m.at d j := by
  induction m with
  | nil => rfl
  | cons e m ih =>
    obtain ⟨i, v⟩ := e
    by_cases hk : i = k
    · subst hk
      simpa [Map.del, Map.at, Map.find, Ne.symm h] using ih
    · by_cases hj : i = j
      · subst hj
        simp [Map.del, Map.at, Map.find, hk]
      · simpa [Map.del, Map.at, Map.find, hk, hj] using ih
/-- Writing a row, where a row of zeros has no entry. -/
theorem Map.at_put_or_del (m : Map Row) (k : Nat) (row : Row) (j : Nat) :
    (if row = 0 then m.del k else m.put k row).at 0 j = if j = k then row else m.at 0 j := by
  by_cases hj : j = k
  · subst hj
    rw [if_pos rfl]
    split_ifs with hz
    · rw [Map.at_del_same, hz]
    · exact Map.at_put_same ..
  · rw [if_neg hj]
    split_ifs
    · exact Map.at_del_other _ _ hj
    · exact Map.at_put_other _ _ _ _ _ hj

theorem fmtWidth_le_64 (m : Nat) : fmtWidth m ≤ 64 := by
  unfold fmtWidth
  split
  pick_goal -1
  · split_ifs <;> omega
  all_goals decide
theorem widen_rule {m c : Nat} (hc : c < 2 ^ fmtWidth m) :
    widen m c = if m < 4 ∨ isNI m = true then ruleSext c (fmtWidth m) else wrapN c := by
  unfold widen
  rw [sextN_eq_ruleSext (fmtWidth_le_64 m), zextN, Nat.mod_eq_of_lt hc, isI_eq]
  simp [wrapN]

/-! Runs. -/
section
variable {e : VEntry} {v : Window} (hq : e.quiet = false) (hp : v.badPar = [])
include hq
theorem VEntry.run_vfrd (hk : e.op.kind = .vfrd) : e.run v = ⟨v, e.ga, 0, []⟩ := by
  unfold VEntry.run
  simp only [hq, hk, Bool.false_eq_true, if_false]
theorem VEntry.run_vtcount (hk : e.op.kind = .vtcount) : e.run v = ⟨v, wrapN (e.chosen v).length, 0, []⟩ := by
  unfold VEntry.run
  simp only [hq, hk, Bool.false_eq_true, if_false, VEntry.chosen_eq]
  rfl
theorem VEntry.run_vtany (hk : e.op.kind = .vtany) : e.run v = ⟨v, if e.chosen v = [] then 0 else 1, 0, []⟩ := by
  have hany : (if (v.all.any fun p => e.sel p.1 p.2) = true then (1 : W64) else 0) = if e.chosen v = [] then 0 else 1 := by
    have hiff : (v.all.any fun p => e.sel p.1 p.2) = true ↔ ¬ e.chosen v = [] := by
      rw [← VEntry.chosen_eq, List.filter_eq_nil_iff, List.any_eq_true]
      push Not
      rfl
    rw [if_congr hiff rfl rfl, ite_not]
  unfold VEntry.run
  simp only [hq, hk, Bool.false_eq_true, if_false, hany]
theorem VEntry.run_vput (hk : e.op.kind = .vput) : ∃ v', e.run v = ⟨v', 0, 0, []⟩ ∧ v'.fds = v.fds ∧ v'.ucode = v.ucode ∧
    ∀ r, v'.row r = if r = e.gb.toNat ∧ e.selects e.gb.toNat (v.row e.gb.toNat) then
      e.fd.set (fmtWidth e.op.m) (isI e.op.m) e.ga.toNat (v.row e.gb.toNat) else v.row r := by
  have hrun : e.run v = if e.selects e.gb.toNat (v.row e.gb.toNat) then
      ⟨{ v with rows := let row := e.fd.set (fmtWidth e.op.m) (isI e.op.m) e.ga.toNat (v.row e.gb.toNat)
        if row = 0 then v.rows.del e.gb.toNat else v.rows.put e.gb.toNat row }, 0, 0, []⟩ else ⟨v, 0, 0, []⟩ := by
    unfold VEntry.run
    simp only [hq, hk, Bool.false_eq_true, if_false]
    rfl
  rw [hrun]
  by_cases hs : e.selects e.gb.toNat (v.row e.gb.toNat) = true
  · rw [if_pos hs]
    exact ⟨_, rfl, rfl, rfl, fun r => (Map.at_put_or_del ..).trans (if_congr (by simp [hs]) rfl rfl)⟩
  · rw [if_neg hs]
    exact ⟨v, rfl, rfl, rfl, fun r => by simp [hs]⟩
include hp
theorem VEntry.run_vget (hk : e.op.kind = .vget) : e.run v = ⟨v, if e.selects e.gb.toNat (v.row e.gb.toNat) then
    widen e.op.m (e.fa.get (fmtWidth e.op.m) (v.row e.gb.toNat)) else 0, 0, []⟩ := by
  have hsrc : (((vSrcs e.op e.fa.width).find? fun q => q.1 == 1).map Prod.snd).getD 0 = fmtWidth e.op.m := by simp [vSrcs, hk]
  have hrun : e.run v = if e.selects e.gb.toNat (v.row e.gb.toNat) then
      ⟨v, widen e.op.m (e.fa.get (fmtWidth e.op.m) (v.row e.gb.toNat)), 0, []⟩ else ⟨v, 0, 0, []⟩ := by
    unfold VEntry.run
    simp only [hq, hk, hsrc, v.failing_of_clean hp, Bool.false_eq_true, if_false]
    rfl
  rw [hrun]
  split <;> rfl
theorem VEntry.run_vrsum (hk : e.op.kind = .vrsum) :
    e.run v = ⟨v, wrapI (((e.chosen v).map fun p => intVal e.op.m (e.fa.get (fmtWidth e.op.m) p.2)).foldl (· + ·) 0), 0, []⟩ := by
  have hsrc : (((vSrcs e.op e.fa.width).find? fun q => q.1 == 1).map Prod.snd).getD 0 = fmtWidth e.op.m := by simp [vSrcs, hk]
  unfold VEntry.run
  simp only [hq, v.failures_of_clean hp, List.any_nil, Bool.not_false, Bool.and_true, Bool.false_eq_true, if_false, hk, hsrc, VEntry.chosen_eq]
  rfl
theorem VEntry.run_vrfsum (hk : e.op.kind = .vrfsum) : e.run v =
    let z := exactSum ((e.chosen v).map fun p => val e.op.m (e.fa.get (fmtWidth e.op.m) p.2)) e.round.toNat
    let y := roundVal e.op.m z.1 e.round.toNat
    ⟨v, widen e.op.m y.1, z.2 ||| y.2, []⟩ := by
  have hsrc : (((vSrcs e.op e.fa.width).find? fun q => q.1 == 1).map Prod.snd).getD 0 = fmtWidth e.op.m := by simp [vSrcs, hk]
  unfold VEntry.run
  simp only [hq, v.failures_of_clean hp, List.any_nil, Bool.not_false, Bool.and_true, Bool.false_eq_true, if_false, hk, hsrc, VEntry.chosen_eq]
end

/-! Starts. -/
section
variable {s : State} {x w : Nat} {e : VEntry} {rest : List VEntry} (h : s.Starts x w e rest)
include h
/-- An operation that leaves the rows and raises no flags. -/
theorem State.Starts.registers (hk : isTransfer e.op.kind = false) {g : W64} (hrun : e.run ((s.tile x).win w) = ⟨(s.tile x).win w, g, 0, []⟩) :
    ∃ u, Machine.exec (.vopStart x w) s = .next u ∧ s.Ran u x w e rest g (fun r row => if e.selects r row then 0 else 0) ∧
      ((u.tile x).win w).rows = ((s.tile x).win w).rows := h.ran hk hrun rfl rfl (by simp)
/-- `VRFSUM`: the sum rounded once, with the flags of both (R199). -/
theorem State.Starts.sums (hquiet : e.quiet = false) (hk : e.op.kind = .vrfsum) (hm : isFPA e.op.m = true) {z : Val} {fl : FFlags}
    (hsum : exactSum ((e.chosen ((s.tile x).win w)).map fun p => val e.op.m (e.fa.get (fmtWidth e.op.m) p.2)) e.round.toNat = (z, fl))
    (hz : z.Proper) :
    ∃ u b, Machine.exec (.vopStart x w) s = .next u ∧ ((u.tile x).win w).rows = ((s.tile x).win w).rows ∧ ((u.tile x).win w).busy = some b ∧
      b.result = some (wrapN (roundVal e.op.m z e.round.toNat).1) ∧ b.flags = fl ||| (roundVal e.op.m z e.round.toNat).2 := by
  have hrun := VEntry.run_vrfsum hquiet h.clean hk
  rw [hsum] at hrun
  obtain ⟨u, c, hexec, hwin, -⟩ := h.start (by rw [hk]; rfl) hrun
  have hlt : (roundVal e.op.m z e.round.toNat).1 < 2 ^ fmtWidth e.op.m := by
    obtain ⟨f, hf, hcode, -⟩ := exists_floatFormat_of_isFPA hm
    rw [← hcode]
    refine FloatFormat.roundVal_lt hf (fun s n d k heq => ?_) (by omega)
    rw [heq] at hz
    exact hz
  have hwide : widen e.op.m (roundVal e.op.m z e.round.toNat).1 = wrapN (roundVal e.op.m z e.round.toNat).1 := by
    rw [widen_rule hlt, if_neg]
    have hm : e.op.m = 8 ∨ e.op.m = 9 ∨ e.op.m = 10 := by simpa [isFPA, or_assoc] using hm
    rcases hm with hm | hm | hm <;> rw [hm] <;> decide
  exact ⟨u, _, hexec, by rw [hwin], by rw [hwin], congrArg some hwide, rfl⟩
/-- The two clauses of R199: finite elements, and a NaN or an infinity among them. -/
theorem State.Starts.sums_rule (hquiet : e.quiet = false) (hk : e.op.kind = .vrfsum) (hm : isFPA e.op.m = true) :
    let v := (s.tile x).win w
    let xs := (e.chosen v).map fun p => val e.op.m (e.fa.get (fmtWidth e.op.m) p.2)
    (xs.all Val.isFin = true → ∃ sg n d k, 0 < d ∧ Val.rat (.fin sg n d k) = (xs.map Val.rat).foldr (· + ·) 0 ∧
      (n = 0 → sg = (!xs.isEmpty && (xs.all (fun y => y.isZero && y.sign) || e.round == 2))) ∧
      let y := roundVal e.op.m (.fin sg n d k) e.round.toNat
      ∃ u b, Machine.exec (.vopStart x w) s = .next u ∧ ((u.tile x).win w).rows = v.rows ∧ ((u.tile x).win w).busy = some b ∧
        b.result = some (wrapN y.1) ∧ b.flags = y.2) ∧
    (∀ g fl, (g, fl) = (if xs.any Val.isNan = true then ((canonicalNan e.op.m).getD 0, if xs.any (fun y => y.nv == NV) then NV else 0)
        else if xs.any (fun y => y.isInf && y.sign) = true ∧ xs.any (fun y => y.isInf && !y.sign) = true then ((canonicalNan e.op.m).getD 0, NV)
        else ((positiveInf e.op.m).getD 0 + (if xs.any (fun y => y.isInf && y.sign) then 2 ^ (fmtWidth e.op.m - 1) else 0), 0)) →
      xs.all Val.isFin = false → ∃ u b, Machine.exec (.vopStart x w) s = .next u ∧ ((u.tile x).win w).rows = v.rows ∧
        ((u.tile x).win w).busy = some b ∧ b.result = some (wrapN g) ∧ b.flags = fl) := by
  intro v xs
  refine ⟨fun hfin => ?_, fun g fl hg hspecial => ?_⟩
  · have hxs : ∀ y ∈ xs, y.isFin = true ∧ y.Proper := fun y hy => by
      refine ⟨List.all_eq_true.1 hfin _ hy, ?_⟩
      obtain ⟨p, -, rfl⟩ := List.mem_map.1 hy
      exact val_proper ..
    obtain ⟨sg, n, d, k, hexact, hd, hrat, hzero⟩ := exactSum_finite e.round.toNat hxs
    obtain ⟨u, b, hexec, hrows, hb, hresult, hflags⟩ := h.sums hquiet hk hm hexact hd
    have hmode : ∀ r : BitVec 2, (r.toNat == 2) = (r == 2) := by decide
    refine ⟨sg, n, d, k, hd, hrat.trans List.sum_eq_foldr, fun hn => ?_, u, b, hexec, hrows, hb, hresult, hflags.trans BitVec.zero_or⟩
    exact hmode e.round ▸ hzero hn
  · obtain ⟨hresult, hflags⟩ := Prod.mk.inj (hg.trans (roundVal_exactSum_special hm e.round.toNat hspecial).symm)
    rw [hresult, hflags]
    exact h.sums hquiet hk hm rfl (exactSum_special_proper _ hspecial)
end

end Sys2Proof.Machine
end

section
/-! The completion of a V operation (06_associative.md R167), and O35 itself. -/
namespace Sys2Proof.Machine

/-! The thread with a context number, resident or spilled. -/
theorem Tile.spilled_mapSpills (l : Tile) (c : Nat) {f : Spilled → Spilled} (hf : ∀ e, (f e).thr.cid = e.thr.cid) :
    Tile.spilled { l with spills := l.spills.map f } c = (l.spilled c).map f := by
  unfold Tile.spilled
  rw [List.find?_map]
  refine congrArg (fun p => (l.spills.find? p).map f) (funext fun e => ?_)
  exact congrArg (· == c) (hf e)
theorem Tile.cid_of_spilled {l : Tile} {c : Nat} {e : Spilled} (h : l.spilled c = some e) : e.thr.cid = c := by
  simpa using List.find?_some h
theorem Tile.thread_modCid (l : Tile) (cid : Nat) {f : Thread → Thread} (hf : ∀ t, (f t).cid = t.cid) :
    (l.modCid cid f).thread cid = (l.thread cid).map f := by
  unfold Tile.thread
  rw [Tile.slotOf_modCid l cid hf]
  cases hq : l.slotOf cid with
  | some q =>
    obtain ⟨hlt, th, hth, hcid⟩ := Tile.slotOf_some hq
    dsimp only
    rw [Tile.slot_modCid l cid f hth hcid hlt, hth, Option.map_some]
  | none =>
    have hmap : (l.modCid cid f).spilled cid = (l.spilled cid).map fun e => if e.thr.cid = cid then { e with thr := f e.thr } else e :=
      l.spilled_mapSpills cid fun e => by split <;> simp [hf]
    dsimp only
    rw [hmap]
    cases he : l.spilled cid with
    | none => rfl
    | some e => exact congrArg (fun e : Spilled => some e.thr) (if_pos (Tile.cid_of_spilled he))
theorem Tile.thread_ageSpills (l : Tile) (cid : Nat) : l.ageSpills.thread cid = l.thread cid := by
  have hslot : l.ageSpills.slotOf cid = l.slotOf cid := Tile.slotOf_congr (fun q _ => by rw [Tile.slot_ageSpills]) cid
  have hspilled : (l.ageSpills.spilled cid).map Spilled.thr = (l.spilled cid).map Spilled.thr := by
    unfold Tile.ageSpills
    dsimp only
    split
    · rw [Tile.spilled_mapSpills l cid fun e => by split <;> rfl, Option.map_map]
      refine congrArg (fun f => (l.spilled cid).map f) (funext fun e => ?_)
      dsimp only [Function.comp_apply]
      split <;> rfl
    · rfl
  unfold Tile.thread
  simp only [hslot, Tile.slot_ageSpills, hspilled]

/-! The result of an operation at its thread. -/
theorem filter_bne {α : Type} [BEq α] [LawfulBEq α] [DecidableEq α] (l : List α) (a : α) : l.filter (· != a) = l.filter (· ≠ a) :=
  List.filter_congr fun _ _ => Bool.eq_iff_iff.2 (bne_iff_ne.trans decide_eq_true_iff.symm)
theorem Thread.rd_land (t : Thread) (op : Nat) (d r : Reg) (v : W64) :
    (t.land op d v).rd r = if r = d ∧ r ≠ 0 ∧ (d, op) ∈ t.pend then v else t.rd r := by
  unfold Thread.land
  by_cases hp : (d, op) ∈ t.pend
  · rw [if_pos (List.contains_iff_mem.2 hp)]
    refine (Thread.rd_wr t r d v).trans ?_
    by_cases hr : r = 0
    · subst hr
      simp [Thread.rd]
    · simp only [hr, hp, if_false, ne_eq, not_false_eq_true, and_true]
  · rw [if_neg (mt List.contains_iff_mem.1 hp)]
    simp only [hp, and_false, if_false]
    rfl
theorem Thread.land_pend (t : Thread) (op : Nat) (d : Reg) (v : W64) : (t.land op d v).pend = t.pend.filter (· ≠ (d, op)) := by
  unfold Thread.land
  split
  · exact filter_bne ..
  · rename_i hp
    refine (List.filter_eq_self.2 fun p hmem => ?_).symm
    exact decide_eq_true fun heq => hp (List.contains_iff_mem.2 (heq ▸ hmem))
theorem Thread.land_outs (t : Thread) (op : Nat) (d : Reg) (v : W64) : (t.land op d v).outs = t.outs.filter (· ≠ op) := by
  unfold Thread.land
  split
  · exact (congrArg (List.filter (· != op)) (Thread.wr_outs ..)).trans (filter_bne ..)
  · exact filter_bne ..

/-! The event. -/
theorem Tile.ageSpills_win (l : Tile) (w : Nat) : l.ageSpills.win w = l.win w := by
  obtain ⟨v, hv⟩ := l.ageSpills_eq
  rw [hv]
  rfl
theorem Tile.ageSpills_turner (l : Tile) : l.ageSpills.turner = l.turner := by
  obtain ⟨v, hv⟩ := l.ageSpills_eq
  rw [hv]
theorem filter_fst_bne (l : List (Nat × Nat)) (a : Nat) : l.filter (·.1 != a) = l.filter (fun e => e.1 ≠ a) :=
  List.filter_congr fun _ _ => Bool.eq_iff_iff.2 (bne_iff_ne.trans decide_eq_true_iff.symm)
theorem State.vopComplete_of_busy {s : State} {x w : Nat} {b : VBusy} (hb : ((s.tile x).win w).busy = some b) (hserved : b.served = true)
    (hdue : b.due ≤ s.cycleOf x) (hmx : b.e.mx = none) : s.vopComplete x w =
      ((s.modTile x fun t => { (t.setWin w { t.win w with busy := none }) with turner := t.turner.filter (·.1 != w) }).modCid x b.e.cid
        fun t => t.orFlags b.flags).land x b.e.cid b.e.id ((vGDst b.e.op).getD 0) (b.result.getD 0) := by
  unfold State.vopComplete
  simp only [hb, hserved, hdue.not_gt, hmx, Bool.not_true, decide_false, Bool.or_false, Bool.false_eq_true, if_false, Option.isSome_none]
/-- What of the tile and of the thread a completion leaves (R167). -/
theorem State.vopComplete_spec {s : State} {x w : Nat} {b : VBusy} {th : Thread} (hs : s.stopped = false) (hw : w < 4)
    (hb : ((s.tile x).win w).busy = some b) (hserved : b.served = true) (hdue : b.due ≤ s.cycleOf x) (hmx : b.e.mx = none)
    (hth : (s.tile x).thread b.e.cid = some th) (hwait : th.wait ≠ .tuple b.e.id) :
    ∃ u, Machine.exec (.vopComplete x w) s = .next u ∧ (u.tile x).win w = { (s.tile x).win w with busy := none } ∧
      (u.tile x).turner = (s.tile x).turner.filter (fun e => e.1 ≠ w) ∧
      (u.tile x).thread b.e.cid = some ((th.orFlags b.flags).land b.e.id ((vGDst b.e.op).getD 0) (b.result.getD 0)) := by
  refine ⟨s.vopComplete x w, State.event_next hs fun s => s.vopComplete x w, ?_⟩
  rw [State.vopComplete_of_busy hb hserved hdue hmx, State.tile_land, State.tile_modCid, State.tile_modTile]
  refine ⟨?_, ?_, ?_⟩
  · exact (Tile.ageSpills_win ..).trans (Tile.win_setWin _ hw)
  · exact (Tile.ageSpills_turner _).trans (filter_fst_bne ..)
  · rw [Tile.thread_ageSpills, Tile.thread_modCid _ _ fun t => t.landed_cid .., Tile.thread_modCid (f := fun t => t.orFlags b.flags) _ _ fun _ => rfl]
    have hsame : Tile.thread { (s.tile x).setWin w { (s.tile x).win w with busy := none } with
        turner := (s.tile x).turner.filter (·.1 != w) } b.e.cid = some th := hth
    rw [hsame, Option.map_some, Option.map_some]
    exact congrArg some (Thread.landed_of_ne _ _ _ hwait)

/-! The obligation. -/
/-- Settles O35: each operation's run, the sum of R199 over the rationals, and the completion at a thread resident or spilled. -/
theorem windowRegisterResult : Obligations.WindowRegisterResult := by
  unfold Obligations.WindowRegisterResult
  refine ⟨fun s x w e rest h hquiet hq => ?_, fun s x w b th d hs hw hb hserved hdue hmx hd hth hwait => ?_⟩
  · intro v m wd chosen q wide done
    have hdone {g : W64} (hk : isTransfer e.op.kind = false) (hrun : e.run v = ⟨v, g, 0, []⟩) : done g fun _ _ => 0 := h.registers hk hrun
    refine ⟨fun hk => ?_, fun hk => ?_, fun hk => ?_, fun hk => ?_, fun hk => ?_, fun hk hm => ?_, fun hk => ?_⟩
    · exact hdone (by rw [hk]; rfl) (VEntry.run_vfrd hquiet hk)
    · exact hdone (by rw [hk]; rfl) (VEntry.run_vtcount hquiet hk)
    · exact hdone (by rw [hk]; rfl) (VEntry.run_vtany hquiet hk)
    · have hrun := VEntry.run_vget hquiet h.clean hk
      rw [widen_rule (FieldDesc.get_lt ..)] at hrun
      exact hdone (by rw [hk]; rfl) hrun
    · have hrun := VEntry.run_vrsum hquiet h.clean hk
      have hm : m < 8 := by
        have hfmt := vFmtOk_of_not_quiet hq
        rw [vFmtOk, hk] at hfmt
        exact (isInt_iff m).1 hfmt
      rw [List.map_congr_left fun p _ => intVal_eq_ruleInt hm (FieldDesc.get_lt ..), ← List.sum_eq_foldl, List.sum_eq_foldr] at hrun
      exact hdone (by rw [hk]; rfl) hrun
    · exact h.sums_rule hquiet hk hm
    · obtain ⟨v', hrun, hfds, hucode, hrows⟩ := VEntry.run_vput hquiet hk
      obtain ⟨u, hexec, hran, hu⟩ := h.ran (fl := fun _ _ => 0) (by rw [hk]; rfl) hrun hfds hucode (fun k => by simp)
      refine ⟨u, hexec, hran, fun r => ?_⟩
      rw [FieldDesc.set_mod]
      exact (congrArg (Map.at · 0 r) hu).trans (hrows r)
  · subst hd
    obtain ⟨u, hexec, hwin, hturner, hthread⟩ := State.vopComplete_spec hs hw hb hserved hdue hmx hth hwait
    refine ⟨u, _, hexec, hwin, hturner, hthread, ?_, Thread.land_outs .., Thread.land_pend .., fun r => Thread.rd_land .., ?_⟩
    · obtain ⟨_, _, _, hland⟩ := (th.orFlags b.flags).land_eq b.e.id ((vGDst b.e.op).getD 0) (b.result.getD 0)
      rw [hland]
      rfl
    · obtain ⟨_, _, _, hland⟩ := (th.orFlags b.flags).land_eq b.e.id ((vGDst b.e.op).getD 0) (b.result.getD 0)
      rw [hland]
      rfl

end Sys2Proof.Machine
end

section
/-! O36 fails at a `VLDR` or `VSTR` without a shape record: the model's product of no extents is 1, so row 0 is mapped, which R183 gives to
a record of four extents only. -/
namespace Sys2Proof.Machine

/-- A `VLDR` of a byte format at address 0 with active length 1, every row below it selected, and no shape record. -/
def shapeless : VEntry := ⟨0, 0, ⟨.vldr, 0, 0, 0, 0, false, 0, 0⟩, ⟨0, 8⟩, {}, {}, 1, 0, 0, 0, [], false, false, none⟩
/-- Window 0 of tile 0 waits with it for the corner turner; the byte at address 0 is 1. -/
def shapelessTile : Tile := { sp := [(0, 1)], turner := [(0, 0)], wins := Vector.replicate 4 { busy := some ⟨shapeless, none, 0, false, 0⟩ } }
def shapelessState : State := { tiles := [(0, shapelessTile)], dies := Vector.replicate 4 { cycle := 1 } }
theorem shapelessTile_stat (k : Nat) : shapelessTile.stat k = false := rfl
/-- The rule maps no row of it. -/
theorem ruleIndexOf_shapeless (r : Nat) : ruleIndexOf shapeless r = none := rfl
/-- The model maps row 0 and writes the byte there. -/
theorem row_transferStart_shapeless : (((shapelessState.transferStart 0 0).tile 0).win 0).row 0 ≠ ((shapelessState.tile 0).win 0).row 0 := by
  decide +kernel

/-- Refutes O36: its entry may be a `VLDR` with no shape record, for which the model maps row 0 and the rule no row. (Every `VLDR` that a
thread issues carries the four dimensions of R183; the statement does not ask for them.) -/
theorem not_windowTransfers : ¬ Obligations.WindowTransfers := by
  unfold Obligations.WindowTransfers
  intro h
  obtain ⟨hload, -⟩ := h shapelessState 0 0 0 ⟨shapeless, none, 0, false, 0⟩ [] rfl (by decide) rfl (by decide +kernel) rfl rfl rfl rfl rfl
    (by decide +kernel) shapelessTile_stat
  obtain ⟨u, hexec, -, -, hkeep, -⟩ := hload (by decide)
  obtain rfl : shapelessState.transferStart 0 0 = u := Host.Outcome.next.inj hexec
  have hunmapped : ∀ i : Int, ¬ (0 < shapeless.vl ∧ shapeless.selects 0 (((shapelessState.tile 0).win 0).row 0) = true ∧
      ruleIndexOf shapeless 0 = some i) := fun i hi => by
    rw [ruleIndexOf_shapeless] at hi
    exact nomatch hi.2.2
  exact row_transferStart_shapeless (hkeep 0 hunmapped)

end Sys2Proof.Machine
end
